-- ==== Sys2Proof/Word.lean ====
section
/-! DEFINITION. The word types of Harfell (R5, R206): everything is little-endian and bit 0 is the
least significant bit. -/

namespace Sys2Proof

/-- One byte. -/
abbrev Byte := BitVec 8
/-- A 32-bit register or memory word (R206). -/
abbrev Word := BitVec 32
/-- A 64-bit value: an s-register, a register pair or an address operand (R206). -/
abbrev DWord := BitVec 64

/-- The 32-bit word that is all ones or all zeros (R206: ONES, ZERO). -/
def boolWord (b : Bool) : Word := if b then 1 else 0

/-- Field `x[h:l]` of R5, as a number. -/
def bits (x h l : Nat) : Nat := (x >>> l) % 2 ^ (h + 1 - l)

/-- Bit `i` of a number. -/
def bit (x i : Nat) : Bool := x.testBit i

end Sys2Proof
end

