-- ==== Sys2Proof/Machine/Float.lean ====
section
/-! DEFINITION. Element formats, RoundToFormat and the floating-point operations (R217 to R225, R233 to R235,
R255 to R259). Values are exact: a numeral `m × 2^e` and a mark that says some positive part below one unit of
`m` was cut off. -/

namespace Sys2Proof.Machine

/-! ## Exact values -/

/-- A value of any element format. `num neg m e cut` is ±(m + δ) × 2^e, with 0 < δ < 1 when `cut` and δ = 0
otherwise; zeros keep their sign. -/
inductive Val where
  | nan
  | inf (neg : Bool)
  | num (neg : Bool) (m : Nat) (e : Int) (cut : Bool)
deriving DecidableEq, Repr, Inhabited

/-- Number of bits of a number. -/
def bitLen (n : Nat) : Nat := if n = 0 then 0 else n.log2 + 1

/-- An exact integer. -/
def Val.ofInt (x : Int) : Val := .num (x < 0) x.natAbs 0 false

/-- The value is a NaN. -/
def Val.isNan : Val → Bool
  | .nan => true
  | _ => false

/-- The value is an infinity. -/
def Val.isInf : Val → Bool
  | .inf _ => true
  | _ => false

/-- The sign bit. -/
def Val.neg : Val → Bool
  | .nan => false
  | .inf n => n
  | .num n _ _ _ => n

/-- The value is a zero. -/
def Val.isZero : Val → Bool
  | .num _ m _ cut => m == 0 && !cut
  | _ => false

/-- The value with its sign changed. -/
def Val.negate : Val → Val
  | .nan => .nan
  | .inf n => .inf (!n)
  | .num n m e cut => .num (!n) m e cut

/-- The value times 2^k. -/
def Val.scale (v : Val) (k : Int) : Val :=
  match v with
  | .num n m e cut => .num n m (e + k) cut
  | _ => v

/-- The exponent of an exact numeral, if it is not zero. -/
def Val.low : Val → Option Int
  | .num _ m e _ => if m = 0 then none else some e
  | _ => none

/-- An exact numeral as an integer in units of 2^b, for b at most its exponent. -/
def Val.units (v : Val) (b : Int) : Int :=
  match v with
  | .num n m e _ => let x : Int := (m * 2 ^ (e - b).toNat : Nat); if n then -x else x
  | _ => 0

/-- The least exponent among the values, 0 when all are zero. -/
def lowest (vs : List Val) : Int :=
  match vs.filterMap Val.low with
  | [] => 0
  | e :: es => es.foldl min e

/-- The numeric order of two exact values, NaN aside. −0 and +0 are equal. -/
def Val.cmp (x y : Val) : Ordering :=
  match x, y with
  | .inf a, .inf b => compare (!a).toNat (!b).toNat
  | .inf a, _ => if a then .lt else .gt
  | _, .inf b => if b then .gt else .lt
  | _, _ => let b := lowest [x, y]; compare (x.units b) (y.units b)

/-! ## Formats (R217, R218, R220, R227, R233) -/

/-- A binary floating-point format. `full` says that the all-ones exponent holds values (e4m3). -/
structure Fmt where
  ebits : Nat
  fbits : Nat
  full : Bool
deriving DecidableEq, Repr, Inhabited

/-- The float format of an ETYPE (R227). -/
def fmtOf (t : Nat) : Fmt :=
  match t with
  | 0x10 => ⟨5, 10, false⟩
  | 0x11 => ⟨8, 7, false⟩
  | 0x12 => ⟨8, 23, false⟩
  | 0x13 => ⟨11, 52, false⟩
  | 0x14 => ⟨4, 3, true⟩
  | 0x15 => ⟨5, 2, false⟩
  | _ => ⟨15, 64, false⟩

/-- Exponent bias: 15, 127, 127, 1023, 7, 15 and 16383. -/
def Fmt.bias (f : Fmt) : Int := 2 ^ (f.ebits - 1) - 1
/-- The all-ones exponent. -/
def Fmt.top (f : Fmt) : Nat := 2 ^ f.ebits - 1
/-- Bits of the format. -/
def Fmt.width (f : Fmt) : Nat := 1 + f.ebits + f.fbits
/-- The exponent of the unit of the subnormals. -/
def Fmt.minExp (f : Fmt) : Int := 1 - f.bias - f.fbits
/-- The sign in its place. -/
def Fmt.signBit (f : Fmt) (neg : Bool) : Nat := if neg then 2 ^ (f.ebits + f.fbits) else 0
/-- The canonical NaN (R218, R220, R233): fraction with only its top bit set; 0x7F for e4m3. -/
def Fmt.nanCode (f : Fmt) : Nat := if f.full then 0x7F else f.top * 2 ^ f.fbits + 2 ^ (f.fbits - 1)
/-- The largest finite magnitude. -/
def Fmt.maxCode (f : Fmt) : Nat := if f.full then 0x7E else f.top * 2 ^ f.fbits - 1

/-- The value of an encoding (R218 to R220, R233). -/
def Fmt.value (f : Fmt) (x : Nat) : Val :=
  let neg := bit x (f.ebits + f.fbits)
  let e := bits x (f.ebits + f.fbits - 1) f.fbits
  let m := x % 2 ^ f.fbits
  if e = 0 then .num neg m f.minExp false
  else if e = f.top ∧ f.full = false then if m = 0 then .inf neg else .nan
  else if e = f.top ∧ m = 2 ^ f.fbits - 1 then .nan
  else .num neg (2 ^ f.fbits + m) (f.minExp + (e - 1 : Nat)) false

/-- Width in bits of an integer type and whether it is signed (R217, R227). -/
def intWidth (t : Nat) : Nat := 8 * 2 ^ ((t - 1) % 4)
/-- i8, i16, i32 and i64. -/
def intSigned (t : Nat) : Bool := t ≤ 4

/-- The two's-complement value of the low `n` bits. -/
def signedOf (n x : Nat) : Int :=
  if x % 2 ^ n < 2 ^ (n - 1) then (x % 2 ^ n : Nat) else (x % 2 ^ n : Nat) - 2 ^ n

/-- The low `n` bits of an integer. -/
def wrapInt (n : Nat) (x : Int) : Nat := (x % 2 ^ n).toNat

/-- The value of an element of type `t`: an integer, a float or a80 (R227, R260). -/
def valueOf (t x : Nat) : Val :=
  if 1 ≤ t ∧ t ≤ 8 then
    if intSigned t then .ofInt (signedOf (intWidth t) x) else .ofInt (x % 2 ^ intWidth t : Nat)
  else (fmtOf t).value (x % 2 ^ (fmtOf t).width)

/-! ## Rounding (R225) -/

/-- Whether the kept part moves away from zero. RND 0 nearest-even, 1 toward zero, 2 up, 3 down. -/
def roundsUp (rnd : Nat) (neg odd above tie inexact : Bool) : Bool :=
  match rnd with
  | 0 => above || (tie && odd)
  | 1 => false
  | 2 => inexact && !neg
  | _ => inexact && neg

/-- A numeral rounded to a multiple of 2^t, in units of 2^t. -/
def roundAt (neg : Bool) (m : Nat) (e : Int) (cut : Bool) (t : Int) (rnd : Nat) : Nat :=
  if t ≤ e then m * 2 ^ (e - t).toNat
  else
    let sh := (t - e).toNat
    if bitLen m + 1 < sh then
      if roundsUp rnd neg false false false (m != 0 || cut) then 1 else 0
    else
      let r := m % 2 ^ sh
      let h := 2 ^ (sh - 1)
      let q := m / 2 ^ sh
      if roundsUp rnd neg (q % 2 == 1) (h < r || (r == h && cut)) (r == h && !cut) (r != 0 || cut) then q + 1 else q

/-- RoundToInteger, sign aside (R225). -/
def roundInt (v : Val) (rnd : Nat) : Int :=
  match v with
  | .num n m e cut => let x : Int := roundAt n m e cut 0 rnd; if n then -x else x
  | _ => 0

/-- The integer clamped to the type's range, as its bits (R225). -/
def clampInt (t : Nat) (x : Int) : Nat :=
  let n := intWidth t
  let lo : Int := if intSigned t then -(2 ^ (n - 1)) else 0
  let hi : Int := if intSigned t then 2 ^ (n - 1) - 1 else 2 ^ n - 1
  wrapInt n (max lo (min hi x))

/-- The overflow arm of RoundToFormat (R225). -/
def overflowCode (f : Fmt) (neg : Bool) (rnd : Nat) (sat : Bool) : Nat :=
  if sat then f.signBit neg + f.maxCode
  else if f.full then f.nanCode
  else if rnd = 0 ∨ (rnd = 2 ∧ neg = false) ∨ (rnd = 3 ∧ neg = true) then f.signBit neg + f.top * 2 ^ f.fbits
  else f.signBit neg + f.maxCode

/-- RoundToFormat into a float format (R225). -/
def roundFloat (f : Fmt) (v : Val) (rnd : Nat) (sat nanz : Bool) : Nat :=
  match v with
  | .nan => if nanz then 0 else f.nanCode
  | .inf n =>
    if sat then f.signBit n + f.maxCode
    else if f.full then f.nanCode else f.signBit n + f.top * 2 ^ f.fbits
  | .num n m e cut =>
    let t := max f.minExp (e + bitLen m - 1 - f.fbits)
    let r := roundAt n m e cut t rnd
    -- the magnitude as an exponent and fraction pair is monotone in the value
    let code := if r < 2 ^ f.fbits then r else (t - f.minExp).toNat * 2 ^ f.fbits + r
    if code ≤ f.maxCode then f.signBit n + code else overflowCode f n rnd sat

/-- RoundToFormat(x, slot) of R225 with the slot's ETYPE, RND, SAT and NANZ. -/
def roundTo (t : Nat) (v : Val) (rnd : Nat) (sat nanz : Bool) : Nat :=
  if 1 ≤ t ∧ t ≤ 8 then
    match v with
    | .nan => 0
    | .inf n => clampInt t (if n then -(2 ^ 64) else 2 ^ 64)
    | _ => clampInt t (roundInt v rnd)
  else roundFloat (fmtOf t) v rnd sat nanz

/-! ## Exact operations (R235, R255) -/

/-- An exact product. -/
def Val.mul (x y : Val) : Val :=
  match x, y with
  | .nan, _ => .nan
  | _, .nan => .nan
  | .inf a, y => if y.isZero then .nan else .inf (a != y.neg)
  | x, .inf b => if x.isZero then .nan else .inf (x.neg != b)
  | .num a m e _, .num b m' e' _ => .num (a != b) (m * m') (e + e') false

/-- An exact sum of terms, with the rules for NaN and infinities of R235 and the sign of a zero sum of R255
(rounding to nearest gives R235's: −0 only when every term is −0). -/
def sumTerms (rnd : Nat) (ts : List Val) : Val :=
  if ts.any Val.isNan || ((ts.any fun t => t.isInf && t.neg) && ts.any fun t => t.isInf && !t.neg) then .nan
  else match ts.find? Val.isInf with
    | some t => t
    | none =>
      let b := lowest ts
      let x : Int := ts.foldl (fun a t => a + t.units b) 0
      if x = 0 then
        if ts.all (fun t => t.isZero && t.neg) then .num true 0 0 false
        else if ts.all (fun t => t.isZero && !t.neg) then .num false 0 0 false
        else .num (rnd == 3) 0 0 false
      else .num (x < 0) x.natAbs b false

/-- Newton's steps towards an integer square root, from above. -/
def sqrtLoop (fuel n x : Nat) : Nat :=
  match fuel with
  | 0 => x
  | fuel + 1 => let y := (x + n / x) / 2; if y < x then sqrtLoop fuel n y else x

/-- The integer part of a square root. -/
def isqrt (n : Nat) : Nat := if n = 0 then 0 else sqrtLoop 64 n (2 ^ ((bitLen n + 1) / 2))

/-- The reciprocal to 80 bits and more (FRCP of R255, R256). -/
def Val.recip : Val → Val
  | .nan => .nan
  | .inf n => .num n 0 0 false
  | .num n m e _ =>
    if m = 0 then .inf n
    else
      let k := bitLen m + 80
      .num n (2 ^ k / m) (-(k : Int) - e) (2 ^ k % m != 0)

/-- FSQRT of R255, R256. -/
def Val.sqrt : Val → Val
  | .nan => .nan
  | .inf n => if n then .nan else .inf false
  | .num n m e _ =>
    if m = 0 then .num n 0 0 false
    else if n then .nan
    else
      let k := 160 + (e % 2).toNat
      let r := isqrt (m * 2 ^ k)
      .num false r ((e - k) / 2) (r * r != m * 2 ^ k)

/-- FRSQ of R255, R256. -/
def Val.rsqrt : Val → Val
  | .nan => .nan
  | .inf n => if n then .nan else .num false 0 0 false
  | .num n m e _ =>
    if m = 0 then .inf n
    else if n then .nan
    else
      -- m' × 2^(2h) with h an integer
      let m' := m * 2 ^ (e % 2).toNat
      let h := (e - e % 2) / 2
      let k := bitLen m' + 160
      let r := isqrt (2 ^ (2 * k) / m')
      .num false r (-(k : Int) - h) (r * r * m' != 2 ^ (2 * k))

/-- Fraction bits of the fixed-point work of FEXP2 and FLOG2. -/
def fxBits : Nat := 640

/-- Σ z^(2i+1) ÷ (2i+1), in units of 2^−640: the terms from `p` = z^(2i+1) on. -/
def atanhLoop (fuel i p zz acc : Nat) : Nat :=
  match fuel with
  | 0 => acc
  | fuel + 1 => atanhLoop fuel (i + 1) (p * zz / 2 ^ fxBits) zz (acc + p / (2 * i + 1))

/-- The inverse hyperbolic tangent of z at most 1/3, in units of 2^−640. -/
def atanhFx (z : Nat) : Nat := atanhLoop 210 0 z (z * z / 2 ^ fxBits) 0

/-- ln 2 in units of 2^−640. -/
def ln2Fx : Nat := 2 * atanhFx (2 ^ fxBits / 3)

/-- Σ y^i ÷ i! from the term `p` on. -/
def expLoop (fuel i p y acc : Nat) : Nat :=
  match fuel with
  | 0 => acc
  | fuel + 1 => expLoop fuel (i + 1) (p * y / 2 ^ fxBits / (i + 1)) y (acc + p)

/-- FEXP2 of R255, R256. A power with an integral exponent is exact; every other result is irrational, so its
first 560 bits and the cut mark decide every rounding. -/
def Val.exp2 : Val → Val
  | .nan => .nan
  | .inf n => if n then .num false 0 0 false else .inf false
  | .num n m e _ =>
    if m = 0 then .num false 1 0 false
    else if (200 : Int) < e + bitLen m then
      -- |x| ≥ 2^200 lies beyond every format's range
      if n then .num false 1 (-(2 ^ 40)) false else .num false 1 (2 ^ 40) false
    else if e + bitLen m < -300 then
      if n then .num false (2 ^ 300 - 1) (-300) true else .num false (2 ^ 300) (-300) true
    else
      -- x in units of 2^−640 is exact for operands of f32 and f64
      let x : Int := Val.units (.num n m e false) (min e (-(fxBits : Int))) / 2 ^ (-(fxBits : Int) - min e (-(fxBits : Int))).toNat
      let i := x / 2 ^ fxBits
      let f := (x % 2 ^ fxBits).toNat
      if f = 0 ∧ -(fxBits : Int) ≤ e then .num false 1 i false
      else
        let y := expLoop 160 0 (2 ^ fxBits) (f * ln2Fx / 2 ^ fxBits) 0
        .num false (y / 2 ^ 80) (i - fxBits + 80) true

/-- FLOG2 of R255, R256. The logarithm of a power of two is exact; every other result is irrational. -/
def Val.log2 : Val → Val
  | .nan => .nan
  | .inf n => if n then .nan else .inf false
  | .num n m e _ =>
    if m = 0 then .inf true
    else if n then .nan
    else
      let l := bitLen m - 1
      let k : Int := e + l
      if m = 2 ^ l then .ofInt k
      else
        -- m ÷ 2^l lies between 1 and 2: 2 atanh of (m − 2^l) ÷ (m + 2^l)
        let z := (m - 2 ^ l) * 2 ^ fxBits / (m + 2 ^ l)
        let g : Int := 2 * atanhFx z * 2 ^ fxBits / ln2Fx
        let x : Int := k * 2 ^ fxBits + g
        .num (x < 0) (x.natAbs / 2 ^ 40) (40 - fxBits) true

/-- FRND (R258): integral, in the value's own sign. -/
def Val.integral (v : Val) (rnd : Nat) : Val :=
  match v with
  | .num n m e cut => if m = 0 ∧ cut = false then v else .num n (roundAt n m e cut 0 rnd) 0 false
  | _ => v

/-! ## The operations on encodings -/

/-- The value of a float of type `t`. -/
def fval (t x : Nat) : Val := (fmtOf t).value x

/-- RoundToFormat with SAT 0 and NANZ 0 (R255). -/
def fround (t rnd : Nat) (v : Val) : Nat := roundFloat (fmtOf t) v rnd false false

/-- FADD (R255). -/
def fadd (t rnd a b : Nat) : Nat := fround t rnd (sumTerms rnd [fval t a, fval t b])
/-- FSUB (R255). -/
def fsub (t rnd a b : Nat) : Nat := fround t rnd (sumTerms rnd [fval t a, (fval t b).negate])
/-- FMUL (R255). -/
def fmul (t rnd a b : Nat) : Nat := fround t rnd ((fval t a).mul (fval t b))
/-- FFMA: one rounding (R255). -/
def ffma (t rnd a b c : Nat) : Nat := fround t rnd (sumTerms rnd [(fval t a).mul (fval t b), fval t c])
/-- FRND (R258). -/
def frnd (t rnd a : Nat) : Nat := fround t rnd ((fval t a).integral rnd)
/-- FSCALE (R258): b is an i32. -/
def fscale (t rnd a b : Nat) : Nat :=
  let v := fval t a
  fround t rnd (if v.isZero then v else v.scale (signedOf 32 b))

/-- The order of R257: −0 is less than +0. -/
def fless (t a b : Nat) : Bool :=
  let x := fval t a
  let y := fval t b
  match x.cmp y with
  | .lt => true
  | .gt => false
  | .eq => x.isZero && y.isZero && x.neg && !y.neg

/-- FMIN and FMAX (R257): one operand unchanged. -/
def fminmax (t : Nat) (isMax : Bool) (a b : Nat) : Nat :=
  match (fval t a).isNan, (fval t b).isNan with
  | true, true => (fmtOf t).nanCode
  | true, false => b
  | false, true => a
  | false, false => if isMax then (if fless t a b then b else a) else (if fless t b a then b else a)

/-- FCMP's conditions (R250). -/
def fcompare (t cond a b : Nat) : Bool :=
  let x := fval t a
  let y := fval t b
  if x.isNan || y.isNan then cond == 1 || cond == 7
  else
    match cond with
    | 0 => x.cmp y == .eq
    | 1 => x.cmp y != .eq
    | 2 => x.cmp y == .lt
    | 3 => x.cmp y != .gt
    | 4 => x.cmp y == .gt
    | 5 => x.cmp y != .lt
    | 6 => true
    | _ => false

/-- The class of FCLASS (R257). -/
def fclass (t x : Nat) : Nat :=
  let f := fmtOf t
  match f.value x with
  | .nan => 8
  | .inf n => if n then 0 else 7
  | .num n m _ _ =>
    if m = 0 then if n then 3 else 4
    else if m < 2 ^ f.fbits then if n then 2 else 5
    else if n then 1 else 6

/-- FFMA.f16 and FFMA.bf16 packed (R259): each 16-bit half on its own. -/
def ffmaPacked (t rnd a b c : Nat) : Nat :=
  ffma t rnd (a % 65536) (b % 65536) (c % 65536)
    + 65536 * ffma t rnd (a / 65536 % 65536) (b / 65536 % 65536) (c / 65536 % 65536)

end Sys2Proof.Machine
end

