-- ==== Sys2Proof/Machine/Flags.lean ====
section
/-! DEFINITION. Integer, logic, shift, bit-field, byte and compare results on values held as numbers below 2^w
(R243 to R250), the scalar slot's results (R207), and the results that go to predicates. -/

namespace Sys2Proof.Machine

/-- The value of an operand, signed or unsigned by UNS (R240). -/
def readInt (w : Nat) (uns : Bool) (x : Nat) : Int := if uns then (x % 2 ^ w : Nat) else signedOf w x

/-- R243 IADD. -/
def iadd (w a b : Nat) : Nat := (a + b) % 2 ^ w
/-- R243 ISUB. -/
def isub (w a b : Nat) : Nat := wrapInt w ((a : Int) - b)
/-- R243 IMUL. -/
def imul (w a b : Nat) : Nat := a * b % 2 ^ w
/-- R243 IMULH: bits 2w−1:w of the exact product. -/
def imulh (w : Nat) (uns : Bool) (a b : Nat) : Nat := wrapInt (2 * w) (readInt w uns a * readInt w uns b) / 2 ^ w
/-- R243 IMAD. -/
def imad (w a b c : Nat) : Nat := (a * b + c) % 2 ^ w
/-- R243 IMADW: 32-bit factors, 64-bit sum. -/
def imadw (uns : Bool) (a b c : Nat) : Nat := wrapInt 64 (readInt 32 uns a * readInt 32 uns b + c)
/-- R243 IMIN and IMAX. -/
def iminmax (w : Nat) (uns isMax : Bool) (a b : Nat) : Nat :=
  if isMax then (if readInt w uns a < readInt w uns b then b else a)
  else (if readInt w uns b < readInt w uns a then b else a)
/-- R243 IABS. -/
def iabs (w a : Nat) : Nat := (signedOf w a).natAbs % 2 ^ w
/-- R243 INEG. -/
def ineg (w a : Nat) : Nat := wrapInt w (-(a : Int))
/-- R243 ISAD. -/
def isad (w : Nat) (uns : Bool) (a b c : Nat) : Nat := ((readInt w uns a - readInt w uns b).natAbs + c) % 2 ^ w
/-- R244 IADDC: the sum and the carry out. -/
def iaddc (w a b : Nat) (cin : Bool) : Nat × Bool := ((a + b + cin.toNat) % 2 ^ w, 2 ^ w ≤ a + b + cin.toNat)
/-- R245 LEA. -/
def lea (a b sh : Nat) : Nat := (a + b * 2 ^ sh) % 2 ^ 64

/-- The complement at width w. -/
def inot (w a : Nat) : Nat := 2 ^ w - 1 - a % 2 ^ w
/-- R246 ANDN. -/
def iandn (w a b : Nat) : Nat := Nat.land a (inot w b)
/-- R246 ORN. -/
def iorn (w a b : Nat) : Nat := Nat.lor a (inot w b)
/-- R246 SHL. -/
def ishl (w a b : Nat) : Nat := a * 2 ^ (b % w) % 2 ^ w
/-- R246 SHR. -/
def ishr (w a b : Nat) : Nat := a / 2 ^ (b % w)
/-- R246 SAR. -/
def isar (w a b : Nat) : Nat := wrapInt w (signedOf w a / 2 ^ (b % w))
/-- R246 ROL. -/
def irol (w a b : Nat) : Nat := (a * 2 ^ (b % w) + a / 2 ^ (w - b % w)) % 2 ^ w
/-- R246 SHF. -/
def ishf (w a b c : Nat) : Nat := (c * 2 ^ w + a) / 2 ^ (b % (2 * w)) % 2 ^ w
/-- R246 POPC. -/
def popc (w a : Nat) : Nat := ((List.range w).filter (bit a)).length
/-- R246 CLZ: w for 0. -/
def clz (w a : Nat) : Nat := w - bitLen a
/-- R246 CTZ: w for 0. -/
def ctz (w a : Nat) : Nat := ((List.range w).find? (bit a)).getD w
/-- A number from its bits, bit 0 first. -/
def ofBits : List Bool → Nat
  | [] => 0
  | b :: bs => b.toNat + 2 * ofBits bs
/-- R246 BREV. -/
def brev (w a : Nat) : Nat := ofBits ((List.range w).map fun i => bit a (w - 1 - i))
/-- R247 LOP3. -/
def lop3 (w a b c tt : Nat) (inv : Bool) : Nat :=
  ofBits ((List.range w).map fun i => bit tt ((bit a i).toNat + 2 * (bit b i).toNat + 4 * (bit c i).toNat) != inv)

/-- R248 BFX. -/
def bfx (w : Nat) (uns : Bool) (a b : Nat) : Nat :=
  let len := min (bits b 15 8) w
  if len = 0 then 0
  else
    let f := (readInt w uns a / 2 ^ bits b 7 0) % 2 ^ len
    if uns then f.toNat else wrapInt w (signedOf len f.toNat)
/-- R248 BFI. -/
def bfi (w a b c : Nat) : Nat :=
  let pos := bits b 7 0
  let len := min (bits b 15 8) w
  ofBits ((List.range w).map fun i => if pos ≤ i ∧ i < pos + len then bit a (i - pos) else bit c i)
/-- R249 PRMT. -/
def prmt (a b c : Nat) : Nat :=
  let byte := fun (i : Nat) =>
    let k := bits b (3 * i + 2) (3 * i)
    let x := if k < 4 then c / 256 ^ k % 256 else a / 256 ^ (k - 4) % 256
    if bit b (12 + i) then 0 else if bit b (16 + i) then (if bit x 7 then 255 else 0) else x
  byte 0 + 256 * byte 1 + 65536 * byte 2 + 16777216 * byte 3

/-! ## Predicates -/

/-- ICMP's conditions (R250). -/
def icompare (w : Nat) (uns : Bool) (cond a b : Nat) : Bool :=
  let x := readInt w uns a
  let y := readInt w uns b
  match cond with
  | 0 => x == y
  | 1 => x != y
  | 2 => x < y
  | 3 => x ≤ y
  | 4 => y < x
  | _ => y ≤ x

/-- COMB of R250. -/
def combine (comb : Nat) (r q : Bool) : Bool :=
  match comb with
  | 1 => r && q
  | 2 => r || q
  | _ => r

/-- PSET's table (R252). -/
def psetBit (tt : Nat) (pa pb : Bool) : Bool := bit tt (2 * pa.toNat + pb.toNat)

/-! ## The scalar slot (R207) -/

/-- d of the scalar opcodes other than the branches, at 64 bits. -/
def scalarResult (sop a b : Nat) : Nat :=
  match sop with
  | 0x00 | 0x01 => iadd 64 a b
  | 0x02 | 0x03 => isub 64 a b
  | 0x04 | 0x05 => imul 64 a b
  | 0x06 => imulh 64 false a b
  | 0x07 => imulh 64 true a b
  | 0x08 | 0x09 => iminmax 64 false false a b
  | 0x0A | 0x0B => iminmax 64 false true a b
  | 0x0C => iminmax 64 true false a b
  | 0x0D => iminmax 64 true true a b
  | 0x0E => iabs 64 a
  | 0x0F => ineg 64 a
  | 0x10 | 0x11 => Nat.land a b
  | 0x12 | 0x13 => Nat.lor a b
  | 0x14 | 0x15 => Nat.xor a b
  | 0x16 => iandn 64 a b
  | 0x17 => inot 64 a
  | 0x18 | 0x19 => ishl 64 a b
  | 0x1A | 0x1B => ishr 64 a b
  | 0x1C | 0x1D => isar 64 a b
  | 0x1E | 0x1F => irol 64 a b
  | 0x20 => popc 64 a
  | 0x21 => clz 64 a
  | 0x22 => ctz 64 a
  | 0x23 => brev 64 a
  | 0x24 => a
  | 0x25 => b
  | 0x26 | 0x29 => (icompare 64 false 0 a b).toNat
  | 0x27 | 0x2A => (icompare 64 false 2 a b).toNat
  | 0x28 | 0x2B => (icompare 64 true 2 a b).toNat
  | _ => (icompare 64 false 1 a b).toNat

/-- IMM8 widened as the Ext column gives: zero-extended for the logic, shift and unsigned compare opcodes. -/
def scalarImm (sop : Nat) (imm : Byte) : Nat :=
  if [0x11, 0x13, 0x15, 0x19, 0x1B, 0x1D, 0x1F, 0x2B].contains sop then imm.toNat else (imm.signExtend 64).toNat

end Sys2Proof.Machine
end

