-- ==== Sys2Proof/Machine/Blocks.lean ====
section
/-! DEFINITION. Block formats: code values, Pack, expansion, format slots (R221 to R232), and the K-step of the
accumulator (R235). -/

namespace Sys2Proof.Machine

/-- A block format (R227): 0x20 mx4, 0x21 mx8e4, 0x22 mx8e5, 0x23 k4 of type `ktype`. -/
structure BlockFmt where
  etype : Nat
  ktype : Nat
deriving DecidableEq, Repr, Inhabited

/-- Codes of four bits (R221). -/
def BlockFmt.four (f : BlockFmt) : Bool := f.etype == 0x20 || f.etype == 0x23

/-- The magnitudes of R222 and R223 in halves: E2M1, pow and hybrid. -/
def magnitude (ktype i : Nat) : Nat :=
  match ktype with
  | 2 => if i = 0 then 0 else 2 ^ i
  | 3 => 2 * [0, 1, 2, 3, 4, 6, 8, 12].getD i 0
  | _ => [0, 1, 2, 3, 4, 6, 8, 12].getD i 0

/-- The value of a four-bit code (R222 to R224): 0x8 of a signed-magnitude type is +0. -/
def fourValue (ktype c : Nat) : Val :=
  if ktype = 0 then .ofInt (signedOf 4 c)
  else
    let m := magnitude ktype (c % 8)
    .num (8 ≤ c && m != 0) m (-1) false

/-- The value of an element's code before the scale. -/
def BlockFmt.codeValue (f : BlockFmt) (c : Nat) : Val :=
  match f.etype with
  | 0x20 => fourValue 1 (c % 16)
  | 0x23 => fourValue f.ktype (c % 16)
  | 0x21 => valueOf 0x14 c
  | _ => valueOf 0x15 c

/-- The exponent of the scale factor F, none for a NaN block (R221). -/
def scaleExp (etype sc : Nat) : Option Int :=
  if etype = 0x23 then (if sc % 64 = 63 then none else some ((sc % 64 : Nat) - 32))
  else (if sc % 256 = 255 then none else some ((sc % 256 : Nat) - 127))

/-- The value V × F of an element; a k4 block's type comes from its scale byte (R221 to R224). -/
def elementValue (etype c sc : Nat) : Val :=
  match scaleExp etype sc with
  | none => .nan
  | some k => (BlockFmt.codeValue ⟨etype, bits sc 7 6⟩ c).scale k

/-! ## Pack (R229 to R231) -/

/-- G of R229. -/
def BlockFmt.largest (f : BlockFmt) : Nat :=
  match f.etype, f.ktype with
  | 0x20, _ => 6
  | 0x21, _ => 448
  | 0x22, _ => 57344
  | _, 0 => 7
  | _, 1 => 6
  | _, 2 => 64
  | _, _ => 12

/-- The codes with finite values, in ascending order. -/
def BlockFmt.codes (f : BlockFmt) : List (Nat × Val) :=
  ((List.range (if f.four then 16 else 256)).map fun c => (c, f.codeValue c)).filter fun (_, v) =>
    !v.isNan && !v.isInf

/-- Whether code (c, x) is to be chosen before (c', y) for q, all in one unit (R231). -/
def betterCode (rnd : Nat) (q : Int) (c : Nat) (x : Int) (c' : Nat) (y : Int) : Bool :=
  match rnd with
  | 0 => (x - q).natAbs < (y - q).natAbs || ((x - q).natAbs == (y - q).natAbs && c % 2 == 0 && c' % 2 == 1)
  | 1 =>
    -- the greatest magnitude not above |q|, with q's sign
    let okX := decide (x.natAbs ≤ q.natAbs) && decide (0 ≤ x * q)
    let okY := decide (y.natAbs ≤ q.natAbs) && decide (0 ≤ y * q)
    okX && (!okY || decide (y.natAbs < x.natAbs))
  | 2 => if q ≤ y then decide (q ≤ x) && decide (x < y) else decide (y < x)
  | _ => if y ≤ q then decide (x ≤ q) && decide (y < x) else decide (x < y)

/-- The code chosen from q (R231); a zero value takes the +0 code. -/
def BlockFmt.choose (f : BlockFmt) (q : Val) (rnd : Nat) : Nat :=
  let b := min (lowest [q]) (-40)
  let pick := f.codes.foldl (fun (best : Nat × Int) (cv : Nat × Val) =>
    if betterCode rnd (q.units b) cv.1 (cv.2.units b) best.1 best.2 then (cv.1, cv.2.units b) else best) (0, 0)
  if pick.2 = 0 then 0 else pick.1

/-- The greatest magnitude of exact values. -/
def maxMagnitude (xs : List Val) : Val :=
  xs.foldl (fun m x =>
    let y := if x.neg then x.negate else x
    match m.cmp y with
    | .lt => y
    | _ => m) (.num false 0 0 false)

/-- Pack (R231): the codes and the scale byte of one block. -/
def BlockFmt.pack (f : BlockFmt) (xs : List Val) (rnd : Nat) (nanz : Bool) : List Nat × Nat :=
  let xs := if nanz then xs.map fun x => if x.isNan then .num false 0 0 false else x else xs
  let type := if f.etype = 0x23 then f.ktype * 64 else 0
  let last := if f.etype = 0x23 then 62 else 254
  let bias : Int := if f.etype = 0x23 then 32 else 127
  if xs.any fun x => x.isNan || x.isInf then
    (xs.map fun _ => 0, if f.etype = 0x23 then type + 63 else 255)
  else
    let m := maxMagnitude xs
    let k := ((List.range (last + 1)).find? fun (k : Nat) =>
      match m.cmp (.num false f.largest (k - bias) false) with
      | .gt => false
      | _ => true).getD last
    (xs.map fun x => f.choose (x.scale (bias - k)) rnd, type + k)

/-! ## Format slots (R226) -/

/-- A slot's fields. -/
structure SlotFmt where
  etype : Nat
  ktype : Nat
  rnd : Nat
  sat : Bool
  nanz : Bool
deriving DecidableEq, Repr, Inhabited

/-- The fields of a format slot, none when it is malformed (R226, R227). -/
def slotFmt (x : Nat) : Option SlotFmt :=
  let t := bits x 7 0
  let known := t ≤ 8 || (0x10 ≤ t && t ≤ 0x15) || (0x20 ≤ t && t ≤ 0x23) || t == 0x30
  if x / 2 ^ 15 ≠ 0 ∨ bit x 10 = true ∨ known = false ∨ (bits x 9 8 ≠ 0 ∧ t ≠ 0x23) then none
  else some ⟨t, bits x 9 8, bits x 12 11, bit x 13, bit x 14⟩

/-! ## The K-step (R235) -/

/-- A product of operand elements. Integers have one zero. -/
def product (int : Bool) (a b : Val) : Val := if int && (a.mul b).isZero then Val.ofInt 0 else a.mul b

/-- One element of a K-step: the new a80 encoding from the old one and the exact operand values, which may be integers. -/
def kstep (int : Bool) (c : Nat) (as bs : List Val) : Nat :=
  roundFloat (fmtOf 0x30) (sumTerms 0 (valueOf 0x30 c :: List.zipWith (product int) as bs)) 0 false false

end Sys2Proof.Machine
end

