-- ==== Sys2Proof/Syntax.lean ====
section
/-! DEFINITION. The syntax: operand bytes (R206), the three full-word forms (R200, R201), the pair word
(R205), and one constructor for every row of the opcode table. -/

namespace Sys2Proof

/-- An operand byte, decoded by the table of R206. -/
inductive Operand where
  /-- `v0`–`v127`: codes 0x00–0x7F. -/
  | v (n : BitVec 7)
  /-- `s0`–`s63`: codes 0x80–0xBF. -/
  | s (n : BitVec 6)
  /-- `p0`–`p7`: codes 0xC0–0xC7. -/
  | p (n : BitVec 3)
  /-- `h0`–`h15`: codes 0xC8–0xD7. -/
  | h (n : BitVec 4)
  /-- `mt0`, `mt1`: codes 0xD8–0xD9. -/
  | mt (n : BitVec 1)
  /-- `fs0`–`fs7`: codes 0xDA–0xE1. -/
  | fs (n : BitVec 3)
  /-- ZERO, 0xE2. -/
  | zero
  /-- LANE, 0xE3: the thread's home lane. -/
  | laneNo
  /-- WARP, 0xE4: the warp that holds the thread now. -/
  | warpNo
  /-- ROW, 0xE5: the thread's home row. -/
  | rowNo
  /-- ONES, 0xE6. -/
  | ones
  /-- LIT, 0xEE: the literal of a format-10 word. -/
  | lit
deriving DecidableEq, Repr, Inhabited

/-- The guard fields GNEG and GPRED of R200 and R204. -/
structure Guard where
  neg : Bool
  pred : BitVec 3
deriving DecidableEq, Repr, Inhabited

/-- An F word of the register form (R200, R201); `lit` is the literal of format 10. -/
structure RegWord where
  guard : Guard
  mod : BitVec 2
  dst : Operand
  sa : Operand
  sb : Operand
  sc : Operand
  imm : BitVec 16
  lit : Option DWord
deriving DecidableEq, Repr, Inhabited

/-- An F word of the wide form: source B is IMM32 (R201). -/
structure WideWord where
  guard : Guard
  mod : BitVec 2
  dst : Operand
  sa : Operand
  imm : Word
deriving DecidableEq, Repr, Inhabited

/-- An F word of the short form: source B is IMM16 and the SB byte is 0x00 (R201). -/
structure ShortWord where
  guard : Guard
  mod : BitVec 2
  dst : Operand
  sa : Operand
  sc : Operand
  imm : BitVec 16
  lit : Option DWord
deriving DecidableEq, Repr, Inhabited

/-- The vector opcodes that a P word may hold (R205). -/
inductive VOp where
  | iadd | isub | imul | imin | imax | and | or | xor | andn | orn | not | shl | shr | sar | rol
  | popc | clz | fadd | fsub | fmul | fmin | fmax | mov
deriving DecidableEq, Repr, Inhabited

/-- A P word without its scalar opcode (R205). `ssb` is bits 39:32: an s-register index with two zero bits
above it in the register form, IMM8 in the immediate form. -/
structure PairWord where
  guard : Guard
  sdst : BitVec 6
  ssa : BitVec 6
  ssb : Byte
  vop : VOp
  vdst : Operand
  vsa : Operand
  vsb : Operand
deriving DecidableEq, Repr, Inhabited

/-- A UDP datagram at die 0's host port (R420): the two addresses and ports, its ECN field (2 is ECT(0), 3 a CE mark), and
the payload. -/
structure Packet where
  src : BitVec 128
  dst : BitVec 128
  sport : BitVec 16
  dport : BitVec 16
  ecn : BitVec 2
  bytes : List Byte
deriving DecidableEq, Repr, Inhabited

/-- What a link receiver meets in one frame time (R424, R425): the peer's next frame, a frame whose CRC fails,
or, on a ridge port, the 272 bytes that an outside peer sent. -/
inductive LinkRx where
  | fromPeer
  | corrupted
  | outside (frame : List Byte)
deriving DecidableEq, Repr, Inhabited

/-- One die's reading at a thermal check (R435): junction temperature in degrees, power in units of 10 W. -/
structure Thermal where
  die : Nat
  tj : Nat
  power : Nat
deriving DecidableEq, Repr, Inhabited

/-- Every row of the opcode table: the 224 full-word opcodes and the 48 scalar-slot opcodes (R207, R212),
and the device's own steps, each whole and indivisible. Steps name the die `d` and the object they act on. -/
inductive Instr where
  /-- Opcode 0x00 (R243): Register-form integer add, modulo 2^w. -/
  | iadd (w : RegWord)
  /-- Opcode 0x01 (R243): Register-form integer subtract, modulo 2^w. -/
  | isub (w : RegWord)
  /-- Opcode 0x02 (R244): Add with carry in and carry out through p6. -/
  | iaddc (w : RegWord)
  /-- Opcode 0x03 (R243): Low half of an integer product. -/
  | imul (w : RegWord)
  /-- Opcode 0x04 (R243): High half of the signed or unsigned product. -/
  | imulh (w : RegWord)
  /-- Opcode 0x05 (R243): Multiply-add, modulo 2^w. -/
  | imad (w : RegWord)
  /-- Opcode 0x06 (R243): 32×32 multiply with a 64-bit add. -/
  | imadw (w : RegWord)
  /-- Opcode 0x07 (R243): Signed or unsigned minimum. -/
  | imin (w : RegWord)
  /-- Opcode 0x08 (R243): Signed or unsigned maximum. -/
  | imax (w : RegWord)
  /-- Opcode 0x09 (R243): Absolute value, modulo 2^w. -/
  | iabs (w : RegWord)
  /-- Opcode 0x0A (R243): Negation, modulo 2^w. -/
  | ineg (w : RegWord)
  /-- Opcode 0x0B (R243): Absolute difference plus an accumulator. -/
  | isad (w : RegWord)
  /-- Opcode 0x0C (R245): 64-bit address from a base plus a shifted index. -/
  | lea (w : RegWord)
  /-- Opcode 0x0D (R246): Bitwise AND. -/
  | and (w : RegWord)
  /-- Opcode 0x0E (R246): Bitwise OR. -/
  | or (w : RegWord)
  /-- Opcode 0x0F (R246): Bitwise XOR. -/
  | xor (w : RegWord)
  /-- Opcode 0x10 (R246): a AND NOT b. -/
  | andn (w : RegWord)
  /-- Opcode 0x11 (R246): a OR NOT b. -/
  | orn (w : RegWord)
  /-- Opcode 0x12 (R246): Bitwise complement. -/
  | not (w : RegWord)
  /-- Opcode 0x13 (R247): Three-input logic through a truth table, optionally inverted. -/
  | lop3 (w : RegWord)
  /-- Opcode 0x14 (R246): Logical shift left by b mod w. -/
  | shl (w : RegWord)
  /-- Opcode 0x15 (R246): Logical shift right by b mod w. -/
  | shr (w : RegWord)
  /-- Opcode 0x16 (R246): Arithmetic shift right. -/
  | sar (w : RegWord)
  /-- Opcode 0x17 (R246): Rotate left. -/
  | rol (w : RegWord)
  /-- Opcode 0x18 (R246): Funnel shift right over 2w bits. -/
  | shf (w : RegWord)
  /-- Opcode 0x19 (R246): Population count. -/
  | popc (w : RegWord)
  /-- Opcode 0x1A (R246): Count of leading zeros. -/
  | clz (w : RegWord)
  /-- Opcode 0x1B (R246): Count of trailing zeros. -/
  | ctz (w : RegWord)
  /-- Opcode 0x1C (R246): Bit reversal. -/
  | brev (w : RegWord)
  /-- Opcode 0x1D (R248): Bit-field extract. -/
  | bfx (w : RegWord)
  /-- Opcode 0x1E (R248): Bit-field insert. -/
  | bfi (w : RegWord)
  /-- Opcode 0x1F (R249): Byte permute with zero and sign fill. -/
  | prmt (w : RegWord)
  /-- Opcode 0x20 (R243): IADD with the IMM32 immediate. -/
  | iaddWide (w : WideWord)
  /-- Opcode 0x21 (R243): ISUB with the IMM32 immediate. -/
  | isubWide (w : WideWord)
  /-- Opcode 0x22 (R244): IADDC with the IMM32 immediate. -/
  | iaddcWide (w : WideWord)
  /-- Opcode 0x23 (R243): IMUL with the IMM32 immediate. -/
  | imulWide (w : WideWord)
  /-- Opcode 0x25 (R243): IMAD with an IMM16 source B. -/
  | imadShort (w : ShortWord)
  /-- Opcode 0x26 (R243): IMADW with an IMM16 source B. -/
  | imadwShort (w : ShortWord)
  /-- Opcode 0x27 (R243): IMIN with the IMM32 immediate. -/
  | iminWide (w : WideWord)
  /-- Opcode 0x28 (R243): IMAX with the IMM32 immediate. -/
  | imaxWide (w : WideWord)
  /-- Opcode 0x2B (R243): ISAD with an IMM16 source B. -/
  | isadShort (w : ShortWord)
  /-- Opcode 0x2C (R245): Base plus sign-extended IMM32. -/
  | leaWide (w : WideWord)
  /-- Opcode 0x2D (R246): AND with the IMM32 immediate. -/
  | andWide (w : WideWord)
  /-- Opcode 0x2E (R246): OR with the IMM32 immediate. -/
  | orWide (w : WideWord)
  /-- Opcode 0x2F (R246): XOR with the IMM32 immediate. -/
  | xorWide (w : WideWord)
  /-- Opcode 0x30 (R246): ANDN with the IMM32 immediate. -/
  | andnWide (w : WideWord)
  /-- Opcode 0x31 (R246): ORN with the IMM32 immediate. -/
  | ornWide (w : WideWord)
  /-- Opcode 0x32 (R250): Integer compare into a predicate, with optional combine. -/
  | icmp (w : RegWord)
  /-- Opcode 0x33 (R251): Select a or b by a predicate. -/
  | sel (w : RegWord)
  /-- Opcode 0x34 (R246): SHL with the IMM32 immediate. -/
  | shlWide (w : WideWord)
  /-- Opcode 0x35 (R246): SHR with the IMM32 immediate. -/
  | shrWide (w : WideWord)
  /-- Opcode 0x36 (R246): SAR with the IMM32 immediate. -/
  | sarWide (w : WideWord)
  /-- Opcode 0x37 (R246): ROL with the IMM32 immediate. -/
  | rolWide (w : WideWord)
  /-- Opcode 0x38 (R246): SHF with an IMM16 shift amount. -/
  | shfShort (w : ShortWord)
  /-- Opcode 0x39 (R252): Predicate from two predicates through a truth table. -/
  | pset (w : RegWord)
  /-- Opcode 0x3A (R253): Moves predicates to or from a register. -/
  | pmov (w : RegWord)
  /-- Opcode 0x3B (R251): SEL with an IMM16 source B. -/
  | selShort (w : ShortWord)
  /-- Opcode 0x3D (R248): BFX with the IMM32 field specifier. -/
  | bfxWide (w : WideWord)
  /-- Opcode 0x3E (R248): BFI with an IMM16 field specifier. -/
  | bfiShort (w : ShortWord)
  /-- Opcode 0x3F (R249): PRMT with an IMM16 control word. -/
  | prmtShort (w : ShortWord)
  /-- Opcode 0x40 (R255): Correctly rounded f32 add. -/
  | faddF32 (w : RegWord)
  /-- Opcode 0x41 (R255): Correctly rounded f32 subtract. -/
  | fsubF32 (w : RegWord)
  /-- Opcode 0x42 (R255): Correctly rounded f32 multiply. -/
  | fmulF32 (w : RegWord)
  /-- Opcode 0x43 (R255): f32 fused multiply-add, rounded once. -/
  | ffmaF32 (w : RegWord)
  /-- Opcode 0x44 (R257): f32 minimum, NaN-avoiding. -/
  | fminF32 (w : RegWord)
  /-- Opcode 0x45 (R257): f32 maximum, NaN-avoiding. -/
  | fmaxF32 (w : RegWord)
  /-- Opcode 0x46 (R250): f32 compare into a predicate. -/
  | fcmpF32 (w : RegWord)
  /-- Opcode 0x47 (R257): Predicate from the f32 class and a mask. -/
  | fclassF32 (w : RegWord)
  /-- Opcode 0x48 (R256): Correctly rounded f32 reciprocal. -/
  | frcpF32 (w : RegWord)
  /-- Opcode 0x49 (R256): Correctly rounded f32 reciprocal square root. -/
  | frsqF32 (w : RegWord)
  /-- Opcode 0x4A (R256): Correctly rounded f32 square root. -/
  | fsqrtF32 (w : RegWord)
  /-- Opcode 0x4B (R256): Correctly rounded f32 2^x. -/
  | fexp2F32 (w : RegWord)
  /-- Opcode 0x4C (R256): Correctly rounded f32 log2. -/
  | flog2F32 (w : RegWord)
  /-- Opcode 0x4D (R258): Rounds an f32 to an integral value. -/
  | frndF32 (w : RegWord)
  /-- Opcode 0x4E (R258): f32 a × 2^b, rounded. -/
  | fscaleF32 (w : RegWord)
  /-- Opcode 0x4F (R259): Packed fused multiply-add on two f16 halves. -/
  | ffmaF16x2 (w : RegWord)
  /-- Opcode 0x50 (R255): Correctly rounded f64 add. -/
  | faddF64 (w : RegWord)
  /-- Opcode 0x51 (R255): Correctly rounded f64 subtract. -/
  | fsubF64 (w : RegWord)
  /-- Opcode 0x52 (R255): Correctly rounded f64 multiply. -/
  | fmulF64 (w : RegWord)
  /-- Opcode 0x53 (R255): f64 fused multiply-add, rounded once. -/
  | ffmaF64 (w : RegWord)
  /-- Opcode 0x54 (R257): f64 minimum. -/
  | fminF64 (w : RegWord)
  /-- Opcode 0x55 (R257): f64 maximum. -/
  | fmaxF64 (w : RegWord)
  /-- Opcode 0x56 (R250): f64 compare into a predicate. -/
  | fcmpF64 (w : RegWord)
  /-- Opcode 0x57 (R257): Predicate from the f64 class and a mask. -/
  | fclassF64 (w : RegWord)
  /-- Opcode 0x58 (R256): Correctly rounded f64 reciprocal. -/
  | frcpF64 (w : RegWord)
  /-- Opcode 0x59 (R256): Correctly rounded f64 reciprocal square root. -/
  | frsqF64 (w : RegWord)
  /-- Opcode 0x5A (R256): Correctly rounded f64 square root. -/
  | fsqrtF64 (w : RegWord)
  /-- Opcode 0x5B (R256): Correctly rounded f64 2^x. -/
  | fexp2F64 (w : RegWord)
  /-- Opcode 0x5C (R256): Correctly rounded f64 log2. -/
  | flog2F64 (w : RegWord)
  /-- Opcode 0x5D (R258): Rounds an f64 to an integral value. -/
  | frndF64 (w : RegWord)
  /-- Opcode 0x5E (R258): f64 a × 2^b with a 32-bit b. -/
  | fscaleF64 (w : RegWord)
  /-- Opcode 0x5F (R259): Packed fused multiply-add on two bf16 halves. -/
  | ffmaBf16x2 (w : RegWord)
  /-- Opcode 0x60 (R261): Float to float conversion. -/
  | cvtFF (w : RegWord)
  /-- Opcode 0x61 (R261): Integer to float conversion. -/
  | cvtIF (w : RegWord)
  /-- Opcode 0x62 (R261): Float to integer conversion, saturating. -/
  | cvtFI (w : RegWord)
  /-- Opcode 0x63 (R261): Integer to integer conversion, saturating. -/
  | cvtII (w : RegWord)
  /-- Opcode 0x64 (R262): Converts a value into a format slot's type. -/
  | cvtsTo (w : RegWord)
  /-- Opcode 0x65 (R262): Converts a value from a format slot's type. -/
  | cvtsFrom (w : RegWord)
  /-- Opcode 0x66 (R263): Packs the warp's 32 lanes into one mx4 block. -/
  | packMx4 (w : RegWord)
  /-- Opcode 0x67 (R263): Packs the warp into one mx8e4 block. -/
  | packMx8e4 (w : RegWord)
  /-- Opcode 0x68 (R263): Packs the warp into one mx8e5 block. -/
  | packMx8e5 (w : RegWord)
  /-- Opcode 0x69 (R263): Packs the warp into one k4 block of type KTYPE. -/
  | packK4 (w : RegWord)
  /-- Opcode 0x6A (R263): Packs the warp into a block of the slot's format. -/
  | packSlot (w : RegWord)
  /-- Opcode 0x6B (R264): Expands an mx4 block across the lanes. -/
  | unpkMx4 (w : RegWord)
  /-- Opcode 0x6C (R264): Expands an mx8e4 block across the lanes. -/
  | unpkMx8e4 (w : RegWord)
  /-- Opcode 0x6D (R264): Expands an mx8e5 block across the lanes. -/
  | unpkMx8e5 (w : RegWord)
  /-- Opcode 0x6E (R264): Expands a k4 block across the lanes. -/
  | unpkK4 (w : RegWord)
  /-- Opcode 0x6F (R264): Expands a block through a format slot. -/
  | unpkSlot (w : RegWord)
  /-- Opcode 0x70 (R265): Register move. -/
  | mov (w : RegWord)
  /-- Opcode 0x71 (R265): Move of the IMM32 immediate. -/
  | movi (w : WideWord)
  /-- Opcode 0x72 (R266): Broadcasts one lane's value to the active lanes. -/
  | bcast (w : RegWord)
  /-- Opcode 0x73 (R266): Writes a value into one named lane. -/
  | lane (w : RegWord)
  /-- Opcode 0x74 (R267): Indexed shuffle within a segment. -/
  | shflIdx (w : RegWord)
  /-- Opcode 0x75 (R267): Shuffle towards higher lanes, with a fill value. -/
  | shflRise (w : RegWord)
  /-- Opcode 0x76 (R267): Shuffle towards lower lanes, with a fill value. -/
  | shflFall (w : RegWord)
  /-- Opcode 0x77 (R267): Butterfly shuffle within a segment. -/
  | shflXor (w : RegWord)
  /-- Opcode 0x78 (R267): shfl.idx with k and SEG in IMM16. -/
  | shflIdxShort (w : ShortWord)
  /-- Opcode 0x79 (R267): shfl.rise with k and SEG in IMM16. -/
  | shflRiseShort (w : ShortWord)
  /-- Opcode 0x7A (R267): shfl.fall with k and SEG in IMM16. -/
  | shflFallShort (w : ShortWord)
  /-- Opcode 0x7B (R267): shfl.xor with k and SEG in IMM16. -/
  | shflXorShort (w : ShortWord)
  /-- Opcode 0x7C (R268): Combines a predicate across the active lanes. -/
  | vote (w : RegWord)
  /-- Opcode 0x7D (R270): Integer segment reduction or scan. -/
  | reduxInt (w : RegWord)
  /-- Opcode 0x7E (R270): Float segment reduction or scan, rounded once. -/
  | reduxFloat (w : RegWord)
  /-- Opcode 0x7F (R271): Groups the active lanes by equal values. -/
  | matchLanes (w : RegWord)
  /-- Opcode 0x80 (R289): Byte load, zero-extended. -/
  | ldB (w : RegWord)
  /-- Opcode 0x81 (R289): Byte load, sign-extended. -/
  | ldBI8 (w : RegWord)
  /-- Opcode 0x82 (R289): Half-word load, zero-extended. -/
  | ldH (w : RegWord)
  /-- Opcode 0x83 (R289): Half-word load, sign-extended. -/
  | ldHI16 (w : RegWord)
  /-- Opcode 0x84 (R289): Word load. -/
  | ldW (w : RegWord)
  /-- Opcode 0x85 (R289): Double-word load. -/
  | ldD (w : RegWord)
  /-- Opcode 0x86 (R289): Quad load. -/
  | ldQ (w : RegWord)
  /-- Opcode 0x87 (R289): Byte store. -/
  | stB (w : RegWord)
  /-- Opcode 0x88 (R289): Half-word store. -/
  | stH (w : RegWord)
  /-- Opcode 0x89 (R289): Word store. -/
  | stW (w : RegWord)
  /-- Opcode 0x8A (R289): Double-word store. -/
  | stD (w : RegWord)
  /-- Opcode 0x8B (R289): Quad store. -/
  | stQ (w : RegWord)
  /-- Opcode 0x8C (R294): 32-bit atomic read-modify-write with ordering and scope. -/
  | atomW (w : RegWord)
  /-- Opcode 0x8D (R294): 64-bit atomic read-modify-write with ordering and scope. -/
  | atomD (w : RegWord)
  /-- Opcode 0x8E (R297): Orders the thread's accesses by ordering and scope. -/
  | fence (w : RegWord)
  /-- Opcode 0x8F (R298): Per-lane line prefetch into the L2. -/
  | pref (w : RegWord)
  /-- Opcode 0x90 (R289): Byte load from the window. -/
  | ldBWin (w : RegWord)
  /-- Opcode 0x91 (R289): Sign-extending byte load from the window. -/
  | ldBI8Win (w : RegWord)
  /-- Opcode 0x92 (R289): Half-word load from the window. -/
  | ldHWin (w : RegWord)
  /-- Opcode 0x93 (R289): Sign-extending half-word load from the window. -/
  | ldHI16Win (w : RegWord)
  /-- Opcode 0x94 (R289): Word load from the window. -/
  | ldWWin (w : RegWord)
  /-- Opcode 0x95 (R289): Double-word load from the window. -/
  | ldDWin (w : RegWord)
  /-- Opcode 0x96 (R289): Quad load from the window. -/
  | ldQWin (w : RegWord)
  /-- Opcode 0x97 (R289): Byte store to the window. -/
  | stBWin (w : RegWord)
  /-- Opcode 0x98 (R289): Half-word store to the window. -/
  | stHWin (w : RegWord)
  /-- Opcode 0x99 (R289): Word store to the window. -/
  | stWWin (w : RegWord)
  /-- Opcode 0x9A (R289): Double-word store to the window. -/
  | stDWin (w : RegWord)
  /-- Opcode 0x9B (R289): Quad store to the window. -/
  | stQWin (w : RegWord)
  /-- Opcode 0x9C (R294): 32-bit window atomic at group scope. -/
  | atomWWin (w : RegWord)
  /-- Opcode 0x9D (R294): 64-bit window atomic at group scope. -/
  | atomDWin (w : RegWord)
  /-- Opcode 0x9E (R299): Enters a bulk prefetch in the prefetch engine queue, with an optional counter. -/
  | prefRange (w : RegWord)
  /-- Opcode 0xA0 (R306): Arrival at a group barrier in all mode. -/
  | bar (w : RegWord)
  /-- Opcode 0xA1 (R306): Arrival at a group barrier with a count. -/
  | barCount (w : RegWord)
  /-- Opcode 0xA2 (R307): Collective arrival at a barrier object, then a wait for the phase. -/
  | barObject (w : RegWord)
  /-- Opcode 0xA3 (R307): Collective arrival at a barrier object, without a wait. -/
  | barObjectArrive (w : RegWord)
  /-- Opcode 0xA4 (R302): Initialises a completion counter or a barrier object. -/
  | cinit (w : RegWord)
  /-- Opcode 0xA5 (R303): Adds arrivals to a counter, from a register. -/
  | cadd (w : RegWord)
  /-- Opcode 0xA6 (R303): Adds IMM32 arrivals to a counter. -/
  | caddWide (w : WideWord)
  /-- Opcode 0xA7 (R304): Waits for a counter's DONE, STATUS or CANC. -/
  | cwait (w : RegWord)
  /-- Opcode 0xA8 (R304): Counter wait with a time limit. -/
  | cwaitLimit (w : RegWord)
  /-- Opcode 0xA9 (R305): Cancels a counter and everything under it. -/
  | cancel (w : RegWord)
  /-- Opcode 0xAA (R309): Appends a window record to the pending-launch queue for the local task queue. -/
  | launch (w : RegWord)
  /-- Opcode 0xAB (R309): Appends a record for the queue bound to a handle. -/
  | launchQueue (w : RegWord)
  /-- Opcode 0xB0 (R314): Binds a handle to a VQN. -/
  | qbind (w : RegWord)
  /-- Opcode 0xB1 (R315): Reserves n tickets, with n from a register. -/
  | qres (w : RegWord)
  /-- Opcode 0xB2 (R315): Reserves IMM32 tickets. -/
  | qresWide (w : WideWord)
  /-- Opcode 0xB3 (R316): Puts a window element into a granted ticket. -/
  | qput (w : RegWord)
  /-- Opcode 0xB4 (R317): Takes an eligible element at once, or EMPTY. -/
  | qget (w : RegWord)
  /-- Opcode 0xB5 (R317): Waits for and takes an element. -/
  | qwait (w : RegWord)
  /-- Opcode 0xB6 (R318): Writes the handle's state. -/
  | qstat (w : RegWord)
  /-- Opcode 0xB7 (R319): Cancels the remaining tickets of a grant. -/
  | qcancelGrant (w : RegWord)
  /-- Opcode 0xB8 (R319): Cancels a warp's outstanding QWAIT. -/
  | qcancelWait (w : RegWord)
  /-- Opcode 0xC0 (R273): Relative branch of the active lanes. -/
  | bra (w : WideWord)
  /-- Opcode 0xC1 (R273): Branch that faults on a divergent guard. -/
  | braU (w : WideWord)
  /-- Opcode 0xC2 (R273): Branch whose taken threads yield. -/
  | bray (w : WideWord)
  /-- Opcode 0xC3 (R274): Branch on a non-zero uniform value. -/
  | bruNz (w : WideWord)
  /-- Opcode 0xC4 (R274): Branch on a zero uniform value. -/
  | bruZ (w : WideWord)
  /-- Opcode 0xC5 (R275): Per-lane jump to a 64-bit target. -/
  | jmp (w : RegWord)
  /-- Opcode 0xC6 (R276): Jump through a dispatch-table entry. -/
  | jtab (w : RegWord)
  /-- Opcode 0xC7 (R277): Relative call that pushes a return address. -/
  | call (w : WideWord)
  /-- Opcode 0xC8 (R277): Call to a register target. -/
  | callRegister (w : RegWord)
  /-- Opcode 0xC9 (R277): Call through a dispatch-table entry. -/
  | callt (w : RegWord)
  /-- Opcode 0xCA (R278): Return through the return stack. -/
  | ret (w : RegWord)
  /-- Opcode 0xCB (R279): Files the active threads into cairns keyed by a table target. -/
  | reform (w : RegWord)
  /-- Opcode 0xCC (R280): Ends the active threads. -/
  | exit (w : RegWord)
  /-- Opcode 0xCD (R281): Waits until a window word changes, with an optional limit. -/
  | wait (w : RegWord)
  /-- Opcode 0xCE (R282): Waits for a number of cycles. -/
  | sleep (w : RegWord)
  /-- Opcode 0xCF (R282): Advances the PC only. -/
  | nop (w : RegWord)
  /-- Opcode 0xD0 (R328): Posts 16-bit K-steps on a tile, with n from a register. -/
  | mloopB16 (w : RegWord)
  /-- Opcode 0xD1 (R328): Posts 8-bit K-steps, with n from a register. -/
  | mloopB8 (w : RegWord)
  /-- Opcode 0xD2 (R328): Posts 4-bit K-steps, with n from a register. -/
  | mloopB4 (w : RegWord)
  /-- Opcode 0xD3 (R328): 16-bit MLOOP with n in IMM16. -/
  | mloopB16Short (w : ShortWord)
  /-- Opcode 0xD4 (R328): 8-bit MLOOP with n in IMM16. -/
  | mloopB8Short (w : ShortWord)
  /-- Opcode 0xD5 (R328): 4-bit MLOOP with n in IMM16. -/
  | mloopB4Short (w : ShortWord)
  /-- Opcode 0xD6 (R329): Posts a zeroing of a tile. -/
  | mzero (w : RegWord)
  /-- Opcode 0xD7 (R331): Posts a load of tile rows from memory. -/
  | mldt (w : RegWord)
  /-- Opcode 0xD8 (R331): Posts a load of tile rows from the window. -/
  | mldtWin (w : RegWord)
  /-- Opcode 0xD9 (R332): Posts a store of tile rows in a80 to memory. -/
  | mst (w : RegWord)
  /-- Opcode 0xDA (R332): Posts a store of tile rows through a format slot. -/
  | mstSlot (w : RegWord)
  /-- Opcode 0xDB (R332): Posts a store of tile rows to the window through a slot. -/
  | mstWinSlot (w : RegWord)
  /-- Opcode 0xDC (R333): Reads a tile snapshot into registers as f32. -/
  | mrdF32 (w : RegWord)
  /-- Opcode 0xDD (R333): Reads a tile snapshot through a format slot. -/
  | mrdSlot (w : RegWord)
  /-- Opcode 0xDE (R333): Reads a tile snapshot exactly as a80. -/
  | mrdA80 (w : RegWord)
  /-- Opcode 0xDF (R334): Waits for a tile version and writes its state. -/
  | mver (w : RegWord)
  /-- Opcode 0xE0 (R342): Issues a strided fill from memory into a ring slot. -/
  | sfill (w : RegWord)
  /-- Opcode 0xE1 (R345): Opens a stream from a queue into the ring. -/
  | sfillQueue (w : RegWord)
  /-- Opcode 0xE2 (R344): Issues a strided drain from a slot to memory. -/
  | sdrain (w : RegWord)
  /-- Opcode 0xE3 (R346): Issues a drain of a slot as one queue element. -/
  | sdrainQueue (w : RegWord)
  /-- Opcode 0xE4 (R345): Releases a stream slot, or closes the stream with STOP. -/
  | srel (w : RegWord)
  /-- Opcode 0xE5 (R347): Places fence entries in the named engine queues. -/
  | sjoin (w : RegWord)
  /-- Opcode 0xE6 (R348): Waits until no copy of the group is outstanding. -/
  | swait (w : RegWord)
  /-- Opcode 0xE7 (R348): Waits until at most n copies are outstanding. -/
  | swaitCount (w : RegWord)
  /-- Opcode 0xE8 (R351): Collective gate call into another process. -/
  | gate (w : RegWord)
  /-- Opcode 0xE9 (R355): Collective return from a gate callee. -/
  | gret (w : RegWord)
  /-- Opcode 0xEA (R357): Delivers the cause TRAP with a code. -/
  | trap (w : RegWord)
  /-- Opcode 0xEB (R384): Returns from the handler, optionally past the word or abandoning the gate. -/
  | tret (w : RegWord)
  /-- Opcode 0xEC (R390): Ends a pre-emption handler's save and gives up the slot. -/
  | yield (w : RegWord)
  /-- Opcode 0xED (R358): Reads a special register. -/
  | rdsr (w : RegWord)
  /-- Opcode 0xEE (R358): Writes a special register. -/
  | wrsr (w : RegWord)
  /-- Opcode 0xEF (R357): Breakpoint trap with TRAPADDR 0x1_0000 + CODE. -/
  | brk (w : RegWord)
  /-- Scalar opcode 0x00 (R207): Scalar-slot add, register form. -/
  | scalarIadd (w : PairWord)
  /-- Scalar opcode 0x01 (R207): Scalar-slot add of a sign-extended IMM8. -/
  | scalarIaddImm (w : PairWord)
  /-- Scalar opcode 0x02 (R207): Scalar-slot subtract, register form. -/
  | scalarIsub (w : PairWord)
  /-- Scalar opcode 0x03 (R207): Scalar-slot subtract of IMM8. -/
  | scalarIsubImm (w : PairWord)
  /-- Scalar opcode 0x04 (R207): Scalar-slot multiply, register form. -/
  | scalarImul (w : PairWord)
  /-- Scalar opcode 0x05 (R207): Scalar-slot multiply by IMM8. -/
  | scalarImulImm (w : PairWord)
  /-- Scalar opcode 0x06 (R207): Scalar-slot signed high product. -/
  | scalarImulh (w : PairWord)
  /-- Scalar opcode 0x07 (R207): Scalar-slot unsigned high product. -/
  | scalarImulhN64 (w : PairWord)
  /-- Scalar opcode 0x08 (R207): Scalar-slot signed minimum, register form. -/
  | scalarImin (w : PairWord)
  /-- Scalar opcode 0x09 (R207): Scalar-slot signed minimum with IMM8. -/
  | scalarIminImm (w : PairWord)
  /-- Scalar opcode 0x0A (R207): Scalar-slot signed maximum, register form. -/
  | scalarImax (w : PairWord)
  /-- Scalar opcode 0x0B (R207): Scalar-slot signed maximum with IMM8. -/
  | scalarImaxImm (w : PairWord)
  /-- Scalar opcode 0x0C (R207): Scalar-slot unsigned minimum. -/
  | scalarIminN64 (w : PairWord)
  /-- Scalar opcode 0x0D (R207): Scalar-slot unsigned maximum. -/
  | scalarImaxN64 (w : PairWord)
  /-- Scalar opcode 0x0E (R207): Scalar-slot absolute value. -/
  | scalarIabs (w : PairWord)
  /-- Scalar opcode 0x0F (R207): Scalar-slot negation. -/
  | scalarIneg (w : PairWord)
  /-- Scalar opcode 0x10 (R207): Scalar-slot AND, register form. -/
  | scalarAnd (w : PairWord)
  /-- Scalar opcode 0x11 (R207): Scalar-slot AND with a zero-extended IMM8. -/
  | scalarAndImm (w : PairWord)
  /-- Scalar opcode 0x12 (R207): Scalar-slot OR, register form. -/
  | scalarOr (w : PairWord)
  /-- Scalar opcode 0x13 (R207): Scalar-slot OR with IMM8. -/
  | scalarOrImm (w : PairWord)
  /-- Scalar opcode 0x14 (R207): Scalar-slot XOR, register form. -/
  | scalarXor (w : PairWord)
  /-- Scalar opcode 0x15 (R207): Scalar-slot XOR with IMM8. -/
  | scalarXorImm (w : PairWord)
  /-- Scalar opcode 0x16 (R207): Scalar-slot a AND NOT b. -/
  | scalarAndn (w : PairWord)
  /-- Scalar opcode 0x17 (R207): Scalar-slot complement. -/
  | scalarNot (w : PairWord)
  /-- Scalar opcode 0x18 (R207): Scalar-slot shift left, register form. -/
  | scalarShl (w : PairWord)
  /-- Scalar opcode 0x19 (R207): Scalar-slot shift left by IMM8. -/
  | scalarShlImm (w : PairWord)
  /-- Scalar opcode 0x1A (R207): Scalar-slot logical shift right, register form. -/
  | scalarShr (w : PairWord)
  /-- Scalar opcode 0x1B (R207): Scalar-slot logical shift right by IMM8. -/
  | scalarShrImm (w : PairWord)
  /-- Scalar opcode 0x1C (R207): Scalar-slot arithmetic shift right, register form. -/
  | scalarSar (w : PairWord)
  /-- Scalar opcode 0x1D (R207): Scalar-slot arithmetic shift right by IMM8. -/
  | scalarSarImm (w : PairWord)
  /-- Scalar opcode 0x1E (R207): Scalar-slot rotate left, register form. -/
  | scalarRol (w : PairWord)
  /-- Scalar opcode 0x1F (R207): Scalar-slot rotate left by IMM8. -/
  | scalarRolImm (w : PairWord)
  /-- Scalar opcode 0x20 (R207): Scalar-slot population count. -/
  | scalarPopc (w : PairWord)
  /-- Scalar opcode 0x21 (R207): Scalar-slot count of leading zeros. -/
  | scalarClz (w : PairWord)
  /-- Scalar opcode 0x22 (R207): Scalar-slot count of trailing zeros. -/
  | scalarCtz (w : PairWord)
  /-- Scalar opcode 0x23 (R207): Scalar-slot bit reversal. -/
  | scalarBrev (w : PairWord)
  /-- Scalar opcode 0x24 (R207): Scalar-slot move. -/
  | scalarMov (w : PairWord)
  /-- Scalar opcode 0x25 (R207): Scalar-slot move of a sign-extended IMM8. -/
  | scalarMovi (w : PairWord)
  /-- Scalar opcode 0x26 (R207): Scalar-slot equality test, register form. -/
  | scalarIcmpEq (w : PairWord)
  /-- Scalar opcode 0x29 (R207): Scalar-slot equality test with IMM8. -/
  | scalarIcmpEqImm (w : PairWord)
  /-- Scalar opcode 0x27 (R207): Scalar-slot signed less-than, register form. -/
  | scalarIcmpLt (w : PairWord)
  /-- Scalar opcode 0x2A (R207): Scalar-slot signed less-than with IMM8. -/
  | scalarIcmpLtImm (w : PairWord)
  /-- Scalar opcode 0x28 (R207): Scalar-slot unsigned less-than, register form. -/
  | scalarIcmpLtN64 (w : PairWord)
  /-- Scalar opcode 0x2B (R207): Scalar-slot unsigned less-than with IMM8. -/
  | scalarIcmpLtN64Imm (w : PairWord)
  /-- Scalar opcode 0x2E (R207): Scalar-slot inequality test, register form. -/
  | scalarIcmpNe (w : PairWord)
  /-- Scalar opcode 0x2F (R207): Scalar-slot inequality test with IMM8. -/
  | scalarIcmpNeImm (w : PairWord)
  /-- Scalar opcode 0x2C (R207): Scalar-slot branch on a non-zero s-register. -/
  | scalarBruNz (w : PairWord)
  /-- Scalar opcode 0x2D (R207): Scalar-slot branch on a zero s-register. -/
  | scalarBruZ (w : PairWord)
  /-- Step COLD_BOOT (R429): Verifies the images, reads the retirement tables, numbers the units and builds the configuration record. -/
  | coldBoot (d : Nat)
  /-- Step BELAY_MIRROR_TIMEOUT (R24): The 1 s bound for reading the mirror runs out; the die goes on without it or tries again. -/
  | belayMirrorTimeout (d : Nat)
  /-- Step MIRROR_REWRITE (R24): A deferred mirror update or rewrite is made once the belay partner can be reached. -/
  | mirrorRewrite (d : Nat)
  /-- Step UNIT_OFFLINE (R20): A failing unit is put offline and the configuration record is updated. -/
  | unitOffline (d : Nat) (kind unit cause : Nat)
  /-- Step SEAM_WIDTH_CHANGE (R407): A seam or ridge port starts halving its width after lane failures. -/
  | seamWidthChange (d link : Nat)
  /-- Step SEAM_WIDTH_CHANGE_DONE (R407): The new width comes into use, and the record and events are updated. -/
  | seamWidthChangeDone (d link : Nat)
  /-- Step RIDGE_RETRAIN (R426): A ridge port retrains after too many uncorrectable FEC codewords or a failed training. -/
  | ridgeRetrain (d port : Nat) (trained : Bool)
  /-- Step EPOCH_BOUNDARY (R43): A settle interval ends: EPOCH rises and a pending INTERVAL takes effect. -/
  | epochBoundary
  /-- Step REGISTER_WRITE (R41): A write to a device register that has no row of its own. -/
  | registerWrite (d : Nat) (addr size : Nat) (value : DWord)
  /-- Step XINV_PAGE (R61): XINV with SCOPE 0 invalidates one page's translations. -/
  | xinvPage (d : Nat) (pn vpn : Nat)
  /-- Step XINV_PROCESS (R61): XINV with SCOPE 1 invalidates every page of one process. -/
  | xinvProcess (d : Nat) (pn : Nat)
  /-- Step XINV_ALL (R61): XINV with SCOPE 2 invalidates every process. -/
  | xinvAll (d : Nat)
  /-- Step XINV_COMPLETE (R61): Caches are dropped and the accesses that used them complete; BUSY clears. -/
  | xinvComplete (d : Nat)
  /-- Step ZP_CLEAR (R93): Once ZERO is accepted, the walk clears ZP and goes on. -/
  | zpClear (d : Nat) (entry : Nat)
  /-- Step ZERO_BACKGROUND (R94): The controller zeroes the remaining zero-pending sectors. -/
  | zeroBackground (d : Nat) (line : Nat)
  /-- Step REPLAY (R59): The FANS answer REPLAY runs a parked word or row again. -/
  | replay (d : Nat) (strm : Bool) (log : Nat)
  /-- Step COMPLETE (R59): The FANS answer COMPLETE supplies load results and completes the word. -/
  | complete (d : Nat) (strm : Bool) (log : Nat)
  /-- Step DECLINE (R59): The FANS answer DECLINE traps the word, or makes a row unresolvable. -/
  | decline (d : Nat) (strm : Bool) (log : Nat)
  /-- Step TRANSLATION_RETRY (R363): The TXANS answer RETRY translates a held node again. -/
  | translationRetry (d txid : Nat)
  /-- Step TRANSLATION_FAIL (R363): The TXANS answer FAIL releases the pins and reports EXTENT. -/
  | translationFail (d txid : Nat)
  /-- Step MEMSVC_READ (R141): The memory-service agent performs a READ element and replies by RPUT. -/
  | memsvcRead (d k : Nat)
  /-- Step MEMSVC_WRITE (R141): The agent performs a WRITE element and replies. -/
  | memsvcWrite (d k : Nat)
  /-- Step MEMSVC_ATOM (R141): The agent performs an ATOM element and replies with the old value. -/
  | memsvcAtom (d k : Nat)
  /-- Step MIGRATE (R62): The home agent decides a page move and rewrites its entry as REMOTE. -/
  | migrate (d k : Nat)
  /-- Step MIGRATE_PAGE_SEND (R62): After the old accesses complete, the page is sent as 16 PAGE messages. -/
  | migratePageSend (d k : Nat)
  /-- Step MOVE_END_RESUME (R63): A memory-service request waiting on a move proceeds or is answered MOVED. -/
  | moveEndResume (d k : Nat)
  /-- Step PRESENCE_RESUME (R72): A warp parked on absent lines resumes when they are present. -/
  | presenceResume (d gid warp : Nat)
  /-- Step TILE_PIN_RELEASE_RESUME (R81): A tile fetch waiting for a pin of its set goes on once one is released. -/
  | tilePinReleaseResume (d cluster : Nat)
  /-- Step BULK_PREFETCH (R84): The prefetch engine brings a range into the L2 and arrives on the counter. -/
  | bulkPrefetch (d core : Nat)
  /-- Step HBM_READ (R89): The controller reads and checks a line, correcting or poisoning it. -/
  | hbmRead (d addr : Nat) (badSymbols : Nat)
  /-- Step HBM_WRITE (R91): A sector write, plain or read-modify-write by mask. -/
  | hbmWrite (d addr : Nat) (mask : BitVec 32) (data : BitVec 256)
  /-- Step HBM_ZERO (R93): A ZERO request marks a frame zero-pending. -/
  | hbmZero (d addr : Nat)
  /-- Step HBM_AREAD (R96): An alias block is read and expanded into bf16. -/
  | hbmAread (d frame asub afmt blk : Nat)
  /-- Step HBM_AWRITE (R97): An alias write is merged, compressed, written and the line returned. -/
  | hbmAwrite (d frame asub afmt blk : Nat) (mask : DWord) (data : BitVec 512)
  /-- Step PATROL_SCRUB (R101): The controller scrubs the next sector at its current priority. -/
  | patrolScrub (d stack : Nat) (badSymbols : Nat)
  /-- Step CREATE (R111): QCMD CREATE makes a queue from a descriptor. -/
  | create (d index : Nat)
  /-- Step DESTROY (R125): QCMD DESTROY ends a queue and wakes its waiters with NOQUEUE. -/
  | destroy (d index : Nat)
  /-- Step NAMEINV (R113): QCMD NAMEINV drops cached name translations. -/
  | nameinv (d : Nat)
  /-- Step REGISTER (R143): QCMD REGISTER makes a registration VALID. -/
  | register (d : Nat)
  /-- Step REVOKE (R144): QCMD REVOKE makes a registration REVOKING. -/
  | revoke (d index : Nat)
  /-- Step CONNECT (R146): QCMD CONNECT opens a host connection on die 0. -/
  | connect (d : Nat)
  /-- Step CLOSE (R113): QCMD CLOSE makes a connection CLOSED and unbinds OUTQ. -/
  | close (d index : Nat)
  /-- Step RESV (R115): A reservation request is decided at the home port. -/
  | resv (d k : Nat)
  /-- Step GRANT (R315): A grant arrives and writes the QRES result. -/
  | grant (d k : Nat)
  /-- Step PUT (R116): A whole PUT is taken at the home port and commits or is answered. -/
  | put (d k : Nat)
  /-- Step STAT (R128): A status answer reaches the requester. -/
  | stat (d k : Nat)
  /-- Step DEQ (R122): A dequeue is served at once, refused, or placed as a waiter. -/
  | deq (d k : Nat)
  /-- Step DELIVER (R120): An element is written into the consumer and its wait completes. -/
  | deliver (d k : Nat)
  /-- Step CANCEL_MESSAGE (R124): A CANCEL message cancels a grant or a wait at the home port. -/
  | cancelMessage (d k : Nat)
  /-- Step RETRY (R129): A RETRY reaches the source of a message discarded incomplete. -/
  | retry (d k : Nat)
  /-- Step PROBE (R135): A liveness PROBE is received on a seam. -/
  | probe (d k : Nat)
  /-- Step INCARN (R134): A new incarnation is broadcast; stale translations are dropped. -/
  | incarn (d k : Nat)
  /-- Step LOSTDIE (R135): A lost-die broadcast makes the receiving port clean up that die's state. -/
  | lostdie (d k : Nat)
  /-- Step PAGE (R133): 4 KiB of a migrating page is written; the last one installs the NORMAL entry. -/
  | page (d k : Nat)
  /-- Step PAGEACK (R142): Receipt of a PAGE; after the 16th, the agent answers OK. -/
  | pageack (d k : Nat)
  /-- Step RPUT (R133): An agent's reply is committed into a reserved ticket. -/
  | rput (d k : Nat)
  /-- Step SAVE (R128): Belay traffic is written to the partner's checkpoint area or mirror. -/
  | save (d k : Nat)
  /-- Step SAVEACK (R128): Receipt of a SAVE. -/
  | saveack (d k : Nat)
  /-- Step ELEMENT_ASSIGN (R122): The port assigns one eligible element per queue per clock. -/
  | elementAssign (d index : Nat)
  /-- Step TICKET_EXPIRY (R116): A GRANTED ticket's lifetime ends and it becomes a HOLE. -/
  | ticketExpiry (d index ticket : Nat)
  /-- Step INCOMPLETE_MESSAGE_DISCARD (R129): A message still incomplete after 50 µs is discarded and RETRY is sent. -/
  | incompleteMessageDiscard (d k : Nat)
  /-- Step DONE_RECORD_EXPIRY (R129): A message's done record lapses after 10 ms. -/
  | doneRecordExpiry (d k : Nat)
  /-- Step TRANSIT_SPILL_DISCARD (R129): A fragment held 5 ms in a transit spill is discarded. -/
  | transitSpillDiscard (d k : Nat)
  /-- Step PROBE_SEND (R135): A PROBE is sent on a seam idle for 100 µs. -/
  | probeSend (d link : Nat)
  /-- Step DIE_LOST (R135): A die silent for 1 ms is declared lost and LOSTDIE is broadcast. -/
  | dieLost (d lost : Nat)
  /-- Step TARGET_LOST_TIMEOUT (R135): A request to another package has no answer in time and its target is declared lost. -/
  | targetLostTimeout (d pkg die : Nat)
  /-- Step HOST_DATA (R148): An inbound DATA datagram reserves and puts its elements on INQ. -/
  | hostData (frame : List Byte)
  /-- Step HOST_ACK (R147): An inbound ACK advances SNDUNA and adjusts CWND and SRTT. -/
  | hostAck (frame : List Byte)
  /-- Step HOST_ACK_SEND (R148): The host port sends an ACK for accepted DATA. -/
  | hostAckSend (conn : Nat)
  /-- Step HOST_DATA_SEND (R147): The host port sends outbound elements within the window. -/
  | hostDataSend (conn : Nat)
  /-- Step RTO_TIMEOUT (R147): A retransmission timeout halves CWND, retransmits and doubles RTO. -/
  | rtoTimeout (conn : Nat)
  /-- Step NEIGHBOUR_DISCOVERY (R420): The host port answers neighbour discovery for its two addresses. -/
  | neighbourDiscovery (target : BitVec 128)
  /-- Step STAGED_COMMIT (R168): A restartable node's last group retires and its tentative lines begin to commit. -/
  | stagedCommit (d node : Nat)
  /-- Step COMMIT_COMPLETE (R168): The commit completes; the node's arrivals are made. -/
  | commitComplete (d node : Nat)
  /-- Step IRREVOCABLE_RESUME (R170): An instruction held for the commit takes effect, and the node turns irrevocable. -/
  | irrevocableResume (d node : Nat)
  /-- Step CHECKPOINT (R404): A consistent checkpoint image is written to the belay partner. -/
  | checkpoint (d : Nat)
  /-- Step RECORD_TAKE (R360): The scheduler takes a record and runs its check, cancel, gate and signal stages. -/
  | recordTake (d : Nat)
  /-- Step TRANSLATE (R360): The Translate stage reads the extent list and FMT block and translates the extents. -/
  | translate (d txid : Nat)
  /-- Step GROUP_PLACE (R366): A new or restorable group is placed in a free slot. -/
  | groupPlace (d : Nat)
  /-- Step SLOT_FREE (R196): A group whose threads have exited frees its slot and passes its work to the tracker. -/
  | slotFree (d gid : Nat)
  /-- Step TRACKER_DRAIN (R196): A tracker entry drains; the group is complete and arrives. -/
  | trackerDrain (d gid : Nat)
  /-- Step REBALANCE (R188): Every 10 µs, up to one slot moves between pipeline stages. -/
  | rebalance (d : Nat)
  /-- Step WATCHDOG (R193): A warp's watchdog counter reaches its limit and a WATCHDOG trap is delivered. -/
  | watchdog (d gid warp : Nat)
  /-- Step WATCHDOG_KILL (R193): The handler does not finish in time and the group is killed. -/
  | watchdogKill (d gid : Nat)
  /-- Step CAIRN_FORM (R195): The cairn former makes one warp from a cairn. -/
  | cairnForm (d gid : Nat)
  /-- Step WAIT_LIMIT (R281): The LIM of a WAIT passes and the thread resumes with pd := 0. -/
  | waitLimit (d gid thread : Nat)
  /-- Step SLEEP_END (R282): A SLEEP's cycle count passes. -/
  | sleepEnd (d gid thread : Nat)
  /-- Step CWAIT_TIMEOUT (R304): A CWAIT limit passes and TIMEOUT is written. -/
  | cwaitTimeout (d gid warp : Nat)
  /-- Step PENDING_LAUNCH_DRAIN (R310): The head of the pending-launch queue reserves and puts its record. -/
  | pendingLaunchDrain (d core : Nat)
  /-- Step LAUNCH_RESERVE_RETRY (R310): A pending launch refused FULL reserves again within 4 µs. -/
  | launchReserveRetry (d core : Nat)
  /-- Step MATRIX_PASS_GRANT (R375): The arbiter grants the next pass. -/
  | matrixPassGrant (d cluster : Nat)
  /-- Step MATRIX_PASS_END (R323): A pass ends; VER advances when its operation completes. -/
  | matrixPassEnd (d cluster : Nat)
  /-- Step STREAM_FILL_ROW (R342): The engine copies a fill row into its slot. -/
  | streamFillRow (d core copy row : Nat)
  /-- Step STREAM_DRAIN_ROW (R344): The engine writes a drain row from its slot to memory. -/
  | streamDrainRow (d core copy row : Nat)
  /-- Step STREAM_SLOT_DEQ (R345): An open stream sends a DEQ wait for the next free ring slot. -/
  | streamSlotDeq (d core copy : Nat)
  /-- Step DRAIN_QUEUE_PUT (R346): The drain engine reserves and puts a slot as one element. -/
  | drainQueuePut (d core copy : Nat)
  /-- Step DRAIN_RESERVE_RETRY (R346): A queue drain refused FULL reserves again within 4 µs. -/
  | drainReserveRetry (d core copy : Nat)
  /-- Step GRET_COMPLETE (R355): After the callee's engine operations complete, results are copied back and the caller is restored. -/
  | gretComplete (d gid : Nat)
  /-- Step GATE_TIMEOUT (R355): A gate's LIMIT passes and the gate ends with TIMEOUT. -/
  | gateTimeout (d gid level : Nat)
  /-- Step SWAP_OUT (R368): A swappable victim is pre-empted so that a candidate can be placed. -/
  | swapOut (d : Nat)
  /-- Step SWAP_RESTORABLE (R369): SWAPTH after swap-out, a QWAIT or LAUNCH waiter becomes restorable. -/
  | swapRestorable (d gid : Nat)
  /-- Step PREEMPT_FORCED_SAVE (R391): A handler that has not yielded in 100 µs is saved by forced save. -/
  | preemptForcedSave (d gid : Nat)
  /-- Step POISON_HANDLER_TIMEOUT (R400): A consuming group's diagnosis time of 100 µs ends and it is killed. -/
  | poisonHandlerTimeout (d gid : Nat)
  /-- Step WARM_RESET (R406): The die restarts from its partner's checkpoint and replays the log. -/
  | warmReset (d : Nat) (planned : Bool)
  /-- Step FREQ_CHANGE (R409): A frequency point change starts and issue pauses. -/
  | freqChange (d point : Nat)
  /-- Step FREQ_CHANGE_DONE (R409): The new frequency point is in force. -/
  | freqChangeDone (d : Nat)
  /-- Step THERMAL_CHECK (R435): A 1 ms power and temperature check steps a die down or up, or retires it. -/
  | thermalCheck (readings : List Thermal)
  /-- Step LINK_FRAME (R425): A link frame is received, checked, acknowledged and its flits are taken in. -/
  | linkFrame (d link : Nat) (rx : LinkRx)
  /-- Step LINK_REPLAY_TIMEOUT (R425): ACKSEQ fails to advance and the sender replays its frames. -/
  | linkReplayTimeout (d link : Nat)
  /-- Step MGMT_SESSION (R423): Opens a management session with a wrapped key. -/
  | mgmtSession (frame : List Byte)
  /-- Step MGMT_PROC (R423): Writes a process-table and header entry, then invalidates. -/
  | mgmtProc (frame : List Byte)
  /-- Step MGMT_MAP (R423): Writes level-four entries, then XINV. -/
  | mgmtMap (frame : List Byte)
  /-- Step MGMT_QUEUE (R423): Runs a queue-port command on the target die. -/
  | mgmtQueue (frame : List Byte)
  /-- Step MGMT_LOAD (R423): Writes bytes through a process's table with domain-0 rights. -/
  | mgmtLoad (frame : List Byte)
  /-- Step MGMT_ENQUEUE (R423): Puts a record in the target die's task queue. -/
  | mgmtEnqueue (frame : List Byte)
  /-- Step MGMT_RESET (R423): Orders a planned warm reset. -/
  | mgmtReset (frame : List Byte)
  /-- Step MGMT_ATTEST (R430): Replies with a signed attestation report. -/
  | mgmtAttest (frame : List Byte)
  /-- Step MGMT_READ (R423): Returns the configuration record, retirement table, error log or certificate. -/
  | mgmtRead (frame : List Byte)
  /-- Step MGMT_FREQ (R423): Sets the requested frequency point. -/
  | mgmtFreq (frame : List Byte)
  /-- Step MGMT_CLOSE (R423): Erases the session key. -/
  | mgmtClose (frame : List Byte)
  /-- Step MGMT_REG (R423): Reads or writes one device register as the management core. -/
  | mgmtReg (frame : List Byte)
  /-- Step MGMT_PWRITE (R423): Writes bytes into the target die's general memory. -/
  | mgmtPwrite (frame : List Byte)
  /-- Step TAMPER (R432): The tamper mesh opens or shorts and every die goes to alarm level 3. -/
  | tamper
  /-- Step GLITCH (R432): A voltage or clock glitch raises the alarm to level 2, or 3 on the third. -/
  | glitch (d : Nat)
  /-- Step TEMPERATURE_ALARM (R432): A sensor beyond the limits raises the alarm to level 2. -/
  | temperatureAlarm (d : Nat) (celsius : Int)
  /-- Step FRAME_ALIGNMENT_FOUND (R424): A receiver that is searching for frame alignment finds the block offset, mod 34, at which 8 consecutive frames pass their CRC, and starts taking frames again. -/
  | frameAlignmentFound (d link offset : Nat)
  /-- Step UNSIGNED_PERSISTENT_WRITE (R432): A write to the persistent tables or the flash that the management core's own signed update did not make raises the alarm to level 2. -/
  | unsignedPersistentWrite (d : Nat)
deriving DecidableEq, Repr, Inhabited

end Sys2Proof
end

