-- ==== Sys2Proof/Config.lean ====
section
/-! DEFINITION. What an implementation fixes, and the values the spec leaves open. Every `opaque` here has no
body: nothing can be proved of its value (log entries 2 to 9). -/

namespace Sys2Proof

/-- An uncorrectable error in a die's storage (R394), or a disagreement of roped issue (R393). -/
inductive Strike where
  /-- A word of a group's slot partition in the core store, with two bits in error (R70). -/
  | word (gid k : Nat)
  /-- An s-register of a warp in the uniform file. -/
  | sreg (gid warp n : Nat)
  /-- A group's predicates, its scoreboard, or its issue state. -/
  | predicates (gid : Nat)
  | scoreboard (gid : Nat)
  | issueState (gid : Nat)
  /-- An entry of a node's extent table. -/
  | extent (node : Nat)
  /-- An entry of a core's instruction cache, L1 or translation cache. -/
  | icache (core k : Nat)
  | l1 (core k : Nat)
  | tcache (core k : Nat)
  /-- A sector, 0 or 1, of the data of one of the die's L2 lines, by its place in the list of them (R436). -/
  | l2 (k sector : Nat)
  /-- The accumulator words of a group's tile (R238). -/
  | tile (gid tile : Nat)
  /-- The 8 bytes of an element in a queue's window SRAM that hold a word. -/
  | element (index ticket word : Nat)
  /-- The second execution of the last per-lane word of a core disagrees in these lanes (R393). -/
  | rope (core : Nat) (lanes : BitVec 32)
deriving DecidableEq, Repr, Inhabited

/-- Who moves next: a core's warp scheduler issues one word (R373), time passes on a die, one of the device's own steps
takes place, or an error strikes a die's storage (R394). -/
inductive Turn where
  | issue (d core : Nat)
  | time (d clocks : Nat)
  | event (i : Instr)
  | strike (d : Nat) (e : Strike)
deriving DecidableEq, Repr, Inhabited

/-- What the operator configuration image gives the host port: the public key that SESSION is checked with, and the addresses
(R420, R421, R423, R428). -/
structure Operator where
  key : List Byte
  unicast : BitVec 128
  linkLocal : BitVec 128
  tag : Option (BitVec 12)
  mgmtPort : BitVec 16
deriving DecidableEq, Repr, Inhabited

namespace Config

/-- The turn taken when the agenda lists none: the spec orders the device's agents only within bounds (R12), so
any order may come (log entry 2). -/
opaque freeTurn : Nat → Turn
/-- A value the spec calls undefined: the elements of a poisoned tile (R238). -/
opaque freeElement : Nat → BitVec 80
/-- Whether a cached translation or instruction line is still in use before its invalidation is complete
(R61, R74, R108): either is allowed. -/
opaque freeKeep : Nat → Bool
/-- The core whose translation cache a walk at dispatch reads through (R61), by free number and page. -/
opaque freeCache : Nat → Nat → Nat
/-- Whether a K-step's checker column differs twice in a row (R237): a hardware error, which may come at any step. -/
opaque freeMismatch : Nat → Bool
/-- Whether a read with three or more symbols in error is miscorrected (R89): either is allowed. -/
opaque freeMiscorrect : Nat → Bool
/-- The data that accompanies a poisoned read (R89, R393): the spec gives no value. -/
opaque freeByte : Nat → Byte
/-- Which of the ALU lanes that can have disagreed a roped repeat names (R393): a hardware event. -/
opaque freeLane : Nat → BitVec 5
/-- Whether a slice fails to write its dirty lines back in an unplanned reset, or cannot identify them as it goes offline
(R83, R406): a hardware event. -/
opaque freeLost : Nat → Bool
/-- The bytes of a save record's state part, by save and offset: its layout is the device's own (R392). -/
opaque saveByte : Nat → Nat → Byte
/-- The length of the payload of a checkpoint or log SAVE, and the number of SAVEs that an image takes: the spec gives the
layout of neither (R404, R405). -/
opaque saveLen : Nat → Nat
opaque imageParts : Nat → Nat
/-- The units that self-test finds dead at a cold boot, by KIND and UNIT (R16 to R18, R22): a hardware event. -/
opaque selfTest : Nat → List (Nat × Nat)
/-- The L1 set of a line (R73 gives the number of sets and not the index). -/
opaque l1Set : Nat → Nat
/-- The SHA-512 digest of the Calgal release key that ROM holds (R428). -/
opaque romDigest : List Byte
/-- Whether an image's SIG verifies under a key, over what it signs (R428): key, signed bytes, SIG. -/
opaque imageSigOk : List Byte → List Byte → List Byte → Bool
/-- The contents of the operator configuration's body (R428 gives no layout). -/
opaque operatorConf : List Byte → Operator
/-- The unwrapping of R423's session key under die 0's identity key: wrapped bytes to the key, if it unwraps. -/
opaque unwrapKey : List Byte → Option (List Byte)
/-- Whether the operator's signature verifies under the operator's public key (R423): key, the wrapped key with SEQ, signature. -/
opaque sessionSigOk : List Byte → List Byte → List Byte → Bool
/-- The die's identity signature (R430). -/
opaque identitySign : Nat → List Byte → List Byte
/-- The identity certificate of a die (R423, READ selector 3). -/
opaque certificate : Nat → List Byte
/-- A connection's index at its peer (R145), which CONNECT does not give. -/
opaque peerConn : Nat → BitVec 16
/-- The process a record enqueued by the management core belongs to (R179, R423: MGMT_ENQUEUE names none). -/
opaque enqueuePn : Nat → BitVec 12
end Config
end Sys2Proof
end

