-- ==== Sys2Proof/WellFormed.lean ====
section
/-! DEFINITION. Which words are well formed: the decode checks 2 to 6 of R213. `Instr.sig` says for each
instruction which kinds every operand field takes and how wide it is, as R240 to R358 describe; the checks, the
operand reads, the scoreboard and the poison test all go through it. -/

namespace Sys2Proof

/-- The kinds of operand byte that a field may take (R206). `vary` stands for LANE and ROW. -/
inductive Take where
  | v | s | p | h | mt | fs | zero | ones | warp | vary | lit
deriving DecidableEq, Repr, Inhabited

/-- The kind of an operand byte. -/
def Operand.take : Operand → Take
  | .v _ => .v
  | .s _ => .s
  | .p _ => .p
  | .h _ => .h
  | .mt _ => .mt
  | .fs _ => .fs
  | .zero => .zero
  | .ones => .ones
  | .warpNo => .warp
  | .laneNo => .vary
  | .rowNo => .vary
  | .lit => .lit

/-- One operand field of a word. -/
inductive Fld where
  /-- Not used: the byte is 0x00 (R201). -/
  | unused
  /-- Bits of the immediate stand in source B's place (R201, R240). -/
  | const (x : BitVec 64)
  /-- An operand of `width` bits; a v-register covers `regs` registers from a base that is a multiple of
  `align` (R206). -/
  | operand (takes : List Take) (width regs align : Nat)
deriving DecidableEq, Repr, Inhabited

/-- Any readable value (R206, R240). -/
def anyKind : List Take := [.v, .s, .zero, .ones, .warp, .vary, .lit]
/-- The uniform kinds (R286, R266). -/
def uniKind : List Take := [.s, .zero, .ones, .warp, .lit]

/-- A field of the given kinds and width, held in one register, a pair or a quad. -/
def Fld.of (takes : List Take) (width : Nat) : Fld :=
  .operand takes width (if width ≤ 32 then 1 else width / 32) (if width ≤ 32 then 1 else width / 32)

/-- A value source. -/
def Fld.any (width : Nat) : Fld := .of anyKind width
/-- A uniform source. -/
def Fld.uni (width : Nat) : Fld := .of uniKind width
/-- The address of a memory instruction or the target of a jump (R284, R272). -/
def Fld.addr : Fld := .of [.v, .s, .zero, .lit] 64
/-- A destination that may be uniform. -/
def Fld.dstAny (width : Nat) : Fld := .of [.v, .s, .zero] width
/-- A per-lane destination. -/
def Fld.dstLane (width : Nat) : Fld := .of [.v, .zero] width
/-- The destination of a uniform instruction (R286). -/
def Fld.dstUni : Fld := .of [.s, .zero] 64
/-- A predicate destination (R250). -/
def Fld.dstPred : Fld := .of [.p, .zero] 1
/-- A predicate source. -/
def Fld.pred : Fld := .of [.p] 1
/-- A handle. -/
def Fld.handle : Fld := .of [.h] 1
/-- A tile. -/
def Fld.tile : Fld := .of [.mt] 1
/-- A format slot. -/
def Fld.slot : Fld := .of [.fs] 1

/-- What R201 to R206 and an instruction's description say of its word. -/
structure Sig where
  dst : Fld := .unused
  sa : Fld := .unused
  sb : Fld := .unused
  sc : Fld := .unused
  /-- The bits of 15:0 that the description defines. -/
  imm : Nat := 0
  /-- R203 permits MOD. -/
  mod : Bool := true
  /-- R241: the sub-modifier fields hold listed values. -/
  legal : Bool := true
  /-- R211: the predicates that it reads, and those that it writes, beside its operand fields and its guard: bit n for pn. -/
  predIn : Nat := 0
  predOut : Nat := 0
deriving DecidableEq, Repr, Inhabited

/-- The operation width of R240. -/
def opw (m : BitVec 2) : Nat := if m[0] then 64 else 32

/-- R203: MOD 49 UNS must be 0. -/
def noUns (m : BitVec 2) : Bool := !m[1]

/-- The width of a value of an element type (R227, R260): i64, n64 and f64 take a pair. -/
def typeWidth (t : Nat) : Nat := if t = 4 ∨ t = 8 ∨ t = 0x13 then 64 else 32

/-- R227: the integer types. -/
def isIntType (t : Nat) : Bool := 1 ≤ t && t ≤ 8
/-- R227: the float types other than a80. -/
def isFloatType (t : Nat) : Bool := 0x10 ≤ t && t ≤ 0x15

/-- IMM16 sign-extended (R240). -/
def immS (w : ShortWord) : BitVec 64 := w.imm.signExtend 64
/-- IMM32 as source B at the operation width (R240). -/
def immW (w : WideWord) : BitVec 64 := w.imm.signExtend 64

/-- Three-address integer word, register form (R243, R246). -/
def sigBin (w : RegWord) (uns : Bool) : Sig :=
  { dst := .dstAny (opw w.mod), sa := .any (opw w.mod), sb := .any (opw w.mod), mod := uns || noUns w.mod }
/-- The same in the wide form. -/
def sigBinWide (w : WideWord) (uns : Bool) : Sig :=
  { dst := .dstAny (opw w.mod), sa := .any (opw w.mod), sb := .const (immW w), mod := uns || noUns w.mod }
/-- Unary word. -/
def sigUn (w : RegWord) : Sig :=
  { dst := .dstAny (opw w.mod), sa := .any (opw w.mod), mod := noUns w.mod }
/-- Word with three sources. -/
def sigTri (w : RegWord) (uns : Bool) (imm : Nat) : Sig :=
  { dst := .dstAny (opw w.mod), sa := .any (opw w.mod), sb := .any (opw w.mod), sc := .any (opw w.mod), imm := imm,
    mod := uns || noUns w.mod }
/-- The same in the short form. -/
def sigTriShort (w : ShortWord) (uns : Bool) : Sig :=
  { dst := .dstAny (opw w.mod), sa := .any (opw w.mod), sb := .const (immS w), sc := .any (opw w.mod), imm := 0xFFFF,
    mod := uns || noUns w.mod }

/-- COMB and COND of R250; SC is a predicate when COMB is not 0. -/
def sigCmp (w : RegWord) (width : Nat) (maxCond : Nat) (mod : Bool) : Sig :=
  { dst := .dstPred, sa := .any width, sb := .any width,
    sc := if bits w.imm.toNat 4 3 = 0 then .unused else .pred, imm := 0x1F, mod := mod,
    legal := bits w.imm.toNat 4 3 != 3 && bits w.imm.toNat 2 0 ≤ maxCond }

/-- Floating-point word with `n` sources of one width (R254). -/
def sigFloat (width n : Nat) (round : Bool) (w : RegWord) : Sig :=
  { dst := .dstAny width, sa := .any width, sb := if 2 ≤ n then .any width else .unused,
    sc := if 3 ≤ n then .any width else .unused, mod := round || w.mod == 0 }

/-- DTYPE or the other type: bits 7:0. -/
def lowType (w : RegWord) : Nat := bits w.imm.toNat 7 0
/-- STYPE or the first type: bits 15:8. -/
def highType (w : RegWord) : Nat := bits w.imm.toNat 15 8

/-- CVT (R261). -/
def sigCvt (w : RegWord) (from? to? : Nat → Bool) (round : Bool) : Sig :=
  { dst := .dstAny (typeWidth (lowType w)), sa := .any (typeWidth (highType w)), imm := 0xFFFF,
    mod := round || w.mod == 0, legal := from? (highType w) && to? (lowType w) }

/-- PACK (R263). -/
def sigPack (w : RegWord) (slot k4 : Bool) : Sig :=
  { dst := .of [.v] 32, sa := .any 32, sc := if slot then .slot else .unused, imm := if k4 then 0xFF13 else 0xFF10,
    mod := !slot || w.mod == 0, legal := 0x10 ≤ highType w && highType w ≤ 0x12 }
/-- UNPK (R264). -/
def sigUnpk (w : RegWord) (slot : Bool) : Sig :=
  { dst := .of [.v] 32, sa := .any 32, sc := if slot then .slot else .unused, imm := 0xFF10, mod := w.mod == 0,
    legal := 0x10 ≤ highType w && highType w ≤ 0x12 }

/-- SHFL (R267). -/
def sigShfl (w : RegWord) (fill : Bool) : Sig :=
  { dst := .dstLane (opw w.mod), sa := .any (opw w.mod), sb := .any (opw w.mod),
    sc := if fill then .any (opw w.mod) else .unused, imm := 7, mod := noUns w.mod, legal := bits w.imm.toNat 2 0 ≤ 5 }
/-- SHFL short (R267). -/
def sigShflShort (w : ShortWord) (fill : Bool) : Sig :=
  { dst := .dstLane (opw w.mod), sa := .any (opw w.mod), sb := .const (immS w),
    sc := if fill then .any (opw w.mod) else .unused, imm := 0x71F, mod := noUns w.mod,
    legal := bits w.imm.toNat 10 8 ≤ 5 }

/-- LD of `width` register bits (R288). -/
def sigLd (width : Nat) (uniform : Bool) : Sig :=
  { dst := if uniform then .dstAny width else .dstLane width, sa := .addr, sb := .any 32, imm := 0xFFFF }
/-- LD.win (R288). -/
def sigLdWin (w : RegWord) (width : Nat) : Sig :=
  { dst := .dstLane width, sa := .any 32, sb := .any 32, imm := 0xFFFF, mod := w.mod == 0 }
/-- ST (R288). -/
def sigSt (data : Fld) : Sig :=
  { sa := .addr, sb := .any 32, sc := data, imm := 0xFFFF }
/-- ST.win (R288). -/
def sigStWin (w : RegWord) (data : Fld) : Sig :=
  { sa := .any 32, sb := .any 32, sc := data, imm := 0xFFFF, mod := w.mod == 0 }
/-- A quad or ZERO (R288). -/
def quadData : Fld := .of [.v, .zero] 128

/-- AOP, bits 3:0 of an ATOM (R293). -/
def atomOp (w : RegWord) : Nat := bits w.imm.toNat 3 0
/-- ATOM (R293). -/
def sigAtom (w : RegWord) (width : Nat) (win : Bool) : Sig :=
  { dst := .dstLane width, sa := if win then .any 32 else .addr, sb := .any width,
    sc := if atomOp w = 7 ∨ atomOp w = 8 then .any width else .unused, imm := 0x0FFF, mod := !win || w.mod == 0,
    predOut := if w.imm[11] then 2 ^ bits w.imm.toNat 10 8 else 0,
    legal := atomOp w ≤ 9 && (!w.imm[11] || atomOp w == 7 || atomOp w == 8)
      && (w.imm[11] || bits w.imm.toNat 10 8 == 0)
      && (!w.imm[7] || atomOp w == 1 || atomOp w == 2 || atomOp w == 8) }

/-- A uniform instruction of rows 0xA_ to 0xE_ (R286): MOD is 0. -/
def sigUni (w : RegWord) (dst sa sb sc : Fld) (imm : Nat := 0) (legal : Bool := true) : Sig :=
  { dst := dst, sa := sa, sb := sb, sc := sc, imm := imm, mod := w.mod == 0, legal := legal }

/-- MLOOP short: n is IMM16 unsigned (R324). -/
def sigMloopShort (w : ShortWord) : Sig :=
  { dst := .dstUni, sa := .tile, sb := .const (w.imm.zeroExtend 64), sc := .uni 32, imm := 0xFFFF, mod := w.mod == 0 }

/-- TYPE of MLDT (R330). -/
def mldtType (t : Nat) : Bool := isIntType t || isFloatType t || t == 0x30

/-- MRD: `c` registers a row (R333). -/
def sigMrd (w : RegWord) (c : Nat) (fs : Bool) : Sig :=
  { dst := .operand [.v] (32 * c) (c * (bits w.imm.toNat 3 0 + 1)) c, sa := .tile, sb := .uni 32, sc := .uni 32,
    imm := if fs then 0x7F else 0xF, mod := w.mod == 0 }

/-- R208: the special registers of Thread scope. -/
def threadScope (n : Nat) : Bool := n == 0 || n == 1 || n == 0x0A
/-- R208: the special registers that WRSR may write. -/
def writableSpecial (n : Nat) : Bool := n == 0x0B || n == 0x0F || n == 0x10 || n == 0x12

/-- The vector slot of a P word as the F word that it executes as (R205). -/
def PairWord.vector (p : PairWord) : RegWord :=
  { guard := p.guard, mod := 0, dst := p.vdst, sa := p.vsa, sb := p.vsb, sc := .v 0, imm := 0, lit := none }

/-- The signature of a pairable opcode (R205). -/
def VOp.sig (o : VOp) (w : RegWord) : Sig :=
  match o with
  | .not | .popc | .clz | .mov => sigUn w
  | .fadd | .fsub | .fmul | .fmin | .fmax => sigFloat 32 2 true w
  | .iadd | .isub | .imul | .imin | .imax | .and | .or | .xor | .andn | .orn | .shl | .shr | .sar | .rol => sigBin w true

/-- The signature of every instruction. `slot64` says that the format slot it names holds a 64-bit type, which
only CVTS and MRD slot ask (R260, R333). DESIGN CHOICE, of three sentences that could limit an operand's kinds: R245's on LEA does,
so its 64-bit operands are a v-pair, an s-register, or LIT for a (log entry 125); R254's on an f64 operand says how a register holds
one, and the kinds that R202 lists besides are taken (log entry 126); R251's on SEL shuts an s-register out as destination, and ZERO
is taken (log entry 127). -/
def Instr.sig (slot64 : Bool) (i : Instr) : Sig :=
  match i with
  | .iadd w | .isub w | .imul w | .and w | .or w | .xor w | .andn w | .orn w | .shl w | .shr w | .sar w
  | .rol w => sigBin w false
  | .imulh w | .imin w | .imax w | .bfx w => sigBin w true
  | .iaddWide w | .isubWide w | .imulWide w | .andWide w | .orWide w | .xorWide w | .andnWide w | .ornWide w
  | .shlWide w | .shrWide w | .sarWide w | .rolWide w => sigBinWide w false
  | .iminWide w | .imaxWide w | .bfxWide w => sigBinWide w true
  | .iaddc w => { sigBin w false with dst := .dstLane (opw w.mod), predIn := 0x40, predOut := 0x40 }
  | .iaddcWide w => { sigBinWide w false with dst := .dstLane (opw w.mod), predIn := 0x40, predOut := 0x40 }
  | .iabs w | .ineg w | .not w | .popc w | .clz w | .ctz w | .brev w | .mov w => sigUn w
  | .imad w | .shf w | .bfi w => sigTri w false 0
  | .isad w => sigTri w true 0
  | .lop3 w => sigTri w false 0x1FF
  | .imadShort w | .shfShort w | .bfiShort w => sigTriShort w false
  | .isadShort w => sigTriShort w true
  | .imadw w => { dst := .dstAny 64, sa := .any 32, sb := .any 32, sc := .any 64, legal := !w.mod[0] }
  | .imadwShort w =>
      { dst := .dstAny 64, sa := .any 32, sb := .const (immS w), sc := .any 64, imm := 0xFFFF, legal := !w.mod[0] }
  | .lea w =>
      { dst := .of [.v, .s] 64, sa := .of [.v, .s, .lit] 64, sb := .any (opw w.mod), imm := 7, mod := noUns w.mod }
  | .leaWide w => { dst := .of [.v, .s] 64, sa := .of [.v, .s] 64, sb := .const (immW w), mod := noUns w.mod }
  | .prmt w =>
      { dst := .dstAny 32, sa := .any 32, sb := .any 32, sc := .any 32, mod := noUns w.mod, legal := !w.mod[0] }
  | .prmtShort w =>
      { dst := .dstAny 32, sa := .any 32, sb := .const (w.imm.zeroExtend 64), sc := .any 32, imm := 0xFFFF,
        mod := noUns w.mod, legal := !w.mod[0] }
  | .icmp w => sigCmp w (opw w.mod) 5 true
  | .sel w =>
      { dst := .dstAny (opw w.mod), sa := .any (opw w.mod), sb := .any (opw w.mod), sc := .pred, mod := noUns w.mod }
  | .selShort w =>
      { dst := .dstAny (opw w.mod), sa := .any (opw w.mod), sb := .const (immS w), sc := .pred, imm := 0xFFFF,
        mod := noUns w.mod }
  | .pset w => { dst := .dstPred, sa := .pred, sb := .pred, imm := 0xF, mod := w.mod == 0 }
  | .pmov w =>
      if w.imm[0] then { sa := .any 32, imm := 0x7F01, mod := w.mod == 0, predOut := bits w.imm.toNat 14 8 }
        else { dst := .dstLane 32, imm := 1, mod := w.mod == 0, predIn := 0x7F }
  | .faddF32 w | .fsubF32 w | .fmulF32 w => sigFloat 32 2 true w
  | .ffmaF32 w => sigFloat 32 3 true w
  | .fminF32 w | .fmaxF32 w => sigFloat 32 2 false w
  | .fcmpF32 w => sigCmp w 32 7 (w.mod == 0)
  | .fclassF32 w => { dst := .dstPred, sa := .any 32, imm := 0x1FF, mod := w.mod == 0 }
  | .frcpF32 w | .frsqF32 w | .fsqrtF32 w | .fexp2F32 w | .flog2F32 w | .frndF32 w => sigFloat 32 1 true w
  | .fscaleF32 w => { sigFloat 32 1 true w with sb := .any 32 }
  | .faddF64 w | .fsubF64 w | .fmulF64 w => sigFloat 64 2 true w
  | .ffmaF64 w => sigFloat 64 3 true w
  | .fminF64 w | .fmaxF64 w => sigFloat 64 2 false w
  | .fcmpF64 w => sigCmp w 64 7 (w.mod == 0)
  | .fclassF64 w => { dst := .dstPred, sa := .any 64, imm := 0x1FF, mod := w.mod == 0 }
  | .frcpF64 w | .frsqF64 w | .fsqrtF64 w | .fexp2F64 w | .flog2F64 w | .frndF64 w => sigFloat 64 1 true w
  | .fscaleF64 w => { sigFloat 64 1 true w with sb := .any 32 }
  | .ffmaF16x2 w | .ffmaBf16x2 w => sigFloat 32 3 true w
  | .cvtFF w => sigCvt w isFloatType isFloatType true
  | .cvtIF w => sigCvt w isIntType isFloatType true
  | .cvtFI w => sigCvt w isFloatType isIntType true
  | .cvtII w => sigCvt w isIntType isIntType false
  | .cvtsTo w =>
      { dst := .dstAny (if slot64 then 64 else 32), sa := .any (typeWidth (lowType w)), sc := .slot, imm := 0xFF,
        mod := w.mod == 0, legal := isIntType (lowType w) || isFloatType (lowType w) }
  | .cvtsFrom w =>
      { dst := .dstAny (typeWidth (lowType w)), sa := .any (if slot64 then 64 else 32), sc := .slot, imm := 0xFF,
        mod := w.mod == 0, legal := isIntType (lowType w) || isFloatType (lowType w) }
  | .packMx4 w | .packMx8e4 w | .packMx8e5 w => sigPack w false false
  | .packK4 w => sigPack w false true
  | .packSlot w => sigPack w true false
  | .unpkMx4 w | .unpkMx8e4 w | .unpkMx8e5 w | .unpkK4 w => sigUnpk w false
  | .unpkSlot w => sigUnpk w true
  | .movi w => { dst := .dstAny (opw w.mod), sb := .const (immW w), mod := noUns w.mod }
  | .bcast w | .lane w => { dst := .dstLane (opw w.mod), sa := .any (opw w.mod), sb := .uni 32, mod := noUns w.mod }
  | .shflIdx w | .shflXor w => sigShfl w false
  | .shflRise w | .shflFall w => sigShfl w true
  | .shflIdxShort w | .shflXorShort w => sigShflShort w false
  | .shflRiseShort w | .shflFallShort w => sigShflShort w true
  | .vote w =>
      { dst := if bits w.imm.toNat 2 0 ≤ 1 then .dstLane 32 else .dstPred, sa := .pred, imm := 0xF, mod := w.mod == 0,
        legal := bits w.imm.toNat 2 0 ≤ 4 }
  | .reduxInt w =>
      { dst := .dstLane (opw w.mod), sa := .any (opw w.mod), imm := 0xF7,
        legal := bits w.imm.toNat 2 0 ≤ 5 && bits w.imm.toNat 6 4 ≤ 5 }
  | .reduxFloat w =>
      { dst := .dstLane (if w.imm[2] then 64 else 32), sa := .any (if w.imm[2] then 64 else 32), imm := 0xF7,
        legal := bits w.imm.toNat 1 0 ≤ 2 && bits w.imm.toNat 6 4 ≤ 5 }
  | .matchLanes w => { dst := .dstLane 32, sa := .any (opw w.mod), imm := 1, mod := noUns w.mod }
  | .ldB _ | .ldBI8 _ | .ldH _ | .ldHI16 _ | .ldW _ => sigLd 32 true
  | .ldD _ => sigLd 64 true
  | .ldQ _ => sigLd 128 false
  | .ldBWin w | .ldBI8Win w | .ldHWin w | .ldHI16Win w | .ldWWin w => sigLdWin w 32
  | .ldDWin w => sigLdWin w 64
  | .ldQWin w => sigLdWin w 128
  | .stB _ | .stH _ | .stW _ => sigSt (.any 32)
  | .stD _ => sigSt (.any 64)
  | .stQ _ => sigSt quadData
  | .stBWin w | .stHWin w | .stWWin w => sigStWin w (.any 32)
  | .stDWin w => sigStWin w (.any 64)
  | .stQWin w => sigStWin w quadData
  | .atomW w => sigAtom w 32 false
  | .atomD w => sigAtom w 64 false
  | .atomWWin w => sigAtom w 32 true
  | .atomDWin w => sigAtom w 64 true
  | .fence w => sigUni w .unused .unused .unused .unused 7
  | .pref _ => { sa := .addr, sb := .any 32, imm := 0xFFFF }
  | .prefRange _ => { sa := .uni 64, sb := .uni 64, sc := .uni 64 }
  | .bar w => sigUni w .unused .unused .unused .unused 3
  | .barCount w => sigUni w .unused (.uni 32) .unused .unused 3
  | .barObject w | .barObjectArrive w | .cwait w => sigUni w .dstUni (.uni 64) .unused .unused
  | .cinit w =>
      sigUni w .dstUni (.uni 64) (.uni 32) (if bits w.imm.toNat 2 0 = 0 then .unused else .uni 64) 7
        (bits w.imm.toNat 2 0 ≤ 4)
  | .cadd w => sigUni w .unused (.uni 64) (.uni 32) .unused
  | .caddWide w => { sa := .uni 64, sb := .const (w.imm.zeroExtend 64), mod := w.mod == 0 }
  | .cwaitLimit w => sigUni w .dstUni (.uni 64) (.uni 32) .unused
  | .cancel w => sigUni w .unused (.uni 64) .unused .unused
  | .launch w => sigUni w .dstUni (.uni 32) .unused .unused
  | .launchQueue w => sigUni w .dstUni (.uni 32) .handle .unused
  | .qbind w => sigUni w .handle (.uni 32) .unused .unused
  | .qres w | .qcancelWait w => sigUni w .dstUni .handle (.uni 32) .unused
  | .qresWide w => { dst := .dstUni, sa := .handle, sb := .const (w.imm.zeroExtend 64), mod := w.mod == 0 }
  | .qput w => sigUni w .dstUni .handle (.uni 64) (.uni 32)
  | .qget w | .qwait w =>
      sigUni w .dstUni .handle (.uni 32) .unused 0xF (4 ≤ bits w.imm.toNat 3 0 && bits w.imm.toNat 3 0 ≤ 12)
  | .qstat w => sigUni w .dstUni .handle .unused .unused
  | .qcancelGrant w => sigUni w .dstUni .handle (.uni 64) .unused
  | .bra w | .braU w | .bray w | .call w => { mod := w.mod == 0 }
  | .bruNz w | .bruZ w => { sa := .of [.s] 64, mod := w.mod == 0 }
  | .jmp w => sigUni w .unused (.of [.v, .s, .lit] 64) .unused .unused
  | .callRegister w => sigUni w .unused (.any 64) .unused .unused
  | .jtab w | .callt w | .reform w | .sleep w => sigUni w .unused (.any 32) .unused .unused
  | .ret w | .exit w | .nop w => sigUni w .unused .unused .unused .unused
  | .wait w => sigUni w .dstPred (.any 32) (.any 32) .unused 0xFFFF
  | .mloopB16 w | .mloopB8 w | .mloopB4 w => sigUni w .dstUni .tile (.uni 32) (.uni 32)
  | .mloopB16Short w | .mloopB8Short w | .mloopB4Short w => sigMloopShort w
  | .mzero w => sigUni w .dstUni .tile .unused .unused
  | .mldt w => sigUni w .dstUni .tile (.uni 64) (.uni 64) 0xFF (mldtType (lowType w))
  | .mldtWin w => sigUni w .dstUni .tile (.uni 64) (.uni 32) 0xFF (mldtType (lowType w))
  | .mst w => sigUni w .dstUni .tile (.uni 64) (.uni 64)
  | .mstSlot w => sigUni w .dstUni .tile (.uni 64) (.uni 64) 7
  | .mstWinSlot w => sigUni w .dstUni .tile (.uni 64) (.uni 32) 7
  | .mrdF32 w => sigMrd w 1 false
  | .mrdSlot w => sigMrd w (if slot64 then 2 else 1) true
  | .mrdA80 w => sigMrd w 4 false
  | .mver w => sigUni w .dstUni .tile (.uni 32) .unused
  | .sfill w | .sdrain w => sigUni w .dstUni (.uni 32) (.uni 64) (.uni 32)
  | .sfillQueue w | .sdrainQueue w => sigUni w .dstUni (.uni 32) .handle (.uni 32)
  | .srel w => sigUni w .unused (.uni 32) (.uni 32) .unused 1
  | .sjoin w => sigUni w .unused .unused .unused .unused 0x1F (w.imm != 0)
  | .swait w => sigUni w .dstUni .unused .unused .unused
  | .swaitCount w => sigUni w .dstUni (.uni 32) .unused .unused
  | .gate w => sigUni w .unused .unused .unused .unused 0xFF
  | .gret w | .yield w => sigUni w .unused .unused .unused .unused
  | .trap w | .brk w => sigUni w .unused .unused .unused .unused 0xFFFF
  | .tret w => sigUni w .unused .unused .unused .unused 3
  | .rdsr w =>
      sigUni w (.of [.v, .s] (if w.imm[8] then 64 else 32)) .unused .unused .unused 0x1FF
        (lowType w ≤ 0x12 && !(threadScope (lowType w) && w.dst.take == .s))
  | .wrsr w =>
      sigUni w .unused (.uni (if w.imm[8] then 64 else 32)) .unused .unused 0x1FF (writableSpecial (lowType w))
  | .scalarIadd p | .scalarIaddImm p | .scalarIsub p | .scalarIsubImm p | .scalarImul p | .scalarImulImm p
  | .scalarImulh p | .scalarImulhN64 p | .scalarImin p | .scalarIminImm p | .scalarImax p | .scalarImaxImm p
  | .scalarIminN64 p | .scalarImaxN64 p | .scalarIabs p | .scalarIneg p | .scalarAnd p | .scalarAndImm p
  | .scalarOr p | .scalarOrImm p | .scalarXor p | .scalarXorImm p | .scalarAndn p | .scalarNot p
  | .scalarShl p | .scalarShlImm p | .scalarShr p | .scalarShrImm p | .scalarSar p | .scalarSarImm p
  | .scalarRol p | .scalarRolImm p | .scalarPopc p | .scalarClz p | .scalarCtz p | .scalarBrev p
  | .scalarMov p | .scalarMovi p | .scalarIcmpEq p | .scalarIcmpLt p | .scalarIcmpLtN64 p
  | .scalarIcmpEqImm p | .scalarIcmpLtImm p | .scalarIcmpLtN64Imm p | .scalarBruNz p | .scalarBruZ p
  | .scalarIcmpNe p | .scalarIcmpNeImm p => p.vop.sig p.vector
  | .coldBoot _ | .belayMirrorTimeout _ | .mirrorRewrite _ | .unitOffline _ _ _ _ | .seamWidthChange _ _
  | .seamWidthChangeDone _ _ | .ridgeRetrain _ _ _ | .epochBoundary | .registerWrite _ _ _ _
  | .xinvPage _ _ _ | .xinvProcess _ _ | .xinvAll _ | .xinvComplete _ | .zpClear _ _ | .zeroBackground _ _
  | .replay _ _ _ | .complete _ _ _ | .decline _ _ _ | .translationRetry _ _ | .translationFail _ _
  | .memsvcRead _ _ | .memsvcWrite _ _ | .memsvcAtom _ _ | .migrate _ _ | .migratePageSend _ _
  | .moveEndResume _ _ | .presenceResume _ _ _ | .tilePinReleaseResume _ _ | .bulkPrefetch _ _
  | .hbmRead _ _ _ | .hbmWrite _ _ _ _ | .hbmZero _ _ | .hbmAread _ _ _ _ _ | .hbmAwrite _ _ _ _ _ _ _
  | .patrolScrub _ _ _ | .create _ _ | .destroy _ _ | .nameinv _ | .register _ | .revoke _ _ | .connect _
  | .close _ _ | .resv _ _ | .grant _ _ | .put _ _ | .stat _ _ | .deq _ _ | .deliver _ _ | .cancelMessage _ _
  | .retry _ _ | .probe _ _ | .incarn _ _ | .lostdie _ _ | .page _ _ | .pageack _ _ | .rput _ _ | .save _ _
  | .saveack _ _ | .elementAssign _ _ | .ticketExpiry _ _ _ | .incompleteMessageDiscard _ _
  | .doneRecordExpiry _ _ | .transitSpillDiscard _ _ | .probeSend _ _ | .dieLost _ _
  | .targetLostTimeout _ _ _ | .hostData _ | .hostAck _ | .hostAckSend _ | .hostDataSend _ | .rtoTimeout _
  | .neighbourDiscovery _ | .stagedCommit _ _ | .commitComplete _ _ | .irrevocableResume _ _ | .checkpoint _
  | .recordTake _ | .translate _ _ | .groupPlace _ | .slotFree _ _ | .trackerDrain _ _ | .rebalance _
  | .watchdog _ _ _ | .watchdogKill _ _ | .cairnForm _ _ | .waitLimit _ _ _ | .sleepEnd _ _ _
  | .cwaitTimeout _ _ _ | .pendingLaunchDrain _ _ | .launchReserveRetry _ _ | .matrixPassGrant _ _
  | .matrixPassEnd _ _ | .streamFillRow _ _ _ _ | .streamDrainRow _ _ _ _ | .streamSlotDeq _ _ _
  | .drainQueuePut _ _ _ | .drainReserveRetry _ _ _ | .gretComplete _ _ | .gateTimeout _ _ _ | .swapOut _
  | .swapRestorable _ _ | .preemptForcedSave _ _ | .poisonHandlerTimeout _ _ | .warmReset _ _
  | .freqChange _ _ | .freqChangeDone _ | .thermalCheck _ | .linkFrame _ _ _ | .linkReplayTimeout _ _
  | .mgmtSession _ | .mgmtProc _ | .mgmtMap _ | .mgmtQueue _ | .mgmtLoad _ | .mgmtEnqueue _ | .mgmtReset _
  | .mgmtAttest _ | .mgmtRead _ | .mgmtFreq _ | .mgmtClose _ | .mgmtReg _ | .mgmtPwrite _ | .tamper
  | .glitch _ | .temperatureAlarm _ _ | .frameAlignmentFound _ _ _ | .unsignedPersistentWrite _ => {}

/-- What an instruction is as a word: its opcode and form, a P word, or a device step that has no word. -/
inductive View where
  | reg (op : Nat) (w : RegWord)
  | wide (op : Nat) (w : WideWord)
  | short (op : Nat) (w : ShortWord)
  | pair (sop : Nat) (p : PairWord)
  | step
deriving DecidableEq, Repr, Inhabited

/-- The opcode map of R212 and the scalar slot of R207. -/
def Instr.view (i : Instr) : View :=
  match i with
  | .iadd w => .reg 0x00 w
  | .isub w => .reg 0x01 w
  | .iaddc w => .reg 0x02 w
  | .imul w => .reg 0x03 w
  | .imulh w => .reg 0x04 w
  | .imad w => .reg 0x05 w
  | .imadw w => .reg 0x06 w
  | .imin w => .reg 0x07 w
  | .imax w => .reg 0x08 w
  | .iabs w => .reg 0x09 w
  | .ineg w => .reg 0x0A w
  | .isad w => .reg 0x0B w
  | .lea w => .reg 0x0C w
  | .and w => .reg 0x0D w
  | .or w => .reg 0x0E w
  | .xor w => .reg 0x0F w
  | .andn w => .reg 0x10 w
  | .orn w => .reg 0x11 w
  | .not w => .reg 0x12 w
  | .lop3 w => .reg 0x13 w
  | .shl w => .reg 0x14 w
  | .shr w => .reg 0x15 w
  | .sar w => .reg 0x16 w
  | .rol w => .reg 0x17 w
  | .shf w => .reg 0x18 w
  | .popc w => .reg 0x19 w
  | .clz w => .reg 0x1A w
  | .ctz w => .reg 0x1B w
  | .brev w => .reg 0x1C w
  | .bfx w => .reg 0x1D w
  | .bfi w => .reg 0x1E w
  | .prmt w => .reg 0x1F w
  | .iaddWide w => .wide 0x20 w
  | .isubWide w => .wide 0x21 w
  | .iaddcWide w => .wide 0x22 w
  | .imulWide w => .wide 0x23 w
  | .imadShort w => .short 0x25 w
  | .imadwShort w => .short 0x26 w
  | .iminWide w => .wide 0x27 w
  | .imaxWide w => .wide 0x28 w
  | .isadShort w => .short 0x2B w
  | .leaWide w => .wide 0x2C w
  | .andWide w => .wide 0x2D w
  | .orWide w => .wide 0x2E w
  | .xorWide w => .wide 0x2F w
  | .andnWide w => .wide 0x30 w
  | .ornWide w => .wide 0x31 w
  | .icmp w => .reg 0x32 w
  | .sel w => .reg 0x33 w
  | .shlWide w => .wide 0x34 w
  | .shrWide w => .wide 0x35 w
  | .sarWide w => .wide 0x36 w
  | .rolWide w => .wide 0x37 w
  | .shfShort w => .short 0x38 w
  | .pset w => .reg 0x39 w
  | .pmov w => .reg 0x3A w
  | .selShort w => .short 0x3B w
  | .bfxWide w => .wide 0x3D w
  | .bfiShort w => .short 0x3E w
  | .prmtShort w => .short 0x3F w
  | .faddF32 w => .reg 0x40 w
  | .fsubF32 w => .reg 0x41 w
  | .fmulF32 w => .reg 0x42 w
  | .ffmaF32 w => .reg 0x43 w
  | .fminF32 w => .reg 0x44 w
  | .fmaxF32 w => .reg 0x45 w
  | .fcmpF32 w => .reg 0x46 w
  | .fclassF32 w => .reg 0x47 w
  | .frcpF32 w => .reg 0x48 w
  | .frsqF32 w => .reg 0x49 w
  | .fsqrtF32 w => .reg 0x4A w
  | .fexp2F32 w => .reg 0x4B w
  | .flog2F32 w => .reg 0x4C w
  | .frndF32 w => .reg 0x4D w
  | .fscaleF32 w => .reg 0x4E w
  | .ffmaF16x2 w => .reg 0x4F w
  | .faddF64 w => .reg 0x50 w
  | .fsubF64 w => .reg 0x51 w
  | .fmulF64 w => .reg 0x52 w
  | .ffmaF64 w => .reg 0x53 w
  | .fminF64 w => .reg 0x54 w
  | .fmaxF64 w => .reg 0x55 w
  | .fcmpF64 w => .reg 0x56 w
  | .fclassF64 w => .reg 0x57 w
  | .frcpF64 w => .reg 0x58 w
  | .frsqF64 w => .reg 0x59 w
  | .fsqrtF64 w => .reg 0x5A w
  | .fexp2F64 w => .reg 0x5B w
  | .flog2F64 w => .reg 0x5C w
  | .frndF64 w => .reg 0x5D w
  | .fscaleF64 w => .reg 0x5E w
  | .ffmaBf16x2 w => .reg 0x5F w
  | .cvtFF w => .reg 0x60 w
  | .cvtIF w => .reg 0x61 w
  | .cvtFI w => .reg 0x62 w
  | .cvtII w => .reg 0x63 w
  | .cvtsTo w => .reg 0x64 w
  | .cvtsFrom w => .reg 0x65 w
  | .packMx4 w => .reg 0x66 w
  | .packMx8e4 w => .reg 0x67 w
  | .packMx8e5 w => .reg 0x68 w
  | .packK4 w => .reg 0x69 w
  | .packSlot w => .reg 0x6A w
  | .unpkMx4 w => .reg 0x6B w
  | .unpkMx8e4 w => .reg 0x6C w
  | .unpkMx8e5 w => .reg 0x6D w
  | .unpkK4 w => .reg 0x6E w
  | .unpkSlot w => .reg 0x6F w
  | .mov w => .reg 0x70 w
  | .movi w => .wide 0x71 w
  | .bcast w => .reg 0x72 w
  | .lane w => .reg 0x73 w
  | .shflIdx w => .reg 0x74 w
  | .shflRise w => .reg 0x75 w
  | .shflFall w => .reg 0x76 w
  | .shflXor w => .reg 0x77 w
  | .shflIdxShort w => .short 0x78 w
  | .shflRiseShort w => .short 0x79 w
  | .shflFallShort w => .short 0x7A w
  | .shflXorShort w => .short 0x7B w
  | .vote w => .reg 0x7C w
  | .reduxInt w => .reg 0x7D w
  | .reduxFloat w => .reg 0x7E w
  | .matchLanes w => .reg 0x7F w
  | .ldB w => .reg 0x80 w
  | .ldBI8 w => .reg 0x81 w
  | .ldH w => .reg 0x82 w
  | .ldHI16 w => .reg 0x83 w
  | .ldW w => .reg 0x84 w
  | .ldD w => .reg 0x85 w
  | .ldQ w => .reg 0x86 w
  | .stB w => .reg 0x87 w
  | .stH w => .reg 0x88 w
  | .stW w => .reg 0x89 w
  | .stD w => .reg 0x8A w
  | .stQ w => .reg 0x8B w
  | .atomW w => .reg 0x8C w
  | .atomD w => .reg 0x8D w
  | .fence w => .reg 0x8E w
  | .pref w => .reg 0x8F w
  | .ldBWin w => .reg 0x90 w
  | .ldBI8Win w => .reg 0x91 w
  | .ldHWin w => .reg 0x92 w
  | .ldHI16Win w => .reg 0x93 w
  | .ldWWin w => .reg 0x94 w
  | .ldDWin w => .reg 0x95 w
  | .ldQWin w => .reg 0x96 w
  | .stBWin w => .reg 0x97 w
  | .stHWin w => .reg 0x98 w
  | .stWWin w => .reg 0x99 w
  | .stDWin w => .reg 0x9A w
  | .stQWin w => .reg 0x9B w
  | .atomWWin w => .reg 0x9C w
  | .atomDWin w => .reg 0x9D w
  | .prefRange w => .reg 0x9E w
  | .bar w => .reg 0xA0 w
  | .barCount w => .reg 0xA1 w
  | .barObject w => .reg 0xA2 w
  | .barObjectArrive w => .reg 0xA3 w
  | .cinit w => .reg 0xA4 w
  | .cadd w => .reg 0xA5 w
  | .caddWide w => .wide 0xA6 w
  | .cwait w => .reg 0xA7 w
  | .cwaitLimit w => .reg 0xA8 w
  | .cancel w => .reg 0xA9 w
  | .launch w => .reg 0xAA w
  | .launchQueue w => .reg 0xAB w
  | .qbind w => .reg 0xB0 w
  | .qres w => .reg 0xB1 w
  | .qresWide w => .wide 0xB2 w
  | .qput w => .reg 0xB3 w
  | .qget w => .reg 0xB4 w
  | .qwait w => .reg 0xB5 w
  | .qstat w => .reg 0xB6 w
  | .qcancelGrant w => .reg 0xB7 w
  | .qcancelWait w => .reg 0xB8 w
  | .bra w => .wide 0xC0 w
  | .braU w => .wide 0xC1 w
  | .bray w => .wide 0xC2 w
  | .bruNz w => .wide 0xC3 w
  | .bruZ w => .wide 0xC4 w
  | .jmp w => .reg 0xC5 w
  | .jtab w => .reg 0xC6 w
  | .call w => .wide 0xC7 w
  | .callRegister w => .reg 0xC8 w
  | .callt w => .reg 0xC9 w
  | .ret w => .reg 0xCA w
  | .reform w => .reg 0xCB w
  | .exit w => .reg 0xCC w
  | .wait w => .reg 0xCD w
  | .sleep w => .reg 0xCE w
  | .nop w => .reg 0xCF w
  | .mloopB16 w => .reg 0xD0 w
  | .mloopB8 w => .reg 0xD1 w
  | .mloopB4 w => .reg 0xD2 w
  | .mloopB16Short w => .short 0xD3 w
  | .mloopB8Short w => .short 0xD4 w
  | .mloopB4Short w => .short 0xD5 w
  | .mzero w => .reg 0xD6 w
  | .mldt w => .reg 0xD7 w
  | .mldtWin w => .reg 0xD8 w
  | .mst w => .reg 0xD9 w
  | .mstSlot w => .reg 0xDA w
  | .mstWinSlot w => .reg 0xDB w
  | .mrdF32 w => .reg 0xDC w
  | .mrdSlot w => .reg 0xDD w
  | .mrdA80 w => .reg 0xDE w
  | .mver w => .reg 0xDF w
  | .sfill w => .reg 0xE0 w
  | .sfillQueue w => .reg 0xE1 w
  | .sdrain w => .reg 0xE2 w
  | .sdrainQueue w => .reg 0xE3 w
  | .srel w => .reg 0xE4 w
  | .sjoin w => .reg 0xE5 w
  | .swait w => .reg 0xE6 w
  | .swaitCount w => .reg 0xE7 w
  | .gate w => .reg 0xE8 w
  | .gret w => .reg 0xE9 w
  | .trap w => .reg 0xEA w
  | .tret w => .reg 0xEB w
  | .yield w => .reg 0xEC w
  | .rdsr w => .reg 0xED w
  | .wrsr w => .reg 0xEE w
  | .brk w => .reg 0xEF w
  | .scalarIadd p => .pair 0x00 p
  | .scalarIaddImm p => .pair 0x01 p
  | .scalarIsub p => .pair 0x02 p
  | .scalarIsubImm p => .pair 0x03 p
  | .scalarImul p => .pair 0x04 p
  | .scalarImulImm p => .pair 0x05 p
  | .scalarImulh p => .pair 0x06 p
  | .scalarImulhN64 p => .pair 0x07 p
  | .scalarImin p => .pair 0x08 p
  | .scalarIminImm p => .pair 0x09 p
  | .scalarImax p => .pair 0x0A p
  | .scalarImaxImm p => .pair 0x0B p
  | .scalarIminN64 p => .pair 0x0C p
  | .scalarImaxN64 p => .pair 0x0D p
  | .scalarIabs p => .pair 0x0E p
  | .scalarIneg p => .pair 0x0F p
  | .scalarAnd p => .pair 0x10 p
  | .scalarAndImm p => .pair 0x11 p
  | .scalarOr p => .pair 0x12 p
  | .scalarOrImm p => .pair 0x13 p
  | .scalarXor p => .pair 0x14 p
  | .scalarXorImm p => .pair 0x15 p
  | .scalarAndn p => .pair 0x16 p
  | .scalarNot p => .pair 0x17 p
  | .scalarShl p => .pair 0x18 p
  | .scalarShlImm p => .pair 0x19 p
  | .scalarShr p => .pair 0x1A p
  | .scalarShrImm p => .pair 0x1B p
  | .scalarSar p => .pair 0x1C p
  | .scalarSarImm p => .pair 0x1D p
  | .scalarRol p => .pair 0x1E p
  | .scalarRolImm p => .pair 0x1F p
  | .scalarPopc p => .pair 0x20 p
  | .scalarClz p => .pair 0x21 p
  | .scalarCtz p => .pair 0x22 p
  | .scalarBrev p => .pair 0x23 p
  | .scalarMov p => .pair 0x24 p
  | .scalarMovi p => .pair 0x25 p
  | .scalarIcmpEq p => .pair 0x26 p
  | .scalarIcmpEqImm p => .pair 0x29 p
  | .scalarIcmpLt p => .pair 0x27 p
  | .scalarIcmpLtImm p => .pair 0x2A p
  | .scalarIcmpLtN64 p => .pair 0x28 p
  | .scalarIcmpLtN64Imm p => .pair 0x2B p
  | .scalarIcmpNe p => .pair 0x2E p
  | .scalarIcmpNeImm p => .pair 0x2F p
  | .scalarBruNz p => .pair 0x2C p
  | .scalarBruZ p => .pair 0x2D p
  | .coldBoot _ | .belayMirrorTimeout _ | .mirrorRewrite _ | .unitOffline _ _ _ _ | .seamWidthChange _ _
  | .seamWidthChangeDone _ _ | .ridgeRetrain _ _ _ | .epochBoundary | .registerWrite _ _ _ _
  | .xinvPage _ _ _ | .xinvProcess _ _ | .xinvAll _ | .xinvComplete _ | .zpClear _ _ | .zeroBackground _ _
  | .replay _ _ _ | .complete _ _ _ | .decline _ _ _ | .translationRetry _ _ | .translationFail _ _
  | .memsvcRead _ _ | .memsvcWrite _ _ | .memsvcAtom _ _ | .migrate _ _ | .migratePageSend _ _
  | .moveEndResume _ _ | .presenceResume _ _ _ | .tilePinReleaseResume _ _ | .bulkPrefetch _ _
  | .hbmRead _ _ _ | .hbmWrite _ _ _ _ | .hbmZero _ _ | .hbmAread _ _ _ _ _ | .hbmAwrite _ _ _ _ _ _ _
  | .patrolScrub _ _ _ | .create _ _ | .destroy _ _ | .nameinv _ | .register _ | .revoke _ _ | .connect _
  | .close _ _ | .resv _ _ | .grant _ _ | .put _ _ | .stat _ _ | .deq _ _ | .deliver _ _ | .cancelMessage _ _
  | .retry _ _ | .probe _ _ | .incarn _ _ | .lostdie _ _ | .page _ _ | .pageack _ _ | .rput _ _ | .save _ _
  | .saveack _ _ | .elementAssign _ _ | .ticketExpiry _ _ _ | .incompleteMessageDiscard _ _
  | .doneRecordExpiry _ _ | .transitSpillDiscard _ _ | .probeSend _ _ | .dieLost _ _
  | .targetLostTimeout _ _ _ | .hostData _ | .hostAck _ | .hostAckSend _ | .hostDataSend _ | .rtoTimeout _
  | .neighbourDiscovery _ | .stagedCommit _ _ | .commitComplete _ _ | .irrevocableResume _ _ | .checkpoint _
  | .recordTake _ | .translate _ _ | .groupPlace _ | .slotFree _ _ | .trackerDrain _ _ | .rebalance _
  | .watchdog _ _ _ | .watchdogKill _ _ | .cairnForm _ _ | .waitLimit _ _ _ | .sleepEnd _ _ _
  | .cwaitTimeout _ _ _ | .pendingLaunchDrain _ _ | .launchReserveRetry _ _ | .matrixPassGrant _ _
  | .matrixPassEnd _ _ | .streamFillRow _ _ _ _ | .streamDrainRow _ _ _ _ | .streamSlotDeq _ _ _
  | .drainQueuePut _ _ _ | .drainReserveRetry _ _ _ | .gretComplete _ _ | .gateTimeout _ _ _ | .swapOut _
  | .swapRestorable _ _ | .preemptForcedSave _ _ | .poisonHandlerTimeout _ _ | .warmReset _ _
  | .freqChange _ _ | .freqChangeDone _ | .thermalCheck _ | .linkFrame _ _ _ | .linkReplayTimeout _ _
  | .mgmtSession _ | .mgmtProc _ | .mgmtMap _ | .mgmtQueue _ | .mgmtLoad _ | .mgmtEnqueue _ | .mgmtReset _
  | .mgmtAttest _ | .mgmtRead _ | .mgmtFreq _ | .mgmtClose _ | .mgmtReg _ | .mgmtPwrite _ | .tamper
  | .glitch _ | .temperatureAlarm _ _ | .frameAlignmentFound _ _ _ | .unsignedPersistentWrite _ => .step

/-- The operand fields of an F word in one form; a byte that the form does not have is 0x00. -/
structure Fields where
  guard : Guard
  mod : BitVec 2
  dst : Operand
  sa : Operand
  sb : Operand
  sc : Operand
  /-- Bits 15:0, where the form holds sub-modifiers there. -/
  imm : Nat
  lit : Option DWord
deriving DecidableEq, Repr, Inhabited

/-- The fields of a word; those of a P word are its vector slot's (R205). -/
def View.fields (v : View) : Fields :=
  match v with
  | .reg _ w => ⟨w.guard, w.mod, w.dst, w.sa, w.sb, w.sc, w.imm.toNat, w.lit⟩
  | .wide _ w => ⟨w.guard, w.mod, w.dst, w.sa, .v 0, .v 0, 0, none⟩
  | .short _ w => ⟨w.guard, w.mod, w.dst, w.sa, .v 0, w.sc, w.imm.toNat, w.lit⟩
  | .pair _ p => ⟨p.guard, 0, p.vdst, p.vsa, p.vsb, .v 0, 0, none⟩
  | .step => ⟨⟨false, 7⟩, 0, .v 0, .v 0, .v 0, .v 0, 0, none⟩

/-- Why a word is not an instruction: the checks of R213, in their order, and a word that is cut short. -/
inductive Bad where
  | truncated | format | opcode | modifier | operand | unused | bank
deriving DecidableEq, Repr, Inhabited

/-- The operand byte suits its field (R206): its kind, and the alignment of a register base. -/
def Fld.fits (f : Fld) (o : Operand) : Bool :=
  match f with
  | .operand takes _ _ align => takes.contains o.take && match o with
    | .v n => n.toNat % align == 0
    | _ => true
  | _ => true

/-- A field the instruction does not use holds 0x00 (R201). -/
def Fld.idle (f : Fld) (o : Operand) : Bool :=
  match f with
  | .operand .. => true
  | _ => o == .v 0

/-- The operand of a field, if the field is used. -/
def Fld.used (f : Fld) (o : Operand) : Option Operand :=
  match f with
  | .operand .. => some o
  | _ => none

/-- The source operands that a word reads. -/
def Sig.sources (g : Sig) (f : Fields) : List Operand :=
  (g.sa.used f.sa).toList ++ (g.sb.used f.sb).toList ++ (g.sc.used f.sc).toList

/-- A source that varies by lane (R206). -/
def Operand.perLane (o : Operand) : Bool :=
  match o.take with
  | .v | .p | .vary => true
  | _ => false

/-- R213 check 4: kinds, bases, a uniform destination with per-lane sources, and LIT exactly where a literal is. -/
def Sig.kindsOk (g : Sig) (f : Fields) : Bool :=
  g.dst.fits f.dst && g.sa.fits f.sa && g.sb.fits f.sb && g.sc.fits f.sc
    && !(((g.dst.used f.dst).map Operand.take == some .s) && (g.sources f).any Operand.perLane)
    && ((g.sources f).contains .lit == f.lit.isSome)

/-- R213 check 5: unused fields are 0x00 and reserved sub-modifier bits are zero. -/
def Sig.idleOk (g : Sig) (f : Fields) : Bool :=
  g.dst.idle f.dst && g.sa.idle f.sa && g.sb.idle f.sb && g.sc.idle f.sc && Nat.land f.imm g.imm == f.imm

/-- The forms of the scalar slot (R207). -/
inductive ScalarForm where
  | register | immediate | unary | movi | branch
deriving DecidableEq, Repr, Inhabited

/-- The form of a scalar opcode (R207). -/
def scalarForm (sop : Nat) : ScalarForm :=
  if sop = 0x2C ∨ sop = 0x2D then .branch
  else if sop = 0x25 then .movi
  else if [0x0E, 0x0F, 0x17, 0x20, 0x21, 0x22, 0x23, 0x24].contains sop then .unary
  else if [0x01, 0x03, 0x05, 0x09, 0x0B, 0x11, 0x13, 0x15, 0x19, 0x1B, 0x1D, 0x1F, 0x29, 0x2A, 0x2B, 0x2F].contains sop
  then .immediate
  else .register

/-- R213 check 5 on the scalar slot (R205, R207). -/
def PairWord.scalarOk (p : PairWord) (sop : Nat) : Bool :=
  match scalarForm sop with
  | .register => p.ssb.toNat < 64
  | .immediate => true
  | .unary => p.ssb == 0
  | .movi => p.ssa == 0
  | .branch => p.sdst == 0

/-- R205: two v-registers that the vector slot reads differ mod 4. -/
def PairWord.bankOk (p : PairWord) : Bool :=
  match (p.vop.sig p.vector).sources ⟨p.guard, 0, p.vdst, p.vsa, p.vsb, .v 0, 0, none⟩ with
  | [.v a, .v b] => a.toNat % 4 != b.toNat % 4
  | _ => true

/-- The fields of an instruction. -/
def Instr.fields (i : Instr) : Fields := i.view.fields

/-- The first of the checks 3 to 6 of R213 that a word with signature `g` fails. A P word's VDST names a
v-register (R205). -/
def View.bad (g : Sig) (v : View) : Option Bad :=
  if !g.mod then some .modifier
  else if !g.kindsOk v.fields then some .operand
  else if !g.idleOk v.fields then some .unused
  else match v with
    | .pair sop p =>
      if p.vdst.take != .v then some .operand
      else if !p.scalarOk sop then some .unused
      else if !p.bankOk then some .bank
      else none
    | _ => none

/-- The first of the checks 3 to 6 of R213 that an instruction fails. -/
def Instr.bad (i : Instr) : Option Bad := i.view.bad (i.sig false)

/-- The word passes the decode checks of R213; whether its registers are allocated (check 7) depends on the
group. -/
abbrev Instr.WellFormed (i : Instr) : Prop := i.bad = none

/-- Rows 0x8_ to 0xB_ and 0xD_ to 0xE_ of the opcode map, of which one word issues in a cycle (R372). -/
def View.memRow (v : View) : Bool :=
  match v with
  | .reg op _ | .wide op _ | .short op _ => (0x80 ≤ op && op < 0xC0) || (0xD0 ≤ op && op < 0xF0)
  | _ => false

end Sys2Proof
end

