-- ==== Sys2Proof/Decode.lean ====
section
/-! DEFINITION. Decoding of instruction words, total on any bytes and rejecting by name, and the encoder
(R199 to R213). -/

namespace Sys2Proof

/-! ## Operand bytes (R206) -/

/-- The operand code of R206. -/
def Operand.code : Operand → BitVec 8
  | .v n => n.zeroExtend 8
  | .s n => 0x80 + n.zeroExtend 8
  | .p n => 0xC0 + n.zeroExtend 8
  | .h n => 0xC8 + n.zeroExtend 8
  | .mt n => 0xD8 + n.zeroExtend 8
  | .fs n => 0xDA + n.zeroExtend 8
  | .zero => 0xE2
  | .laneNo => 0xE3
  | .warpNo => 0xE4
  | .rowNo => 0xE5
  | .ones => 0xE6
  | .lit => 0xEE

/-- The operand an operand byte names; none for the reserved codes 0xE7 to 0xED and 0xEF to 0xFF. -/
def Operand.ofCode (c : Nat) : Option Operand :=
  if c < 0x80 then some (.v (BitVec.ofNat 7 c))
  else if c < 0xC0 then some (.s (BitVec.ofNat 6 (c - 0x80)))
  else if c < 0xC8 then some (.p (BitVec.ofNat 3 (c - 0xC0)))
  else if c < 0xD8 then some (.h (BitVec.ofNat 4 (c - 0xC8)))
  else if c < 0xDA then some (.mt (BitVec.ofNat 1 (c - 0xD8)))
  else if c < 0xE2 then some (.fs (BitVec.ofNat 3 (c - 0xDA)))
  else if c = 0xE2 then some .zero
  else if c = 0xE3 then some .laneNo
  else if c = 0xE4 then some .warpNo
  else if c = 0xE5 then some .rowNo
  else if c = 0xE6 then some .ones
  else if c = 0xEE then some .lit
  else none

/-! ## The opcode map (R212, R207) -/

/-- The form of an assigned opcode (R201, R212). -/
inductive Form where
  | register | wide | short
deriving DecidableEq, Repr, Inhabited

/-- The form of a full-word opcode; none where the map has no opcode. -/
def opcodeForm (op : Nat) : Option Form :=
  if 0xF0 ≤ op ∨ [0x24, 0x29, 0x2A, 0x3C, 0x9F, 0xAC, 0xAD, 0xAE, 0xAF].contains op ∨ (0xB9 ≤ op ∧ op ≤ 0xBF) then none
  else if
    [0x20, 0x21, 0x22, 0x23, 0x27, 0x28, 0x2C, 0x2D, 0x2E, 0x2F, 0x30, 0x31, 0x34, 0x35, 0x36, 0x37, 0x3D, 0x71,
    0xA6, 0xB2, 0xC0, 0xC1, 0xC2, 0xC3, 0xC4, 0xC7].contains op
  then some .wide
  else if
    [0x25, 0x26, 0x2B, 0x38, 0x3B, 0x3E, 0x3F, 0x78, 0x79, 0x7A, 0x7B, 0xD3, 0xD4, 0xD5].contains op
  then some .short
  else some .register

/-- The instructions of the register form, by opcode. -/
def regInstr (op : Nat) (w : RegWord) : Option Instr :=
  match op with
  | 0x00 => some (.iadd w)
  | 0x01 => some (.isub w)
  | 0x02 => some (.iaddc w)
  | 0x03 => some (.imul w)
  | 0x04 => some (.imulh w)
  | 0x05 => some (.imad w)
  | 0x06 => some (.imadw w)
  | 0x07 => some (.imin w)
  | 0x08 => some (.imax w)
  | 0x09 => some (.iabs w)
  | 0x0A => some (.ineg w)
  | 0x0B => some (.isad w)
  | 0x0C => some (.lea w)
  | 0x0D => some (.and w)
  | 0x0E => some (.or w)
  | 0x0F => some (.xor w)
  | 0x10 => some (.andn w)
  | 0x11 => some (.orn w)
  | 0x12 => some (.not w)
  | 0x13 => some (.lop3 w)
  | 0x14 => some (.shl w)
  | 0x15 => some (.shr w)
  | 0x16 => some (.sar w)
  | 0x17 => some (.rol w)
  | 0x18 => some (.shf w)
  | 0x19 => some (.popc w)
  | 0x1A => some (.clz w)
  | 0x1B => some (.ctz w)
  | 0x1C => some (.brev w)
  | 0x1D => some (.bfx w)
  | 0x1E => some (.bfi w)
  | 0x1F => some (.prmt w)
  | 0x32 => some (.icmp w)
  | 0x33 => some (.sel w)
  | 0x39 => some (.pset w)
  | 0x3A => some (.pmov w)
  | 0x40 => some (.faddF32 w)
  | 0x41 => some (.fsubF32 w)
  | 0x42 => some (.fmulF32 w)
  | 0x43 => some (.ffmaF32 w)
  | 0x44 => some (.fminF32 w)
  | 0x45 => some (.fmaxF32 w)
  | 0x46 => some (.fcmpF32 w)
  | 0x47 => some (.fclassF32 w)
  | 0x48 => some (.frcpF32 w)
  | 0x49 => some (.frsqF32 w)
  | 0x4A => some (.fsqrtF32 w)
  | 0x4B => some (.fexp2F32 w)
  | 0x4C => some (.flog2F32 w)
  | 0x4D => some (.frndF32 w)
  | 0x4E => some (.fscaleF32 w)
  | 0x4F => some (.ffmaF16x2 w)
  | 0x50 => some (.faddF64 w)
  | 0x51 => some (.fsubF64 w)
  | 0x52 => some (.fmulF64 w)
  | 0x53 => some (.ffmaF64 w)
  | 0x54 => some (.fminF64 w)
  | 0x55 => some (.fmaxF64 w)
  | 0x56 => some (.fcmpF64 w)
  | 0x57 => some (.fclassF64 w)
  | 0x58 => some (.frcpF64 w)
  | 0x59 => some (.frsqF64 w)
  | 0x5A => some (.fsqrtF64 w)
  | 0x5B => some (.fexp2F64 w)
  | 0x5C => some (.flog2F64 w)
  | 0x5D => some (.frndF64 w)
  | 0x5E => some (.fscaleF64 w)
  | 0x5F => some (.ffmaBf16x2 w)
  | 0x60 => some (.cvtFF w)
  | 0x61 => some (.cvtIF w)
  | 0x62 => some (.cvtFI w)
  | 0x63 => some (.cvtII w)
  | 0x64 => some (.cvtsTo w)
  | 0x65 => some (.cvtsFrom w)
  | 0x66 => some (.packMx4 w)
  | 0x67 => some (.packMx8e4 w)
  | 0x68 => some (.packMx8e5 w)
  | 0x69 => some (.packK4 w)
  | 0x6A => some (.packSlot w)
  | 0x6B => some (.unpkMx4 w)
  | 0x6C => some (.unpkMx8e4 w)
  | 0x6D => some (.unpkMx8e5 w)
  | 0x6E => some (.unpkK4 w)
  | 0x6F => some (.unpkSlot w)
  | 0x70 => some (.mov w)
  | 0x72 => some (.bcast w)
  | 0x73 => some (.lane w)
  | 0x74 => some (.shflIdx w)
  | 0x75 => some (.shflRise w)
  | 0x76 => some (.shflFall w)
  | 0x77 => some (.shflXor w)
  | 0x7C => some (.vote w)
  | 0x7D => some (.reduxInt w)
  | 0x7E => some (.reduxFloat w)
  | 0x7F => some (.matchLanes w)
  | 0x80 => some (.ldB w)
  | 0x81 => some (.ldBI8 w)
  | 0x82 => some (.ldH w)
  | 0x83 => some (.ldHI16 w)
  | 0x84 => some (.ldW w)
  | 0x85 => some (.ldD w)
  | 0x86 => some (.ldQ w)
  | 0x87 => some (.stB w)
  | 0x88 => some (.stH w)
  | 0x89 => some (.stW w)
  | 0x8A => some (.stD w)
  | 0x8B => some (.stQ w)
  | 0x8C => some (.atomW w)
  | 0x8D => some (.atomD w)
  | 0x8E => some (.fence w)
  | 0x8F => some (.pref w)
  | 0x90 => some (.ldBWin w)
  | 0x91 => some (.ldBI8Win w)
  | 0x92 => some (.ldHWin w)
  | 0x93 => some (.ldHI16Win w)
  | 0x94 => some (.ldWWin w)
  | 0x95 => some (.ldDWin w)
  | 0x96 => some (.ldQWin w)
  | 0x97 => some (.stBWin w)
  | 0x98 => some (.stHWin w)
  | 0x99 => some (.stWWin w)
  | 0x9A => some (.stDWin w)
  | 0x9B => some (.stQWin w)
  | 0x9C => some (.atomWWin w)
  | 0x9D => some (.atomDWin w)
  | 0x9E => some (.prefRange w)
  | 0xA0 => some (.bar w)
  | 0xA1 => some (.barCount w)
  | 0xA2 => some (.barObject w)
  | 0xA3 => some (.barObjectArrive w)
  | 0xA4 => some (.cinit w)
  | 0xA5 => some (.cadd w)
  | 0xA7 => some (.cwait w)
  | 0xA8 => some (.cwaitLimit w)
  | 0xA9 => some (.cancel w)
  | 0xAA => some (.launch w)
  | 0xAB => some (.launchQueue w)
  | 0xB0 => some (.qbind w)
  | 0xB1 => some (.qres w)
  | 0xB3 => some (.qput w)
  | 0xB4 => some (.qget w)
  | 0xB5 => some (.qwait w)
  | 0xB6 => some (.qstat w)
  | 0xB7 => some (.qcancelGrant w)
  | 0xB8 => some (.qcancelWait w)
  | 0xC5 => some (.jmp w)
  | 0xC6 => some (.jtab w)
  | 0xC8 => some (.callRegister w)
  | 0xC9 => some (.callt w)
  | 0xCA => some (.ret w)
  | 0xCB => some (.reform w)
  | 0xCC => some (.exit w)
  | 0xCD => some (.wait w)
  | 0xCE => some (.sleep w)
  | 0xCF => some (.nop w)
  | 0xD0 => some (.mloopB16 w)
  | 0xD1 => some (.mloopB8 w)
  | 0xD2 => some (.mloopB4 w)
  | 0xD6 => some (.mzero w)
  | 0xD7 => some (.mldt w)
  | 0xD8 => some (.mldtWin w)
  | 0xD9 => some (.mst w)
  | 0xDA => some (.mstSlot w)
  | 0xDB => some (.mstWinSlot w)
  | 0xDC => some (.mrdF32 w)
  | 0xDD => some (.mrdSlot w)
  | 0xDE => some (.mrdA80 w)
  | 0xDF => some (.mver w)
  | 0xE0 => some (.sfill w)
  | 0xE1 => some (.sfillQueue w)
  | 0xE2 => some (.sdrain w)
  | 0xE3 => some (.sdrainQueue w)
  | 0xE4 => some (.srel w)
  | 0xE5 => some (.sjoin w)
  | 0xE6 => some (.swait w)
  | 0xE7 => some (.swaitCount w)
  | 0xE8 => some (.gate w)
  | 0xE9 => some (.gret w)
  | 0xEA => some (.trap w)
  | 0xEB => some (.tret w)
  | 0xEC => some (.yield w)
  | 0xED => some (.rdsr w)
  | 0xEE => some (.wrsr w)
  | 0xEF => some (.brk w)
  | _ => none

/-- The instructions of the wide form, by opcode. -/
def wideInstr (op : Nat) (w : WideWord) : Option Instr :=
  match op with
  | 0x20 => some (.iaddWide w)
  | 0x21 => some (.isubWide w)
  | 0x22 => some (.iaddcWide w)
  | 0x23 => some (.imulWide w)
  | 0x27 => some (.iminWide w)
  | 0x28 => some (.imaxWide w)
  | 0x2C => some (.leaWide w)
  | 0x2D => some (.andWide w)
  | 0x2E => some (.orWide w)
  | 0x2F => some (.xorWide w)
  | 0x30 => some (.andnWide w)
  | 0x31 => some (.ornWide w)
  | 0x34 => some (.shlWide w)
  | 0x35 => some (.shrWide w)
  | 0x36 => some (.sarWide w)
  | 0x37 => some (.rolWide w)
  | 0x3D => some (.bfxWide w)
  | 0x71 => some (.movi w)
  | 0xA6 => some (.caddWide w)
  | 0xB2 => some (.qresWide w)
  | 0xC0 => some (.bra w)
  | 0xC1 => some (.braU w)
  | 0xC2 => some (.bray w)
  | 0xC3 => some (.bruNz w)
  | 0xC4 => some (.bruZ w)
  | 0xC7 => some (.call w)
  | _ => none

/-- The instructions of the short form, by opcode. -/
def shortInstr (op : Nat) (w : ShortWord) : Option Instr :=
  match op with
  | 0x25 => some (.imadShort w)
  | 0x26 => some (.imadwShort w)
  | 0x2B => some (.isadShort w)
  | 0x38 => some (.shfShort w)
  | 0x3B => some (.selShort w)
  | 0x3E => some (.bfiShort w)
  | 0x3F => some (.prmtShort w)
  | 0x78 => some (.shflIdxShort w)
  | 0x79 => some (.shflRiseShort w)
  | 0x7A => some (.shflFallShort w)
  | 0x7B => some (.shflXorShort w)
  | 0xD3 => some (.mloopB16Short w)
  | 0xD4 => some (.mloopB8Short w)
  | 0xD5 => some (.mloopB4Short w)
  | _ => none

/-- The P words, by scalar opcode; 0x30 to 0x3F are none. -/
noncomputable def pairInstr (op : Nat) (p : PairWord) : Option Instr :=
  match op with
  | 0x00 => some (.scalarIadd p)
  | 0x01 => some (.scalarIaddImm p)
  | 0x02 => some (.scalarIsub p)
  | 0x03 => some (.scalarIsubImm p)
  | 0x04 => some (.scalarImul p)
  | 0x05 => some (.scalarImulImm p)
  | 0x06 => some (.scalarImulh p)
  | 0x07 => some (.scalarImulhN64 p)
  | 0x08 => some (.scalarImin p)
  | 0x09 => some (.scalarIminImm p)
  | 0x0A => some (.scalarImax p)
  | 0x0B => some (.scalarImaxImm p)
  | 0x0C => some (.scalarIminN64 p)
  | 0x0D => some (.scalarImaxN64 p)
  | 0x0E => some (.scalarIabs p)
  | 0x0F => some (.scalarIneg p)
  | 0x10 => some (.scalarAnd p)
  | 0x11 => some (.scalarAndImm p)
  | 0x12 => some (.scalarOr p)
  | 0x13 => some (.scalarOrImm p)
  | 0x14 => some (.scalarXor p)
  | 0x15 => some (.scalarXorImm p)
  | 0x16 => some (.scalarAndn p)
  | 0x17 => some (.scalarNot p)
  | 0x18 => some (.scalarShl p)
  | 0x19 => some (.scalarShlImm p)
  | 0x1A => some (.scalarShr p)
  | 0x1B => some (.scalarShrImm p)
  | 0x1C => some (.scalarSar p)
  | 0x1D => some (.scalarSarImm p)
  | 0x1E => some (.scalarRol p)
  | 0x1F => some (.scalarRolImm p)
  | 0x20 => some (.scalarPopc p)
  | 0x21 => some (.scalarClz p)
  | 0x22 => some (.scalarCtz p)
  | 0x23 => some (.scalarBrev p)
  | 0x24 => some (.scalarMov p)
  | 0x25 => some (.scalarMovi p)
  | 0x26 => some (.scalarIcmpEq p)
  | 0x27 => some (.scalarIcmpLt p)
  | 0x28 => some (.scalarIcmpLtN64 p)
  | 0x29 => some (.scalarIcmpEqImm p)
  | 0x2A => some (.scalarIcmpLtImm p)
  | 0x2B => some (.scalarIcmpLtN64Imm p)
  | 0x2C => some (.scalarBruNz p)
  | 0x2D => some (.scalarBruZ p)
  | 0x2E => some (.scalarIcmpNe p)
  | 0x2F => some (.scalarIcmpNeImm p)
  | _ => none

/-- The pairable opcodes of R205. -/
def VOp.code : VOp → BitVec 8
  | .iadd => 0x00 | .isub => 0x01 | .imul => 0x03 | .imin => 0x07 | .imax => 0x08
  | .and => 0x0D | .or => 0x0E | .xor => 0x0F | .andn => 0x10 | .orn => 0x11 | .not => 0x12
  | .shl => 0x14 | .shr => 0x15 | .sar => 0x16 | .rol => 0x17 | .popc => 0x19 | .clz => 0x1A
  | .fadd => 0x40 | .fsub => 0x41 | .fmul => 0x42 | .fmin => 0x44 | .fmax => 0x45 | .mov => 0x70

/-- The pairable opcode with a code, if any. -/
def VOp.ofCode (c : Nat) : Option VOp :=
  match c with
  | 0x00 => some .iadd | 0x01 => some .isub | 0x03 => some .imul | 0x07 => some .imin | 0x08 => some .imax
  | 0x0D => some .and | 0x0E => some .or | 0x0F => some .xor | 0x10 => some .andn | 0x11 => some .orn
  | 0x12 => some .not | 0x14 => some .shl | 0x15 => some .shr | 0x16 => some .sar | 0x17 => some .rol
  | 0x19 => some .popc | 0x1A => some .clz | 0x40 => some .fadd | 0x41 => some .fsub | 0x42 => some .fmul
  | 0x44 => some .fmin | 0x45 => some .fmax | 0x70 => some .mov
  | _ => none

/-! ## Decoding -/

/-- GNEG and GPRED (R200, R205). -/
def guardOf (x : Nat) : Guard := ⟨bit x 61, BitVec.ofNat 3 (bits x 60 58)⟩

/-- The register form (R200, R201). -/
def decodeReg (op x : Nat) (lit : Option DWord) : Except Bad Instr :=
  match Operand.ofCode (bits x 47 40), Operand.ofCode (bits x 39 32), Operand.ofCode (bits x 31 24),
      Operand.ofCode (bits x 23 16) with
  | some d, some a, some b, some c =>
    match regInstr op ⟨guardOf x, BitVec.ofNat 2 (bits x 49 48), d, a, b, c, BitVec.ofNat 16 x, lit⟩ with
    | some i => .ok i
    | none => .error .opcode
  | _, _, _, _ => .error .operand

/-- The wide form: a literal is not permitted (R201, R202). -/
def decodeWide (op x : Nat) (lit : Option DWord) : Except Bad Instr :=
  match Operand.ofCode (bits x 47 40), Operand.ofCode (bits x 39 32), lit with
  | some d, some a, none =>
    match wideInstr op ⟨guardOf x, BitVec.ofNat 2 (bits x 49 48), d, a, BitVec.ofNat 32 x⟩ with
    | some i => .ok i
    | none => .error .opcode
  | _, _, _ => .error .operand

/-- The short form: the SB byte is 0x00 (R201). -/
def decodeShort (op x : Nat) (lit : Option DWord) : Except Bad Instr :=
  match Operand.ofCode (bits x 47 40), Operand.ofCode (bits x 39 32), Operand.ofCode (bits x 23 16) with
  | some d, some a, some c =>
    match shortInstr op ⟨guardOf x, BitVec.ofNat 2 (bits x 49 48), d, a, c, BitVec.ofNat 16 x, lit⟩ with
    | some i => if bits x 31 24 = 0 then .ok i else .error .unused
    | none => .error .opcode
  | _, _, _ => .error .operand

/-- The pair format (R205). -/
noncomputable def decodePair (x : Nat) : Except Bad Instr :=
  match VOp.ofCode (bits x 31 24) with
  | none => .error .opcode
  | some o =>
    match Operand.ofCode (bits x 23 16), Operand.ofCode (bits x 15 8), Operand.ofCode (bits x 7 0) with
    | some d, some a, some b =>
      match pairInstr (bits x 57 52) ⟨guardOf x, BitVec.ofNat 6 (bits x 51 46), BitVec.ofNat 6 (bits x 45 40),
          BitVec.ofNat 8 (bits x 39 32), o, d, a, b⟩ with
      | some i => .ok i
      | none => .error .opcode
    | _, _, _ => .error .operand

/-- A word and, for format 10, its literal, before the checks 3 to 6 of R213. -/
noncomputable def decodeForm (x : Nat) (lit : Option DWord) : Except Bad Instr :=
  if bits x 63 62 = 1 then decodePair x
  else match opcodeForm (bits x 57 50) with
    | none => .error .opcode
    | some .register => decodeReg (bits x 57 50) x lit
    | some .wide => decodeWide (bits x 57 50) x lit
    | some .short => decodeShort (bits x 57 50) x lit

/-- Decode one instruction from its word and the word that follows, which only format 10 needs (R199, R202,
R213). -/
noncomputable def decodeWords (w : DWord) (next : Option DWord) : Except Bad Instr :=
  let checked := fun (r : Except Bad Instr) =>
    match r with
    | .ok i =>
      match i.bad with
      | none => Except.ok i
      | some b => .error b
    | .error b => .error b
  if bits w.toNat 63 62 = 3 then .error .format
  else if bits w.toNat 63 62 = 2 then
    match next with
    | some l => checked (decodeForm w.toNat (some l))
    | none => .error .truncated
  else checked (decodeForm w.toNat none)

/-- The length in bytes of the instruction a word begins (R199). -/
def wordLength (w : DWord) : Nat := if bits w.toNat 63 62 = 2 then 16 else 8

/-- A little-endian number (R5). -/
def ofBytes : List Byte → Nat
  | [] => 0
  | b :: bs => b.toNat + 256 * ofBytes bs

/-- `n` bytes of a number, little-endian (R5). -/
def toBytes (n x : Nat) : List Byte :=
  match n with
  | 0 => []
  | n + 1 => BitVec.ofNat 8 x :: toBytes n (x / 256)

/-- Decode the instruction at the head of a byte list, with the bytes that follow it. -/
noncomputable def decode (bs : List Byte) : Except Bad (Instr × List Byte) :=
  if bs.length < 8 then .error .truncated
  else
    let w := BitVec.ofNat 64 (ofBytes (bs.take 8))
    let next := if bs.length < 16 then none else some (BitVec.ofNat 64 (ofBytes ((bs.drop 8).take 8)))
    match decodeWords w next with
    | .ok i => .ok (i, bs.drop (wordLength w))
    | .error b => .error b

/-- The instruction read from a word numbered as the opcode table numbers it: `w` little-endian from its lowest
byte, every bit from `nbits` up zero. -/
noncomputable def decodeTableWord (nbits w : Nat) : Option Instr :=
  match decode (toBytes 16 (w % 2 ^ nbits)) with
  | .ok (i, _) => some i
  | .error _ => none

/-! ## Encoding -/

/-- Bits 61:58 of a word. -/
def Guard.code (g : Guard) : Nat := (if g.neg then 2 ^ 61 else 0) + g.pred.toNat * 2 ^ 58

/-- FMT: 10 with a literal and 00 without one. -/
def fmtCode (lit : Option DWord) : Nat := if lit.isSome then 2 ^ 63 else 0

/-- The words of an instruction (R199 to R205); a device step has none. -/
def Instr.encode (i : Instr) : List DWord :=
  match i.view with
  | .reg op w =>
    BitVec.ofNat 64 (fmtCode w.lit + w.guard.code + op * 2 ^ 50 + w.mod.toNat * 2 ^ 48 + w.dst.code.toNat * 2 ^ 40
      + w.sa.code.toNat * 2 ^ 32 + w.sb.code.toNat * 2 ^ 24 + w.sc.code.toNat * 2 ^ 16 + w.imm.toNat) :: w.lit.toList
  | .wide op w =>
    [BitVec.ofNat 64 (w.guard.code + op * 2 ^ 50 + w.mod.toNat * 2 ^ 48 + w.dst.code.toNat * 2 ^ 40
      + w.sa.code.toNat * 2 ^ 32 + w.imm.toNat)]
  | .short op w =>
    BitVec.ofNat 64 (fmtCode w.lit + w.guard.code + op * 2 ^ 50 + w.mod.toNat * 2 ^ 48 + w.dst.code.toNat * 2 ^ 40
      + w.sa.code.toNat * 2 ^ 32 + w.sc.code.toNat * 2 ^ 16 + w.imm.toNat) :: w.lit.toList
  | .pair sop p =>
    [BitVec.ofNat 64 (2 ^ 62 + p.guard.code + sop * 2 ^ 52 + p.sdst.toNat * 2 ^ 46 + p.ssa.toNat * 2 ^ 40
      + p.ssb.toNat * 2 ^ 32 + p.vop.code.toNat * 2 ^ 24 + p.vdst.code.toNat * 2 ^ 16 + p.vsa.code.toNat * 2 ^ 8
      + p.vsb.code.toNat)]
  | .step => []

/-- An instruction's bytes in memory (R5). -/
def Instr.bytes (i : Instr) : List Byte := i.encode.flatMap fun w => toBytes 8 w.toNat

/-- The length of an instruction in bytes. -/
def Instr.length (i : Instr) : Nat := 8 * i.encode.length

end Sys2Proof
end

