-- ==== Sys2Proof/Machine/State.lean ====
section
/-! DEFINITION. The state of one Harfell package as plain data: everything the spec gives the machine.
Each field names its rule and its reset value. `Map` is an association list kept in ascending key order. -/

namespace Sys2Proof.Machine

/-- A sparse table: pairs in strictly ascending key order; an unlisted key has the table's default. -/
abbrev Map (α : Type) := List (Nat × α)

/-! ## The core store and the registers of a group -/

/-- A 32-bit word of the core store with its poison bit (R70). -/
structure CoreWord where
  val : Word
  poison : Bool
deriving DecidableEq, Repr, Inhabited

/-- An s-register with its poison bit (R206, R394). -/
structure SReg where
  val : DWord
  poison : Bool
deriving DecidableEq, Repr, Inhabited

/-- The source values that one active thread read at issue (R211, R387); `t` is its home row × 32 + home lane. -/
structure LaneSrc where
  t : Nat
  a : BitVec 128
  b : BitVec 128
  c : BitVec 128
deriving DecidableEq, Repr, Inhabited

/-- A register with a result still to be written (R211): of a home row, of a warp, or of the group. -/
inductive Res where
  | v (row n : Nat)
  | p (row n : Nat)
  | s (w n : Nat)
  | h (n : Nat)
  | mt (n : Nat)
deriving DecidableEq, Repr, Inhabited

/-- A word that has issued, with its captured sources: what the operand log holds (R387). -/
structure Issued where
  i : Instr
  warp : Nat
  pc : Nat
  len : Nat
  lanes : List LaneSrc
  /-- TBASE and TLEN at issue, which the words that read a dispatch table use (R209). -/
  tbase : DWord
  tlen : DWord
  /-- Resident clocks of the group at issue, from which a wait's limit counts (R281, R304). -/
  clk : Nat
  /-- R211: the registers that it writes, in the rows of its active threads. -/
  dst : List Res
  /-- R47: its place among the group's words that wait on the window, in issue order from 1; 0 for one that does not wait. -/
  order : Nat
deriving DecidableEq, Repr, Inhabited

/-- The attributes of a translation that an access carries to the L2 (R76) and to ALIAS pages (R38). -/
structure Attr where
  che : Bool
  ch : Nat
  il : Bool
  /-- AFMT and ASUB for an ALIAS page. -/
  afmt : Option (Nat × Nat)
  /-- SYNC, CODE or NORMAL page type code (R33). -/
  type : Nat
deriving DecidableEq, Repr, Inhabited

/-- Where a completion counter or a barrier object is: its die-local address, and the attributes of its page, which select
its slice (R76, R172). -/
structure ObjRef where
  attr : Attr
  pa : Nat
deriving DecidableEq, Repr, Inhabited

/-- An arrival that is registered on a counter (R176), with the counter's place when it was registered. -/
structure Owing where
  pn : Nat
  va : Nat
  ref : ObjRef
deriving DecidableEq, Repr, Inhabited

/-- A window access of a word that waits: its offset and length in bytes, and whether it writes (R47). -/
structure WinAcc where
  off : Nat
  n : Nat
  store : Bool
deriving DecidableEq, Repr, Inhabited

/-- Why a thread is WAITING (R189), with the word it waits in. -/
inductive Wait where
  /-- Parked on a PAGE, REMOTE or ANCHORED fault (R58); the operand-log entry. -/
  | fault (log : Nat)
  /-- Parked on absent scratchpad lines (R72), or behind an earlier access that its window bytes overlap: its accesses, and
  the registers that it is to overwrite through the window (R47). -/
  | lines (x : Issued) (accs : List WinAcc) (regs : List Res)
  /-- WAIT (R281): partition offset of the watched word, compare value, resident-clock deadline; `struck` once the read that
  ends it has met poison, which is consumed as the step ends (R291). -/
  | wait (x : Issued) (off : Nat) (cmp : Word) (deadline : Option Nat) (struck : Bool)
  /-- SLEEP (R282): resident-clock deadline. -/
  | sleep (x : Issued) (deadline : Nat)
  /-- CWAIT (R304): the counter and its virtual address, resident-clock deadline. -/
  | cwait (x : Issued) (o : ObjRef) (va : Nat) (deadline : Option Nat)
  /-- QWAIT (R317). -/
  | qwait (x : Issued)
  /-- A group barrier (R306). -/
  | bar (x : Issued) (b : Nat)
  /-- A barrier object (R307): the address named; once the group has arrived, the object and the phase. -/
  | barObj (x : Issued) (addr : DWord) (arrived : Option (ObjRef × Word))
  /-- BAR object arrive (R307), still gathering. -/
  | barArrive (x : Issued) (addr : DWord)
  /-- GATE n gathering (R197), and inside a gate call the caller's threads. -/
  | gate (x : Issued) (n : Nat)
  /-- GRET gathering (R355). -/
  | gret (x : Issued)
  /-- Filed in a cairn (R194). -/
  | cairn
  /-- A full pending-launch queue (R309). -/
  | launchFull (x : Issued)
  /-- A full prefetch engine queue (R299). -/
  | prefetchFull (x : Issued)
  /-- A full reservation table (R323). -/
  | tableFull (x : Issued)
  /-- No free copy record (R337). -/
  | copyFull (x : Issued)
  /-- An expected tile version (R322). -/
  | version (x : Issued) (tile e : Nat)
  /-- SWAIT: at most `n` copies outstanding (R348). -/
  | copies (x : Issued) (n : Nat)
  /-- Held for the node's staged commit (R170). -/
  | commit (x : Issued)
  /-- A QWAIT behind the warp's own earlier wait (R317). -/
  | qwaitBusy (x : Issued)
deriving DecidableEq, Repr, Inhabited

/-- The recorded end of a wait that ended while its thread was suspended by a trap (R382). -/
structure WaitEnd where
  pd : Bool
  word : DWord
deriving DecidableEq, Repr, Inhabited

/-- One thread (R189). Its home row and lane are its index: row × 32 + lane. -/
structure Thread where
  /-- R189: address of the next instruction; dispatch ENTRY × 8. -/
  pc : DWord
  /-- R189: call depth; dispatch 0. -/
  depth : BitVec 16
  /-- R189 Y: the thread has yielded; dispatch false. -/
  y : Bool
  /-- R189 M: the thread must issue before yielded threads; dispatch false. -/
  m : Bool
  /-- R189 EXITED; dispatch false. -/
  exited : Bool
  /-- R206 p0–p6 (p7 reads true); dispatch false. -/
  preds : BitVec 7
  /-- R189: the warp whose member the thread is, none while it is filed in a cairn; dispatch its home row. -/
  warp : Option Nat
  /-- R189 WAITING and its reason; dispatch none. -/
  wait : Option Wait
  /-- R367: resident picoseconds at which the wait began. -/
  since : Nat
  /-- R368: die picoseconds at which the wait began. -/
  began : Nat
  /-- R382: the wait that a trap suspended; dispatch none. -/
  susp : Option Wait
  /-- R382: the recorded end of the suspended wait. -/
  suspEnd : Option WaitEnd
deriving DecidableEq, Repr, Inhabited

/-- A queue handle (R311). -/
structure Handle where
  bound : Bool
  vqn : Word
  esize : Nat
  /-- The number of the binding, so that a grant of an earlier binding is told apart (R314). -/
  binding : Nat
  /-- Operations in flight through the handle (R318). -/
  out : Nat
deriving DecidableEq, Repr, Inhabited

/-- An accumulator tile of a group (R183, R321). -/
structure Tile where
  /-- The core's tile, 0 or 1 (R184). -/
  phys : Nat
  /-- R233, R235: elements by 128 × i + j; unlisted elements are +0. -/
  els : Map (BitVec 80)
  /-- R238: the poison flag; dispatch clear. -/
  poison : Bool
  /-- R321: VER; dispatch 0. -/
  ver : Nat
  /-- R321: ISSUED; dispatch 0. -/
  issued : Nat
deriving DecidableEq, Repr, Inhabited

/-- A declared extent (R48), in bytes. -/
structure Extent where
  mode : Nat
  che : Bool
  ch : Nat
  base : Nat
  len : Nat
deriving DecidableEq, Repr, Inhabited

/-- One entry of the extent table (R53). For ALIAS pages `pa` is the frame. -/
structure Run where
  va : Nat
  len : Nat
  pa : Nat
  ext : Nat
  mode : Nat
  attr : Attr
deriving DecidableEq, Repr, Inhabited

/-- A node's or callee's extents after translation (R51 to R53). -/
structure ExtTable where
  exts : List Extent
  demoted : List Nat
  runs : List Run
deriving DecidableEq, Repr, Inhabited

/-- A frame of the slot partition (R44, R353): the group's own at base 0, or a callee's. -/
structure Frame where
  base : Nat
  regs : Nat
  scr : Nat
  rse : Nat
deriving DecidableEq, Repr, Inhabited

/-- What a gate call swaps (R354). -/
structure Ctx where
  /-- R39: the process number in force. -/
  pn : Nat
  frame : Frame
  ext : ExtTable
  /-- R206 h0–h15; dispatch unbound. -/
  handles : List Handle
  /-- R208 HANDLER. -/
  handler : DWord
  /-- R208 TBASE; dispatch 0. -/
  tbase : DWord
  /-- R208 TLEN; dispatch 0. -/
  tlen : DWord
  /-- R208 TRAPCAUSE; dispatch 0. -/
  trapcause : DWord
  /-- R208 TRAPPC; dispatch 0. -/
  trappc : DWord
  /-- R208 TRAPADDR; dispatch 0. -/
  trapaddr : DWord
  /-- R226 fs0–fs7; dispatch the FMT block or zero. -/
  fs : List DWord
  /-- R354: the group's tiles are visible (not inside a callee). -/
  tilesOk : Bool
deriving DecidableEq, Repr, Inhabited

/-- A trap being handled (R382). -/
structure Trap where
  cause : Nat
  warp : Nat
  precise : Bool
  /-- Lanes that raised a precise cause (R383 LANES). -/
  lanes : List Nat
  /-- Length of the word at TRAPPC (R384). -/
  len : Nat
  /-- Die picoseconds at delivery (R193). -/
  at_ : Nat
  /-- R193: the handler has executed EXIT. -/
  exited : Bool
deriving DecidableEq, Repr, Inhabited

/-- A gate call in progress (R352, R354): the caller's state kept apart. -/
structure GateFrame where
  ctx : Ctx
  sregs : Map SReg
  preds : List (BitVec 7)
  /-- Where each thread resumes, after its GATE, and its DEPTH (R197). -/
  pcs : List DWord
  depths : List (BitVec 16)
  /-- Pending registers of the caller (R211). -/
  pend : List Res
  wdlimit : Nat
  trap : Option Trap
  vin : Nat
  vout : Nat
  sout : Nat
  /-- Resident picoseconds at which LIMIT passes (R355), if it is not 0. -/
  deadline : Option Nat
  /-- Order number of the call's own conflict check (R162, R352). -/
  order : Nat
  /-- The status with which the gate is ending, once it waits for the callee's engine operations. -/
  ending : Option Nat
deriving DecidableEq, Repr, Inhabited

/-- A group barrier (R306): its count mode and its arrivals. -/
structure Barrier where
  busy : Bool
  count : Option Nat
  arrived : Nat
deriving DecidableEq, Repr, Inhabited

/-- A thread filed in a cairn (R194). -/
structure Filed where
  t : Nat
  warp : Nat
  at_ : Nat
deriving DecidableEq, Repr, Inhabited

/-- A cairn: its key and its filed threads, oldest first (R194). -/
structure Cairn where
  key : Nat
  filed : List Filed
deriving DecidableEq, Repr, Inhabited

/-- An entry of the slot's operand log (R387). -/
structure ParkedWord where
  entry : Nat
  /-- LOG of its notice (R388): logical core, slot and entry at which it parked. -/
  log : Nat
  x : Issued
  /-- Threads that wait. -/
  threads : List Nat
  /-- KIND of R388. -/
  kind : Nat
  size : Nat
  /-- Each lane's address (R387). -/
  addrs : List (Nat × DWord)
  /-- Faulting lanes and their causes: 1 PAGE, 2 REMOTE, 3 ANCHORED. -/
  causes : List (Nat × Nat)
  /-- The word's own fetch parked, so it is fetched again. -/
  fetch : Bool
  /-- R59: a malformed entry was met, so only REPLAY or DECLINE answers it. -/
  malformed : Bool
  /-- The FANS answer that waits to be carried out, once the group is resident and out of its handler (R382,
  R389): its code and the result block read when it was written. -/
  answer : Option (Nat × List Byte)
  /-- An answer has been given: a second one is ignored. -/
  answered : Bool
deriving DecidableEq, Repr, Inhabited

/-- Where a group stands. -/
inductive GroupPhase where
  | resident
  /-- Swapped out into a save record (R390, R391); `forced` when the partition was saved too. -/
  | swapped (record : Nat) (forced : Bool)
  /-- Its slot is freed and its remaining work drains in the tracker (R196). -/
  | tracked
deriving DecidableEq, Repr, Inhabited

/-- A cause held while the group is in its handler or in a gate (R356, R385). -/
structure HeldCause where
  cause : Nat
  warp : Nat
deriving DecidableEq, Repr, Inhabited

/-- A group of up to eight warps (R44, R183). -/
structure Group where
  /-- The model's own name for the group. -/
  gid : Nat
  /-- The node it belongs to. -/
  node : Nat
  /-- R366: logical core and slot where it is (LCORE, SLOT of R208). -/
  core : Nat
  slot : Nat
  /-- R115: core, slot and instance number of its first dispatch, its producer identity. -/
  pcore : Nat
  pslot : Nat
  pinst : Nat
  phase : GroupPhase
  /-- R179 WARPS. -/
  warps : Nat
  /-- R208 GROUPID, GRIDDIM, NODEID. -/
  groupid : DWord
  griddim : DWord
  nodeid : DWord
  /-- R366: effective task class. -/
  cls : Nat
  /-- R195 AGE. -/
  age : Nat
  threads : List Thread
  /-- R68, R69: the slot partition by word; dispatch zero. -/
  part : Map CoreWord
  /-- R71: absent scratchpad lines, by partition line number; dispatch none. -/
  absent : List Nat
  /-- R206 s0–s63 of each warp by warp × 64 + n; dispatch ARG0–ARG7 and zero. -/
  sregs : Map SReg
  ctx : Ctx
  /-- R197: gate calls in progress, innermost first; GATEDEPTH is their number. -/
  gates : List GateFrame
  /-- R208 WDLIMIT; dispatch 26. -/
  wdlimit : Nat
  /-- R193: watchdog counter of each warp. -/
  wdcount : Map Nat
  /-- R193: members still to issue since the counter's last reset. -/
  wdowed : Map (List Nat)
  trap : Option Trap
  /-- R385: causes held. -/
  held : List HeldCause
  /-- R377: PREEMPT delivered; die picoseconds at which the forced save is due. -/
  preemptDue : Option Nat
  /-- R377, R392: the save record reserved for it. -/
  saveRec : Option Nat
  /-- R390, R391: it has stopped and is saved as soon as nothing reads or writes its slot; true for a forced save. -/
  saving : Option Bool
  /-- The number of the free bytes that stand in its record's state part (R392). -/
  saveNo : Nat
  /-- R401: it was killed, and only work already issued runs on. -/
  dead : Bool
  /-- R390: after a YIELD restore the handler warp alone resumes. -/
  yielded : Bool
  /-- R400: the group consumed poison and ends at this time. -/
  poisonDue : Option Nat
  barriers : List Barrier
  cairns : List Cairn
  log : List ParkedWord
  /-- R211: pending registers. -/
  pend : List Res
  /-- R183 mt0, mt1. -/
  tiles : List Tile
  /-- R348: sticky status. -/
  sticky : Nat
  /-- R281, R304: clocks and picoseconds for which the group has been resident. -/
  resClk : Nat
  resPs : Nat
  /-- R368: die picoseconds, kept here to date the waits. -/
  now : Nat
  /-- R369: die picoseconds at swap-out. -/
  swapAt : Nat
  /-- R365: when it became a candidate. -/
  candAt : Nat
  /-- R188: it was pre-empted by a rebalancing move, and resumes when its stage next gains a slot. -/
  moved : Bool
  /-- R369: it is restorable. -/
  restorable : Bool
deriving DecidableEq, Repr, Inhabited

/-! ## Nodes and task records -/

/-- A task record as committed in a task queue (R179, R185): sixteen 64-bit words. -/
structure TaskRec where
  words : List DWord
  pn : Nat
  /-- The class of the queue that holds it (R179 PRIO). -/
  cls : Nat
  /-- Die picoseconds at commit (R359). -/
  at_ : Nat
  /-- R402: how often it has been run again. -/
  retries : Nat
  /-- Poisoned bytes were read with the record (R397). -/
  poison : Bool
  /-- The model's own name of a record that the scheduler has taken, by which the belay log names it; else 0. -/
  rid : Nat
deriving DecidableEq, Repr, Inhabited

/-- A stage of a pipeline (R185 to R188). Its node's record is the worker record with the pipeline's DONECC and
PCHAIN in their words. -/
structure Stage where
  pipe : Nat
  index : Nat
  inq : Option (Nat × Nat)
  outq : Option (Nat × Nat)
  minGrp : Nat
  maxGrp : Nat
  opened : Bool
deriving DecidableEq, Repr, Inhabited

/-- A tentative line of a restartable node that was evicted to the staging reserve (R82, R167): its 64 bytes stand in the
reserve, and the rest of it here. -/
structure TentLine where
  line : Nat
  attr : Attr
  pres : Option (Nat × Nat × Nat × Nat)
  /-- The bytes that the node wrote. -/
  mask : DWord
  /-- R167, R436: sectors marked poison by the node. -/
  mark : BitVec 2
  /-- The place in the staging reserve, in units of 64 bytes. -/
  place : Nat
deriving DecidableEq, Repr, Inhabited

/-- A dispatched node that is not yet dropped (R160, R364). -/
structure Node where
  nid : Nat
  rec_ : TaskRec
  ext : ExtTable
  fs : List DWord
  /-- R160: the order of its conflict check, and R359 its time. -/
  order : Nat
  at_ : Nat
  /-- R365: when its next group became a candidate. -/
  candAt : Nat
  /-- R182: the next group to place, and how many there are. -/
  nextIdx : Nat
  total : Nat
  /-- Groups dispatched and not yet ended; groups whose arrival waits for the commit (R168). -/
  live : Nat
  owed : Nat
  /-- R167, R169: writes are tentative. -/
  revocable : Bool
  /-- R170: a commit for the transition to irrevocable is under way; R168: the final commit is. -/
  turning : Bool
  committing : Bool
  /-- R82: its tentative lines in the staging reserve; those in the L2 are the slices' lines with its tag. -/
  tent : List TentLine
  /-- R177: cancelled, so no further group is placed. -/
  cancelled : Bool
  /-- R402: the node was killed, with this status. -/
  killed : Option Nat
  stage : Option Stage
deriving DecidableEq, Repr, Inhabited

/-- A record in the Translate stage (R361, R362). -/
structure TransEntry where
  txid : Nat
  rec_ : TaskRec
  /-- A notice has been sent and is unanswered. -/
  waiting : Bool
  /-- The TXANS answer that waits to be carried out (R371). -/
  answer : Option Nat
  /-- R362: the runs it keeps pinned. -/
  pins : List Run
  stage : Option Stage
deriving DecidableEq, Repr, Inhabited

/-! ## Engines -/

/-- An entry of an engine queue (R165, R166). -/
inductive EngEntry where
  | op (id : Nat)
  | fence (id : Nat)
deriving DecidableEq, Repr, Inhabited

/-- Where an asynchronous result goes (R313, R340): a warp's s-register at one gate depth of a group. -/
structure Dest where
  gid : Nat
  depth : Nat
  warp : Nat
  reg : Operand
deriving DecidableEq, Repr, Inhabited

/-- A layout record as read (R338). -/
structure Layout where
  base : DWord
  str1 : DWord
  str2 : DWord
  str3 : DWord
  cnt1 : Nat
  cnt2 : Nat
  cnt3 : Nat
  rowb : Nat
  rbase : Nat
  slotb : Nat
  nslot : Nat
  hint : Nat
  dpitch : Nat
deriving DecidableEq, Repr, Inhabited

/-- The four stream operations (R339). -/
inductive CopyKind where
  | fill | drain | fillQueue | drainQueue
deriving DecidableEq, Repr, Inhabited

/-- A message between ports (R126, R127). `pn` and `bad` ride with a PUT in the model. -/
structure Msg where
  kind : Nat
  dpkg : Nat
  ddie : Nat
  inc : Nat
  spkg : Nat
  sdie : Nat
  mseq : Nat
  qidx : Nat
  qgen : Nat
  ticket : Nat
  status : Nat
  pid : Nat
  dom : Word
  arg0 : DWord
  arg1 : DWord
  arg2 : DWord
  arg3 : DWord
  bytes : List Byte
  mlen : Nat
  bad : List Nat
  pn : Nat
deriving DecidableEq, Repr, Inhabited

/-- A copy record of a stream engine (R337). -/
structure Copy where
  id : Nat
  gid : Nat
  depth : Nat
  kind : CopyKind
  lay : Layout
  off : DWord
  slot : Nat
  /-- Process and domain recorded at issue (R142). -/
  pn : Nat
  dom : Option Word
  vqn : Option Word
  /-- Rows performed or unresolvable, and rows parked (R343). -/
  done : List Nat
  parked : List Nat
  /-- R345: deliveries begun, the limit, the ring slots that are free, and whether a DEQ is out. -/
  next : Nat
  cnt : Nat
  free : List Nat
  busy : Bool
  delivered : List Nat
  closing : Bool
  /-- R348: the status with which it ends. -/
  status : Nat
  /-- R346: the granted ticket and element size exponent. -/
  grant : Option (Nat × Nat)
  /-- R346: refused FULL, to reserve again. -/
  retry : Bool
  /-- R346, R409: the message whose queue gets the put that a frequency change holds back. -/
  putDue : Option Msg
deriving DecidableEq, Repr, Inhabited

/-- A parked row in a stream engine's operand log (R343, R387). -/
structure StreamLog where
  entry : Nat
  copy : Nat
  row : Nat
  va : Nat
  cause : Nat
  /-- The FANS answer that waits to be carried out (R389). -/
  answer : Option Nat
deriving DecidableEq, Repr, Inhabited

/-- A bulk prefetch in a core's prefetch engine queue (R84, R299). -/
structure Prefetch where
  id : Nat
  gid : Nat
  /-- The gate depth at which it was issued (R355). -/
  depth : Nat
  pn : Nat
  svc : Bool
  ext : ExtTable
  base : Nat
  len : Nat
  hint : Nat
  cc : DWord
deriving DecidableEq, Repr, Inhabited

/-- An entry of a core's pending-launch queue (R309, R310). -/
structure PendLaunch where
  id : Nat
  words : List DWord
  bad : List Nat
  /-- The VQN of LAUNCH queue (none when its handle is unbound); a plain LAUNCH names the die's task queue. -/
  queue : Bool
  vqn : Option Word
  /-- The handle of LAUNCH queue, whose OUT counts the launch (R318). -/
  handle : Nat
  pn : Nat
  dom : Option Word
  dst : Dest
  grant : Option Nat
  /-- R310: die picoseconds at which its ticket expires, as its GRANT says. -/
  expiry : Nat
  retry : Bool
  busy : Bool
deriving DecidableEq, Repr, Inhabited

/-- What an outbound queue operation asks (R315, R316, R319). -/
inductive OutKind where
  | res (n : Nat)
  | put (ticket : Nat) (bytes : List Byte) (bad : List Nat)
  | cancelGrant (ticket : Nat)
  | cancelWait (warp : Nat)
  | launch (id : Nat)
deriving DecidableEq, Repr, Inhabited

/-- An entry of the outbound engine queue (R165). -/
structure OutOp where
  id : Nat
  kind : OutKind
  handle : Nat
  binding : Nat
  vqn : Word
  pn : Nat
  dst : Dest
  started : Bool
deriving DecidableEq, Repr, Inhabited

/-- An L1 line's tag (R73, R77): the slice it fills from, its line and the slot; the data of a hit is always the line's
current value. -/
structure L1Tag where
  slice : Nat
  line : Nat
  slot : Nat
deriving DecidableEq, Repr, Inhabited

/-- An instruction-cache line (R74), kept incoherent with stores. -/
structure ICLine where
  pn : Nat
  line : Nat
  data : BitVec 512
  /-- The bytes that were poisoned when the line came in (R397, R436). -/
  poison : DWord
deriving DecidableEq, Repr, Inhabited

/-- A cached leaf (R60): the page it covers, its level and the entry. -/
structure TCEntry where
  pn : Nat
  vpn : Nat
  level : Nat
  leaf : DWord
deriving DecidableEq, Repr, Inhabited

/-- The last per-lane word that a core issued: its group and the partition words of each active lane's destination
(R393). -/
structure LastWord where
  gid : Nat
  words : List (Nat × List Nat)
deriving DecidableEq, Repr, Inhabited

/-- One core (R68, R73, R165, R196, R309, R337, R372). -/
structure Core where
  /-- R373: the rotating pointer. -/
  ptr : Nat
  /-- R372: the warp place and bank-use vector of the word the other port took this cycle. -/
  port : Option (Nat × Nat × Bool)
  /-- R393: what a disagreement of roped issue would poison; reset none. -/
  last : Option LastWord
  launches : List PendLaunch
  /-- R196: groups in the retirement tracker, at most 8. -/
  tracker : List Nat
  prefetches : List Prefetch
  outOps : List OutOp
  copies : List Copy
  slog : List StreamLog
  fillQ : List EngEntry
  drainQ : List EngEntry
  prefetchQ : List EngEntry
  outQ : List EngEntry
  /-- R73: lines in use order, most recent first. -/
  l1 : List L1Tag
  icache : List ICLine
  tcache : List TCEntry
  /-- R115: instance counter of each slot. -/
  inst : Map Nat
  /-- R138, R388: for each copy record, refused rows without a notice since its last CAUSE 4 notice. -/
  refused : Map Nat
deriving DecidableEq, Repr, Inhabited

/-- A matrix operation (R321) with what it captured at issue. -/
inductive MatOp where
  | mloop (n : Nat) (desc : List Byte)
  | mzero
  | mldt (type : Nat) (spec addr : DWord) (win : Bool)
  | mst (slot : Option DWord) (spec addr : DWord) (win : Bool)
deriving DecidableEq, Repr, Inhabited

/-- A reservation-table entry (R323, R374). -/
structure MatEntry where
  id : Nat
  gid : Nat
  tile : Nat
  version : Nat
  op : MatOp
  /-- K-steps applied so far. -/
  done : Nat
  cls : Nat
  age : Nat
  /-- When it became eligible (R375), by order number. -/
  since : Option Nat
  /-- The extent table and frame of the posting context (R353, R354). -/
  ext : ExtTable
  frame : Frame
deriving DecidableEq, Repr, Inhabited

/-- A cluster's matrix engine (R237, R323). -/
structure Cluster where
  table : List MatEntry
  /-- R166: SJOIN fences: a group's entries after `after` wait until every entry up to it and fence `id` are done. -/
  fences : List (Nat × Nat × Nat)
  /-- R237: CHKCOL; cold boot and warm reset 0. -/
  chkcol : Nat
  /-- R374: the entry whose pass is running, and the K-steps of that pass that have run. -/
  running : Option Nat
  ran : Nat
  /-- R81: a set whose pins are full holds back the running pass. -/
  pinWait : Bool
  /-- R85: the lines that the running pass pins, by slice and line address. -/
  pinned : List (Nat × Nat)
  /-- R410: checker repeats in this epoch. -/
  repeats : Nat
deriving DecidableEq, Repr, Inhabited

/-! ## The memory side of a die -/

/-- A line of an L2 slice (R75, R79, R80, R436). -/
structure L2Line where
  slice : Nat
  line : Nat
  way : Nat
  valid : DWord
  dirty : DWord
  data : BitVec 512
  /-- R436: poison mark of each sector. -/
  mark : BitVec 2
  /-- R73: some L1 of the die fills from the line. -/
  l1 : Bool
  /-- R79: re-reference value. -/
  rr : Nat
  /-- R85: pins of the tile fetch unit. -/
  pins : Nat
  /-- R96: the translation is an ALIAS page's: frame, AFMT, ASUB, block. -/
  pres : Option (Nat × Nat × Nat × Nat)
  /-- R82, R167: the node whose tentative copy the line is, and none for the committed line. -/
  node : Option Nat
  /-- The attributes of the translation that brought it in (R76). -/
  attr : Attr
deriving DecidableEq, Repr, Inhabited

/-- The memory controllers of a die (R103). -/
structure MemCtl where
  /-- MCHOT; reset 0. -/
  mchot : Word
  /-- SCRUB0/1: the next sector (LINE is half of it) and PASSES, and when the pass began; reset 0. -/
  scrubSector : List Nat
  scrubPasses : List Nat
  scrubStart : List Nat
  /-- ECC0/1 CORR and UNCORR; reset 0. -/
  corr : List Nat
  uncorr : List Nat
  /-- R410: uncorrectable sectors of each channel since cold boot. -/
  chUncorr : Map Nat
  /-- R100: hotness counters by block × 16 + class. -/
  hot : Map Nat
deriving DecidableEq, Repr, Inhabited

/-! ## Queues -/

/-- A producer (R115): source package and die and the identifying bits of PID. -/
structure Producer where
  pkg : Nat
  die : Nat
  pid : Nat
deriving DecidableEq, Repr, Inhabited

/-- The states of a ticket (R116). -/
inductive TicketState where
  | granted | committed | taken | hole
deriving DecidableEq, Repr, Inhabited

/-- A ticket of a queue (R115, R116) with its element once committed. -/
structure Ticket where
  num : Nat
  /-- The first ticket of its grant. -/
  grant : Nat
  st : TicketState
  prod : Producer
  /-- Home-die picoseconds of expiry. -/
  expiry : Nat
  bytes : List Byte
  /-- Poisoned words of the element, by word number (R396). -/
  bad : List Nat
  dom : Word
  pn : Nat
  /-- MSEQ of the message that filled it (R129). -/
  mseq : Nat
  /-- TAKEN and its delivery complete, so its capacity is free (R116). -/
  delivered : Bool
  at_ : Nat
  /-- The dequeue it was assigned to, by package, die and MSEQ. -/
  taker : Option (Nat × Nat × Nat)
deriving DecidableEq, Repr, Inhabited

/-- A waiter record (R122). -/
structure Waiter where
  pkg : Nat
  die : Nat
  pid : Nat
  mseq : Nat
  cls : Nat
  off : Nat
deriving DecidableEq, Repr, Inhabited

/-- A live queue (R110, R115). -/
structure Queue where
  index : Nat
  gen : Nat
  ckind : Nat
  esize : Nat
  slots : Nat
  maxres : Nat
  prio : Nat
  life : Nat
  dom : Word
  ownEnq : Bool
  ownDeq : Bool
  anyEnq : Bool
  anyDeq : Bool
  spillBase : Nat
  spillCap : Nat
  next : Nat
  tickets : List Ticket
  waiters : List Waiter
  /-- R376: the clock of the last assignment of an element, of which there is at most one in a clock; none at creation. -/
  served : Option Nat
deriving DecidableEq, Repr, Inhabited

/-- A fragment (R126): its header flit and its data flits. -/
structure Fragment where
  header : BitVec 512
  flits : List (BitVec 512)
deriving DecidableEq, Repr, Inhabited

/-- A message being put together (R129). -/
structure Reassembly where
  msg : Msg
  got : Map (BitVec 512)
  /-- Fragments taken in so far. -/
  frags : Nat
  first : Nat
deriving DecidableEq, Repr, Inhabited

/-- A done record (R129). -/
structure DoneRec where
  pkg : Nat
  die : Nat
  mseq : Nat
  at_ : Nat
deriving DecidableEq, Repr, Inhabited

/-- Who waits for the answer to a request that a port has sent. -/
inductive Asker where
  | out (core id : Nat)
  | get (dst : Dest) (handle binding off size : Nat)
  | wait (dst : Dest) (handle binding off size : Nat)
  | stream (core copy slot : Nat)
  | drain (core copy : Nat)
  | launch (core id : Nat)
  | page (move : Nat)
  | save
  /-- R126, R148: a connection's reservation on an INQ of another die, and the put of an element there. -/
  | host (conn : Nat)
  | hostPut (conn : Nat)
  /-- R422: die 0's reservation on queue 7 of a die for a command, a die's on queue 7 of die 0 for a reply, and the put of one
  element of either. -/
  | relay (die : Nat)
  | reply
  | relayPut
deriving DecidableEq, Repr, Inhabited

/-- A request sent and not yet answered, by MSEQ towards its die (R115, R127). -/
structure Request where
  mseq : Nat
  pkg : Nat
  die : Nat
  asker : Asker
  msg : Msg
  /-- Picoseconds at which it was sent (R135). -/
  at_ : Nat
deriving DecidableEq, Repr, Inhabited

/-- A cached name translation (R108). -/
structure NameEntry where
  pn : Nat
  vqn : Nat
  dom : Word
  enq : Bool
  deq : Bool
  qid : DWord
  inc : Nat
deriving DecidableEq, Repr, Inhabited

/-- A registration (R143, R144): state 0 FREE, 1 VALID, 2 REVOKING. -/
structure Registration where
  index : Nat
  state : Nat
  pn : Nat
  dom : Word
  base : Nat
  len : Nat
  rights : Nat
  admitted : Nat
deriving DecidableEq, Repr, Inhabited

/-- A page move at its home (R62, R63): `stage` 0 waiting for old accesses, 1 sent. -/
structure Move where
  id : Nat
  pn : Nat
  vpn : Nat
  frame : Nat
  leaf : DWord
  count : Nat
  toDie : Nat
  toFrame : Nat
  replyQ : DWord
  rticket : Nat
  tag : Nat
  va : DWord
  sent : Bool
  acks : List Nat
deriving DecidableEq, Repr, Inhabited

/-- A memory-service request that waits on a move (R63). -/
structure WaitingSvc where
  id : Nat
  bytes : List Byte
  /-- Poisoned words of the element. -/
  bad : List Nat
  dom : Word
  prod : Producer
  reg : Option Nat
deriving DecidableEq, Repr, Inhabited

/-- A MIGRATE this die has sent and that is still outstanding (R63, R133). -/
structure Arrival where
  pn : Nat
  vpn : Nat
  frame : Nat
  home : Nat
  /-- Where its reply goes (R139). -/
  replyQ : Nat
  rticket : Nat
  got : List Nat
deriving DecidableEq, Repr, Inhabited

/-- Where the reply to a management command goes: the addresses, the command's fields and the session key when it was
accepted (R422). -/
structure Reply where
  src : BitVec 128
  dst : BitVec 128
  sport : BitVec 16
  op : Nat
  die : Nat
  seq : Nat
  key : Option (List Byte)
deriving DecidableEq, Repr, Inhabited

/-- A management command (R421). -/
structure Mgmt where
  op : Nat
  die : Nat
  seq : Nat
  payload : List Byte
  mac : List Byte
deriving DecidableEq, Repr, Inhabited

/-- An accepted command that die 0 has still to put into queue 7 of its die (R422); `sent` while its reservation is under
way. -/
structure Relaying where
  cmd : Mgmt
  back : Reply
  sent : Bool
deriving DecidableEq, Repr, Inhabited

/-- What a reply says of its command (R421). -/
structure CmdRef where
  op : Nat
  die : Nat
  seq : Nat
deriving DecidableEq, Repr, Inhabited

/-- A management reply that a die has still to put into queue 7 of die 0 (R422); `sent` while its reservation is under way. -/
structure ReplyDue where
  ref : CmdRef
  status : Nat
  payload : List Byte
  sent : Bool
deriving DecidableEq, Repr, Inhabited

/-- The elements that a management core has taken of one grant of queue 7, put together (R422). -/
structure Gather where
  prod : Producer
  grant : Nat
  bytes : List Byte
  /-- One of them was delivered poisoned (R394). -/
  bad : Bool
deriving DecidableEq, Repr, Inhabited

/-- A port command (R112, R113): the word of QCMD; for one that the management core runs (R423), its parameter block and
its reply. -/
structure PortCmd where
  word : DWord
  block : Option (List Byte)
  back : Option CmdRef
deriving DecidableEq, Repr, Inhabited

/-- The queue port of a die (R105 to R150). -/
structure Port where
  /-- R112 QNTROOT; reset 0. -/
  qntroot : DWord
  /-- R112 QARG; reset 0. -/
  qarg : DWord
  /-- R112 QCMDST: RESULT, STATUS; reset 0. BUSY is set while a command stands in `cmds`. -/
  result : BitVec 16
  status : Byte
  /-- R112: the command in progress and the QCMD writes held behind it. -/
  cmds : List PortCmd
  /-- R112 QERR: BAD, EVLOST, STALE, INCOMPLETE; cold boot 0. -/
  bad : BitVec 16
  evlost : BitVec 16
  stale : BitVec 16
  incomplete : BitVec 16
  /-- R138: events dropped since the last OVERFLOW. -/
  dropped : Nat
  /-- R111: live queues, and the GEN each index last had. -/
  queues : List Queue
  lastGen : Map Nat
  /-- R376: the index last served, for turns of equal PRIO. -/
  turn : Nat
  inbox : List Msg
  /-- What rides beside this port's messages on the links: poisoned words and the process, which no flit has a field
  for (R396). -/
  riding : List Msg
  requests : List Request
  /-- R127: MSEQ towards each port, by package × 8 + die. -/
  mseq : Map Nat
  /-- R108, R134: the incarnation known of each die, by package × 8 + die. -/
  known : Map Nat
  names : List NameEntry
  reassembly : List Reassembly
  doneRecs : List DoneRec
  /-- R132: stranded fragments and when they came. -/
  transit : List (Fragment × Nat)
  registrations : List Registration
  moves : List Move
  waiting : List WaitingSvc
  arrivals : List Arrival
  /-- R135: dies declared lost, by package × 8 + die. -/
  lost : List Nat
deriving DecidableEq, Repr, Inhabited

/-- A notice for the system fault queue: the source whose reserved cell it takes (R138), its code and body. -/
structure Notice where
  cell : Nat
  code : Nat
  body : List Byte
deriving DecidableEq, Repr, Inhabited

/-- A rebalancing move under way (R188): the slot that the donor's group `gid` frees, and the taker's node. -/
structure SlotMove where
  core : Nat
  slot : Nat
  gid : Nat
  taker : Nat
deriving DecidableEq, Repr, Inhabited

/-- The die task scheduler (R359 to R371, R389, R392). -/
structure Sched where
  /-- SCHCTL.SWAPTH; reset 2,000. -/
  swapth : Nat
  /-- SCHST.DISCARD; cold boot 0. -/
  discard : Nat
  hold : List TaskRec
  /-- R402: records put back ahead of their class. -/
  again : List TaskRec
  trans : List TransEntry
  nodes : List Node
  /-- R389 FSEL, FRBLK; reset 0. -/
  fsel : Word
  frblk : DWord
  /-- R392 SAVEBASE, SAVEN; reset 0. -/
  savebase : DWord
  saven : Nat
  saveUsed : List Nat
  /-- R361: records that passed their gate and wait for a translation entry. -/
  ready : List TaskRec
  /-- R138: notices that wait until their source's cell is free. -/
  notices : List Notice
  /-- R160: the clock of the last conflict check and when its record was enqueued; reset none. -/
  checked : Option (Nat × Nat)
  /-- R188: moves under way, and when the stages were last rebalanced. -/
  moves : List SlotMove
  balanceAt : Nat
deriving DecidableEq, Repr, Inhabited

/-! ## Links -/

/-- One frame's places (R424): the VC and flit of each valid place. -/
structure LinkFrame where
  fseq : Nat
  flits : List (Bool × BitVec 512)
  /-- The credits it returns, which a frame sent again returns again. -/
  cr0 : Nat
  cr1 : Nat
deriving DecidableEq, Repr, Inhabited

/-- One end of a seam (code 0–9) or a ridge port (16, 17) (R407, R424, R425). -/
structure Link where
  code : Nat
  /-- R14, R25: width code. -/
  width : Nat
  /-- R407: a width change is in progress to this code. -/
  changing : Option Nat
  /-- R424: the receiver has frame alignment; consecutive CRC failures; frames in a row that passed their CRC while it
  searched; the block offset. -/
  aligned : Bool
  crcFails : Nat
  good : Nat
  offset : Nat
  /-- R424: the last frame that a ridge port has put on the wire. -/
  wire : List Byte
  /-- R425: last frame received in order, NAK to send, next FSEQ to send, replay buffer. -/
  rxSeq : Nat
  nak : Bool
  txSeq : Nat
  replay : List LinkFrame
  resend : List LinkFrame
  txq : List (Bool × BitVec 512)
  /-- Flits of the fragment coming in on each VC. -/
  rx0 : List (BitVec 512)
  rx1 : List (BitVec 512)
  /-- R131, R425: credits to send and credits to return on each VC. -/
  credit0 : Nat
  credit1 : Nat
  give0 : Nat
  give1 : Nat
  /-- Flits still to send of the fragment going out on each VC. -/
  left0 : Nat
  left1 : Nat
  /-- R135: when a flit last came in. -/
  heard : Nat
  sent : Nat
deriving DecidableEq, Repr, Inhabited

/-! ## Dies -/

/-- A retirement-table entry (R22). -/
structure RetEntry where
  seq : Nat
  boots : Nat
  cause : Nat
  width : Nat
  unit : Nat
  kind : Nat
deriving DecidableEq, Repr, Inhabited

/-- The persistent tables, which are signed and mirrored, and whether the signature verifies: the retirement table (R21, R24),
Floor of each KIND (R429), the incarnation (R134) and QSPILL.GIB for the next cold boot (R423). -/
structure RetTable where
  entries : List RetEntry
  floors : List Nat
  incarnation : Nat
  qspill : Nat
  valid : Bool
deriving DecidableEq, Repr, Inhabited

/-- A boot image in flash (R428): the slot it stands in, and its bytes, header first. -/
structure Image where
  kind : Nat
  slotB : Bool
  bytes : List Byte
deriving DecidableEq, Repr, Inhabited

/-- An error-log entry (R434). -/
structure ErrEntry where
  clock : Nat
  boots : Nat
  code : Nat
  unit : Nat
  data : List Byte
deriving DecidableEq, Repr, Inhabited

/-- A die's flash (R21, R24, R428, R429, R434). -/
structure Flash where
  images : List Image
  /-- R428: the Calgal release key, beside stage 1. -/
  calgalKey : List Byte
  table : RetTable
  /-- R24: the belay partner's tables, kept here. -/
  mirror : RetTable
  /-- R24: the mirror on the partner is to be rewritten once it can be reached. -/
  mirrorDue : Bool
  boots : Nat
  errlog : List ErrEntry
  /-- R430, R432: the identity key is present (not zeroised). -/
  identity : Bool
deriving DecidableEq, Repr, Inhabited

/-- The configuration record (R25); IDENT's die and package are the die's place. -/
structure ConfRec where
  bootClass : Word
  liveClass : Word
  gen : Word
  ident : Word
  clmap : List Byte
  cloff : List Byte
  ch : List Word
  choff : List Word
  seams : Word
  retired : Word
deriving DecidableEq, Repr, Inhabited

/-- The address-space control registers (R42). -/
structure Space where
  /-- PROCBASE; reset 0. -/
  procbase : DWord
  /-- SETTLE.INTERVAL; reset 50,000; and a change waiting for the epoch boundary (R43). -/
  interval : Nat
  pendingInterval : Option Nat
  /-- EPOCH.COUNT; reset 0. -/
  epoch : Word
  /-- XINV in progress and the writes held behind it; reset none (XINVST.BUSY 0). -/
  xinv : Option DWord
  xinvHeld : List DWord
  /-- Q of R40: QSPILL.GIB as read at the last cold boot; reset 4. The register itself is `RetTable.qspill`. -/
  qspill : Nat
deriving DecidableEq, Repr, Inhabited

/-- An outbound element that has been sent and not acknowledged (R147, R148). -/
structure Unacked where
  seq : Nat
  ticket : Nat
  bytes : List Byte
  sentAt : Nat
  again : Bool
deriving DecidableEq, Repr, Inhabited

/-- A datagram of DATA whose tickets are being reserved (R148): its elements, its RWIN, and whether it carried CE. -/
structure Incoming where
  els : List (List Byte)
  rwin : Nat
  ce : Bool
deriving DecidableEq, Repr, Inhabited

/-- A host connection (R146): state 0 OPEN, 1 CLOSED, 2 ERROR. -/
structure Conn where
  index : Nat
  state : Nat
  peer : BitVec 128
  pport : BitVec 16
  lport : BitVec 16
  dom : Word
  inq : DWord
  outq : DWord
  sndUna : Nat
  sndNxt : Nat
  rcvNxt : Nat
  /-- CWND; CONNECT 65,536. -/
  cwnd : Nat
  /-- SRTT in ps, unset at first; RTO, CONNECT 1 ms. -/
  srtt : Option Nat
  rto : Nat
  timeouts : Nat
  halvedAt : Option Nat
  rwin : Nat
  unacked : List Unacked
  /-- DATA accepted and not yet acknowledged, and whether one carried CE. -/
  ackDue : Nat
  ece : Bool
  /-- R126, R148: the DATA whose reservation on an INQ of another die is under way; CONNECT none. -/
  data : Option Incoming
deriving DecidableEq, Repr, Inhabited

/-- A checkpoint of a die (R404); the connections are die 0's. -/
structure Checkpoint where
  port : Port
  sched : Sched
  space : Space
  conns : List Conn
deriving DecidableEq, Repr, Inhabited

/-- A logged change since the checkpoint (R405). -/
inductive LogEntry where
  | message (m : Msg)
  | assigned (index ticket : Nat)
  | took (index ticket : Nat) (r : TaskRec)
  | irrevocable (rid : Nat)
  | settled (rid : Nat)
deriving DecidableEq, Repr, Inhabited

/-- What a SAVE to the belay partner carries (R404, R405): part `part` of the `total` of a checkpoint image, or a log
record. -/
inductive BelayItem where
  | image (c : Checkpoint) (part total : Nat)
  | entry (e : LogEntry)
deriving DecidableEq, Repr, Inhabited

/-- Belay traffic that has not reached the partner, and the OKs of commits that wait for it (R405). -/
structure BelaySave where
  item : BelayItem
  answers : List Msg
deriving DecidableEq, Repr, Inhabited

/-- The life of a die (R18, R24, R431). -/
inductive DiePhase where
  /-- Powered and not yet booted. -/
  | off
  /-- Waiting for the belay mirror (R24). -/
  | mirror
  | up
  /-- Did not come up, retired, or stopped by alarm level 3. -/
  | down
  /-- Booted after its identity key was zeroised: up for management traffic alone (R431). -/
  | scrapped
deriving DecidableEq, Repr, Inhabited

/-- One die. -/
structure Die where
  phase : DiePhase
  flash : Flash
  conf : ConfRec
  space : Space
  port : Port
  sched : Sched
  memctl : MemCtl
  /-- R40: HBM4E and reserved regions, by die-local address; an unlisted byte reads 0 (log entry 1). -/
  mem : List Host.Cell
  /-- R90: poison sectors, by address ÷ 32, ascending. -/
  poisonSec : List Nat
  /-- R94: zero-pending sectors, by address ÷ 32, as ranges (start, length). -/
  zpend : List (Nat × Nat)
  /-- R406: poison-pending sectors of general memory, by address ÷ 32, as ranges (start, length). -/
  poisonPending : List (Nat × Nat)
  l2 : List L2Line
  cores : Map Core
  clusters : Map Cluster
  groups : List Group
  links : List Link
  /-- R137 CLOCK: clocks since cold boot; and picoseconds since cold boot. -/
  clock : Nat
  ps : Nat
  /-- R43: picoseconds at the last epoch boundary. -/
  epochPs : Nat
  /-- R433 ALARMST: LEVEL, GLITCH, SRC; reset 0. -/
  alarm : Nat
  glitch : Nat
  alarmSrc : BitVec 6
  /-- R433 THERM: TJ, POWER, REQ, POINT; reset 0. -/
  tj : Byte
  power : Byte
  freqReq : BitVec 2
  freqPoint : BitVec 2
  /-- R409: a frequency change in progress or waiting. -/
  freqTo : Option (BitVec 2)
  freqRunning : Bool
  /-- R435: die picoseconds at the first of the checks since which the step-up conditions have held. -/
  coolFrom : Option Nat
  /-- R404, R405: what this die keeps of its belay partner: the complete images, newest first, and the log since. -/
  kept : List Checkpoint
  keptLog : List LogEntry
  /-- R404, R405: what is still to reach this die's own partner, oldest first; whether the first is on its way; the number
  of images sent, and the bytes of log since the last. -/
  belayQ : List BelaySave
  belayBusy : Bool
  imageNo : Nat
  logPos : Nat
  /-- R404: picoseconds at the last checkpoint, and that a phase boundary has been reached since. -/
  cpAt : Nat
  cpDue : Bool
  /-- R23: the clock of the last retirement, and the table's length before that clock. -/
  retiredAt : Option (Nat × Nat)
  /-- R130: the next link towards each die. -/
  routes : Map Nat
  /-- R429: the images used at the last cold boot, whose digests and measurement R430 reports. -/
  used : List Image
  /-- R423: a planned warm reset has been ordered. -/
  resetDue : Bool
  /-- R406: a planned reset has stopped the die and its checkpoint is on its way: the nodes that lost no group. -/
  stopped : Option (List Nat)
  /-- R422: what the management core has taken of commands and replies from queue 7, the whole commands that it has still to
  perform, oldest first, and its replies that wait for die 0's queue 7. -/
  gather : List Gather
  mgmtIn : List Mgmt
  mgmtOut : List ReplyDue
  /-- R82: nodes with a tentative line that found the staging reserve full: they are killed as the step ends. -/
  doomed : List Nat
  /-- R176: the arrivals registered on counters and not yet made or dropped. -/
  owing : List Owing
deriving DecidableEq, Repr, Inhabited

/-! ## The host side -/

/-- What the host port sends (R420): a datagram, or the answer to neighbour discovery for an address. -/
inductive Sent where
  | datagram (p : Packet)
  | advertisement (target : BitVec 128)
deriving DecidableEq, Repr, Inhabited

/-- Die 0's host port and the management session (R420 to R423). -/
structure HostPort where
  unicast : BitVec 128
  linkLocal : BitVec 128
  /-- R420: the 802.1Q tag that it accepts. -/
  tag : Option (BitVec 12)
  mgmtPort : BitVec 16
  /-- R423, R428: the operator's public key. -/
  operatorKey : List Byte
  conns : List Conn
  sessionKey : Option (List Byte)
  seq : Nat
  /-- R432: consecutive failed SESSION signatures. -/
  failures : Nat
  /-- R422: commands accepted and not yet relayed, oldest first, and where the replies to those relayed go. -/
  relays : List Relaying
  awaiting : List Reply
  /-- What the port has sent, oldest first. -/
  sent : List Sent
deriving DecidableEq, Repr, Inhabited

/-- The place whose warp is issuing. -/
structure Place where
  d : Nat
  core : Nat
  slot : Nat
  warp : Nat
deriving DecidableEq, Repr, Inhabited

/-- The state of one package. -/
structure State where
  /-- R1: the eight dies. -/
  dies : List Die
  /-- R25 IDENT: the package number. -/
  pkg : Nat
  host : HostPort
  /-- R435: package power over 10 ms in units of 10 W. -/
  power : Nat
  /-- The model's own: which warp issues. -/
  cur : Place
  /-- The model's own: who moves next, in order; then `Config.freeTurn`. -/
  agenda : List Turn
  /-- The model's own: the free values used so far. -/
  freeNo : Nat
  /-- The model's own: the next name for a group, node, engine entry or order number. Names below 64 are the copy
  records of a stream engine. -/
  nextId : Nat
  /-- The model's own: an access touched a die-local address that does not exist (R40 Unpopulated). -/
  hole : Option Nat
deriving DecidableEq, Repr, Inhabited

/-- Why a step stops. -/
inductive Fault where
  /-- Raised when system software or an engine makes the device access a die-local address that R40 calls
  Unpopulated. Safe: the spec gives such an access no effect. -/
  | unpopulated (addr : Nat)
deriving DecidableEq, Repr, Inhabited

/-- Why a step has no meaning. -/
inductive Refusal where
  /-- Raised by `exec` for an instruction the model does not yet describe. Safe: nothing is claimed. -/
  | notModelled (mnemonic : String)
deriving DecidableEq, Repr, Inhabited

/-! ## Reset -/

/-- A core with nothing on it. -/
def Core.empty : Core where
  ptr := 0
  port := none
  last := none
  launches := []
  tracker := []
  prefetches := []
  outOps := []
  copies := []
  slog := []
  fillQ := []
  drainQ := []
  prefetchQ := []
  outQ := []
  l1 := []
  icache := []
  tcache := []
  inst := []
  refused := []

/-- A cluster's engine with nothing posted and CHKCOL 0 (R237). -/
def Cluster.empty : Cluster where
  table := []
  fences := []
  chkcol := 0
  running := none
  ran := 0
  pinWait := false
  pinned := []
  repeats := 0

/-- A device queue of R106 as the management core creates it: domain 0, OWNR both, LIFE 100, GEN 1. -/
def Queue.device (index ckind esize slots maxres prio : Nat) (anyEnq : Bool) (spillBase spillCap : Nat) : Queue where
  index := index
  gen := 1
  ckind := ckind
  esize := esize
  slots := slots
  maxres := maxres
  prio := prio
  life := 100
  dom := 0
  ownEnq := true
  ownDeq := true
  anyEnq := anyEnq
  anyDeq := false
  spillBase := spillBase
  spillCap := spillCap
  next := 0
  tickets := []
  waiters := []
  served := none

/-- The eight device queues, their spill at the bottom of the queue-spill region in the order of R106. -/
def deviceQueues (spill : Nat) : List Queue :=
  [ Queue.device 0 0 6 4096 1 2 false spill 61440,
    Queue.device 1 0 6 4096 1 0 false (spill + 0x3C0000) 61440,
    Queue.device 2 3 7 8192 64 0 true (spill + 0x780000) 57344,
    Queue.device 3 2 7 4096 64 1 true (spill + 0xE80000) 61440,
    Queue.device 4 2 7 4096 64 1 true (spill + 0x1600000) 61440,
    Queue.device 5 2 7 4096 64 1 true (spill + 0x1D80000) 61440,
    Queue.device 6 2 7 4096 64 1 true (spill + 0x2500000) 61440,
    Queue.device 7 5 7 256 64 0 false (spill + 0x2C80000) 0 ]

/-- The port right after a cold boot in which every die of package `pkg` has incarnation `inc` (R106, R111, R112,
R134). -/
def Port.boot (pkg inc spill : Nat) : Port where
  qntroot := 0
  qarg := 0
  result := 0
  status := 0
  cmds := []
  bad := 0
  evlost := 0
  stale := 0
  incomplete := 0
  dropped := 0
  queues := deviceQueues spill
  lastGen := (List.range 8).map fun i => (i, 1)
  turn := 0
  inbox := []
  riding := []
  requests := []
  mseq := []
  known := (List.range 8).map fun i => (pkg * 8 + i, inc)
  names := []
  reassembly := []
  doneRecs := []
  transit := []
  registrations := []
  moves := []
  waiting := []
  arrivals := []
  lost := []

/-- The scheduler's registers at reset (R370, R371, R389, R392). -/
def Sched.boot : Sched where
  swapth := 2000
  discard := 0
  hold := []
  again := []
  trans := []
  nodes := []
  fsel := 0
  frblk := 0
  savebase := 0
  saven := 0
  saveUsed := []
  ready := []
  notices := []
  checked := none
  moves := []
  balanceAt := 0

/-- The address-space registers at reset (R42); `q` is QSPILL as kept in the persistent tables. -/
def Space.boot (q : Nat) : Space where
  procbase := 0
  interval := 50000
  pendingInterval := none
  epoch := 0
  xinv := none
  xinvHeld := []
  qspill := q

/-- The memory controllers at reset (R103). -/
def MemCtl.boot : MemCtl where
  mchot := 0
  scrubSector := [0, 0]
  scrubPasses := [0, 0]
  scrubStart := [0, 0]
  corr := [0, 0]
  uncorr := [0, 0]
  chUncorr := []
  hot := []

/-- The two dies that a seam joins (R14). -/
def seamEnds (s : Nat) : Nat × Nat :=
  if s < 3 then (s, s + 1) else if s < 6 then (s + 1, s + 2) else (s - 6, s - 2)

/-- A link at full width with its buffers empty: two fragments of 65 flits of credit on each VC (R131). -/
def Link.boot (code : Nat) : Link where
  code := code
  width := 3
  changing := none
  aligned := true
  crcFails := 0
  good := 0
  wire := []
  offset := 0
  rxSeq := 4095
  nak := false
  txSeq := 0
  replay := []
  resend := []
  txq := []
  rx0 := []
  rx1 := []
  credit0 := 130
  credit1 := 130
  give0 := 0
  give1 := 0
  left0 := 0
  left1 := 0
  heard := 0
  sent := 0

/-- The links of die `d`: its seams (R14) and its two ridge ports. -/
def dieLinks (d : Nat) : List Link :=
  (((List.range 10).filter fun s => (seamEnds s).1 == d || (seamEnds s).2 == d) ++ [16, 17]).map Link.boot

/-- An image with an empty body at SVN 0, in slot A (log entry 10): the header and a SIG of zeros. -/
def Image.first (kind : Nat) : Image := ⟨kind, false, BitVec.ofNat 8 kind :: List.replicate 1023 0⟩

/-- The flash as it leaves manufacture and after one cold boot: no entry retired, every signature valid, one
image of each KIND in slot A (log entry 10). -/
def Flash.first : Flash where
  images := [Image.first 1, Image.first 2, Image.first 3]
  calgalKey := []
  table := ⟨[], [0, 0, 0], 1, 4, true⟩
  mirror := ⟨[], [0, 0, 0], 1, 4, true⟩
  mirrorDue := false
  boots := 1
  errlog := []
  identity := true

/-- IDENT of R25. -/
def identWord (pkg d inc : Nat) (noBelay : Bool) : Word :=
  BitVec.ofNat 32 (pkg % 65536 * 65536 + d % 8 * 8192 + inc % 256 * 32 + if noBelay then 16 else 0)

/-- The configuration record of a fully live die (R25, R26: class code 0x8202_083C). -/
def ConfRec.full (pkg d inc : Nat) : ConfRec where
  bootClass := 0x8202083C
  liveClass := 0x8202083C
  gen := 0
  ident := identWord pkg d inc false
  clmap := List.replicate 32 0x8F
  cloff := List.replicate 32 0
  ch := [0xFFFFFFFF, 0xFFFFFFFF]
  choff := [0, 0]
  seams := 0xFFFFF
  retired := 0

/-- A fully live die right after its first cold boot. -/
def Die.boot (pkg d : Nat) : Die where
  phase := .up
  flash := Flash.first
  conf := ConfRec.full pkg d 1
  space := Space.boot 4
  port := Port.boot pkg 1 0x1E30000000
  sched := Sched.boot
  memctl := MemCtl.boot
  mem := []
  poisonSec := []
  zpend := []
  poisonPending := []
  l2 := []
  cores := []
  clusters := []
  groups := []
  links := dieLinks d
  clock := 0
  ps := 0
  epochPs := 0
  alarm := 0
  glitch := 0
  alarmSrc := 0
  tj := 0
  power := 0
  freqReq := 0
  freqPoint := 0
  freqTo := none
  freqRunning := false
  coolFrom := none
  kept := []
  keptLog := []
  belayQ := []
  belayBusy := false
  imageNo := 0
  logPos := 0
  cpAt := 0
  cpDue := false
  retiredAt := none
  owing := []
  routes := []
  used := Flash.first.images
  resetDue := false
  stopped := none
  gather := []
  mgmtIn := []
  mgmtOut := []
  doomed := []

/-- The host port with no connection and no session (R420, R422); the addresses and the management port come
from the operator configuration image, which the spec does not give (log entry 10). -/
def HostPort.boot : HostPort where
  unicast := 0
  linkLocal := 0
  tag := none
  mgmtPort := 0
  operatorKey := []
  conns := []
  sessionKey := none
  seq := 0
  failures := 0
  relays := []
  awaiting := []
  sent := []

/-- The package right after its first cold boot: eight fully live dies, no process and no group (R423). -/
def State.reset : State where
  dies := (List.range 8).map (Die.boot 0)
  pkg := 0
  host := HostPort.boot
  power := 0
  cur := ⟨0, 0, 0, 0⟩
  agenda := []
  freeNo := 0
  nextId := 64
  hole := none

end Sys2Proof.Machine
end

