-- ==== Sys2Proof/Machine/Tables.lean ====
section
/-! DEFINITION. Sparse tables and lists: lookup, update and search. -/

namespace Sys2Proof.Machine

/-- Picoseconds in a microsecond. -/
def usec : Nat := 1000000

/-- The entry of a table at a key. -/
def tget {α : Type} (m : Map α) (k : Nat) : Option α :=
  match m with
  | [] => none
  | (j, x) :: rest => if j = k then some x else tget rest k

/-- The entry at a key, or the table's default. -/
def tgetD {α : Type} (m : Map α) (k : Nat) (z : α) : α := (tget m k).getD z

/-- The table with the entry at `k` removed. -/
def tdel {α : Type} (m : Map α) (k : Nat) : Map α := m.filter fun (j, _) => j != k

/-- The table with `x` at `k`, in ascending key order. -/
def tput {α : Type} (m : Map α) (k : Nat) (x : α) : Map α :=
  match m with
  | [] => [(k, x)]
  | (j, y) :: rest =>
    if j < k then (j, y) :: tput rest k x
    else if j = k then (k, x) :: rest
    else (k, x) :: (j, y) :: rest

/-- The table with `x` at `k`, where an entry equal to the default is not listed. -/
def tputD {α : Type} [DecidableEq α] (m : Map α) (k : Nat) (x z : α) : Map α :=
  if x = z then tdel m k else tput m k x

/-- Change the elements that satisfy a test. -/
def modWhere {α : Type} (p : α → Bool) (f : α → α) (l : List α) : List α := l.map fun x => if p x then f x else x

/-- Change element `n`. -/
def modNth {α : Type} (l : List α) (n : Nat) (f : α → α) : List α := l.modify n f

/-- A number kept below 2^n by saturation. -/
def sat (n x : Nat) : Nat := min x (2 ^ n - 1)

/-- The elements without repeats, first occurrences kept. -/
def distinct {α : Type} [DecidableEq α] (l : List α) : List α :=
  l.foldl (fun acc x => if acc.contains x then acc else acc ++ [x]) []

/-- The least of a list by a measure, the earliest on ties. -/
def leastBy {α : Type} (f : α → Nat) (l : List α) : Option α :=
  l.foldl (fun best x =>
    match best with
    | none => some x
    | some y => if f x < f y then some x else some y) none

end Sys2Proof.Machine
end

