-- ==== Sys2Proof/Machine/Units.lean ====
section
/-! DEFINITION. A die's units: class codes and logical numbers (R15 to R28), the die-local map (R40), and the
configuration record as software reads it (R25). -/

namespace Sys2Proof.Machine

/-! ## Live units (R19, R25) -/

/-- CLMAP or CLOFF of a physical cluster. -/
def ConfRec.clByte (c : ConfRec) (k : Nat) : Nat := (c.clmap.getD k 0).toNat
/-- CLOFF of a physical cluster. -/
def ConfRec.offByte (c : ConfRec) (k : Nat) : Nat := (c.cloff.getD k 0).toNat

/-- The physical clusters live at boot, by logical number (R19). -/
def ConfRec.clusters (c : ConfRec) : List Nat := (List.range 32).filter fun k => bit (c.clByte k) 7

/-- The (physical cluster, physical core) pairs live at boot, by logical number (R19). -/
def ConfRec.cores (c : ConfRec) : List (Nat × Nat) :=
  c.clusters.flatMap fun k => ((List.range 4).filter fun j => bit (c.clByte k) j).map fun j => (k, j)

/-- The (stack, channel) pairs live at boot, by logical channel (R19, R87). -/
def ConfRec.channels (c : ConfRec) : List (Nat × Nat) :=
  [0, 1].flatMap fun st => ((List.range 32).filter fun j => bit (c.ch.getD st 0).toNat j).map fun j => (st, j)

/-- C of the boot class. -/
def Die.numClusters (d : Die) : Nat := bits d.conf.bootClass.toNat 31 26
/-- N of the boot class. -/
def Die.numCores (d : Die) : Nat := bits d.conf.bootClass.toNat 25 18
/-- L of the boot class. -/
def Die.numChannels (d : Die) : Nat := bits d.conf.bootClass.toNat 17 12 + bits d.conf.bootClass.toNat 11 6

/-- The physical cluster of a logical one. -/
def Die.physCluster (d : Die) (l : Nat) : Nat := d.conf.clusters.getD l 0

/-- The logical cluster is offline (R20). -/
def Die.clusterOffline (d : Die) (l : Nat) : Bool := bit (d.conf.offByte (d.physCluster l)) 7

/-- The logical core is offline, or its cluster is (R20). -/
def Die.coreOffline (d : Die) (l : Nat) : Bool :=
  let (k, j) := d.conf.cores.getD l (0, 0)
  bit (d.conf.offByte k) 7 || bit (d.conf.offByte k) j

/-- The logical cluster of a logical core. -/
def Die.clusterOf (d : Die) (core : Nat) : Nat :=
  let (k, _) := d.conf.cores.getD core (0, 0)
  d.conf.clusters.findIdx (· == k)

/-- The logical cores of a logical cluster. -/
def Die.coresOf (d : Die) (cl : Nat) : List Nat := (List.range d.numCores).filter fun c => d.clusterOf c == cl

/-- The physical core number within its cluster: the store's tiles are two per core (R16, R184). -/
def Die.coreInCluster (d : Die) (core : Nat) : Nat := (d.conf.cores.getD core (0, 0)).2

/-- The logical channel is offline (R20, R88). -/
def Die.channelOffline (d : Die) (k : Nat) : Bool :=
  let (st, j) := d.conf.channels.getD k (0, 0)
  bit (d.conf.choff.getD st 0).toNat j

/-- The channel of a die-local address (R87). -/
def Die.channelOf (d : Die) (a : Nat) : Nat := if d.numChannels = 0 then 0 else a / 256 % d.numChannels

/-! ## Class codes (R26) -/

/-- The class code of counts. -/
def classCode (c n s1 s0 rp1 rp0 : Nat) : Word :=
  BitVec.ofNat 32 (c * 2 ^ 26 + n * 2 ^ 18 + s1 * 2 ^ 12 + s0 * 2 ^ 6 + rp1 * 16 + rp0 * 4)

/-- Number of bits set among the low 32. -/
def popcount32 (x : Nat) : Nat := ((List.range 32).filter (bit x)).length

/-- The cores of physical cluster `k` that are live and not offline. -/
def ConfRec.usable (c : ConfRec) (k : Nat) : Nat :=
  ((List.range 4).filter fun j => bit (c.clByte k) j && !bit (c.offByte k) j).length

/-- LIVECLASS recomputed (R26, R28); the ridge fields are given, and stand in every LIVECLASS. -/
def ConfRec.liveCode (c : ConfRec) (rp1 rp0 : Nat) : Word :=
  let up := c.clusters.filter fun k => !bit (c.offByte k) 7 && 0 < c.usable k
  let n := up.foldl (fun s k => s + c.usable k) 0
  let st := fun (i : Nat) => popcount32 (Nat.land (c.ch.getD i 0).toNat (Nat.xor (2 ^ 32 - 1) (c.choff.getD i 0).toNat))
  classCode up.length n (st 1) (st 0) rp1 rp0

/-- The boot class of a layout (R26). -/
def ConfRec.bootCode (c : ConfRec) (rp1 rp0 : Nat) : Word :=
  classCode c.clusters.length c.cores.length (popcount32 (c.ch.getD 1 0).toNat) (popcount32 (c.ch.getD 0 0).toNat) rp1 rp0

/-! ## The die-local map (R40) -/

/-- One GiB. -/
def gib : Nat := 2 ^ 30
/-- T: the end of the populated range. -/
def Die.memTop (d : Die) : Nat := d.numChannels * (2 * gib)
/-- The queue spill's base. -/
def Die.spillBase (d : Die) : Nat := d.memTop - d.space.qspill * gib - (3 * gib + gib / 4)
/-- The staging reserve's base. -/
def Die.stagingBase (d : Die) : Nat := d.memTop - (3 * gib + gib / 4)
/-- The start of device-register space. -/
def devBase : Nat := 0xF000000000000
/-- An address of general memory (R40). -/
def Die.isGeneral (d : Die) (a : Nat) : Bool := a < d.spillBase
/-- An address of device-register space (R40). -/
def isDevice (a : Nat) : Bool := devBase ≤ a

/-- The configuration record's bytes (R25): 128 bytes little-endian. -/
def ConfRec.bytes (c : ConfRec) : List Byte :=
  ([c.bootClass, c.liveClass, c.gen, c.ident].flatMap fun w => toBytes 4 w.toNat) ++ c.clmap ++ c.cloff
    ++ (c.ch.flatMap fun w => toBytes 4 w.toNat) ++ (c.choff.flatMap fun w => toBytes 4 w.toNat)
    ++ toBytes 4 c.seams.toNat ++ toBytes 4 c.retired.toNat ++ List.replicate 24 0

/-- The package number (R25 IDENT). -/
def Die.pkgNo (d : Die) : Nat := bits d.conf.ident.toNat 31 16
/-- The die number. -/
def Die.dieNo (d : Die) : Nat := bits d.conf.ident.toNat 15 13
/-- The incarnation (R134). -/
def Die.incarnation (d : Die) : Nat := bits d.conf.ident.toNat 12 5
/-- EPOCH mod 256 (R66). -/
def Die.epoch8 (d : Die) : Nat := d.space.epoch.toNat % 256
/-- The belay partner (R15). -/
def belay (d : Nat) : Nat := Nat.xor d 4

/-! ## The scheduler's nodes -/

/-- A node by its name. -/
def Die.node? (d : Die) (nid : Nat) : Option Node := d.sched.nodes.find? fun n => n.nid == nid

/-- Change the scheduler. -/
def Die.modSched (d : Die) (f : Sched → Sched) : Die := { d with sched := f d.sched }

/-- Change a node. -/
def Die.modNode (d : Die) (nid : Nat) (f : Node → Node) : Die :=
  d.modSched fun x => { x with nodes := modWhere (fun n => n.nid == nid) f x.nodes }

/-- Issue and engines pause while the die's frequency changes (R409), and while a planned reset has stopped the die (R406). -/
def Die.paused (d : Die) : Bool := d.freqRunning || d.stopped.isSome

/-- The die is at alarm level 3, or has booted after its zeroisation (R431). -/
def Die.levelThree (d : Die) : Bool := d.phase != .off && (d.alarm == 3 || d.phase == .scrapped)

/-- The management core runs: the die is up, or answers READ at alarm level 3 (R422, R431). -/
def Die.mgmtUp (d : Die) : Bool := (d.phase == .up && d.stopped.isNone) || d.levelThree

end Sys2Proof.Machine
end

