-- ==== Sys2Proof/Machine/Memory.lean ====
section
/-! DEFINITION. Memory below the cores: HBM4E sectors, poison, zeroing and alias blocks (R87 to R98), and the L2
slices (R75 to R80, R436). A canonical list of cells holds the bytes; an unlisted byte reads 0 (log entry 1). -/

namespace Sys2Proof.Machine

/-! ## Bytes of HBM4E -/

/-- The byte at an address. -/
def memGet (m : List Host.Cell) (a : Nat) : Byte :=
  match m with
  | [] => 0
  | (k, b) :: rest => if k = a then b else if a < k then 0 else memGet rest a

/-- The list with byte `b` at `a`, which stays canonical: ascending addresses and no zero byte listed. -/
def memSet (m : List Host.Cell) (a : Nat) (b : Byte) : List Host.Cell :=
  match m with
  | [] => if b = 0 then [] else [(a, b)]
  | (k, c) :: rest =>
    if k < a then (k, c) :: memSet rest a b
    else if k = a then (if b = 0 then rest else (a, b) :: rest)
    else if b = 0 then (k, c) :: rest else (a, b) :: (k, c) :: rest

/-- Addresses strictly rise from `lo` and no entry equals what an unlisted address reads as. -/
def memWfFrom (lo : Nat) (m : List Host.Cell) : Bool :=
  match m with
  | [] => true
  | (k, b) :: rest => decide (lo ≤ k) && b != 0 && memWfFrom (k + 1) rest

/-- The canonical form of a memory. -/
def Memory.wf (m : List Host.Cell) : Bool := memWfFrom 0 m

/-- `n` bytes from an address. -/
def memBytes (m : List Host.Cell) (a n : Nat) : List Byte := (List.range n).map fun i => memGet m (a + i)

/-- Store the bytes whose mask bit is set. -/
def memPut (m : List Host.Cell) (a : Nat) (mask : Nat) (bs : List Byte) : List Host.Cell :=
  match bs with
  | [] => m
  | b :: rest => memPut (if bit mask 0 then memSet m a b else m) (a + 1) (mask / 2) rest

/-! ## Sectors (R88 to R94) -/

/-- A sector number lies in a list of (start, length) ranges. -/
def inRanges (rs : List (Nat × Nat)) (x : Nat) : Bool := rs.any fun (s, n) => s ≤ x && x < s + n

/-- The ranges without one number. -/
def cutRanges (rs : List (Nat × Nat)) (x : Nat) : List (Nat × Nat) :=
  rs.flatMap fun (s, n) =>
    if s ≤ x ∧ x < s + n then ([(s, x - s), (x + 1, s + n - (x + 1))].filter fun (_, k) => k != 0) else [(s, n)]

/-- The ranges without `n` numbers from `a` on. -/
def cutSpan (rs : List (Nat × Nat)) (a n : Nat) : List (Nat × Nat) :=
  rs.flatMap fun (s, k) => [(s, min (s + k) a - s), (max s (a + n), s + k - max s (a + n))].filter fun (_, m) => m != 0

/-- Mark a sector poison, in ascending order. -/
def addSector (l : List Nat) (x : Nat) : List Nat :=
  match l with
  | [] => [x]
  | y :: rest => if y < x then y :: addSector rest x else if y = x then l else x :: l

/-- The sector reads poisoned: it is a poison sector, its channel is offline, or it is poison-pending after a reset that
lost general memory (R88, R90, R406). -/
def Die.sectorBad (d : Die) (sec : Nat) : Bool :=
  d.channelOffline (d.channelOf (32 * sec)) || d.poisonSec.contains sec || inRanges d.poisonPending sec

/-- The 32 bytes of a sector as a read returns them; a zero-pending sector reads 0 (R94). -/
def Die.sectorBytes (d : Die) (sec : Nat) : List Byte :=
  if inRanges d.zpend sec then List.replicate 32 0 else memBytes d.mem (32 * sec) 32

/-- The sector becomes a poison sector (R90). -/
def Die.poisonSector (d : Die) (sec : Nat) : Die :=
  if d.channelOffline (d.channelOf (32 * sec)) then d
  else { d with poisonSec := addSector d.poisonSec sec, zpend := cutRanges d.zpend sec }

/-- A sector's bytes all become 0 in the list. -/
def zeroSectorBytes (m : List Host.Cell) (sec : Nat) : List Host.Cell :=
  memPut m (32 * sec) (2 ^ 32 - 1) (List.replicate 32 0)

/-- WRITE of one sector with a byte mask (R90, R91, R94). -/
def Die.writeSector (d : Die) (sec mask : Nat) (bs : List Byte) : Die :=
  if d.channelOffline (d.channelOf (32 * sec)) then d
  else if mask = 2 ^ 32 - 1 then
    { d with mem := memPut d.mem (32 * sec) mask bs, poisonSec := d.poisonSec.filter (· != sec),
             zpend := cutRanges d.zpend sec, poisonPending := cutRanges d.poisonPending sec }
  else if d.sectorBad sec then d
  else
    let m := if inRanges d.zpend sec then zeroSectorBytes d.mem sec else d.mem
    { d with mem := memPut m (32 * sec) mask bs, zpend := cutRanges d.zpend sec }

/-! ## Alias blocks (R38, R96 to R98) -/

/-- The block format of AFMT: 0 mx4; 4 to 7 the k4 types (R35). -/
def aliasFmt (afmt : Nat) : BlockFmt := if afmt = 0 then ⟨0x20, 0⟩ else ⟨0x23, afmt - 4⟩

/-- The address of block b's codes (R38). -/
def aliasCodes (frame asub b : Nat) : Nat := frame + asub * 16384 + b * 16
/-- The address of block b's scale byte (R38). -/
def aliasScale (frame asub b : Nat) : Nat := frame + 49152 + asub * 1024 + b

/-- The expanded line of a block's codes and scale byte (R96). -/
def aliasExpand (afmt codes sc : Nat) : BitVec 512 :=
  let et := (aliasFmt afmt).etype
  -- the type of a k4 block is AFMT's (R96); the scale byte's own type bits agree with it
  let sc' := if et = 0x23 then (afmt - 4) * 64 + sc % 64 else sc
  let els := (List.range 32).map fun i =>
    toBytes 2 (roundTo 0x11 (elementValue et (codes / 16 ^ i % 16) sc') 0 false false)
  BitVec.ofNat 512 (ofBytes els.flatten)

/-- The compressed line: its 16 code bytes and its scale byte (R97, R98). -/
def aliasPack (afmt : Nat) (line : BitVec 512) : List Byte × Byte :=
  let xs := (List.range 32).map fun i => valueOf 0x11 (line.toNat / 65536 ^ i % 65536)
  let (codes, sc) := (aliasFmt afmt).pack xs 0 false
  ((List.range 16).map fun i => BitVec.ofNat 8 (codes.getD (2 * i) 0 + 16 * codes.getD (2 * i + 1) 0), BitVec.ofNat 8 sc)

/-- A line as it reads once it has been stored to an ALIAS page (R97). -/
def aliasRound (afmt : Nat) (line : BitVec 512) : BitVec 512 :=
  let (codes, sc) := aliasPack afmt line
  aliasExpand afmt (ofBytes codes) sc.toNat

/-- AREAD: the expanded line and whether a byte it came from was poisoned (R96). -/
def Die.aread (d : Die) (frame asub afmt b : Nat) : BitVec 512 × Bool :=
  let ca := aliasCodes frame asub b
  let sa := aliasScale frame asub b
  let codes := ofBytes ((d.sectorBytes (ca / 32)).drop (ca % 32) |>.take 16)
  let sc := ((d.sectorBytes (sa / 32)).getD (sa % 32) 0).toNat
  (aliasExpand afmt codes sc, d.sectorBad (ca / 32) || d.sectorBad (sa / 32))

/-- The bits of a 64-bit byte mask as whole bytes of a 512-bit mask. -/
def byteMask (mask : DWord) : BitVec 512 :=
  BitVec.ofNat 512 (ofBytes ((List.range 64).map fun i => if mask.getLsbD i then (255 : Byte) else 0))

/-- The new bytes where the mask is set and the old ones elsewhere. -/
def mergeBytes (mask : DWord) (new old : BitVec 512) : BitVec 512 :=
  (new &&& byteMask mask) ||| (old &&& ~~~byteMask mask)

/-- AWRITE: compress the merged values, store codes and scale, and reply with the new line (R97, R98). -/
def Die.awrite (d : Die) (frame asub afmt b : Nat) (mask : DWord) (data : BitVec 512) : Die :=
  let (old, _) := d.aread frame asub afmt b
  let (packed, sc) := aliasPack afmt (mergeBytes mask data old)
  let ca := aliasCodes frame asub b
  let sa := aliasScale frame asub b
  let d := d.writeSector (ca / 32) ((2 ^ 16 - 1) * 2 ^ (ca % 32)) (List.replicate (ca % 32) 0 ++ packed)
  d.writeSector (sa / 32) (2 ^ (sa % 32)) (List.replicate (sa % 32) 0 ++ [sc])

/-! ## L2 lines (R75 to R80, R436) -/

/-- Fold16 of R76. -/
def fold16 (x : Nat) : Nat := Nat.xor (Nat.xor (bits x 15 0) (bits x 31 16)) (bits x 47 32)

/-- The next slice that is not offline (R76). -/
def Die.liveSlice (d : Die) (fuel s : Nat) : Nat :=
  match fuel with
  | 0 => s
  | fuel + 1 => if d.clusterOffline s then d.liveSlice fuel ((s + 1) % d.numClusters) else s

/-- The slice that holds a line (R76). -/
def Die.sliceOf (d : Die) (t : Attr) (a : Nat) : Nat :=
  let s := if t.che then t.ch
    else (if d.numClusters = 0 then 0 else fold16 (if t.il then a / 4096 else a / 64) % d.numClusters)
  d.liveSlice d.numClusters s

/-- The set of an address in its slice (R75). -/
def l2Set (a : Nat) : Nat := Nat.xor (bits a 17 6) (bits a 29 18)

/-- A line as an access names it: its address a of R75, and the presented block on an ALIAS page. -/
structure LineRef where
  addr : Nat
  attr : Attr
  pres : Option (Nat × Nat × Nat × Nat)
deriving DecidableEq, Repr, Inhabited

/-- Attributes of accesses by the device's engines to reserved regions, and to memory that no page names (R76). -/
def Attr.engine : Attr := ⟨false, 0, false, none, 1⟩

/-- The line of a byte of ordinary memory. -/
def LineRef.plain (t : Attr) (pa : Nat) : LineRef := ⟨pa - pa % 64, t, none⟩

/-- The presented line `b` of an ALIAS page (R96). -/
def LineRef.presented (t : Attr) (frame asub afmt b : Nat) : LineRef :=
  ⟨aliasCodes frame asub b, t, some (frame, asub, afmt, b)⟩

/-- The line is this one, committed. -/
def L2Line.isFor (l : L2Line) (slice : Nat) (r : LineRef) : Bool :=
  l.slice == slice && l.line == r.addr && l.pres == r.pres && l.node == none

/-- The line is a node's tentative copy of this one (R167). -/
def L2Line.isCopy (l : L2Line) (nid slice : Nat) (r : LineRef) : Bool :=
  l.slice == slice && l.line == r.addr && l.pres == r.pres && l.node == some nid

/-- The line in its slice, if it is there. -/
def Die.l2Find (d : Die) (r : LineRef) : Option L2Line := d.l2.find? fun l => l.isFor (d.sliceOf r.attr r.addr) r

/-- Change the line. -/
def Die.l2Modify (d : Die) (r : LineRef) (f : L2Line → L2Line) : Die :=
  let s := d.sliceOf r.attr r.addr
  { d with l2 := modWhere (fun l => l.isFor s r) f d.l2 }

/-- Drop the lines of a slice from every L1 of the die (R73, R77). -/
def Die.l1Drop (d : Die) (slice a : Nat) : Die :=
  { d with cores := d.cores.map fun (k, c) => (k, { c with l1 := c.l1.filter fun t => !(t.slice == slice && t.line == a) }) }

/-- Drop the lines of an address range from every L1 of the die, whichever slice they fill from (R73). -/
def Die.l1DropRange (d : Die) (a n : Nat) : Die :=
  { d with cores := d.cores.map fun (k, c) => (k, { c with l1 := c.l1.filter fun t => !(a < t.line + 64 && t.line < a + n) }) }

/-- The bits of sector i (0 or 1) in a line's byte masks. -/
def sectorMask (i : Nat) : DWord := if i = 0 then 0xFFFFFFFF else 0xFFFFFFFF00000000

/-- Write one sector of a dirty line back (R80, R436). -/
def Die.writeBackSector (d : Die) (l : L2Line) (i : Nat) : Die :=
  let dirty := bits l.dirty.toNat (32 * i + 31) (32 * i)
  let valid := bits l.valid.toNat (32 * i + 31) (32 * i)
  let bs := toBytes 32 (l.data.toNat / 2 ^ (256 * i))
  let sec := l.line / 32 + i
  if dirty = 0 then d
  else if l.mark.toNat.testBit i then d.poisonSector sec
  else if valid = 2 ^ 32 - 1 then d.writeSector sec valid bs
  else d.writeSector sec (Nat.land dirty valid) bs

/-- Places of 64 bytes in the staging reserve (R40: 1 GiB). -/
def stagingPlaces : Nat := 2 ^ 24

/-- The lowest place of the staging reserve that no node uses. -/
def Die.freePlace (d : Die) : Option Nat :=
  let used := d.sched.nodes.flatMap fun n => n.tent.map TentLine.place
  ((List.range (used.length + 1)).find? fun k => !used.contains k).filter (· < stagingPlaces)

/-- The address of a place of the staging reserve. -/
def Die.placeAddr (d : Die) (k : Nat) : Nat := d.stagingBase + 64 * k

/-- The value of a hint on insertion and its effect on a hit (R79): 0 .mid, 1 .near, 2 .far, 3 .once. -/
def insertValue (hint : Nat) : Nat := [1, 0, 2, 3].getD hint 1

/-- The 64 bytes of a tentative line are written to a place of the staging reserve, in the slice that holds the place's line,
with the hint .once (R78, R79, R82). `room` finds a way for that line. -/
def Die.stageAt (d : Die) (room : Die → Nat → Nat → Die × Nat) (k : Nat) (data : BitVec 512) : Die :=
  let r := LineRef.plain .engine (d.placeAddr k)
  let d : Die := match d.l2Find r with
    | some _ => d
    | none =>
      let s := d.sliceOf r.attr r.addr
      let (d, w) := room d s (l2Set r.addr)
      { d with l2 := d.l2 ++ [⟨s, r.addr, w, 0, 0, 0, 0, false, insertValue 3, 0, none, none, r.attr⟩] }
  d.l2Modify r fun x => { x with data := data, valid := 0xFFFFFFFFFFFFFFFF, dirty := 0xFFFFFFFFFFFFFFFF, mark := 0 }

/-- A tentative line goes to the staging reserve; when that is full, its node is to be killed with STAGING (R82). -/
def Die.stage (d : Die) (room : Die → Nat → Nat → Die × Nat) (nid : Nat) (l : L2Line) : Die :=
  match d.freePlace with
  | none => { d with doomed := d.doomed ++ [nid] }
  | some k => ((d.modNode nid fun n => { n with tent := n.tent ++ [⟨l.line, l.attr, l.pres, l.valid, l.mark, k⟩] }).stageAt room k l.data)

/-- Remove a line from its slice: a committed one writes its dirty sectors back, a tentative one goes to the staging
reserve (R73, R80, R82). -/
def Die.evictWith (d : Die) (room : Die → Nat → Nat → Die × Nat) (l : L2Line) : Die :=
  let d := if l.l1 then d.l1Drop l.slice l.line else d
  let d := { d with l2 := d.l2.filter fun x => !(x.slice == l.slice && x.line == l.line && x.pres == l.pres && x.node == l.node) }
  match l.node with
  | some nid => d.stage room nid l
  | none => if l.pres.isSome then d else (d.writeBackSector l 0).writeBackSector l 1

/-- The lowest invalid way of a set (R79). -/
def Die.freeWay (d : Die) (slice set : Nat) : Option Nat :=
  (List.range 16).find? fun w => d.l2.all fun l => !(l.slice == slice && l2Set l.line == set && l.way == w)

/-- The line of a set that makes way: the lowest evictable one whose value is 3 after as many increments of the evictable ways
as that needs, and the die after these (R79). -/
def Die.victim (d : Die) (slice set : Nat) : Option (L2Line × Die) :=
  let free := d.l2.filter fun l => l.slice == slice && l2Set l.line == set && l.pins == 0
  let top := free.foldl (fun m l => max m l.rr) 0
  (leastBy L2Line.way (free.filter fun l => l.rr == top)).map fun v =>
    ({ v with rr := 3 },
     { d with l2 := modWhere (fun l => l.slice == slice && l2Set l.line == set && l.pins == 0)
                      (fun l => { l with rr := l.rr + (3 - top) }) d.l2 })

/-- The way a new line takes in its set: the lowest invalid one, else the victim's (R79). A victim that is tentative needs a
way for its place in the reserve, which may be the one that it has left. -/
def Die.roomIn (fuel : Nat) (d : Die) (slice set : Nat) : Die × Nat :=
  match d.freeWay slice set with
  | some w => (d, w)
  | none =>
    match fuel, d.victim slice set with
    | fuel + 1, some (v, d) => Die.roomIn fuel (d.evictWith (Die.roomIn fuel) v) slice set
    | _, _ => (d, 0)

/-- A way for a new line (R79): each eviction leaves one tentative line less, or a way free. -/
def Die.makeRoom (d : Die) (slice set : Nat) : Die × Nat := Die.roomIn (2 * d.l2.length + 2) d slice set

/-- Remove a line from its slice. -/
def Die.evict (d : Die) (l : L2Line) : Die := d.evictWith Die.makeRoom l

/-- The line is in its slice and its re-reference value stands as R79 says; a new line has no valid byte. -/
def Die.l2Open (d : Die) (r : LineRef) (hint : Nat) : Die :=
  match d.l2Find r with
  | some _ => d.l2Modify r fun l => { l with rr := if hint = 3 then l.rr else 0 }
  | none =>
    let s := d.sliceOf r.attr r.addr
    let (d, w) := d.makeRoom s (l2Set r.addr)
    { d with l2 := d.l2 ++ [⟨s, r.addr, w, 0, 0, 0, 0, false, insertValue hint, 0, r.pres, none, r.attr⟩] }

/-- Fill one sector's invalid bytes from memory; a poisoned read marks it (R80, R436). -/
def Die.fillSector (d : Die) (l : L2Line) (i : Nat) : L2Line :=
  if l.mark.toNat.testBit i then l
  else if bits l.valid.toNat (32 * i + 31) (32 * i) = 2 ^ 32 - 1 then l
  else
    let sec := l.line / 32 + i
    if d.sectorBad sec then { l with mark := l.mark ||| BitVec.ofNat 2 (2 ^ i) }
    else
      let mem : BitVec 512 := BitVec.ofNat 512 (ofBytes (d.sectorBytes sec) * 2 ^ (256 * i))
      { l with data := mergeBytes (l.valid ||| ~~~sectorMask i) l.data mem, valid := l.valid ||| sectorMask i }

/-- Bring a line in for a load: its invalid bytes are read (R80, R96, R436). -/
def Die.l2Load (d : Die) (r : LineRef) (hint : Nat) : Die :=
  let d := d.l2Open r hint
  d.l2Modify r fun l =>
    match r.pres with
    | none => d.fillSector (d.fillSector l 0) 1
    | some (frame, asub, afmt, b) =>
      if l.valid = 0xFFFFFFFFFFFFFFFF ∨ l.mark ≠ 0 then l
      else
        let (data, bad) := d.aread frame asub afmt b
        if bad then { l with mark := 3 } else { l with data := data, valid := 0xFFFFFFFFFFFFFFFF }

/-- Byte `i` of a line and whether it reads poisoned (R436). -/
def L2Line.byte (l : L2Line) (i : Nat) : Byte × Bool :=
  (BitVec.ofNat 8 (l.data.toNat / 256 ^ i), !l.valid.toNat.testBit i && l.mark.toNat.testBit (i / 32))

/-- A line with a byte stored (R80, R436). -/
def L2Line.putByte (l : L2Line) (i : Nat) (b : Byte) : L2Line :=
  let m : DWord := BitVec.ofNat 64 (2 ^ i)
  let valid := l.valid ||| m
  let full := bits valid.toNat (32 * (i / 32) + 31) (32 * (i / 32)) == 2 ^ 32 - 1
  { l with data := mergeBytes m (BitVec.ofNat 512 (b.toNat * 256 ^ i)) l.data, valid := valid, dirty := l.dirty ||| m,
           mark := if full then l.mark &&& ~~~BitVec.ofNat 2 (2 ^ (i / 32)) else l.mark }

/-- A line one of whose sectors a write of poison covers (R436). -/
def L2Line.poison (l : L2Line) (i : Nat) : L2Line :=
  { l with valid := l.valid &&& ~~~sectorMask i, dirty := l.dirty ||| sectorMask i, mark := l.mark ||| BitVec.ofNat 2 (2 ^ i) }

/-- A line one of whose sectors an uncorrectable error strikes (R394, R436). -/
def L2Line.strike (l : L2Line) (i : Nat) : L2Line :=
  { l with valid := l.valid &&& ~~~sectorMask i, mark := l.mark ||| BitVec.ofNat 2 (2 ^ i) }

/-- Before a write: every L1 drops the line (R73). -/
def Die.l1Invalidate (d : Die) (r : LineRef) : Die :=
  match d.l2Find r with
  | some l => if l.l1 then (d.l1Drop l.slice l.line).l2Modify r fun x => { x with l1 := false } else d
  | none => d

/-- Store bytes of one line: `bs` gives each byte's place; a line of an ALIAS page is written through (R80, R97). -/
def Die.l2Store (d : Die) (r : LineRef) (hint : Nat) (bs : List (Nat × Byte)) : Die :=
  let d := (d.l2Open r hint).l1Invalidate r
  match r.pres with
  | none => d.l2Modify r fun l => bs.foldl (fun l (i, b) => l.putByte i b) l
  | some (frame, asub, afmt, blk) =>
    let mask := bs.foldl (fun (m : DWord) (i, _) => m ||| BitVec.ofNat 64 (2 ^ i)) 0
    let data := (bs.foldl (fun (l : L2Line) (i, b) => l.putByte i b) default).data
    let d := d.awrite frame asub afmt blk mask data
    let (new, bad) := d.aread frame asub afmt blk
    d.l2Modify r fun l =>
      if bad then { l with mark := 3, valid := 0 } else { l with data := new, valid := 0xFFFFFFFFFFFFFFFF, mark := 0 }

/-- Write poison over sectors of a line (R436). Poison written to an ALIAS line makes the 32-byte sector that holds the block's
codes a poison sector, and not the scale's (DESIGN CHOICE: R97 lets no ALIAS line be dirty and does not say what such a write
poisons below it; log entry 87). -/
def Die.l2Poison (d : Die) (r : LineRef) (hint : Nat) (sectors : List Nat) : Die :=
  let d := (d.l2Open r hint).l1Invalidate r
  match r.pres with
  | none => d.l2Modify r fun l => sectors.foldl L2Line.poison l
  | some (frame, asub, _, blk) =>
    let d := d.poisonSector (aliasCodes frame asub blk / 32)
    d.l2Modify r fun l => { l with mark := 3, valid := 0 }

/-- Byte `i` of a line as it is committed, and whether it reads poisoned: the line in its slice, and memory below it
(R78, R80, R436). -/
def Die.committedByte (d : Die) (r : LineRef) (i : Nat) : Byte × Bool :=
  let below := match r.pres with
    | none => (if inRanges d.zpend ((r.addr + i) / 32) then 0 else memGet d.mem (r.addr + i), d.sectorBad ((r.addr + i) / 32))
    | some (frame, asub, afmt, b) =>
      let (x, bad) := d.aread frame asub afmt b
      (BitVec.ofNat 8 (x.toNat / 256 ^ i), bad)
  match d.l2Find r with
  | some l => if l.valid.toNat.testBit i || l.mark.toNat.testBit (i / 32) then l.byte i else below
  | none => below

/-- A byte of memory as its L2 slice answers it under a translation's attributes, and whether it is poisoned (R76 to R78). -/
def Die.byteAt (d : Die) (t : Attr) (a : Nat) : Byte × Bool :=
  d.committedByte (.plain t a) (a % 64)

/-- `n` bytes of memory: the little-endian number, and whether any is poisoned. -/
def Die.readAt (d : Die) (t : Attr) (a n : Nat) : Nat × Bool :=
  let bs := (List.range n).map fun i => d.byteAt t (a + i)
  (ofBytes (bs.map (·.1)), bs.any (·.2))

/-- The bytes that a table walk reads. It inserts no line (log entry 11). -/
def Die.engineRead (d : Die) (a n : Nat) : Nat × Bool := d.readAt .engine a n

/-- The reuse hint of an engine's access: .once in the reserved regions and .mid elsewhere (R79). -/
def Die.engineHint (d : Die) (a : Nat) : Nat := if d.isGeneral a then 0 else 3

/-- The line addresses that `n` bytes at an address touch. -/
def lineAddrs (a n : Nat) : List Nat := if n = 0 then [] else (List.range ((a + n - 1) / 64 + 1 - a / 64)).map fun i => 64 * (a / 64 + i)

/-- The lines that an engine reads come into their slices (R78 to R80). -/
def Die.fetchLines (d : Die) (t : Attr) (a n : Nat) : Die :=
  (lineAddrs a n).foldl (fun d l => d.l2Load (.plain t l) (d.engineHint l)) d

/-- An engine's read of memory is performed in the slices (R78). -/
def Die.fetchAt (d : Die) (t : Attr) (a n : Nat) : (Nat × Bool) × Die :=
  let d := d.fetchLines t a n
  (d.readAt t a n, d)

/-- An engine writes poison over the 32-byte sectors of `n` bytes that hold the words listed (R398, R436). -/
def Die.poisonWordsAt (d : Die) (t : Attr) (a : Nat) (words : List Nat) : Die :=
  (distinct (words.map fun w => (a + 4 * w) / 32)).foldl (fun d sec => d.l2Poison (.plain t (32 * sec)) (d.engineHint (32 * sec)) [sec % 2]) d

/-- Write bytes of memory through the L2 as a device engine does, under a translation's attributes (R76, R78). -/
def Die.writeAt (d : Die) (t : Attr) (a : Nat) (bs : List Byte) : Die :=
  let cells := (List.range bs.length).map fun i => (a + i, bs.getD i 0)
  (distinct (cells.map fun c => c.1 / 64)).foldl (fun d l =>
    d.l2Store (.plain t (64 * l)) (d.engineHint (64 * l)) ((cells.filter fun c => c.1 / 64 == l).map fun c => (c.1 % 64, c.2))) d

/-- Write bytes of memory that no page names. -/
def Die.engineWrite (d : Die) (a : Nat) (bs : List Byte) : Die := d.writeAt .engine a bs

/-- Drop every line of a byte range without writing it back, from the L2 and every L1 (R73, R93). -/
def Die.dropLines (d : Die) (a n : Nat) : Die :=
  { d.l1DropRange a n with l2 := d.l2.filter fun l => !(a < l.line + 64 && l.line < a + n) }

/-- ZERO of a byte range that is made of whole sectors (R93, R94). -/
def Die.zeroRange (d : Die) (a n : Nat) : Die :=
  let d := d.dropLines a n
  let inside := fun (sec : Nat) => a / 32 ≤ sec && sec < (a + n) / 32
  { d with poisonSec := d.poisonSec.filter fun s => !inside s
           poisonPending := cutSpan d.poisonPending (a / 32) (n / 32)
           zpend := cutSpan d.zpend (a / 32) (n / 32) ++ [(a / 32, n / 32)] }

/-- A leaf's frame is zeroed: all of it, or an ALIAS page's codes and scales (R93). -/
def Die.zeroFrame (d : Die) (frame size : Nat) (asub : Option Nat) : Die :=
  match asub with
  | none => d.zeroRange frame size
  | some k => (d.zeroRange (frame + k * 16384) 16384).zeroRange (frame + 49152 + k * 1024) 1024

/-- The background zeroing of one pending line (R94). -/
def Die.zeroLine (d : Die) (line : Nat) : Die :=
  [2 * line, 2 * line + 1].foldl (fun d sec =>
    if inRanges d.zpend sec then { d with mem := zeroSectorBytes d.mem sec, zpend := cutRanges d.zpend sec } else d) d

end Sys2Proof.Machine
end

