-- ==== Sys2Proof/Machine/Locate.lean ====
section
/-! DEFINITION. Finding and changing the parts of State: dies, cores, groups, threads, registers and the bytes of
a slot partition (R44, R45, R68 to R71, R189, R206). -/

namespace Sys2Proof.Machine

/-! ## Dies, cores, nodes -/

/-- Die `d`. -/
def State.die (s : State) (d : Nat) : Die := s.dies.getD d default

/-- Change die `d`. -/
def State.modDie (s : State) (d : Nat) (f : Die → Die) : State := { s with dies := s.dies.modify d f }

/-- The next free value's number. -/
def State.draw (s : State) : Nat × State := (s.freeNo, { s with freeNo := s.freeNo + 1 })

/-- A new name. -/
def State.newId (s : State) : Nat × State := (s.nextId, { s with nextId := s.nextId + 1 })

/-- Logical core `c` of a die. -/
def Die.core (d : Die) (c : Nat) : Core := tgetD d.cores c Core.empty

/-- Change logical core `c`. -/
def Die.modCore (d : Die) (c : Nat) (f : Core → Core) : Die := { d with cores := tput d.cores c (f (d.core c)) }

/-- Logical cluster `c` of a die. -/
def Die.cluster (d : Die) (c : Nat) : Cluster := tgetD d.clusters c Cluster.empty

/-- Change logical cluster `c`. -/
def Die.modCluster (d : Die) (c : Nat) (f : Cluster → Cluster) : Die :=
  { d with clusters := tput d.clusters c (f (d.cluster c)) }

/-- A group by its name. -/
def Die.group? (d : Die) (gid : Nat) : Option Group := d.groups.find? fun g => g.gid == gid

/-- Change a group. -/
def Die.modGroup (d : Die) (gid : Nat) (f : Group → Group) : Die :=
  { d with groups := modWhere (fun g => g.gid == gid) f d.groups }

/-- Change a group of die `d`. -/
def State.modGroup (s : State) (d gid : Nat) (f : Group → Group) : State := s.modDie d fun x => x.modGroup gid f

/-- A group of die `d`. -/
def State.group? (s : State) (d gid : Nat) : Option Group := (s.die d).group? gid

/-- The group resident in a slot. -/
def Die.groupAt (d : Die) (core slot : Nat) : Option Group :=
  d.groups.find? fun g => g.phase == .resident && g.core == core && g.slot == slot

/-- Change the queue port. -/
def Die.modPort (d : Die) (f : Port → Port) : Die := { d with port := f d.port }

/-! ## The frame of the context in force (R44, R353) -/

/-- Warps of the group as numbers. -/
def Group.rows (g : Group) : Nat := g.warps
/-- B1 of R44, within the frame. -/
def Group.b1 (g : Group) : Nat := g.warps * g.ctx.frame.regs * 128
/-- B2 of R44. -/
def Group.b2 (g : Group) : Nat := g.b1 + g.ctx.frame.scr * 1024
/-- B3 of R44. -/
def Group.b3 (g : Group) : Nat := g.b2 + g.warps * g.ctx.frame.rse * 256
/-- F of R44, or CF inside a callee (R351). -/
def Group.top (g : Group) : Nat := g.b3 + 1024

/-! ## The slot partition (R68 to R71) -/

/-- A word of the partition; an unlisted one is zero and clean (R69). -/
def Group.word (g : Group) (i : Nat) : CoreWord := tgetD g.part i ⟨0, false⟩

/-- Set a word of the partition. -/
def Group.setWord (g : Group) (i : Nat) (w : CoreWord) : Group := { g with part := tputD g.part i w ⟨0, false⟩ }

/-- A byte at a partition offset and whether its word is poisoned. -/
def Group.partByte (g : Group) (o : Nat) : Byte × Bool :=
  let w := g.word (o / 4)
  (BitVec.ofNat 8 (w.val.toNat / 256 ^ (o % 4)), w.poison)

/-- Write bytes at a partition offset. A word written whole loses its poison; a part of it leaves it (R70). With
`poison`, the words written become poisoned. -/
def Group.putPart (g : Group) (o : Nat) (bs : List Byte) (poison : Bool) : Group :=
  let words := distinct ((List.range bs.length).map fun i => (o + i) / 4)
  words.foldl (fun g w =>
    let old := g.word w
    let val := ofBytes ((List.range 4).map fun k =>
      let a := 4 * w + k
      if o ≤ a ∧ a < o + bs.length then bs.getD (a - o) 0 else BitVec.ofNat 8 (old.val.toNat / 256 ^ k))
    let whole := o ≤ 4 * w && 4 * w + 4 ≤ o + bs.length
    g.setWord w ⟨BitVec.ofNat 32 val, poison || (old.poison && !whole)⟩) g

/-- `n` bytes of the window of the context in force, and whether any is poisoned. -/
def Group.window (g : Group) (o n : Nat) : List Byte × Bool :=
  let bs := (List.range n).map fun i => g.partByte (g.ctx.frame.base + o + i)
  (bs.map (·.1), bs.any (·.2))

/-- Store bytes in the window of the context in force. -/
def Group.putWindow (g : Group) (o : Nat) (bs : List Byte) (poison : Bool) : Group :=
  g.putPart (g.ctx.frame.base + o) bs poison

/-- The partition lines that window bytes touch (R71). -/
def Group.linesOf (g : Group) (o n : Nat) : List Nat :=
  if n = 0 then []
  else (List.range ((g.ctx.frame.base + o + n - 1) / 64 + 1 - (g.ctx.frame.base + o) / 64)).map fun i =>
    (g.ctx.frame.base + o) / 64 + i

/-- Some line of the range is absent (R72). -/
def Group.anyAbsent (g : Group) (o n : Nat) : Bool := (g.linesOf o n).any g.absent.contains

/-- Clear presence bits of partition lines. -/
def Group.clearLines (g : Group) (ls : List Nat) : Group := { g with absent := distinct (g.absent ++ ls) }

/-- Set presence bits of partition lines. -/
def Group.setLines (g : Group) (ls : List Nat) : Group := { g with absent := g.absent.filter fun l => !ls.contains l }

/-! ## Registers (R206) -/

/-- The partition word of register vN of thread t (R45). -/
def Group.vWord (g : Group) (t n : Nat) : Nat :=
  (g.ctx.frame.base + ((t / 32) * g.ctx.frame.regs + n) * 128 + (t % 32) * 4) / 4

/-- The s-register n of a warp. -/
def Group.sreg (g : Group) (warp n : Nat) : SReg := tgetD g.sregs (warp * 64 + n) ⟨0, false⟩

/-- Set an s-register. -/
def Group.setSreg (g : Group) (warp n : Nat) (v : SReg) : Group :=
  { g with sregs := tputD g.sregs (warp * 64 + n) v ⟨0, false⟩ }

/-- A thread of the group. -/
def Group.thread (g : Group) (t : Nat) : Thread := g.threads.getD t default

/-- Change a thread. -/
def Group.modThread (g : Group) (t : Nat) (f : Thread → Thread) : Group := { g with threads := g.threads.modify t f }

/-- Change several threads. -/
def Group.modThreads (g : Group) (ts : List Nat) (f : Thread → Thread) : Group := ts.foldl (fun g t => g.modThread t f) g

/-- Predicate n of a thread; p7 reads true (R206). -/
def Thread.pred (t : Thread) (n : Nat) : Bool := n == 7 || t.preds.toNat.testBit n

/-- Write predicate n; a write to p7 is discarded (R206). -/
def Thread.setPred (t : Thread) (n : Nat) (b : Bool) : Thread :=
  if n = 7 then t
  else { t with preds := if b then t.preds ||| BitVec.ofNat 7 (2 ^ n) else t.preds &&& ~~~BitVec.ofNat 7 (2 ^ n) }

/-- Insert a thread into a list in ascending lane order. -/
def insertLane (t : Nat) (l : List Nat) : List Nat :=
  match l with
  | [] => [t]
  | u :: rest => if t % 32 ≤ u % 32 then t :: u :: rest else u :: insertLane t rest

/-- Threads in ascending lane order. -/
def byLane (l : List Nat) : List Nat := l.foldr insertLane []

/-- The indexes of the threads that satisfy a test, from index `t` on. -/
def indexesFrom (t : Nat) (ts : List Thread) (p : Thread → Bool) : List Nat :=
  match ts with
  | [] => []
  | x :: rest => if p x then t :: indexesFrom (t + 1) rest p else indexesFrom (t + 1) rest p

/-- The threads of the group that satisfy a test. -/
def Group.threadsWith (g : Group) (p : Thread → Bool) : List Nat := indexesFrom 0 g.threads p

/-- The threads of the group that are in a warp, by ascending lane: a thread's lane is its home lane (R45). -/
def Group.members (g : Group) (warp : Nat) : List Nat :=
  byLane (g.threadsWith fun t => t.warp == some warp && !t.exited)

/-- The member of a warp at a lane, if any. -/
def Group.atLane (g : Group) (warp lane : Nat) : Option Nat := (g.members warp).find? fun t => t % 32 == lane

/-- Every thread of the group that is not EXITED. -/
def Group.living (g : Group) : List Nat := g.threadsWith fun t => !t.exited

/-- A handle (R311). -/
def Group.handle (g : Group) (n : Nat) : Handle := g.ctx.handles.getD n ⟨false, 0, 0, 0, 0⟩

/-- Change the context in force. -/
def Group.modCtx (g : Group) (f : Ctx → Ctx) : Group := { g with ctx := f g.ctx }

/-- Change a handle. -/
def Group.modHandle (g : Group) (n : Nat) (f : Handle → Handle) : Group :=
  g.modCtx fun c => { c with handles := c.handles.modify n f }

/-- GATEDEPTH (R197). -/
def Group.gateDepth (g : Group) : Nat := g.gates.length

/-- A format slot; the slots read 0 inside a callee (R354). -/
def Group.formatSlot (g : Group) (n : Nat) : DWord := g.ctx.fs.getD n 0

/-- Whether a word is held pending in the scoreboard (R211). -/
def Group.isPending (g : Group) (r : Res) : Bool := g.pend.contains r

/-- Set or clear pending marks. -/
def Group.pendSet (g : Group) (rs : List Res) : Group := { g with pend := distinct (g.pend ++ rs) }
/-- Clear pending marks. -/
def Group.pendClear (g : Group) (rs : List Res) : Group := { g with pend := g.pend.filter fun r => !rs.contains r }

end Sys2Proof.Machine
end

