-- ==== Sys2Proof/Machine/Operands.lean ====
section
/-! DEFINITION. Operand forms: how a source of each kind and width is read and a destination of each kind is
written (R202, R206, R240, R260), what a word reads and writes for the scoreboard (R210, R211), and which of its
sources are poisoned (R394 to R397). -/

namespace Sys2Proof.Machine

/-! ## Reading -/

/-- The value of v-registers n up to n + k − 1 of thread t, register n lowest (R206). -/
def Group.readV (g : Group) (t n k : Nat) : Nat :=
  match k with
  | 0 => 0
  | k + 1 => (g.word (g.vWord t n)).val.toNat + 2 ^ 32 * g.readV t (n + 1) k

/-- Some of the v-registers is poisoned (R70). -/
def Group.badV (g : Group) (t n k : Nat) : Bool := (List.range k).any fun i => (g.word (g.vWord t (n + i))).poison

/-- A source operand of `width` bits read by thread t of a warp (R206, R240). -/
def Group.read (g : Group) (warp t : Nat) (lit : Option DWord) (width : Nat) (o : Operand) : Nat :=
  match o with
  | .v n => g.readV t n.toNat ((width + 31) / 32)
  | .s n => (g.sreg warp n.toNat).val.toNat % 2 ^ width
  | .p n => ((g.thread t).pred n.toNat).toNat
  | .h n => n.toNat
  | .mt n => n.toNat
  | .fs n => (g.formatSlot n.toNat).toNat
  | .zero => 0
  | .laneNo => t % 32
  | .warpNo => warp
  | .rowNo => t / 32
  | .ones => 2 ^ width - 1
  | .lit => (lit.getD 0).toNat % 2 ^ width

/-- The value of a field: an immediate in source B's place, or the operand (R240). -/
def Group.readFld (g : Group) (warp t : Nat) (lit : Option DWord) (f : Fld) (o : Operand) : Nat :=
  match f with
  | .unused => 0
  | .const x => x.toNat
  | .operand _ width _ _ => g.read warp t lit width o

/-- The three sources that thread t reads (R211). -/
def Group.capture (g : Group) (sig : Sig) (f : Fields) (warp t : Nat) : LaneSrc where
  t := t
  a := BitVec.ofNat 128 (g.readFld warp t f.lit sig.sa f.sa)
  b := BitVec.ofNat 128 (g.readFld warp t f.lit sig.sb f.sb)
  c := BitVec.ofNat 128 (g.readFld warp t f.lit sig.sc f.sc)

/-- The operand is a poisoned v-register or s-register (R70, R394). -/
def Group.badFld (g : Group) (warp t : Nat) (f : Fld) (o : Operand) : Bool :=
  match f, o with
  | .operand _ _ regs _, .v n => g.badV t n.toNat regs
  | .operand .., .s n => (g.sreg warp n.toNat).poison
  | _, _ => false

/-- Some source that thread t reads is poisoned (R395, R397). -/
def Group.consumes (g : Group) (sig : Sig) (f : Fields) (warp t : Nat) : Bool :=
  g.badFld warp t sig.sa f.sa || g.badFld warp t sig.sb f.sb || g.badFld warp t sig.sc f.sc

/-! ## Writing -/

/-- Write v-registers n up to n + k − 1 of thread t. A whole word written clears its poison; with `bad` the words
become poisoned (R70). -/
def Group.writeV (g : Group) (t n k : Nat) (x : Nat) (bad : Bool) : Group :=
  match k with
  | 0 => g
  | k + 1 => (g.setWord (g.vWord t n) ⟨BitVec.ofNat 32 x, bad⟩).writeV t (n + 1) k (x / 2 ^ 32) bad

/-- Write a result of `width` bits to a destination: a v-register or pair or quad of thread t, an s-register of the
warp (zero-extended), a predicate of the thread, or ZERO, which discards it (R206, R240). -/
def Group.writeDst (g : Group) (warp t : Nat) (width : Nat) (o : Operand) (x : Nat) : Group :=
  match o with
  | .v n => g.writeV t n.toNat ((width + 31) / 32) x false
  | .s n => g.setSreg warp n.toNat ⟨BitVec.ofNat 64 (x % 2 ^ width), false⟩
  | .p n => g.modThread t fun h => h.setPred n.toNat (x != 0)
  | _ => g

end Sys2Proof.Machine

namespace Sys2Proof
open Machine

/-- The width of a field's operand. -/
def Fld.width : Fld → Nat
  | .operand _ w _ _ => w
  | _ => 0

/-! ## Scoreboard and banks -/

/-- The home rows of threads. -/
def rowsOf (ts : List Nat) : List Nat := distinct (ts.map (· / 32))

/-- The registers that an operand names in the rows of the given threads (R211). -/
def Fld.regs (f : Fld) (o : Operand) (warp : Nat) (ts : List Nat) : List Machine.Res :=
  match f, o with
  | .operand _ _ k _, .v n => (rowsOf ts).flatMap fun r => (List.range k).map fun i => .v r (n.toNat + i)
  | .operand .., .s n => [.s warp n.toNat]
  | .operand .., .p n => if n.toNat = 7 then [] else (rowsOf ts).map fun r => .p r n.toNat
  | .operand .., .h n => [.h n.toNat]
  | _, _ => []

/-- The predicates of a mask, p7 apart, in the rows of the given threads (R206, R211). -/
def predRegs (mask : Nat) (ts : List Nat) : List Res :=
  (rowsOf ts).flatMap fun r => ((List.range 7).filter fun n => mask.testBit n).map fun n => .p r n

/-- Every register that a word writes in the rows of its issued threads (R211). -/
def Sig.writes (sig : Sig) (f : Fields) (warp : Nat) (ts : List Nat) : List Res :=
  sig.dst.regs f.dst warp ts ++ predRegs sig.predOut ts

/-- Every register that a word reads or writes in the rows of its issued threads, its guard included (R211). -/
def Sig.touched (sig : Sig) (f : Fields) (warp : Nat) (ts : List Nat) : List Res :=
  sig.writes f warp ts ++ sig.sa.regs f.sa warp ts ++ sig.sb.regs f.sb warp ts ++ sig.sc.regs f.sc warp ts
    ++ predRegs (sig.predIn ||| 2 ^ f.guard.pred.toNat) ts

/-- The sub-banks that a field's v-registers lie in (R210). -/
def Fld.banks (f : Fld) (o : Operand) : List Nat :=
  match f, o with
  | .operand _ _ k _, .v n => (List.range k).map fun i => (n.toNat + i) % 4
  | _, _ => []

/-- The bank-use vector of a word, as a mask (R210). -/
def Sig.bankMask (sig : Sig) (f : Fields) : Nat :=
  (sig.dst.banks f.dst ++ sig.sa.banks f.sa ++ sig.sb.banks f.sb ++ sig.sc.banks f.sc).foldl
    (fun m b => Nat.lor m (2 ^ b)) 0

/-- A v-register at or above `regs`, or a tile that the group was not given (R206, R213 check 7). -/
def Fld.unallocated (f : Fld) (o : Operand) (regs tiles : Nat) : Bool :=
  match f, o with
  | .operand _ _ k _, .v n => regs < n.toNat + k
  | .operand .., .mt n => tiles ≤ n.toNat
  | _, _ => false

/-- R213 check 7 on a word. -/
def Sig.unallocated (sig : Sig) (f : Fields) (regs tiles : Nat) : Bool :=
  sig.dst.unallocated f.dst regs tiles || sig.sa.unallocated f.sa regs tiles
    || sig.sb.unallocated f.sb regs tiles || sig.sc.unallocated f.sc regs tiles

/-- A P word's scalar slot: the s-registers it reads and writes (R207). -/
def PairWord.scalarRegs (p : PairWord) (sop warp : Nat) : List Res :=
  let a := [Res.s warp p.ssa.toNat]
  let d := [Res.s warp p.sdst.toNat]
  match scalarForm sop with
  | .register => d ++ a ++ [.s warp (p.ssb.toNat % 64)]
  | .immediate | .unary => d ++ a
  | .movi => d
  | .branch => a

/-- A guard holds in a thread (R204). -/
def Machine.Thread.guard (t : Thread) (g : Guard) : Bool := t.pred g.pred.toNat != g.neg

end Sys2Proof
end

