-- ==== Sys2Proof/Machine/Links.lean ====
section
/-! DEFINITION. Messages, fragments, flits, routes and link frames (R126 to R132, R424, R425). -/

namespace Sys2Proof.Machine

/-! ## Message kinds (R128) -/

namespace Kind
/-- R128. -/
def resv : Nat := 0x01
/-- R128. -/
def grant : Nat := 0x02
/-- R128. -/
def put : Nat := 0x03
/-- R128. -/
def stat : Nat := 0x04
/-- R128. -/
def deq : Nat := 0x05
/-- R128. -/
def deliver : Nat := 0x06
/-- R128. -/
def cancel : Nat := 0x07
/-- R128. -/
def retry : Nat := 0x08
/-- R128. -/
def probe : Nat := 0x09
/-- R128. -/
def incarn : Nat := 0x0A
/-- R128. -/
def lostdie : Nat := 0x0B
/-- R128. -/
def page : Nat := 0x0C
/-- R128. -/
def pageack : Nat := 0x0D
/-- R128. -/
def rput : Nat := 0x0E
/-- R128. -/
def save : Nat := 0x0F
/-- R128. -/
def saveack : Nat := 0x10
end Kind

/-- The channel of a kind: 1 for replies (R128). -/
def vcOf (kind : Nat) : Nat := if [0x02, 0x04, 0x06, 0x08, 0x09, 0x0A, 0x0B, 0x0D, 0x0E, 0x10].contains kind then 1 else 0

/-- MLEN agrees with the kind; a PUT's is not checked here (R128). -/
def mlenOk (kind mlen : Nat) : Bool :=
  match kind with
  | 0x03 => true
  | 0x06 => (List.range 9).any fun i => mlen == 2 ^ (i + 4)
  | 0x0C => mlen == 4096
  | 0x0E => mlen == 128
  | 0x0F => mlen ≤ 4096
  | _ => mlen == 0

/-! ## Header flits (R127) -/

/-- The header flit of a message's fragment. -/
def Msg.toFlit (m : Msg) (fidx fcnt : Nat) : BitVec 512 :=
  let low := (m.kind % 256) * 2 ^ 248 + (m.dpkg % 65536) * 2 ^ 232 + (m.ddie % 8) * 2 ^ 229 + (m.inc % 256) * 2 ^ 221
    + (m.spkg % 65536) * 2 ^ 205 + (m.sdie % 8) * 2 ^ 202 + (m.mseq % 2 ^ 32) * 2 ^ 170 + (fidx % 128) * 2 ^ 163
    + (fcnt % 128) * 2 ^ 156 + (m.mlen % 8192) * 2 ^ 143 + (m.qidx % 65536) * 2 ^ 127 + (m.qgen % 8192) * 2 ^ 114
    + (m.ticket % 2 ^ 48) * 2 ^ 66 + (m.status % 256) * 2 ^ 58 + (m.pid % 2 ^ 24) * 2 ^ 34 + m.dom.toNat * 4
    + vcOf m.kind * 2
  BitVec.ofNat 512 (low + m.arg0.toNat * 2 ^ 256 + m.arg1.toNat * 2 ^ 320 + m.arg2.toNat * 2 ^ 384 + m.arg3.toNat * 2 ^ 448)

/-- The message that a header flit describes, without its payload. -/
def Msg.ofFlit (f : BitVec 512) : Msg :=
  let x := f.toNat
  { kind := bits x 255 248, dpkg := bits x 247 232, ddie := bits x 231 229, inc := bits x 228 221,
    spkg := bits x 220 205, sdie := bits x 204 202, mseq := bits x 201 170, qidx := bits x 142 127,
    qgen := bits x 126 114, ticket := bits x 113 66, status := bits x 65 58, pid := bits x 57 34,
    dom := BitVec.ofNat 32 (bits x 33 2), arg0 := BitVec.ofNat 64 (bits x 319 256),
    arg1 := BitVec.ofNat 64 (bits x 383 320), arg2 := BitVec.ofNat 64 (bits x 447 384),
    arg3 := BitVec.ofNat 64 (bits x 511 448), bytes := [], mlen := bits x 155 143, bad := [], pn := 0 }

/-- FIDX of a header flit. -/
def flitFidx (f : BitVec 512) : Nat := bits f.toNat 169 163
/-- FCNT of a header flit. -/
def flitFcnt (f : BitVec 512) : Nat := bits f.toNat 162 156

/-- The bits of a PID that its kind does not use are zero (R127). -/
def pidOk (pid : Nat) : Bool :=
  match bits pid 23 22 with
  | 0 => true
  | 1 => bits pid 11 9 == 0 && bits pid 3 0 == 0 && (bits pid 14 12 == 0 || bits pid 8 4 == 0)
  | 2 => bits pid 21 16 == 0
  | _ => bits pid 21 2 == 0

/-- The header passes the checks of R128. -/
def headerOk (f : BitVec 512) : Bool :=
  let k := bits f.toNat 255 248
  pidOk (bits f.toNat 57 34) && 1 ≤ k && k ≤ 0x10 && bits f.toNat 1 1 == vcOf k && bits f.toNat 0 0 == 0 && mlenOk k (bits f.toNat 155 143)
    && flitFcnt f ≤ 64

/-- Data flits of a message (R126). -/
def dataFlits (mlen : Nat) : Nat := (mlen + 63) / 64

/-- A message as one whole fragment: R129 lets a port split some messages and never obliges it to. -/
def Msg.fragment (m : Msg) : Fragment :=
  let n := dataFlits m.mlen
  ⟨m.toFlit 0 n, (List.range n).map fun i => BitVec.ofNat 512 (ofBytes ((m.bytes.drop (64 * i)).take 64))⟩

/-! ## Routes (R130) -/

/-- The die at the far end of seam `code` from die `d`. -/
def seamPeer (d code : Nat) : Nat := if (seamEnds code).1 = d then (seamEnds code).2 else (seamEnds code).1

/-- The seam between two neighbouring dies. -/
def seamBetween (a b : Nat) : Option Nat := (List.range 10).find? fun c => seamEnds c == (a, b) || seamEnds c == (b, a)

/-- A link of a die. -/
def Die.link? (d : Die) (code : Nat) : Option Link := d.links.find? fun l => l.code == code

/-- Change a link. -/
def Die.modLink (d : Die) (code : Nat) (f : Link → Link) : Die :=
  { d with links := modWhere (fun l => l.code == code) f d.links }

/-- A seam carries flits: both of its dies are up and neither end is down. -/
def State.seamUp (s : State) (code : Nat) : Bool :=
  let (a, b) := seamEnds code
  [a, b].all fun d => (s.die d).phase == .up && ((s.die d).link? code).any fun l => l.width != 0

/-- The next die on the row-first path. -/
def rowFirst (a b : Nat) : Nat :=
  if a % 4 < b % 4 then a + 1 else if b % 4 < a % 4 then a - 1 else if a = b then a else belay a

/-- The dies of the row-first path after `a`. -/
def rowPath (fuel a b : Nat) : List Nat :=
  match fuel with
  | 0 => []
  | fuel + 1 => if a = b then [] else rowFirst a b :: rowPath fuel (rowFirst a b) b

/-- Every seam of a path is up. -/
def State.pathUp (s : State) (a : Nat) (path : List Nat) : Bool :=
  match path with
  | [] => true
  | b :: rest => (seamBetween a b).any s.seamUp && s.pathUp b rest

/-- One round of the spanning tree's growth: each die not in the tree joins its lowest neighbour that is. -/
def State.grow (s : State) (tree : Map Nat) : Map Nat :=
  (List.range 8).foldl (fun t d =>
    if (tget tree d).isSome then t
    else
      match (List.range 8).find? fun p => (tget tree p).isSome && (seamBetween d p).any s.seamUp with
      | some p => tput t d p
      | none => t) tree

/-- The parent of each die in the tree rooted at the lowest-numbered live die (R130). -/
def State.spanningTree (s : State) : Map Nat :=
  match (List.range 8).find? fun d => (s.die d).phase == .up with
  | none => []
  | some r => (List.range 7).foldl (fun t _ => s.grow t) [(r, r)]

/-- A die and its ancestors in the tree. -/
def ancestors (tree : Map Nat) (fuel d : Nat) : List Nat :=
  match fuel with
  | 0 => [d]
  | fuel + 1 => match tget tree d with
    | some p => if p = d then [d] else d :: ancestors tree fuel p
    | none => []

/-- The next die from `a` towards `b` up and down the tree. -/
def treeNext (tree : Map Nat) (a b : Nat) : Option Nat :=
  let up := ancestors tree 8 b
  match up.findIdx? (· == a) with
  | some (i + 1) => up[i]?
  | some 0 => some a
  | none => if up.isEmpty then none else tget tree a

/-- The route tables that the management cores install on the live dies after a change of the seams (R130). -/
def State.installRoutes (s : State) : State :=
  let tree := s.spanningTree
  { s with dies := (List.range 8).zipWith (fun a x =>
      if x.phase == .up then
        { x with routes := (List.range 8).foldl (fun m b =>
            if a = b then m
            else if s.pathUp a (rowPath 4 a b) then tput m b (rowFirst a b)
            else match treeNext tree a b with
              | some n => tput m b n
              | none => tput m b 8) [] }
      else x) s.dies }

/-- A ridge port of a die that is up. -/
def Die.ridgeUp (d : Die) : Option Nat := (d.links.find? fun l => (l.code == 16 || l.code == 17) && l.width != 0).map Link.code

/-- The next die on the way from `a` to `b`: the row-first path while no table is installed. -/
def State.hop (s : State) (a b : Nat) : Option Nat :=
  let n := tgetD (s.die a).routes b (rowFirst a b)
  if n = 8 ∨ (s.die b).phase ≠ .up then none else some n

/-- Hops from `a` to `b`, 8 when there is no route. -/
def State.hops (s : State) (fuel a b : Nat) : Nat :=
  match fuel with
  | 0 => 8
  | fuel + 1 => if a = b then 0 else match s.hop a b with
    | some n => min 8 (1 + s.hops fuel n b)
    | none => 8

/-- The link by which a fragment for a package and die leaves die `d` (R130). -/
def State.nextLink (s : State) (d pkg die : Nat) : Option Nat :=
  if pkg = s.pkg then (s.hop d die).bind (seamBetween d)
  else
    match (s.die d).ridgeUp with
    | some c => some c
    | none =>
      let far := (List.range 8).filter fun e => (s.die e).phase == .up && (s.die e).ridgeUp.isSome && s.hops 8 d e < 8
      match leastBy (fun e => s.hops 8 d e) far with
      | some e => (s.hop d e).bind (seamBetween d)
      | none => none

/-- PID kind 3, agent 1: a die's management core (R127). -/
def corePid : Nat := 3 * 2 ^ 22 + 1

/-- The message is management traffic: it concerns queue 7, for a management core (R431). -/
def Msg.isMgmt (m : Msg) : Bool := m.qidx == 7 && m.pid == corePid

/-- A seam carries management traffic: neither end is down (R431). -/
def State.mgmtSeam (s : State) (code : Nat) : Bool :=
  let (a, b) := seamEnds code
  [a, b].all fun d => ((s.die d).phase == .up || (s.die d).phase == .scrapped) && ((s.die d).link? code).any fun l => l.width != 0

/-- The seams of a die. -/
def seamsOf (d : Nat) : List Nat := (List.range 10).filter fun c => (seamEnds c).1 == d || (seamEnds c).2 == d

/-- The dies from which management traffic reaches one of those listed, in so many more hops. -/
def State.mgmtReach (s : State) (fuel : Nat) (ds : List Nat) : List Nat :=
  match fuel with
  | 0 => ds
  | fuel + 1 =>
    s.mgmtReach fuel ((List.range 8).filter fun d =>
      ds.contains d || (seamsOf d).any fun c => s.mgmtSeam c && ds.contains (seamPeer d c))

/-- The seam by which management traffic gets one hop nearer to a die, `k` hops being enough. -/
def State.mgmtLink (s : State) (d die : Nat) : Option Nat :=
  let nearer := (List.range 8).find? fun k => (s.mgmtReach k [die]).contains d
  match nearer with
  | some (k + 1) => (seamsOf d).find? fun c => s.mgmtSeam c && (s.mgmtReach k [die]).contains (seamPeer d c)
  | _ => none

/-- The link by which a message goes on from die `d`. Management traffic from or to a die that is up for it alone, or that has no
other way, goes by any seam that carries it: route tables name live dies only (R130, R431). -/
def State.wayOf (s : State) (d : Nat) (m : Msg) : Option Nat :=
  if m.isMgmt && m.dpkg == s.pkg then
    if (s.die d).phase = .scrapped ∨ (s.die m.ddie).phase = .scrapped then s.mgmtLink d m.ddie
    else (s.nextLink d m.dpkg m.ddie).orElse fun _ => s.mgmtLink d m.ddie
  else s.nextLink d m.dpkg m.ddie

/-- Queue a fragment on its next link, or move it to the transit spill when it has no route (R132). -/
def State.forward (s : State) (d : Nat) (f : Fragment) : State :=
  let m := Msg.ofFlit f.header
  match s.wayOf d m with
  | some c =>
    let vc := vcOf m.kind == 1
    s.modDie d fun x => x.modLink c fun l => { l with txq := l.txq ++ (f.header :: f.flits).map fun w => (vc, w) }
  | none => s.modDie d fun x => x.modPort fun p => { p with transit := p.transit ++ [(f, x.ps)] }

/-- Send a message from die `d`: to its own port, or onto the links. -/
def State.transmit (s : State) (d : Nat) (m : Msg) : State :=
  if m.dpkg = s.pkg ∧ m.ddie = d then s.modDie d fun x => x.modPort fun p => { p with inbox := p.inbox ++ [m] }
  else
    let rides := m.dpkg == s.pkg && (m.mlen != 0 || m.kind == Kind.resv)
    let s := if rides then s.modDie d fun x => x.modPort fun p => { p with riding := p.riding ++ [{ m with bytes := [] }] } else s
    s.forward d m.fragment

/-- Fragments that held buffers and have lost their route go to the transit spill, and those that have one again
leave it (R132). -/
def State.settleTransit (s : State) (d : Nat) : State :=
  let held := (s.die d).port.transit
  let s := s.modDie d fun x => x.modPort fun p => { p with transit := [] }
  held.foldl (fun s (f, t) =>
    if (s.wayOf d (Msg.ofFlit f.header)).isSome then s.forward d f
    else s.modDie d fun x => x.modPort fun p => { p with transit := p.transit ++ [(f, t)] }) s

/-- Split queued flits into the fragments they make up. -/
def fragmentsOf (fuel : Nat) (ws : List (BitVec 512)) : List Fragment :=
  match fuel, ws with
  | _, [] => []
  | 0, _ => []
  | fuel + 1, h :: rest => ⟨h, rest.take (flitFcnt h)⟩ :: fragmentsOf fuel (rest.drop (flitFcnt h))

/-- The frames of the replay buffer that the far end has not taken in, when it has taken frames up to `rxSeq`. -/
def Link.notTaken (l : Link) (rxSeq : Nat) : List LinkFrame :=
  l.replay.filter fun f => (f.fseq + 8191 - rxSeq) % 4096 < 2048

/-- A link went down: the fragments that the far end has not taken in whole find another way (R132, R407). The flits
of a fragment begun on a ridge port are lost, and its message is incomplete. -/
def State.emptyLink (s : State) (d code : Nat) : State :=
  match (s.die d).link? code with
  | none => s
  | some l =>
    let e := seamPeer d code
    let far := if code < 10 then (s.die e).link? code else none
    let late := ((far.map fun f => (l.notTaken f.rxSeq).flatMap LinkFrame.flits).getD []) ++ l.txq
    let on := fun (vc : Bool) =>
      let mine := (late.filter fun f => f.1 == vc).map (·.2)
      match far with
      | some f => (if vc then f.rx1 else f.rx0) ++ mine
      | none => mine.drop (if vc then l.left1 else l.left0)
    let s := s.modDie d fun x => x.modLink code fun l => { l with txq := [], replay := [], resend := [], left0 := 0, left1 := 0 }
    let s := if code < 10 then s.modDie e fun x => x.modLink code fun l => { l with rx0 := [], rx1 := [] } else s
    if (s.die d).phase ≠ .up then s
    else (fragmentsOf 4096 (on false) ++ fragmentsOf 4096 (on true)).foldl (fun s f => s.forward d f) s

/-- Whole fragments queued on a link that have no route under the new tables move to the transit spill; a fragment whose
first flits have left goes on (R132). -/
def State.unroute (s : State) (d code : Nat) : State :=
  match (s.die d).link? code with
  | none => s
  | some l =>
    let mine := fun (vc : Bool) => (l.txq.filter fun f => f.1 == vc).map (·.2)
    let whole := fun (vc : Bool) (left : Nat) => fragmentsOf 4096 ((mine vc).drop left)
    let routed := fun (f : Fragment) => (s.wayOf d (Msg.ofFlit f.header)).isSome
    let queue := fun (vc : Bool) (left : Nat) =>
      ((mine vc).take left ++ ((whole vc left).filter routed).flatMap fun f => f.header :: f.flits).map fun w => (vc, w)
    let lost := (whole false l.left0 ++ whole true l.left1).filter fun f => !routed f
    if lost.isEmpty then s
    else
      s.modDie d fun x => (x.modLink code fun l => { l with txq := queue false l.left0 ++ queue true l.left1 }).modPort fun p =>
        { p with transit := p.transit ++ lost.map fun f => (f, x.ps) }

/-- Route tables change after a seam went down or a die was lost (R130, R132). -/
def State.reroute (s : State) (down : List Nat) : State :=
  let s := s.installRoutes
  let s := (List.range 8).foldl (fun s d => ((s.die d).links.map Link.code).foldl (fun s c => s.unroute d c) s) s
  let s := down.foldl (fun s c => if c < 10 then (s.emptyLink (seamEnds c).1 c).emptyLink (seamEnds c).2 c else s) s
  (List.range 8).foldl (fun s d => s.settleTransit d) s

/-! ## Frames (R424, R425) -/

/-- A CRC register after one more bit of the message, which is added in before (IEEE 802.3 polynomial, reflected). -/
def crcBit (c : Nat) : Nat := Nat.xor (c / 2) (c % 2 * 0xEDB88320)

/-- The CRC-32 of bytes in the form that IEEE 802.3 gives it. -/
def crc32 (bs : List Byte) : Nat :=
  let byte := fun (c : Nat) (b : Byte) => crcBit (crcBit (crcBit (crcBit (crcBit (crcBit (crcBit (crcBit (Nat.xor c b.toNat))))))))
  Nat.xor (bs.foldl byte 0xFFFFFFFF) 0xFFFFFFFF

/-- A frame on its way: its places and its trailer. -/
structure Frame424 where
  frame : LinkFrame
  ack : Nat
  nak : Bool
deriving DecidableEq, Repr, Inhabited

/-- The frame that 272 bytes carry, none when its CRC fails. -/
def readFrame (bs : List Byte) : Option Frame424 :=
  let t := ofBytes ((bs.drop 256).take 16)
  if bs.length ≠ 272 ∨ bits t 127 96 ≠ crc32 (bs.take 268) then none
  else
    let places := (List.range 4).filterMap fun i =>
      if bit t (40 + i) then some (bit t (44 + i), BitVec.ofNat 512 (ofBytes ((bs.drop (64 * i)).take 64))) else none
    some ⟨⟨bits t 95 84, places, bits t 55 48, bits t 63 56⟩, bits t 83 72, bit t 71⟩

/-- The 272 bytes of a frame: four flit places and the trailer (R424). -/
def Frame424.bytes (f : Frame424) : List Byte :=
  let fs := f.frame.flits
  let places := (List.range 4).flatMap fun i => toBytes 64 (((fs[i]?).map fun w => w.2.toNat).getD 0)
  let vcs := (List.range 4).foldl (fun m i => if (fs[i]?).any (·.1) then m + 2 ^ i else m) 0
  let body := places ++ toBytes 12 ((2 ^ fs.length - 1) * 2 ^ 40 + vcs * 2 ^ 44 + f.frame.cr0 * 2 ^ 48 + f.frame.cr1 * 2 ^ 56
    + f.nak.toNat * 2 ^ 71 + f.ack * 2 ^ 72 + f.frame.fseq * 2 ^ 84)
  body ++ toBytes 4 (crc32 body)

/-- Take the next flit to send on a link: VC 1 first, as it always drains; a fragment starts only when the whole of
it fits the far buffer (R131). -/
def Link.takeFlit (l : Link) : Option ((Bool × BitVec 512) × Link) :=
  let next := fun (vc : Bool) => l.txq.find? fun f => f.1 == vc
  let drop := fun (vc : Bool) => l.txq.eraseP fun f => f.1 == vc
  let can := fun (vc : Bool) (left credit : Nat) => match next vc with
    | some (_, h) => 0 < left || 1 + flitFcnt h ≤ credit
    | none => false
  if can true l.left1 l.credit1 then
    (next true).map fun f =>
      (f, if 0 < l.left1 then { l with txq := drop true, left1 := l.left1 - 1 }
          else { l with txq := drop true, left1 := flitFcnt f.2, credit1 := l.credit1 - (1 + flitFcnt f.2) })
  else if can false l.left0 l.credit0 then
    (next false).map fun f =>
      (f, if 0 < l.left0 then { l with txq := drop false, left0 := l.left0 - 1 }
          else { l with txq := drop false, left0 := flitFcnt f.2, credit0 := l.credit0 - (1 + flitFcnt f.2) })
  else none

/-- Up to `n` flits for a frame. -/
def Link.takeFlits (l : Link) (n : Nat) : List (Bool × BitVec 512) × Link :=
  match n with
  | 0 => ([], l)
  | n + 1 => match l.takeFlit with
    | none => ([], l)
    | some (f, l) => let (fs, l) := l.takeFlits n; (f :: fs, l)

/-- The frame a link end sends now: a frame to be resent, or a new one of up to four flits; none while the replay
buffer is full (R425). -/
def Link.send (l : Link) (now : Nat) : Option (Frame424 × Link) :=
  let trailer := fun (f : LinkFrame) (l : Link) => (⟨f, l.rxSeq, l.nak⟩, { l with nak := false })
  match l.resend with
  | f :: rest => some (trailer f { l with resend := rest })
  | [] =>
    if 2048 ≤ l.replay.length then none
    else
      let (fs, l) := l.takeFlits 4
      let f : LinkFrame := ⟨l.txSeq, fs, min 255 l.give0, min 255 l.give1⟩
      some (trailer f { l with
        txSeq := (l.txSeq + 1) % 4096
        replay := l.replay ++ [f]
        give0 := l.give0 - f.cr0
        give1 := l.give1 - f.cr1
        sent := if fs.isEmpty then l.sent else now })

/-- ACKSEQ, NAK and credits of a received frame at the sender's side (R425). -/
def Link.acked (l : Link) (f : Frame424) : Link :=
  let kept := if l.replay.any fun r => r.fseq == f.ack then (l.replay.dropWhile fun r => r.fseq != f.ack).drop 1 else l.replay
  { l with replay := kept, resend := if f.nak then kept else l.resend.filter fun r => kept.any fun k => k.fseq == r.fseq,
           credit0 := l.credit0 + f.frame.cr0, credit1 := l.credit1 + f.frame.cr1 }

/-- A received flit joins the fragment coming in on its VC; the fragment once it is whole. -/
def Link.collect (l : Link) (f : Bool × BitVec 512) : Option Fragment × Link :=
  let have_ := (if f.1 then l.rx1 else l.rx0) ++ [f.2]
  match have_ with
  | [] => (none, l)
  | h :: rest =>
    if rest.length < flitFcnt h then (none, if f.1 then { l with rx1 := have_ } else { l with rx0 := have_ })
    else (some ⟨h, rest⟩, if f.1 then { l with rx1 := [], give1 := l.give1 + have_.length }
                          else { l with rx0 := [], give0 := l.give0 + have_.length })

/-- The fragments completed by a frame's flits. -/
def Link.collectAll (l : Link) (fs : List (Bool × BitVec 512)) : List Fragment × Link :=
  match fs with
  | [] => ([], l)
  | f :: rest =>
    let (x, l) := l.collect f
    let (xs, l) := l.collectAll rest
    (x.toList ++ xs, l)

end Sys2Proof.Machine
end

