-- ==== Sys2Proof/Machine/RegRead.lean ====
section
/-! DEFINITION. The device registers (R41, R42, R103, R112, R370, R371, R389, R392, R433): what a read returns. -/

namespace Sys2Proof.Machine

/-! ## Numbers that registers show -/

/-- Insert a range into a list ordered by its start. -/
def insertRange (r : Nat × Nat) (l : List (Nat × Nat)) : List (Nat × Nat) :=
  match l with
  | [] => [r]
  | x :: rest => if r.1 ≤ x.1 then r :: x :: rest else x :: insertRange r rest

/-- How many numbers ordered ranges (first, last) cover from `next` on. -/
def covered (next : Nat) (l : List (Nat × Nat)) : Nat :=
  match l with
  | [] => 0
  | (a, b) :: rest => if b < next then covered next rest else b + 1 - max a next + covered (b + 1) rest

/-- ZPEND.BLOCKS: the 64 KiB blocks with a zero-pending sector (R103). -/
def Die.pendingBlocks (d : Die) : Nat :=
  covered 0 ((d.zpend.map fun (s, n) => (s / 2048, (s + n - 1) / 2048)).foldr insertRange [])

/-- The live channels of a stack (R101). -/
def Die.stackChannels (d : Die) (st : Nat) : Nat := popcount32 (d.conf.ch.getD st 0).toNat

/-- The lines of a stack's live channels: 2 GiB each. -/
def Die.stackLines (d : Die) (st : Nat) : Nat := d.stackChannels st * 2 ^ 25

/-- LEVEL of SCRUB0 or SCRUB1: the row of R102 in force. -/
def Die.scrubLevel (d : Die) (st : Nat) : Nat :=
  let total := 2 * d.stackLines st
  let h := 4 * 3600 * 1000000 * usec
  let u := d.memctl.scrubSector.getD st 0 * h
  let e := (d.ps - d.memctl.scrubStart.getD st 0) * total
  if 64 * e ≤ 64 * u + total * h then 0 else if 16 * e ≤ 16 * u + total * h then 1 else 2

/-! ## Parked words by LOG (R388, R389) -/

/-- The group and parked word that a LOG value names: a resident group's before a swapped-out one's. -/
def Die.parkedAt (d : Die) (log : Nat) : Option (Group × ParkedWord) :=
  let has := fun (g : Group) => (g.log.find? fun w => w.log == log).map fun w => (g, w)
  ((d.groups.filter fun g => g.phase == .resident).findSome? has).orElse fun _ => d.groups.findSome? has

/-- The stream-log entry that a LOG value names. -/
def Die.streamAt (d : Die) (log : Nat) : Option StreamLog :=
  (d.core (bits log 13 7)).slog.find? fun e => e.entry == log % 64

/-- FADDR of a lane (R389). -/
def Die.faultAddr (d : Die) (lane : Nat) : Nat :=
  let sel := d.sched.fsel.toNat
  if bit sel 29 then (if lane = 0 then ((d.streamAt (sel % 2 ^ 14)).map StreamLog.va).getD 0 else 0)
  else
    match d.parkedAt (sel % 2 ^ 14) with
    | none => 0
    | some (_, w) =>
      if w.causes.any fun c => c.1 == lane then ((w.addrs.find? fun a => a.1 == lane).map fun a => a.2.toNat).getD 0 else 0

/-! ## Reads -/

/-- A field of 32-bit counters of the two stacks. -/
def eccWord (m : MemCtl) (st : Nat) : Nat := sat 16 (m.uncorr.getD st 0) * 65536 + sat 16 (m.corr.getD st 0)

/-- SCRUB0 or SCRUB1. -/
def Die.scrubReg (d : Die) (st : Nat) : Nat :=
  d.scrubLevel st * 2 ^ 62 + sat 16 (d.memctl.scrubPasses.getD st 0) * 2 ^ 32 + d.memctl.scrubSector.getD st 0 / 2 % 2 ^ 30

/-- The 64-bit register at an offset of a block that is a multiple of 8: two 32-bit registers, or one of 64 bits. -/
def Die.reg64 (d : Die) (block off : Nat) : Nat :=
  match block with
  | 0 => ofBytes (((d.conf.bytes).drop off).take 8)
  | 1 =>
    match off with
    | 0x00 => d.space.procbase.toNat
    | 0x08 => d.space.pendingInterval.getD d.space.interval + d.space.epoch.toNat * 2 ^ 32
    | 0x18 => d.space.xinv.isSome.toNat + d.flash.table.qspill * 2 ^ 32
    | _ => 0
  | 2 =>
    match off with
    | 0x00 => d.port.qntroot.toNat
    | 0x10 => d.port.qarg.toNat
    | 0x18 => (!d.port.cmds.isEmpty).toNat * 2 ^ 31 + d.port.result.toNat * 256 + d.port.status.toNat
    | 0x20 => d.port.bad.toNat * 2 ^ 48 + d.port.evlost.toNat * 2 ^ 32 + d.port.stale.toNat * 2 ^ 16 + d.port.incomplete.toNat
    | _ => 0
  | 3 =>
    match off with
    | 0x00 => d.sched.swapth
    | 0x08 =>
      let swapped := (d.groups.filter fun g => match g.phase with | .swapped .. => true | _ => false).length
      sat 16 d.sched.discard * 2 ^ 48 + d.sched.hold.length * 2 ^ 33
        + (d.sched.trans.filter TransEntry.waiting).length * 2 ^ 20 + sat 10 swapped * 2 ^ 10
    | 0x18 => d.sched.fsel.toNat * 2 ^ 32
    | 0x20 => d.sched.frblk.toNat
    | 0x28 => d.sched.savebase.toNat
    | 0x30 => d.sched.saven
    | _ => if 0x100 ≤ off ∧ off < 0x200 then d.faultAddr ((off - 0x100) / 8) else 0
  | 4 =>
    match off with
    | 0x00 => d.memctl.mchot.toNat
    | 0x08 => d.scrubReg 0
    | 0x10 => d.scrubReg 1
    | 0x18 => eccWord d.memctl 0 + eccWord d.memctl 1 * 2 ^ 32
    | 0x20 => d.pendingBlocks
    | _ => 0
  | 5 =>
    match off with
    | 0x00 => d.alarm * 2 ^ 30 + sat 8 d.glitch * 2 ^ 16 + d.alarmSrc.toNat
        + (d.tj.toNat * 2 ^ 24 + d.power.toNat * 2 ^ 16 + d.freqReq.toNat * 4 + d.freqPoint.toNat) * 2 ^ 32
    | _ => 0
  | _ => 0

/-- An aligned read of 4 or 8 bytes of device-register space (R41). -/
def Die.readReg (d : Die) (a n : Nat) : Nat :=
  let off := a - devBase
  let x := d.reg64 (off / 65536) (off % 65536 - off % 8)
  if n = 8 then x else bits x (8 * (off % 8) + 31) (8 * (off % 8))

/-! ## What the device reads for itself -/

/-- `n` bytes at a die-local address as a walk or the port's look at a table reads them: from memory, or from
device-register space eight bytes at a time (R40, R41). -/
def Die.look (d : Die) (a n : Nat) : Nat × Bool :=
  if isDevice a then (ofBytes ((List.range (n / 8)).flatMap fun i => toBytes 8 (d.readReg (a + 8 * i) 8)), false) else d.engineRead a n

/-- Some of the bytes lie at addresses that R40 calls Unpopulated. -/
def Die.unpopulated (d : Die) (a n : Nat) : Bool := d.memTop < a + n && !isDevice a

end Sys2Proof.Machine
end

