-- ==== Sys2Proof/Machine/Translate.lean ====
section
/-! DEFINITION. Virtual addresses (R29 to R39), zeroing on allocation in a walk (R93), the translation cache (R60),
extents (R48 to R56) and the classification of an access (R55, R57). -/

namespace Sys2Proof.Machine

/-! ## Trap causes (R380) -/

namespace Cause
/-- R380. -/
def illegal : Nat := 0x01
/-- R380. -/
def register : Nat := 0x02
/-- R380. -/
def address : Nat := 0x03
/-- R380. -/
def window : Nat := 0x04
/-- R380. -/
def extent : Nat := 0x05
/-- R380. -/
def page : Nat := 0x06
/-- R380. -/
def remote : Nat := 0x07
/-- R380. -/
def anchored : Nat := 0x08
/-- R380. -/
def syncstore : Nat := 0x09
/-- R380. -/
def jtab : Nat := 0x0A
/-- R380. -/
def uniformity : Nat := 0x0B
/-- R380. -/
def reform : Nat := 0x0C
/-- R380. -/
def stack : Nat := 0x0D
/-- R380. -/
def gate : Nat := 0x0E
/-- R380. -/
def gateMismatch : Nat := 0x0F
/-- R380. -/
def watchdog : Nat := 0x10
/-- R380. -/
def preempt : Nat := 0x11
/-- R380. -/
def cancel : Nat := 0x12
/-- R380. -/
def poison : Nat := 0x13
/-- R380. -/
def trap : Nat := 0x15
/-- The model's own mark of a PAGE that a malformed entry gives, which COMPLETE does not answer (R59). -/
def malformed : Nat := 0x106
end Cause

/-! ## Domains (R107, R438) -/

/-- A header entry of the name tables. -/
structure Header where
  dom : Word
  len : Nat
  base : Nat
deriving DecidableEq, Repr, Inhabited

/-- The header entry of a process, if it is in use and valid (R107, R112, R438). A poisoned entry counts as
malformed (log entry 12). -/
def Die.header (d : Die) (pn : Nat) : Option Header :=
  let q := d.port.qntroot.toNat
  if q % 2 = 0 then none
  else
    let (x, bad) := d.look (bits q 51 16 * 65536 + 16 * pn) 16
    if bad ∨ bit x 63 = false ∨ bits x 95 88 ≠ 0 ∨ bits x 62 52 ≠ 0 ∨ bits x 3 0 ≠ 0 then none
    else some ⟨BitVec.ofNat 32 (bits x 127 96), bits x 87 64, bits x 51 4 * 16⟩

/-- The domain of a process on the die (R438). -/
def Die.domain (d : Die) (pn : Nat) : Option Word := (d.header pn).map Header.dom

/-- The process runs in a service domain (R37). -/
def Die.service (d : Die) (pn : Nat) : Bool := d.domain pn == some 0

/-! ## Page tables -/

/-- TYPE of an entry (R33). -/
def leafType (e : Nat) : Nat := bits e 63 60
/-- FRAME of a local leaf (R35). -/
def leafFrame (e : Nat) : Nat := bits e 51 16 * 65536
/-- The number of address bits a leaf of a level maps (R31). -/
def levelShift (level : Nat) : Nat := 16 + 11 * (4 - level)

/-- The attributes that a local leaf gives an access. -/
def leafAttr (e : Nat) : Attr where
  che := bit e 9
  ch := bits e 8 4
  il := bit e 10
  afmt := if leafType e = 5 then some (bits e 59 56, bits e 55 52) else none
  type := leafType e

/-- The frame range lies in general memory, or in device-register space as R41 allows it. -/
def Die.frameOk (d : Die) (e level : Nat) : Bool :=
  let f := leafFrame e
  let size := 2 ^ levelShift level
  if isDevice f then
    bit e 3 || (leafType e == 1 && f == devBase && size == 65536 && bit e 0 && !bit e 1)
  else d.isGeneral (f + size - 1)

/-- A local leaf obeys R31, R35 and R41. -/
def Die.localOk (d : Die) (e level : Nat) : Bool :=
  let t := leafType e
  (level == 4 || (level == 3 && t != 5 && bits e 26 16 == 0))
    && !bit e 14
    && (t == 1 || bits e 13 12 == 0)
    && (t == 1 || t == 5 || bits e 59 52 == 0)
    && (t != 5 || ((bits e 59 56 == 0 || (4 ≤ bits e 59 56 && bits e 59 56 ≤ 7)) && bits e 55 52 ≤ 2))
    && bits e 8 4 < d.numClusters
    && !(t == 6 && (!bit e 0 || !bit e 2 || bit e 1))
    && !((t == 4 || t == 5) && bit e 2)
    && d.frameOk e level

/-- A REMOTE or ANCHORED leaf obeys R31 and R36. -/
def Die.awayOk (d : Die) (e level : Nat) : Bool :=
  (level == 4 || (leafType e == 2 && 2 ≤ level))
    && bits e 59 48 == 0 && bits e 23 19 == 0 && bits e 15 0 == 0
    && (leafType e == 3 || bits e 31 24 == 0)
    && !(bits e 47 32 == d.pkgNo && bits e 18 16 == d.dieNo)

/-- What a walk ends with (R31, R32, R39). -/
inductive Found where
  /-- INVALID, or a process that does not exist. -/
  | none
  /-- An entry that does not obey its layout (R32), or that reads poisoned (log entry 12). -/
  | malformed
  /-- A leaf of a level, at the die-local address `loc`. -/
  | leaf (level e loc : Nat)
  /-- The walk left the memory that exists (R40). -/
  | hole (a : Nat)
deriving DecidableEq, Repr, Inhabited

/-- Walk from the table of a level. -/
def Die.walkFrom (d : Die) (fuel level table va : Nat) : Found :=
  match fuel with
  | 0 => .malformed
  | fuel + 1 =>
    let a := table + 8 * bits va (levelShift level + 10) (levelShift level)
    if d.unpopulated a 8 then .hole a
    else
      let (e, bad) := d.look a 8
      if bad then .malformed
      else
        match leafType e with
        | 0 => .none
        | 7 =>
          if level = 4 ∨ bits e 59 52 ≠ 0 ∨ bits e 13 0 ≠ 0 then .malformed
          else d.walkFrom fuel (level + 1) (bits e 51 14 * 16384) va
        | 1 | 4 | 5 | 6 => if d.localOk e level then .leaf level e a else .malformed
        | 2 | 3 => if d.awayOk e level then .leaf level e a else .malformed
        | _ => .malformed

/-- The level-one table of a process, or what every access for it ends with: no process while EN is 0 or V is 0 (R39, R42). -/
def Die.rootOf (d : Die) (pn : Nat) : Except Found Nat :=
  let p := d.space.procbase.toNat
  let a := bits p 51 15 * 32768 + 8 * pn
  if p % 2 = 0 then .error .none
  else if d.unpopulated a 8 then .error (.hole a)
  else
    let (e, bad) := d.look a 8
    if bad then .error .malformed
    else if bit e 63 = false then .error .none
    else if bits e 62 52 ≠ 0 ∨ bits e 13 0 ≠ 0 then .error .malformed
    else .ok (bits e 51 14 * 16384)

/-- The walk of a virtual address for a process (R31, R39, R42). -/
def Die.walk (d : Die) (pn va : Nat) : Found :=
  match d.rootOf pn with
  | .error f => f
  | .ok t => d.walkFrom 4 1 t va

/-- The device writes a page-table entry; device-register space ignores the write (R35, R41). -/
def Die.putEntry (d : Die) (loc e : Nat) : Die := if isDevice loc then d else d.engineWrite loc (toBytes 8 e)

/-- A walk that meets ZP = 1 issues ZERO for the leaf's frame and clears ZP before it uses the entry (R93). -/
def Die.zeroLeaf (d : Die) (f : Found) : Found × Die :=
  match f with
  | .leaf level e loc =>
    if bit e 11 ∧ (leafType e = 1 ∨ leafType e = 4 ∨ leafType e = 5 ∨ leafType e = 6) then
      let asub := if leafType e = 5 then some (bits e 55 52) else none
      let d := if isDevice (leafFrame e) then d else d.zeroFrame (leafFrame e) (2 ^ levelShift level) asub
      (.leaf level (e - 2 ^ 11) loc, d.putEntry loc (e - 2 ^ 11))
    else (f, d)
  | _ => (f, d)

/-- The walk with its zeroing. -/
def Die.translate (d : Die) (pn va : Nat) : Found × Die := d.zeroLeaf (d.walk pn va)

/-- A cached leaf covers the address. -/
def TCEntry.covers (t : TCEntry) (pn va : Nat) : Bool :=
  t.pn == pn && va / 2 ^ levelShift t.level == t.vpn * 65536 / 2 ^ levelShift t.level

/-- The walk of an address, with its zeroing, for a core whose cache takes the leaf (R60). -/
def Die.walkFresh (d : Die) (core pn va : Nat) : Found × Die :=
  let (f, d) := d.translate pn va
  match f with
  | .leaf level e _ =>
    (f, d.modCore core fun c =>
      { c with tcache := (c.tcache.filter fun t => !t.covers pn va) ++ [⟨pn, va / 65536, level, BitVec.ofNat 64 e⟩] })
  | _ => (f, d)

/-- The walk for a core, in the state. -/
def State.walkFresh (s : State) (d core pn va : Nat) : Found × State :=
  let (f, die) := (s.die d).walkFresh core pn va
  (f, s.modDie d fun _ => die)

/-- The walk of an address that reads through one core's cache, as those that translate extents at dispatch do (R61). -/
def Die.walkThrough (d : Die) (core pn va : Nat) : Found × Die :=
  match d.rootOf pn with
  | .error f => (f, d)
  | .ok _ =>
    match (d.core core).tcache.find? fun t => t.covers pn va with
    | some t => (.leaf t.level t.leaf.toNat 0, d)
    | none => d.walkFresh core pn va

/-- The translation of a core's open and demoted accesses through its cache (R60). Where the entry in memory has
changed since it was cached, either may be used until an XINV is complete (R61): a free choice. A process that does not
exist has no translation, cached or not (R39, R42). -/
def State.lookup (s : State) (d core pn va : Nat) : Found × State :=
  let die := s.die d
  match die.rootOf pn with
  | .error f => (f, s)
  | .ok root =>
    match (die.core core).tcache.find? fun t => t.covers pn va with
    | none => s.walkFresh d core pn va
    | some t =>
      let kept := Found.leaf t.level t.leaf.toNat 0
      let same := match die.walkFrom 4 1 root va with
        | .leaf level e _ => level == t.level && e == t.leaf.toNat
        | _ => false
      if same then (kept, s)
      else
        let (n, s) := s.draw
        if Config.freeKeep n then (kept, s) else s.walkFresh d core pn va

/-! ## Spots: where one byte is -/

/-- The place of one byte: in a line of the L2, or a device register. -/
inductive Spot where
  | line (r : LineRef) (off : Nat)
  | reg (a : Nat)
deriving DecidableEq, Repr, Inhabited

/-- The place of a byte under attributes; `pa` is its die-local address, for an ALIAS page the frame's. -/
def Attr.spot (t : Attr) (pa va : Nat) : Spot :=
  match t.afmt with
  | some (afmt, asub) => .line (.presented t pa asub afmt (va % 65536 / 64)) (va % 64)
  | none => if isDevice pa then .reg pa else .line (.plain t pa) (pa % 64)

/-- The place of a byte under a local leaf. -/
def leafSpot (level e va : Nat) : Spot :=
  let t := leafAttr e
  t.spot (if t.afmt.isSome then leafFrame e else leafFrame e + va % 2 ^ levelShift level) va

/-- The place of a byte under an extent run (R52, R53). -/
def Run.spot (r : Run) (va : Nat) : Spot := r.attr.spot (if r.attr.afmt.isSome then r.pa else r.pa + (va - r.va)) va

/-! ## Rights (R37) -/

/-- The kinds of access of R37. -/
inductive Acc where
  | load | store | atom | fetch | object
deriving DecidableEq, Repr, Inhabited

/-- The rights an access needs: RD bit 0, WR bit 1, EX bit 2. -/
def Acc.needs : Acc → List Nat
  | .load => [0]
  | .store => [1]
  | .atom => [0, 1]
  | .fetch => [2]
  | .object => []

/-- The cause of R37 for an access under a leaf, 0 when it is allowed. -/
def Die.leafCause (d : Die) (svc : Bool) (acc : Acc) (e : Nat) : Nat :=
  match leafType e with
  | 2 => Cause.remote
  | 3 => if bits e 31 24 = d.epoch8 then Cause.anchored else Cause.remote
  | t =>
    let typed :=
      match t, acc with
      | 1, .object => Cause.address
      | 4, .store => Cause.syncstore
      | 4, .atom => Cause.syncstore
      | 4, .fetch => Cause.page
      | 5, .atom => Cause.address
      | 5, .fetch => Cause.page
      | 5, .object => Cause.address
      | 6, .store => Cause.page
      | 6, .atom => Cause.page
      | 6, .object => Cause.address
      | _, _ => 0
    if typed ≠ 0 then typed
    else if (bit e 3 && !svc) || acc.needs.any fun b => !bit e b then Cause.page
    else 0

/-! ## Classification (R29, R54, R55) -/

/-- R54 for the modes other than P: 0 R, 1 W, 2 RW, 3 A, 4 SH. -/
def modePermits (mode : Nat) (acc : Acc) : Bool :=
  match acc with
  | .load => mode == 0 || mode == 1 || mode == 2 || mode == 4
  | .store => mode == 1 || mode == 2 || mode == 4
  | .atom => mode == 1 || mode == 2 || mode == 3 || mode == 4
  | _ => false

/-- The extent that holds all of the bytes, with its index. -/
def ExtTable.holding (t : ExtTable) (va n : Nat) : Option (Nat × Extent) :=
  ((List.range t.exts.length).zip t.exts).find? fun (_, e) => e.base ≤ va && va + n ≤ e.base + e.len

/-- Some extent touches the bytes. -/
def ExtTable.touches (t : ExtTable) (va n : Nat) : Bool := t.exts.any fun e => e.base < va + n && va < e.base + e.len

/-- How an access reaches memory (R55). -/
inductive Class where
  /-- Through the extent table: the translation made at dispatch. -/
  | pinned (idx mode : Nat)
  /-- Through the translation cache: open, or in a demoted extent; `mustOpen` asks for OPEN. -/
  | walked (mustOpen : Bool)
  | fault
deriving DecidableEq, Repr, Inhabited

/-- R55 after the checks of R29. -/
def ExtTable.classify (t : ExtTable) (acc : Acc) (va n : Nat) : Class :=
  if acc = .fetch ∨ acc = .object then .walked false
  else
    match t.holding va n with
    | some (i, e) =>
      if e.mode = 5 then .walked false
      else if modePermits e.mode acc then (if t.demoted.contains i then .walked false else .pinned i e.mode)
      else .fault
    | none => if t.touches va n then .fault else if acc = .load then .walked true else .fault

/-- What the checks of one lane's access give. -/
inductive Checked where
  /-- The place of every byte; `l1` when a load may use the L1 (R73). -/
  | ok (spots : List Spot) (l1 : Bool)
  /-- A cause of R57. -/
  | bad (cause : Nat)
  /-- The walk left the memory that exists. -/
  | hole (a : Nat)
deriving DecidableEq, Repr, Inhabited

/-- The pages that `n` bytes at an address touch. -/
def pagesOf (va n : Nat) : List Nat := (List.range ((va + n - 1) / 65536 + 1 - va / 65536)).map fun i => va / 65536 + i

/-- The order of the causes in R57; PAGE, REMOTE and ANCHORED park (R58). -/
def causeRank (c : Nat) : Nat :=
  if c = Cause.address then 1 else if c = Cause.window then 2 else if c = Cause.extent then 3
  else if c = Cause.syncstore then 4 else 5

/-- A cause that parks (R58). -/
def parks (c : Nat) : Bool := c == Cause.page || c == Cause.remote || c == Cause.anchored || c == Cause.malformed

/-- The causes that an access of `n` bytes at `va` has at a leaf: a device register that is not accessed by 4 or 8 aligned
bytes (R41), OPEN clear for an open load (R55), and R37's. -/
def Die.leafCauses (d : Die) (svc : Bool) (acc : Acc) (mustOpen : Bool) (va n e : Nat) : List Nat :=
  let here := [1, 4, 5, 6].contains (leafType e)
  (if here && isDevice (leafFrame e) && !((n == 4 || n == 8) && va % n == 0) then [Cause.address] else [])
    ++ (if mustOpen && !bit e 15 then [Cause.extent] else [])
    ++ [d.leafCause svc acc e].filter (· != 0)

/-- The first cause of R57 among those that the pages of an access have, the first page's on a tie. -/
def firstCause (cs : List Nat) : Option Nat := leastBy causeRank cs

/-- What the pages of an access give: where each byte is, and every cause. -/
structure Paged where
  spots : List Spot
  causes : List Nat
  hole : Option Nat
deriving DecidableEq, Repr, Inhabited

/-- Walk the pages of an access, first page first. -/
def State.checkPages (s : State) (d core pn : Nat) (svc : Bool) (acc : Acc) (mustOpen : Bool) (va n : Nat)
    (pages : List Nat) : Paged × State :=
  match pages with
  | [] => (⟨[], [], none⟩, s)
  | p :: rest =>
    let lo := max va (p * 65536)
    let hi := min (va + n) ((p + 1) * 65536)
    let (f, s) := s.lookup d core pn lo
    let here : Paged := match f with
      | .none => ⟨[], [Cause.page], none⟩
      | .malformed => ⟨[], [Cause.malformed], none⟩
      | .hole a => ⟨[], [], some a⟩
      | .leaf level e _ => ⟨(List.range (hi - lo)).map fun i => leafSpot level e (lo + i), (s.die d).leafCauses svc acc mustOpen va n e, none⟩
    let (more, s) := s.checkPages d core pn svc acc mustOpen va n rest
    (⟨here.spots ++ more.spots, here.causes ++ more.causes, here.hole.orElse fun _ => more.hole⟩, s)

/-- An access to device registers is 4 or 8 bytes and naturally aligned (R41). -/
def devOk (spots : List Spot) : Bool :=
  if spots.any fun p => match p with | .reg _ => true | _ => false then
    match spots with
    | .reg a :: _ => (spots.length == 4 || spots.length == 8) && a % spots.length == 0
    | _ => false
  else true

/-- The checks of one access of `n` bytes at a 64-bit operand value (R29, R37, R55, R57), other than alignment. -/
def State.checkAccess (s : State) (d core pn : Nat) (ext : ExtTable) (acc : Acc) (x n : Nat) : Checked × State :=
  if 2 ^ 60 < x + n then (.bad Cause.address, s)
  else
    let svc := (s.die d).service pn
    match ext.classify acc x n with
    | .fault => (.bad Cause.extent, s)
    | .pinned i mode =>
      let spots := (List.range n).filterMap fun k =>
        (ext.runs.find? fun r => r.ext == i && r.va ≤ x + k && x + k < r.va + r.len).map fun r => r.spot (x + k)
      let viaAlias := spots.any fun p => match p with | .line r _ => r.pres.isSome | _ => false
      -- ATOM on an ALIAS page is an ADDRESS fault (R37); A and SH extents hold none (R51)
      if acc = .atom ∧ viaAlias then (.bad Cause.address, s)
      else (.ok spots (mode == 0 && !viaAlias), s)
    | .walked mustOpen =>
      let (p, s) := s.checkPages d core pn svc acc mustOpen x n (pagesOf x n)
      match p.hole, firstCause p.causes with
      | some a, _ => (.hole a, s)
      | none, some c => (.bad c, s)
      | none, none => (.ok p.spots false, s)

/-! ## Extent lists (R48, R49) -/

/-- One entry of an extent list, none when it is malformed. -/
def parseExtent (clusters x : Nat) : Option Extent :=
  let e : Extent := ⟨bits x 120 118, bit x 117, bits x 116 112, bits x 59 6 * 64, bits x 103 64 * 64⟩
  if bits x 127 121 ≠ 0 ∨ bits x 111 104 ≠ 0 ∨ bits x 63 60 ≠ 0 ∨ bits x 5 0 ≠ 0 ∨ 5 < e.mode ∨ e.len = 0
      ∨ (e.che = true ∧ clusters ≤ e.ch) ∨ 2 ^ 60 < e.base + e.len then none
  else some e

/-- Two extents overlap. -/
def Extent.overlaps (a b : Extent) : Bool := a.base < b.base + b.len && b.base < a.base + a.len

/-- An extent list of `count` entries, none when it is malformed (R48). -/
def parseExtents (clusters : Nat) (count : Nat) (bs : List Byte) : Option (List Extent) :=
  let es := (List.range count).map fun i => parseExtent clusters (ofBytes ((bs.drop (16 * i)).take 16))
  if es.any Option.isNone then none
  else
    let xs := es.filterMap id
    if (List.range count).any fun i => (List.range i).any fun j =>
        (xs.getD i default).overlaps (xs.getD j default) then none
    else some xs

end Sys2Proof.Machine
end

