-- ==== Sys2Proof/Machine/Queues.lean ====
section
/-! DEFINITION. Hardware queues at their home port and requests at their source (R105 to R125, R127, R134, R135),
and the device's own elements (R137, R138). -/

namespace Sys2Proof.Machine

/-! ## Status codes (R149, R173) -/

namespace St
/-- R149. -/
def ok : Nat := 0x00
/-- R149. -/
def full : Nat := 0x01
/-- R149. -/
def empty : Nat := 0x02
/-- R149. -/
def expired : Nat := 0x03
/-- R149. -/
def name : Nat := 0x04
/-- R149. -/
def noqueue : Nat := 0x05
/-- R149. -/
def rights : Nat := 0x06
/-- R149. -/
def limit : Nat := 0x07
/-- R149. -/
def kind : Nat := 0x08
/-- R149. -/
def far : Nat := 0x09
/-- R149. -/
def targetLost : Nat := 0x0A
/-- R149. -/
def lost : Nat := 0x0B
/-- R149. -/
def busy : Nat := 0x0C
/-- R149. -/
def revoked : Nat := 0x0D
/-- R149, R173. -/
def cancelled : Nat := 0x0E
/-- R149, R173. -/
def tooLarge : Nat := 0x0F
/-- R149, R173. -/
def malformed : Nat := 0x10
/-- R149. -/
def moved : Nat := 0x11
/-- R149. -/
def anchored : Nat := 0x12
/-- R149. -/
def retry : Nat := 0x13
/-- R149. -/
def fault : Nat := 0x14
/-- R149, R173. -/
def poison : Nat := 0x15
/-- R149. -/
def connection : Nat := 0x16
/-- R149. -/
def nospace : Nat := 0x17
/-- R149. -/
def overlap : Nat := 0x18
/-- R173. -/
def extent : Nat := 0x20
/-- R173. -/
def model : Nat := 0x21
/-- R173. -/
def staging : Nat := 0x22
/-- R173. -/
def killed : Nat := 0x23
/-- R173. -/
def watchdog : Nat := 0x24
/-- R173. -/
def gatefail : Nat := 0x25
/-- R355. -/
def timeout : Nat := 0x26
end St

/-! ## Queues at home (R110, R115 to R119) -/

/-- A live queue by its index. -/
def Die.queue? (d : Die) (i : Nat) : Option Queue := d.port.queues.find? fun q => q.index == i

/-- Change a queue. -/
def Die.modQueue (d : Die) (i : Nat) (f : Queue → Queue) : Die :=
  d.modPort fun p => { p with queues := modWhere (fun q => q.index == i) f p.queues }

/-- CAP of R115. -/
def Queue.cap (q : Queue) : Nat := q.slots + q.spillCap

/-- O of R115. -/
def Queue.occupancy (q : Queue) : Nat :=
  (q.tickets.filter fun t => t.st == .granted || t.st == .committed).length

/-- Capacity in use: a TAKEN ticket's is freed when its delivery completes (R116, R148). -/
def Queue.inUse (q : Queue) : Nat :=
  (q.tickets.filter fun t => t.st == .granted || t.st == .committed || (t.st == .taken && !t.delivered)).length

/-- Change a ticket. -/
def Queue.modTicket (q : Queue) (num : Nat) (f : Ticket → Ticket) : Queue :=
  { q with tickets := modWhere (fun t => t.num == num) f q.tickets }

/-- A ticket is held back by an earlier GRANTED ticket of its producer (R118). -/
def heldBack (earlier : List Ticket) (t : Ticket) : Bool := earlier.any fun e => e.prod == t.prod && e.st == .granted

/-- The eligible elements after the tickets `earlier`, in ticket order (R118). -/
def eligibleFrom (earlier rest : List Ticket) : List Ticket :=
  match rest with
  | [] => []
  | t :: ts =>
    if t.st == .committed && !heldBack earlier t then t :: eligibleFrom (earlier ++ [t]) ts
    else eligibleFrom (earlier ++ [t]) ts

/-- The eligible elements of a queue, smallest ticket first (R118). -/
def Queue.eligible (q : Queue) : List Ticket := eligibleFrom [] q.tickets

/-- The elements that lie in the window: the SLOTS smallest committed tickets (R119). The rest lie in spill; the
placement changes no order. -/
def Queue.inWindow (q : Queue) : List Nat := ((q.tickets.filter fun t => t.st == .committed).map Ticket.num).take q.slots

/-- Tickets that carry the rights of a domain (R109). -/
def Queue.rights (q : Queue) (dom : Word) (enq : Bool) : Bool :=
  if dom = q.dom then (if enq then q.ownEnq else q.ownDeq) else (if enq then q.anyEnq else q.anyDeq)

/-- Checks 1 and 2 of R109: the status when one fails. -/
def Die.checkQueue (d : Die) (idx gen : Nat) (dom : Word) (enq : Bool) : Except Nat Queue :=
  match d.queue? idx with
  | none => .error St.noqueue
  | some q => if q.gen ≠ gen then .error St.noqueue else if !q.rights dom enq then .error St.rights else .ok q

/-- Grant records in use at a port (R115): grants with a ticket still GRANTED. -/
def Die.grantsInUse (d : Die) : Nat :=
  d.port.queues.foldl (fun n q =>
    n + (distinct ((q.tickets.filter fun t => t.st == .granted).map Ticket.grant)).length) 0

/-- Tickets are granted; a ticket of the same number, of a whole turn of the 48-bit counter before, is forgotten (R115). -/
def Queue.addTickets (q : Queue) (new : List Ticket) : Queue :=
  { q with tickets := (q.tickets.filter fun t => !new.any fun u => u.num == t.num) ++ new
           next := (q.next + new.length) % 2 ^ 48 }

/-- A reservation of n tickets (R109, R115): the answer's status with the first ticket, and the die. -/
def Die.reserve (d : Die) (idx gen : Nat) (dom : Word) (n : Nat) (prod : Producer) (pn : Nat) : (Nat × Nat) × Die :=
  match d.checkQueue idx gen dom true with
  | .error st => ((st, 0), d)
  | .ok q =>
    if n = 0 ∨ q.maxres < n then ((St.limit, 0), d)
    else if q.cap < q.inUse + n then ((St.full, 0), d)
    else if d.grantsInUse = 32768 then ((St.busy, 0), d)
    else
      let first := q.next
      let new := (List.range n).map fun i : Nat =>
        ({ num := (first + i) % 2 ^ 48, grant := first, st := .granted, prod := prod,
           expiry := d.ps + q.life * usec, bytes := [], bad := [], dom := dom, pn := pn, mseq := 0,
           delivered := false, at_ := 0, taker := none } : Ticket)
      ((St.ok, first), d.modQueue idx fun q => q.addTickets new)

/-- The footprint F of R44. -/
def footprint (warps regs scr rse : Nat) : Nat := warps * regs * 128 + scr * 1024 + warps * rse * 256 + 1024

/-- The footprint that word +0x10 of a node record asks for. -/
def shapeFootprint (x : Nat) : Nat := footprint (bits x 3 0) (bits x 11 4) (bits x 19 12) (bits x 24 20)

/-- R117 on a record's bytes. -/
def recordTooLarge (bs : List Byte) : Bool :=
  !bit (ofBytes (bs.take 8)) 41 && 131072 < shapeFootprint (ofBytes ((bs.drop 16).take 8))

/-- A queue that the task scheduler consumes is a task queue (R106, R120). -/
def Queue.isTask (q : Queue) : Bool := q.ckind == 2

/-- The QID of an index and generation on a die (R105). -/
def qid (pkg die index gen : Nat) : DWord :=
  BitVec.ofNat 64 (pkg % 65536 * 2 ^ 48 + die % 8 * 2 ^ 45 + index % 65536 * 2 ^ 29 + gen % 8192 * 2 ^ 16)

/-- The queue is the OUTQ of a connection in ERROR or CLOSED, and of no OPEN one (R147, R149). DEDUCED for CLOSED from the
words of status 0x16 (log entry 88). -/
def State.outqInError (s : State) (d : Nat) (q : Queue) : Bool :=
  let mine := s.host.conns.filter fun c => c.outq == qid s.pkg d q.index q.gen
  mine.any (fun c => c.state != 0) && mine.all fun c => c.state != 0

/-- A whole PUT, or an RPUT, at the home port (R116, R117, R129): its answer and the die. `err` says that the queue's
connection is in ERROR. DESIGN CHOICE: the answers of R116 come before CONNECTION, which leaves the ticket GRANTED (log
entry 95). -/
def Die.commit (d : Die) (q : Queue) (ticket : Nat) (prod : Producer) (rput err : Bool) (bytes : List Byte)
    (mlen : Nat) (bad : List Nat) (dom : Word) (mseq : Nat) : Nat × Die :=
  match q.tickets.find? fun t => t.num == ticket with
  | none => (St.rights, d)
  | some t =>
    match t.st with
    | .hole => (St.expired, d)
    | .granted =>
      if !rput && t.prod != prod then (St.rights, d)
      else if t.expiry ≤ d.ps then (St.expired, d.modQueue q.index (·.modTicket ticket fun t => { t with st := .hole }))
      else if mlen ≠ 2 ^ q.esize then (St.malformed, d)
      else if err then (St.connection, d)
      else if q.isTask && recordTooLarge bytes then
        (St.tooLarge, d.modQueue q.index (·.modTicket ticket fun t => { t with st := .hole }))
      else
        (St.ok, d.modQueue q.index (·.modTicket ticket fun t =>
          { t with st := .committed, bytes := bytes, bad := bad, dom := dom, mseq := mseq, at_ := d.ps }))
    | _ => if !rput && t.prod != prod then (St.rights, d) else (St.ok, d)

/-- The GRANTED tickets of a queue that a test selects become HOLEs, and the fragments of PUTs for them are discarded (R116). -/
def Die.makeHoles (d : Die) (idx : Nat) (sel : Ticket → Bool) : Die :=
  match d.queue? idx with
  | none => d
  | some q =>
    let gone := q.tickets.filter fun t => t.st == .granted && sel t
    let lost := fun (r : Reassembly) => r.msg.kind == Kind.put && r.msg.qidx == idx && r.msg.qgen == q.gen
      && gone.any fun t => t.num == r.msg.ticket
    (d.modQueue idx fun q => { q with tickets := modWhere gone.contains (fun t => { t with st := .hole }) q.tickets }).modPort
      fun p => { p with reassembly := p.reassembly.filter fun r => !lost r }

/-- The tickets of a grant that are still GRANTED become HOLEs (R116, R124). -/
def Die.cancelGrant (d : Die) (idx first : Nat) (prod : Producer) : Die :=
  d.makeHoles idx fun t => t.grant == first && t.prod == prod

/-! ## The device's own elements (R137, R138) -/

/-- The producer of the device's own elements: PID kind 3, agent 1. -/
def Die.self (d : Die) (pid : Nat) : Producer := ⟨d.pkgNo, d.dieNo, 3 * 2 ^ 22 + pid⟩

/-- Append one committed element of the device to a queue of its die. -/
def Die.append (d : Die) (idx cell : Nat) (bytes : List Byte) : Die :=
  d.modQueue idx fun q =>
    q.addTickets [{ num := q.next, grant := q.next, st := .committed, prod := d.self cell, expiry := 0, bytes := bytes, bad := [],
                    dom := 0, pn := 0, mseq := 0, delivered := false, at_ := d.ps, taker := none }]

/-- The 64 bytes of R137. -/
def Die.sysElement (d : Die) (code : Nat) (body : List Byte) : List Byte :=
  toBytes 2 code ++ toBytes 2 0 ++ toBytes 4 d.space.epoch.toNat ++ toBytes 8 d.clock
    ++ (body ++ List.replicate 48 0).take 48

/-- Cells free in a queue. -/
def Die.freeCells (d : Die) (idx : Nat) : Nat := ((d.queue? idx).map fun q => q.cap - q.inUse).getD 0

/-- Enqueue an event on the system event queue, with the OVERFLOW that precedes it, or drop it (R138). -/
def Die.sysEvent (d : Die) (code : Nat) (body : List Byte) : Die :=
  let lose := fun (d : Die) => d.modPort fun p =>
    { p with evlost := BitVec.ofNat 16 (sat 16 (p.evlost.toNat + 1)), dropped := p.dropped + 1 }
  if d.port.dropped = 0 then (if d.freeCells 0 = 0 then lose d else d.append 0 1 (d.sysElement code body))
  else if d.freeCells 0 < 2 then lose d
  else
    let d := d.append 0 1 (d.sysElement 0x0009 (toBytes 4 d.port.dropped))
    (d.modPort fun p => { p with dropped := 0 }).append 0 1 (d.sysElement code body)

/-- The source's reserved cell of the system fault queue is held (R138). -/
def Die.cellHeld (d : Die) (cell : Nat) : Bool :=
  (d.queue? 1).any fun q => q.tickets.any fun t => t.st == .committed && t.prod == d.self cell

/-- Send a notice, or keep it until its source's cell is free (R138). -/
def Die.notice (d : Die) (n : Notice) : Die :=
  if d.cellHeld n.cell then d.modSched fun x => { x with notices := x.notices ++ [n] }
  else d.append 1 n.cell (d.sysElement n.code n.body)

/-- Notices whose cell has become free are sent (R138). -/
def Die.flushNotices (d : Die) : Die :=
  let ns := d.sched.notices
  ns.foldl (fun d n => d.notice n) (d.modSched fun x => { x with notices := [] })

/-- STALE and BAD of QERR saturate. -/
def count16 (x : BitVec 16) (n : Nat) : BitVec 16 := BitVec.ofNat 16 (min 0xFFFF (x.toNat + n))

/-- Fragments are discarded under R129. -/
def Port.countStale (p : Port) (n : Nat) : Port := { p with stale := count16 p.stale n }

/-! ## Requests and answers (R108, R127, R134, R135) -/

/-- The key of a die in the port's tables. -/
def dieKey (pkg die : Nat) : Nat := pkg * 8 + die

/-- The MSEQ towards a die, and the state with the next one. -/
def State.nextSeq (s : State) (d pkg die : Nat) : Nat × State :=
  let k := dieKey pkg die
  let n := tgetD (s.die d).port.mseq k 0
  (n, s.modDie d fun x => x.modPort fun p => { p with mseq := tput p.mseq k ((n + 1) % 2 ^ 32) })

/-- Send a message that is not an answer from die `d`, with its own MSEQ. -/
def State.sendNew (s : State) (d : Nat) (m : Msg) : Nat × State :=
  let (n, s) := s.nextSeq d m.dpkg m.ddie
  (n, s.transmit d { m with spkg := s.pkg, sdie := d, mseq := n })

/-- The incarnation that a port knows of a die (R108, R134). DESIGN CHOICE: 0, as the die leaves manufacture, for one that the
port has never heard from (log entry 93). -/
def Port.knows (p : Port) (pkg die : Nat) : Nat := tgetD p.known (dieKey pkg die) 0

/-- The page move that die `d` asks for by a PUT, when its element is a MIGRATE for another die's memory service (R62, R139):
the page is in a move from now on (R63). -/
def State.arrivalOf (s : State) (d : Nat) (m : Msg) : Option Arrival :=
  let f := fun (o n : Nat) => ofBytes ((m.bytes.drop o).take n)
  let serves := ((s.die m.ddie).queue? m.qidx).any fun q => q.ckind == 3
  if m.kind = Kind.put ∧ serves = true ∧ f 0 1 = 4 ∧ m.dpkg = s.pkg ∧ m.ddie ≠ d then
    some ⟨f 4 2 % 4096, f 8 8 % 2 ^ 60 / 65536, bits (f 0x20 8) 51 16 * 65536, m.ddie, f 0x10 8, f 0x18 6, []⟩
  else none

/-- The port forgets the page move of one MIGRATE: another for the same page goes on (R63). -/
def Port.dropArrival (p : Port) (a : Arrival) : Port :=
  { p with arrivals := p.arrivals.filter fun b => { b with got := [] } != { a with got := [] } }

/-- The port notes a page move, once for a MIGRATE that is put again. -/
def Port.noteArrival (p : Port) (a : Arrival) : Port :=
  if p.arrivals.any fun b => { b with got := [] } == { a with got := [] } then p else { p with arrivals := p.arrivals ++ [a] }

/-- Send a request and record who waits for its answer. -/
def State.request (s : State) (d : Nat) (a : Asker) (m : Msg) : State :=
  let m := { m with inc := (s.die d).port.knows m.dpkg m.ddie }
  let s := match s.arrivalOf d m with
    | some a => s.modDie d fun x => x.modPort fun p => p.noteArrival a
    | none => s
  let (n, s) := s.sendNew d m
  s.modDie d fun x => x.modPort fun p =>
    { p with requests := p.requests ++ [⟨n, m.dpkg, m.ddie, a, { m with spkg := s.pkg, sdie := d, mseq := n }, x.ps⟩] }

/-- An answer to a message: addressed to its source, with its MSEQ and the home's current incarnation (R127). -/
def State.answer (s : State) (d : Nat) (m : Msg) (kind status : Nat) (f : Msg → Msg) : State :=
  s.transmit d (f { m with kind := kind, dpkg := m.spkg, ddie := m.sdie, spkg := s.pkg, sdie := d,
                           inc := (s.die d).incarnation, status := status, arg0 := 0, arg1 := 0, arg2 := 0, arg3 := 0,
                           bytes := [], mlen := 0, bad := [] })

/-- The plain STAT answer. -/
def State.stat (s : State) (d : Nat) (m : Msg) (status : Nat) : State := s.answer d m Kind.stat status id

/-- The sender of a request as a producer (R115): the issuing warp is no part of a group's identity. -/
def Msg.producer (m : Msg) : Producer :=
  let pid := if bits m.pid 23 22 = 0 then m.pid - bits m.pid 11 9 * 512 else m.pid
  ⟨m.spkg, m.sdie, pid⟩

/-- The rights of a translation, and the refusal of a dequeue from another package (R108). -/
def NameEntry.check (n : NameEntry) (pkg : Nat) (enq deq : Bool) : Except Nat NameEntry :=
  if (enq && !n.enq) || (deq && !n.deq) then .error St.rights
  else if deq && bits n.qid.toNat 63 48 != pkg then .error St.far
  else .ok n

/-- A name entry as it stands in memory (R107, R108). -/
def Die.nameEntry (d : Die) (pn vqn : Nat) : Option NameEntry :=
  match d.header pn with
  | none => none
  | some h =>
    if h.len ≤ vqn then none
    else
      let (x, bad) := d.look (h.base + 16 * vqn) 16
      let q := bits x 63 0
      if bad ∨ bit x 127 = false ∨ bits x 126 66 ≠ 0 ∨ bits q 15 0 ≠ 0 then none
      else some ⟨pn, vqn, h.dom, bit x 65, bit x 64, BitVec.ofNat 64 q, d.port.knows (bits q 63 48) (bits q 47 45)⟩

/-- The port reads the header entry and, where there is one, the name entry in their slices (R78, R79, R107). -/
def Die.fetchName (d : Die) (pn vqn : Nat) : Die :=
  let fetch := fun (d : Die) (a : Nat) => if isDevice a || d.unpopulated a 16 then d else d.fetchLines .engine a 16
  let q := d.port.qntroot.toNat
  if q % 2 = 0 then d
  else
    let d := fetch d (bits q 51 16 * 65536 + 16 * pn)
    match d.header pn with
    | some h => if h.len ≤ vqn then d else fetch d (h.base + 16 * vqn)
    | none => d

/-- A name translation (R107, R108): the status when it fails, else the entry. -/
def Die.nameLookup (d : Die) (pn vqn : Nat) (enq deq : Bool) : Except Nat NameEntry :=
  match d.nameEntry pn vqn with
  | none => .error St.name
  | some n => n.check d.pkgNo enq deq

/-- A result joins the translation cache, which holds 4,096: the oldest makes room (R108). -/
def Port.keepName (p : Port) (n : NameEntry) : Port :=
  let l := (p.names.filter fun c => !(c.pn == n.pn && c.vqn == n.vqn)) ++ [n]
  { p with names := l.drop (l.length - 4096) }

/-- The issuing port's translation through its cache (R108). While the name table has changed under a cached
result and no NAMEINV has completed, either may be used: a free choice. -/
def State.translateName (s : State) (d pn vqn : Nat) (enq deq : Bool) : Except Nat NameEntry × State :=
  let die := s.die d
  let now := die.nameLookup pn vqn enq deq
  let keep := fun (s : State) =>
    let s := s.modDie d fun x => x.fetchName pn vqn
    match now with
    | .ok n => (now, s.modDie d fun x => x.modPort fun p => p.keepName n)
    | .error _ => (now, s)
  let current := die.port.names.find? fun c =>
    c.pn == pn && c.vqn == vqn && c.inc == die.port.knows (bits c.qid.toNat 63 48) (bits c.qid.toNat 47 45)
  match current with
  | none => keep s
  | some c =>
    let old := c.check die.pkgNo enq deq
    match now, old with
    | .ok a, .ok b =>
      if a = b then (old, s)
      else let (n, s) := s.draw; if Config.freeKeep n then (old, s) else keep s
    | .error a, .error b =>
      if a = b then (old, s)
      else let (n, s) := s.draw; if Config.freeKeep n then (old, s) else keep s
    | _, _ => let (n, s) := s.draw; if Config.freeKeep n then (old, s) else keep s

/-- The port holds the die to be lost or retired (R135). -/
def Port.holdsLost (p : Port) (pkg die : Nat) : Bool := p.lost.contains (dieKey pkg die)

/-- A request message to a QID. -/
def requestMsg (kind : Nat) (q : Nat) (dom : Word) (pid pn : Nat) : Msg :=
  { kind := kind, dpkg := bits q 63 48, ddie := bits q 47 45, inc := 0, spkg := 0, sdie := 0, mseq := 0,
    qidx := bits q 44 29, qgen := bits q 28 16, ticket := 0, status := 0, pid := pid, dom := dom,
    arg0 := 0, arg1 := 0, arg2 := 0, arg3 := 0, bytes := [], mlen := 0, bad := [], pn := pn }

/-! ## Serving consumers (R118 to R123) -/

/-- Insert a waiter after every waiter of its class or a more urgent one (R122). -/
def insertWaiter (w : Waiter) (l : List Waiter) : List Waiter :=
  match l with
  | [] => [w]
  | x :: rest => if x.cls ≤ w.cls then x :: insertWaiter w rest else w :: x :: rest

/-- An element becomes TAKEN (R116); a notice's cell is free once its element is taken (R138). -/
def Die.markTaken (d : Die) (idx num : Nat) (taker : Option (Nat × Nat × Nat)) (delivered : Bool) : Die :=
  let d := d.modQueue idx (·.modTicket num fun t => { t with st := .taken, taker := taker, delivered := delivered })
  if idx = 1 then d.flushNotices else d

/-- An element is assigned to a consumer: the queue's one assignment in the clock, and the turn passes on (R376). -/
def Die.take (d : Die) (idx num : Nat) (taker : Option (Nat × Nat × Nat)) (delivered : Bool) : Die :=
  (d.markTaken idx num taker delivered).modPort fun p =>
    { p with turn := idx, queues := modWhere (fun q => q.index == idx) (fun q => { q with served := some d.clock }) p.queues }

/-- An element of the queue may be assigned in this clock (R118, R376). -/
def Queue.ready (q : Queue) (clock : Nat) : Bool := q.served != some clock && !q.eligible.isEmpty

/-- The queue that the port serves next, of those that are ready and have a consumer: the lowest PRIO, and queues of equal
PRIO in turn by ascending index (R111, R376). -/
def Die.nextServed (d : Die) (consumer : Queue → Bool) : Option Queue :=
  leastBy (fun q => q.prio * 65536 + (q.index + 65535 - d.port.turn) % 65536)
    (d.port.queues.filter fun q => q.ready d.clock && consumer q)

/-- The element that an agent, the one consumer of the queues of its kind, takes next (R118, R120, R376). -/
def Die.nextFor (d : Die) (ckind : Nat) : Option (Queue × Ticket) :=
  if d.phase ≠ .up ∨ d.stopped.isSome then none
  else (d.nextServed fun q => q.ckind == ckind).bind fun q => q.eligible.head?.map fun t => (q, t)

/-- Send an element to the dequeue that it is assigned to (R120). -/
def State.serve (s : State) (d idx : Nat) (t : Ticket) (w : Waiter) : State :=
  let s := s.modDie d fun x => x.take idx t.num (some (w.pkg, w.die, w.mseq)) false
  let gen := (((s.die d).queue? idx).map Queue.gen).getD 0
  s.transmit d { requestMsg Kind.deliver (qid w.pkg w.die 0 0).toNat 0 w.pid 0 with
    spkg := s.pkg, sdie := d, inc := (s.die d).incarnation, mseq := w.mseq, qidx := idx, qgen := gen, ticket := t.num,
    arg1 := BitVec.ofNat 64 w.off, bytes := t.bytes, mlen := t.bytes.length, bad := t.bad }

/-- The element of a completed or failed delivery no longer takes capacity, or returns to COMMITTED, if it is still
assigned to the dequeue `key` (R116, R123, R135). -/
def State.delivered (s : State) (d idx : Nat) (num : Nat) (key : Nat × Nat × Nat) (back : Bool) : State :=
  s.modDie d fun x => x.modQueue idx (·.modTicket num fun t =>
    if t.st == .taken && !t.delivered && t.taker == some key then
      (if back then { t with st := .committed, taker := none } else { t with delivered := true })
    else t)

end Sys2Proof.Machine
end

