-- ==== Sys2Proof/Machine/Groups.lean ====
section
/-! DEFINITION. Threads of a group: advancing, waiting and the end of waits (R189 to R191, R281, R382), and the
choice of the threads that issue (R190). -/

namespace Sys2Proof.Machine

/-- The address after a word of `len` bytes. DESIGN CHOICE (log entry 83): a PC always lies below 2^43 (R199), and the spec
does not say what follows the last word there; the address wraps to 0. -/
def pcAfter (pc : DWord) (len : Nat) : DWord := BitVec.ofNat 64 ((pc.toNat + len) % 2 ^ 43)

/-- Pass the threads over a word of `len` bytes (R190, R191). -/
def Group.advance (g : Group) (ts : List Nat) (len : Nat) : Group :=
  g.modThreads ts fun t => { t with pc := pcAfter t.pc len, m := false }

/-- The word that a wait belongs to. -/
def Wait.word? : Wait → Option Issued
  | .lines x _ _ | .wait x _ _ _ _ | .sleep x _ | .cwait x _ _ _ | .qwait x | .bar x _ | .barObj x _ _ | .barArrive x _
  | .gate x _ | .gret x | .launchFull x | .prefetchFull x | .tableFull x | .copyFull x | .version x _ _ | .copies x _
  | .commit x | .qwaitBusy x => some x
  | .fault _ | .cairn => none

/-- The registers held pending by a wait: its word's destination, and what a waiting window store is to overwrite (R47). -/
def Wait.held (w : Wait) : List Res :=
  (w.word?.map Issued.dst).getD [] ++ match w with
    | .lines _ _ regs => regs
    | _ => []

/-- The threads begin to wait (R190, R211). -/
def Group.await (g : Group) (ts : List Nat) (w : Wait) : Group :=
  (g.modThreads ts fun t => { t with wait := some w, m := false, since := g.resPs, began := g.now }).pendSet w.held

/-- The threads stop waiting and stand where they are. What no other thread still waits to write is pending no more. -/
def Group.unwait (g : Group) (ts : List Nat) : Group :=
  let held := ts.flatMap fun t => ((g.thread t).wait.map Wait.held).getD []
  let g := g.modThreads ts fun t => { t with wait := none }
  let still := g.threads.flatMap fun t => (t.wait.map Wait.held).getD []
  g.pendClear (held.filter fun r => !still.contains r)

/-- Waits that a trap suspends; the words of the others have not been performed, or stay parked (R382). -/
def Wait.suspends : Wait → Bool
  | .wait .. | .sleep .. | .cwait .. | .qwait .. | .bar .. | .barObj .. | .barArrive .. | .launchFull .. | .gate ..
  | .gret .. => true
  | _ => false

/-- The word waits for a resource and is not performed: it issues again after TRET (R382). -/
def Wait.resource : Wait → Bool
  | .lines .. | .prefetchFull .. | .tableFull .. | .copyFull .. | .version .. | .copies .. | .commit .. | .qwaitBusy .. => true
  | _ => false

/-- A long wait (R308). -/
def Wait.long : Wait → Bool
  | .cwait .. | .qwait .. | .qwaitBusy .. | .barObj .. | .launchFull .. => true
  | _ => false

/-- Write a word's uniform result to its destination and clear its pending mark (R211, R286). -/
def Group.putResult (g : Group) (warp : Nat) (dst : Operand) (v : DWord) : Group :=
  match dst with
  | .s n => (g.setSreg warp n.toNat ⟨v, false⟩).pendClear [.s warp n.toNat]
  | _ => g

/-- The effect of a wait's end on its thread's registers: WAIT writes its predicate, the others the word's result. -/
def Group.waitResult (g : Group) (t : Nat) (w : Wait) (e : WaitEnd) : Group :=
  match w with
  | .wait x .. => match x.i.fields.dst with
    | .p n => g.modThread t fun h => h.setPred n.toNat e.pd
    | _ => g
  | .cwait x .. | .qwait x | .barObj x .. | .barArrive x .. => g.putResult x.warp x.i.fields.dst e.word
  | _ => g

/-- A thread's wait ends: its result is written and the thread passes the word. -/
def Group.endWait (g : Group) (t : Nat) (e : WaitEnd) : Group :=
  match (g.thread t).wait with
  | none => g
  | some w =>
    let g := (g.waitResult t w e).unwait [t]
    g.advance [t] ((w.word?.map Issued.len).getD 0)

/-- The waits that satisfy a test end; the end of a suspended one is recorded (R382). -/
def Group.endWaits (g : Group) (sel : Wait → Bool) (e : WaitEnd) : Group :=
  let g := g.modThreads (g.threadsWith fun t => t.susp.any sel && t.suspEnd.isNone) fun t => { t with suspEnd := some e }
  (g.threadsWith fun t => t.wait.any sel).foldl (fun g t => g.endWait t e) g

/-- Some thread waits so, suspended or not. -/
def Group.hasWait (g : Group) (sel : Wait → Bool) : Bool := g.threads.any fun t => t.wait.any sel || t.susp.any sel

/-! ## Select (R190) -/

/-- The warp is parked on absent lines: none of its members issues (R72). -/
def Group.linesParked (g : Group) (warp : Nat) : Bool :=
  (g.members warp).any fun t => match (g.thread t).wait with
    | some (.lines ..) => true
    | _ => false

/-- A trap, a save or an ending gate call has stopped the warp (R355, R382, R390). -/
def Group.stopped (g : Group) (warp : Nat) : Bool :=
  g.saving.isSome || (g.gates.head?.any fun f => f.ending.isSome) || g.trap.any fun tr => tr.warp != warp

/-- The members of a warp that may issue: those not WAITING, in a warp that no trap, no save and no ending gate call
has stopped (R190, R355, R382, R390). -/
def Group.candidates (g : Group) (warp : Nat) : List Nat :=
  if g.stopped warp || g.linesParked warp then []
  else (g.members warp).filter fun t => (g.thread t).wait.isNone

/-- The greatest element of a list. -/
def maxOf (l : List Nat) : Nat := l.foldl max 0

/-- Clear Y of the warp's members when no candidate has M (R190). -/
def Group.clearY (g : Group) (warp : Nat) : Group :=
  let cand := g.candidates warp
  if cand.isEmpty || cand.any fun t => (g.thread t).m then g
  else g.modThreads (g.members warp) fun t => { t with y := false }

/-- The threads that a warp issues, after `clearY` (R190). -/
def Group.select (g : Group) (warp : Nat) : List Nat :=
  let pool := (g.candidates warp).filter fun t => !(g.thread t).y
  let d := maxOf (pool.map fun t => (g.thread t).depth.toNat)
  let deep := pool.filter fun t => (g.thread t).depth.toNat == d
  match leastBy (fun t => (g.thread t).pc.toNat) deep with
  | none => []
  | some u => deep.filter fun t => (g.thread t).pc == (g.thread u).pc

end Sys2Proof.Machine
end

