-- ==== Sys2Proof/Machine/Counters.lean ====
section
/-! DEFINITION. Completion counters and barrier objects in memory (R172, R301), arrivals and their climb (R174),
waking of waiters and held records (R175), registration (R176). -/

namespace Sys2Proof.Machine

/-! ## The objects (R172, R301) -/

/-- A number with bits hi:lo replaced. -/
def setBits (x hi lo v : Nat) : Nat := x - bits x hi lo * 2 ^ lo + v % 2 ^ (hi - lo + 1) * 2 ^ lo

/-- The 32 bytes of an object as one number. -/
def Die.object (d : Die) (o : ObjRef) : Nat := (d.readAt o.attr o.pa 32).1
/-- A byte of an object reads poisoned. -/
def Die.objectBad (d : Die) (o : ObjRef) : Bool := (d.readAt o.attr o.pa 32).2
/-- Write an object. -/
def Die.putObject (d : Die) (o : ObjRef) (x : Nat) : Die := d.writeAt o.attr o.pa (toBytes 32 x)

/-- VALUE. -/
def cValue (x : Nat) : Nat := bits x 31 0
/-- TARGET. -/
def cTarget (x : Nat) : Nat := bits x 63 32
/-- PARENT. -/
def cParent (x : Nat) : Nat := bits x 127 64
/-- STATUS. -/
def cStatus (x : Nat) : Nat := bits x 135 128
/-- LEVEL; 0 for a barrier object. -/
def cLevel (x : Nat) : Nat := bits x 138 136
/-- DONE. -/
def cDone (x : Nat) : Bool := bit x 139
/-- CANC. -/
def cCanc (x : Nat) : Bool := bit x 140
/-- PEND. -/
def cPend (x : Nat) : Nat := bits x 159 144
/-- ARRIVED of a barrier object. -/
def bArrived (x : Nat) : Nat := bits x 31 0
/-- EXPECT of a barrier object. -/
def bExpect (x : Nat) : Nat := bits x 63 32
/-- PHASE of a barrier object. -/
def bPhase (x : Nat) : Nat := bits x 95 64

/-- An object on a local SYNC page, when that is what a walk's leaf names (R172, R300). -/
def objectAt (f : Found) (va : Nat) : Option ObjRef :=
  match f with
  | .leaf level e _ => if leafType e = 4 then some ⟨leafAttr e, leafFrame e + va % 2 ^ levelShift level⟩ else none
  | _ => none

/-- An address that an object may have. -/
def objectVa (va : Nat) : Bool := va < 2 ^ 60 && va % 32 == 0

/-- The registered arrival whose page an address lies on. -/
def Die.owingPage (d : Die) (pn va : Nat) : Option Owing := d.owing.find? fun w => w.pn == pn && w.va / 65536 == va / 65536

/-- An object at an address, as the die's tables stand. DEDUCED (log entry 108): unmapping a SYNC page waits for its
registered arrivals (R176), which reach their counters, so a page on which arrivals are registered stays where it was. -/
def Die.syncAddr (d : Die) (pn va : Nat) : Option ObjRef :=
  if objectVa va then
    match d.owingPage pn va with
    | some w => some { w.ref with pa := w.ref.pa / 65536 * 65536 + va % 65536 }
    | none => objectAt (d.walk pn va) va
  else none

/-- An engine reaches for an object: the walk, with its zeroing, and the read that brings the object's line into its slice
(R78 to R80, R93). -/
def Die.reachSync (d : Die) (pn va : Nat) : Die :=
  if !objectVa va then d
  else
    let (f, d) := d.translate pn va
    match objectAt f va with
    | some o => (d.fetchAt o.attr o.pa 32).2
    | none => d

/-- LocalSyncCounter of R174: a counter of LEVEL 1 to 4. -/
def Die.counterAddr (d : Die) (pn va : Nat) : Option ObjRef :=
  (d.syncAddr pn va).filter fun o => 1 ≤ cLevel (d.object o) && cLevel (d.object o) ≤ 4

/-- A process names a counter: the address is not 0, which names none (R179). -/
def Die.namesCounter (d : Die) (pn va : Nat) : Bool := va != 0 && (d.counterAddr pn va).isSome

/-- A CWAIT's condition (R175). -/
def cWakes (x : Nat) : Bool := cDone x || cStatus x != 0 || cCanc x

/-- CWAIT's result word (R304). -/
def cwaitWord (x : Nat) (timeout : Bool) : DWord :=
  BitVec.ofNat 64 (cStatus x + (cDone x).toNat * 256 + (cCanc x).toNat * 512 + timeout.toNat * 1024)

/-! ## Arrive (R174) -/

/-- An arrival to be made: n arrivals and a status at a counter of a process, and whether it was registered there (R176). -/
structure Arrival174 where
  pn : Nat
  va : Nat
  n : Nat
  st : Nat
  reg : Bool := false
deriving DecidableEq, Repr, Inhabited

/-- A counter of LEVEL 3 may have reached its target: a phase boundary, and so a checkpoint due (R404). -/
def Die.boundary (d : Die) (reached : Bool) : Die := { d with cpDue := d.cpDue || reached }

/-- What an arrival makes of a counter (R174): its new value, whether it has reached its target, whether its waiters wake. -/
structure Arrived where
  x : Nat
  reached : Bool
  woken : Bool
deriving DecidableEq, Repr, Inhabited

/-- n arrivals and a status at a counter (R174). -/
def arriveAt (x n st : Nat) : Arrived :=
  let woken := st != 0 && cStatus x == 0
  let x := if woken then setBits x 135 128 st else x
  let reached := 0 < n && !cDone x && cTarget x ≤ min (cValue x + n) 0xFFFFFFFF
  let x := if 0 < n then setBits x 31 0 (min (cValue x + n) 0xFFFFFFFF) else x
  ⟨if reached then setBits x 139 139 1 else x, reached, woken || reached⟩

/-- The climb of R174: the die and the counters whose waiters are to be woken. -/
def Die.climb (d : Die) (fuel pn : Nat) (prev : Option ObjRef) (a n st : Nat) : Die × List ObjRef :=
  match fuel with
  | 0 => (d, [])
  | fuel + 1 =>
    if a = 0 then (d, [])
    else
      let d := d.reachSync pn a
      let here := d.counterAddr pn a
      let ordered := here.any fun pa => prev.all fun p => cLevel (d.object p) < cLevel (d.object pa)
      match here, ordered with
      | some pa, true =>
        let r := arriveAt (d.object pa) n st
        let d := (d.putObject pa r.x).boundary (r.reached && cLevel r.x == 3)
        let woken := if r.woken then [pa] else []
        if !r.reached ∧ st = 0 then (d, woken)
        else
          let (d, more) := d.climb fuel pn (some pa) (cParent r.x) r.reached.toNat st
          (d, woken ++ more)
      | _, _ =>
        match prev with
        | none => (d, [])
        | some p =>
          let x := d.object p
          if cStatus x = 0 then (d.putObject p (setBits x 135 128 St.malformed), [p]) else (d, [])

/-! ## Records -/

/-- Word k of a task record. -/
def TaskRec.word (r : TaskRec) (k : Nat) : Nat := (r.words.getD k 0).toNat
/-- GATECC. -/
def TaskRec.gate (r : TaskRec) : Nat := r.word 3
/-- DONECC. -/
def TaskRec.done (r : TaskRec) : Nat := r.word 4
/-- PCHAIN. -/
def TaskRec.pchain (r : TaskRec) : Nat := r.word 7

/-- The die has a group or record count change: DISCARD saturates (R370). -/
def Die.countDiscard (d : Die) : Die := d.modSched fun x => { x with discard := min (x.discard + 1) 0xFFFF }

/-- A change that goes to the belay partner's log (R405). A die without a partner has no log (R15, R403). -/
def Die.belayLog (d : Die) (e : LogEntry) : Die :=
  if bit d.conf.ident.toNat 4 then d else { d with belayQ := d.belayQ ++ [⟨.entry e, []⟩] }

/-- A taken record is settled once no node and no translation made from it is left (R405). -/
def Die.recordOver (d : Die) (rid : Nat) : Die :=
  if rid = 0 ∨ d.sched.nodes.any (fun n => n.rec_.rid == rid) ∨ d.sched.trans.any (fun t => t.rec_.rid == rid) then d
  else d.belayLog (.settled rid)

/-! ## Waking (R175, R369) -/

/-- Wake the CWAIT waiters of a counter: resident groups' waits end with the result word, and a swapped-out group
whose wait would end becomes restorable (R304, R369). -/
def Die.wakeCwait (d : Die) (o : ObjRef) : Die :=
  let x := d.object o
  if !cWakes x then d
  else
    let sel : Wait → Bool := fun w => match w with
      | .cwait _ p _ _ => p.pa == o.pa
      | _ => false
    { d with groups := d.groups.map fun g =>
        if !g.hasWait sel then g
        else if g.phase = .resident then g.endWaits sel ⟨false, cwaitWord x false⟩
        else { g with restorable := true, candAt := if g.restorable then g.candAt else d.ps } }

/-- The held records whose gate counter this is and which it now decides (R175): released and discarded ones, and the
die. -/
def Die.releaseHeld (d : Die) (o : ObjRef) : List TaskRec × List TaskRec × Die :=
  let d := d.sched.hold.foldl (fun d r => d.reachSync r.pn r.gate) d
  let x := d.object o
  let mine := d.sched.hold.filter fun r => (d.counterAddr r.pn r.gate).any fun p => p.pa == o.pa
  if cDone x then (mine, [], d.modSched fun y => { y with hold := y.hold.filter fun r => !mine.contains r })
  else if cStatus x ≠ 0 then ([], mine, d.modSched fun y => { y with hold := y.hold.filter fun r => !mine.contains r })
  else ([], [], d)

/-- A record has GX = GY = GZ = 0 and is no pipeline record: a signal record (R181). -/
def TaskRec.isSignal (r : TaskRec) : Bool := !bit (r.word 0) 41 && bits (r.word 1) 47 0 == 0

/-- A registered arrival is made or dropped. -/
def Die.owes (d : Die) (pn va : Nat) (o : ObjRef) (up : Bool) : Die :=
  let w : Owing := ⟨pn, va, o⟩
  { d with owing := if up then d.owing ++ [w] else d.owing.erase w }

/-- Register an arrival on a counter, or make or drop one: PEND changes by one (R176). -/
def Die.register (d : Die) (pn va : Nat) (up : Bool) : Die :=
  if va = 0 then d
  else
    let d := d.reachSync pn va
    match d.counterAddr pn va with
    | none => d
    | some o =>
      let x := d.object o
      (d.putObject o (setBits x 159 144 (if up then min (cPend x + 1) 0xFFFF else cPend x - 1))).owes pn va o up

/-- A counter has changed so that its waiters wake: they, and the held records that it decides; the arrivals that follow
(R175, R181). -/
def Die.wake (d : Die) (o : ObjRef) : Die × List Arrival174 :=
  let (free, dropped, d) := (d.wakeCwait o).releaseHeld o
  let signals := free.filter TaskRec.isSignal
  let d := (dropped.filter TaskRec.isSignal).foldl (fun d r => d.register r.pn r.done false) d
  let d := (signals ++ dropped).foldl (fun d r => d.belayLog (.settled r.rid)) d
  let d := dropped.foldl (fun d r => if d.namesCounter r.pn r.done then d else d.countDiscard) d
  let d := d.modSched fun y => { y with ready := y.ready ++ free.filter fun r => !r.isSignal }
  (d, signals.map (fun r => ⟨r.pn, r.done, 1, 0, true⟩) ++ dropped.map (fun r => ⟨r.pn, r.done, 0, St.gatefail, false⟩))

/-- Perform arrivals, wake what they wake, release or discard held records and perform the arrivals that follow
(R174, R175, R181). -/
def Die.arriveAll (d : Die) (fuel : Nat) (todo : List Arrival174) : Die :=
  match fuel, todo with
  | 0, _ => d
  | _, [] => d
  | fuel + 1, a :: rest =>
    let (d, woken) := d.climb 9 a.pn none a.va a.n a.st
    let (d, more) := woken.foldl (fun (d, more) o => let (d, new) := d.wake o; (d, more ++ new)) (d, [])
    let d := if a.reg then d.register a.pn a.va false else d
    d.arriveAll fuel (rest ++ more)

/-- Arrivals that one event may set off: those of every held record, and one more for each. -/
def Die.arriveFuel (d : Die) : Nat := 2 * d.sched.hold.length + 2

/-- Arrive of R174 with all that follows from it. -/
def Die.arrive (d : Die) (pn va n st : Nat) : Die :=
  if va = 0 then d else d.arriveAll d.arriveFuel [⟨pn, va, n, st, false⟩]

/-- A registered arrival is made, and PEND falls (R174, R176). -/
def Die.arriveOwed (d : Die) (pn va : Nat) : Die :=
  if va = 0 then d else d.arriveAll d.arriveFuel [⟨pn, va, 1, 0, true⟩]

/-- A counter that CINIT has set to DONE wakes what waits on it (R175, R302). -/
def Die.wakeDone (d : Die) (o : ObjRef) : Die :=
  let x := d.object o
  let (d, more) := (d.boundary (cDone x && cLevel x == 3)).wake o
  d.arriveAll d.arriveFuel more

/-- A record is discarded with a status on its completion counter; one that names no counter is counted in
DISCARD (R180, R370). -/
def Die.discardRecord (d : Die) (r : TaskRec) (st : Nat) : Die :=
  let d := (d.recordOver r.rid).reachSync r.pn r.done
  if d.namesCounter r.pn r.done then d.arrive r.pn r.done 0 st else d.countDiscard

end Sys2Proof.Machine
end

