-- ==== Sys2Proof/Machine/Life.lean ====
section
/-! DEFINITION. What ends: streams and waits withdrawn (R123, R345), groups killed (R401), nodes settled (R402,
R168), gate calls that end (R355), and taking a trap (R381 to R386, R437). -/

namespace Sys2Proof.Machine

/-! ## Engine queues (R165, R166) -/

/-- The four engine queues of a core. -/
def Core.engineQueues (c : Core) : List (List EngEntry) := [c.fillQ, c.drainQ, c.prefetchQ, c.outQ]

/-- Change every engine queue. -/
def Core.modQueues (c : Core) (f : List EngEntry → List EngEntry) : Core :=
  { c with fillQ := f c.fillQ, drainQ := f c.drainQ, prefetchQ := f c.prefetchQ, outQ := f c.outQ }

/-- Everything that entered the queues named by fence `id` before it has completed. -/
def Die.fencePassed (d : Die) (core id : Nat) : Bool :=
  let cl := d.cluster (d.clusterOf core)
  ((d.core core).engineQueues.all fun q => !q.contains (.fence id) || q.head? == some (.fence id))
    && cl.fences.all fun (gid, last, i) => i != id || !cl.table.any fun e => e.gid == gid && e.id ≤ last

/-- Remove a fence. -/
def Die.dropFence (d : Die) (core id : Nat) : Die :=
  (d.modCore core fun c => c.modQueues fun q => q.filter (· != .fence id)).modCluster (d.clusterOf core) fun k =>
    { k with fences := k.fences.filter fun f => f.2.2 != id }

/-- The fences that a core's queues or its cluster hold. -/
def Die.fencesOf (d : Die) (core : Nat) : List Nat :=
  distinct (((d.core core).engineQueues.flatMap fun q => q.filterMap fun e => match e with
    | .fence id => some id
    | .op _ => none) ++ (d.cluster (d.clusterOf core)).fences.map fun f => f.2.2)

/-- A number joins an ascending list. -/
def insertNat (n : Nat) (l : List Nat) : List Nat :=
  match l with
  | [] => [n]
  | m :: rest => if n ≤ m then n :: m :: rest else m :: insertNat n rest

/-- Remove every fence that has been passed, oldest first: what an older one held back may pass once it is gone (R166). -/
def Die.clearFences (d : Die) (core : Nat) : Die :=
  ((d.fencesOf core).foldr insertNat []).foldl (fun d id => if d.fencePassed core id then d.dropFence core id else d) d

/-- An engine operation has completed: its entry leaves its queue. -/
def Die.endOp (d : Die) (core id : Nat) : Die :=
  (d.modCore core fun c => c.modQueues fun q => q.filter (· != .op id)).clearFences core

/-! ## Waits and streams -/

/-- Undo a dequeue at its home (R123): its waiter record goes, and an element assigned to it and not yet delivered
returns to COMMITTED. -/
def State.undoDeq (s : State) (home idx : Nat) (key : Nat × Nat × Nat) : State :=
  s.modDie home fun x => x.modQueue idx fun q =>
    { q with
      waiters := q.waiters.filter fun w => (w.pkg, w.die, w.mseq) != key
      tickets := modWhere (fun t => t.st == .taken && !t.delivered && t.taker == some key)
                   (fun t => { t with st := .committed, taker := none }) q.tickets }

/-- Withdraw the requests of die `d` whose asker satisfies a test (R123). -/
def State.withdraw (s : State) (d : Nat) (sel : Asker → Bool) : State :=
  let gone := (s.die d).port.requests.filter fun r => sel r.asker
  let s := s.modDie d fun x => x.modPort fun p => { p with requests := p.requests.filter fun r => !sel r.asker }
  gone.foldl (fun s r => if r.pkg = s.pkg then s.undoDeq r.die r.msg.qidx (s.pkg, d, r.mseq) else s) s

/-- Withdraw the QWAITs of a group at or above a gate depth. -/
def State.withdrawWaits (s : State) (d gid depth : Nat) : State :=
  s.withdraw d fun a => match a with
    | .wait dst .. => dst.gid == gid && depth ≤ dst.depth
    | _ => false

/-- The partition lines of slot k of a copy's ring (R338), for a group's frame at `base`. -/
def Layout.slotLines (l : Layout) (base k n : Nat) : List Nat :=
  let a := base + l.rbase + k % l.nslot * l.slotb
  (List.range ((n + 63) / 64)).map fun i => a / 64 + i

/-- A copy of a core. -/
def Core.copy? (c : Core) (id : Nat) : Option Copy := c.copies.find? fun x => x.id == id

/-- The base of the frame of a group at a gate depth (R353). -/
def Group.frameAt (g : Group) (depth : Nat) : Frame :=
  if depth = g.gateDepth then g.ctx.frame
  else ((g.gates.reverse.drop depth).head?.map fun f => f.ctx.frame).getD g.ctx.frame

/-- Remove a copy record; its status joins the group's sticky status (R348). -/
def Die.endCopy (d : Die) (core : Nat) (c : Copy) (status : Nat) : Die :=
  let d := d.modCore core fun k => { k with
    copies := k.copies.filter fun x => x.id != c.id
    slog := k.slog.filter fun e => e.copy != c.id
    fillQ := k.fillQ.filter (· != .op c.id), drainQ := k.drainQ.filter (· != .op c.id) }
  let d := d.clearFences core
  d.modGroup c.gid fun g => if g.sticky = 0 then { g with sticky := status } else g

/-- Close a stream (R345): its wait is withdrawn, every line of a slot whose delivery has not begun is present, and
its record frees. -/
def State.closeStream (s : State) (d core : Nat) (c : Copy) (status : Nat) : State :=
  let s := s.withdraw d fun a => match a with
    | .stream k i _ => k == core && i == c.id
    | _ => false
  s.modDie d fun x =>
    let x := x.modGroup c.gid fun g =>
      g.setLines (((List.range c.lay.nslot).filter fun k => !c.delivered.contains k).flatMap fun k =>
        c.lay.slotLines (g.frameAt c.depth).base k c.lay.slotb)
    x.endCopy core c (if c.status = 0 then status else c.status)

/-- Close every open stream of a group at or above a gate depth. -/
def State.closeStreams (s : State) (d gid depth : Nat) : State :=
  match s.group? d gid with
  | none => s
  | some g =>
    (((s.die d).core g.core).copies.filter fun c => c.gid == gid && c.kind == .fillQueue && depth ≤ c.depth).foldl
      (fun s c => s.closeStream d g.core c 0) s

/-! ## Nodes -/

/-- The node of a group. -/
def Die.nodeOf (d : Die) (g : Group) : Option Node := d.node? g.node

/-- RST of the node's record. -/
def Node.restartable (n : Node) : Bool := bit (n.rec_.word 0) 40

/-- A node's tentative lines and what it has staged are discarded (R168). -/
def Die.discardTent (d : Die) (nid : Nat) : Die :=
  { d with l2 := d.l2.filter fun l => l.node != some nid }.modNode nid fun n => { n with tent := [] }

/-- The node is no longer there, and nothing tentative of it either (R168). -/
def Die.forgetNode (d : Die) (nid : Nat) : Die :=
  (d.discardTent nid).modSched fun x => { x with nodes := x.nodes.filter fun n => n.nid != nid }

/-- Remove a settled node from the comparison sets (R160, R405). -/
def Die.dropNode (d : Die) (nid : Nat) : Die :=
  let rid := ((d.node? nid).map fun n => n.rec_.rid).getD 0
  (d.forgetNode nid).recordOver rid

/-- The node is irrevocable from now on (R169, R170, R405). -/
def Die.turnIrrevocable (d : Die) (nid : Nat) : Die :=
  (d.modNode nid fun n => { n with revocable := false, turning := false }).belayLog
    (.irrevocable (((d.node? nid).map fun n => n.rec_.rid).getD 0))

/-- Settle a node that was killed for consumption, an uncorrectable error or STAGING (R402). -/
def Die.settleKilled (d : Die) (n : Node) (st : Nat) : Die :=
  let d := if n.stage.isSome then d.register n.rec_.pn n.rec_.done false else d
  if n.restartable && n.revocable && n.rec_.retries < 2 then
    (d.forgetNode n.nid).modSched fun x => { x with again := { n.rec_ with retries := n.rec_.retries + 1 } :: x.again }
  else (d.dropNode n.nid).arrive n.rec_.pn n.rec_.done 0 st

/-- A stage is over (R187): the arrival registered for it is made when it has closed, and dropped when no worker of
it ever retired. -/
def Die.endStage (d : Die) (n : Node) (st : Stage) : Die :=
  if st.opened then d.register n.rec_.pn n.rec_.done false else d.arriveOwed n.rec_.pn n.rec_.done

/-- The arrivals that a killed node's retired groups still owed are dropped (R168, R176). -/
def Die.dropOwed (d : Die) (n : Node) : Die :=
  (List.range n.owed).foldl (fun d _ => d.register n.rec_.pn n.rec_.done false) d

/-- A node none of whose groups runs or is still to come: a restartable one commits first (R168), the others are
settled now (R160). -/
def Die.checkSettled (d : Die) (nid : Nat) : Die :=
  match d.node? nid with
  | none => d
  | some n =>
    let last := n.nextIdx == n.total || n.cancelled || n.killed.isSome || n.stage.any fun s => !s.opened
    if n.live ≠ 0 ∨ !last ∨ n.committing ∨ n.turning ∨ d.groups.any (fun g => g.node == nid) then d
    else
      match n.killed, n.stage with
      | some st, _ =>
        let d := d.dropOwed n
        if st = St.poison ∨ st = St.staging then d.settleKilled n st else d.dropNode nid
      | none, some st => (d.endStage n st).dropNode nid
      | none, none => if n.restartable then d.modNode nid fun n => { n with committing := true } else d.dropNode nid

/-! ## Killing a group (R401) -/

/-- Release the pins of a cluster's running pass (R85). -/
def Die.unpin (d : Die) (cl : Nat) : Die :=
  let lines := (d.cluster cl).pinned
  { d.modCluster cl fun k => { k with pinned := [], pinWait := false, ran := 0 } with
    l2 := d.l2.map fun l => if lines.contains (l.slice, l.line) then { l with pins := l.pins - 1 } else l }

/-- A cluster's reservation table without a group's entries. -/
def Cluster.dropGroup (c : Cluster) (gid : Nat) : Cluster :=
  { c with running := if c.table.any fun e => e.gid == gid && some e.id == c.running then none else c.running
           table := c.table.filter fun e => e.gid != gid }

/-- Discard the matrix entries of a group, with the pins of its running pass (R85, R336). A fence that waited for these
entries alone is passed (R166). -/
def Die.dropMatrix (d : Die) (gid : Nat) : Die :=
  let hit := d.clusters.filter fun (_, c) => c.table.any fun e => e.gid == gid && some e.id == c.running
  let d := hit.foldl (fun d (k, _) => d.unpin k) d
  let d := { d with clusters := d.clusters.map fun (k, c) => (k, Cluster.dropGroup c gid) }
  (d.cores.map fun c => c.1).foldl Die.clearFences d

/-- The group's work that runs on in the tracker: drains, bulk prefetches, outbound operations, pending launches and
matrix operations (R196, R401). -/
def Die.workLeft (d : Die) (g : Group) : Bool :=
  (d.cores.any fun (_, c) => (c.copies.any fun x => x.gid == g.gid) || (c.outOps.any fun o => o.dst.gid == g.gid)
    || (c.launches.any fun l => l.dst.gid == g.gid) || c.prefetches.any fun p => p.gid == g.gid)
    || d.clusters.any fun (_, k) => k.table.any fun e => e.gid == g.gid

/-- A slot's L1 lines are dropped when it is freed (R73). -/
def Die.freeSlot (d : Die) (core slot : Nat) : Die :=
  d.modCore core fun c => { c with l1 := c.l1.filter fun t => t.slot != slot }

/-- The registrations of PREF range words that wait for room and take no effect are dropped (R176, R299). -/
def Die.dropHeldPrefetch (d : Die) (g : Group) (ts : List Nat) : Die :=
  let words := distinct (ts.filterMap fun t => match (g.thread t).wait with
    | some (.prefetchFull x) => some x
    | _ => none)
  words.foldl (fun d x => d.register g.ctx.pn (x.lanes.headD default).c.toNat false) d

/-- The arrivals that the bulk prefetches of a killed group registered are dropped, on whatever core they run (R176,
R299). -/
def Die.dropPrefetchArrivals (d : Die) (g : Group) : Die :=
  let mine := d.cores.flatMap fun (_, c) => c.prefetches.filter fun p => p.gid == g.gid && p.cc != 0
  let d := mine.foldl (fun d p => d.register p.pn p.cc.toNat false) d
  { d with cores := d.cores.map fun (k, c) =>
      (k, { c with prefetches := modWhere (fun p => p.gid == g.gid) (fun p => { p with cc := 0 }) c.prefetches }) }

/-- A group is gone: it leaves the die and, where it was there, its core's retirement tracker (R196). -/
def Die.removeGroup (d : Die) (gid : Nat) : Die :=
  { d with groups := d.groups.filter fun g => g.gid != gid
           cores := d.cores.map fun (k, c) => (k, { c with tracker := c.tracker.filter (· != gid) }) }

/-- The groups of a node that count towards MINGRP: all but those that drain and those that a move has saved (R186, R188). -/
def Die.workers (d : Die) (nid : Nat) : Nat :=
  (d.groups.filter fun g => g.node == nid && match g.phase with
    | .tracked => false
    | .swapped .. => !g.moved
    | .resident => true).length

/-- A node's group has ended: the next group of a stage that only now falls below MINGRP is a candidate from now on; that of a
stage below it already, and of an ordinary node, has been one all along (R187, R365). -/
def Node.groupEnded (n : Node) (now workers : Nat) : Node :=
  { n with live := n.live - 1, candAt := if n.stage.any fun s => s.minGrp ≤ workers then now else n.candAt }

/-- The engines' entries of a killed group are discarded: its matrix operations, its fills, and the drains of a node that can
run again (R85, R336, R401). -/
def Die.dropEngines (d : Die) (g : Group) : Die :=
  let d := ((d.dropHeldPrefetch g g.living).dropPrefetchArrivals g).dropMatrix g.gid
  let tentative := (d.nodeOf g).any fun n => n.revocable
  ((d.core g.core).copies.filter fun k => k.gid == g.gid && (k.kind == .fill || (tentative && k.kind == .drain))).foldl
    (fun d k => d.endCopy g.core k 0) d

/-- The node of a killed group has one group less to wait for, and the arrival that the group owed is dropped (R176). -/
def Die.groupKilled (d : Die) (g : Group) : Die :=
  match d.nodeOf g with
  | some n => (if n.stage.isSome then d else d.register n.rec_.pn n.rec_.done false).modNode n.nid fun n => n.groupEnded d.ps (d.workers n.nid)
  | none => d

/-- A group's save record is free: the one that it stands in, or the one reserved for it. -/
def Die.freeRecordOf (d : Die) (g : Group) : Die :=
  match g.saveRec, g.phase with
  | _, .swapped k _ => d.modSched fun y => { y with saveUsed := y.saveUsed.filter (· != k) }
  | some k, _ => d.modSched fun y => { y with saveUsed := y.saveUsed.filter (· != k) }
  | none, _ => d

/-- A killed group leaves its slot, and the die once none of its work is left; until then it has an entry of its core's
retirement tracker (R196, R401). DESIGN CHOICE (log entry 118): it takes the entry even where all eight are in use, as the spec
frees the slot of a killed group at once. -/
def Die.leaveSlot (d : Die) (g : Group) : Die :=
  let d := if g.phase == .resident then d.freeSlot g.core g.slot else d
  if d.workLeft g then
    let d := d.modCore g.core fun c => { c with tracker := c.tracker.filter (· != g.gid) ++ [g.gid] }
    d.modGroup g.gid fun g => { g with phase := .tracked, dead := true, tiles := [], log := [], trap := none,
                                       threads := g.threads.map fun t => { t with exited := true } }
  else d.removeGroup g.gid

/-- Kill a group (R401): everything but the settling of its node. Its drains run on, except those whose writes are
tentative and are discarded with the node's (R168). -/
def State.killGroup (s : State) (d gid : Nat) : State :=
  match s.group? d gid with
  | none => s
  | some g =>
    let s := (s.withdrawWaits d gid 0).closeStreams d gid 0
    s.modDie d fun x => (((x.dropEngines g).groupKilled g).freeRecordOf g).leaveSlot g

/-- Kill a whole node for POISON or STAGING and settle it (R82, R400, R402). A node already killed keeps its first status. -/
def State.killNode (s : State) (d nid st : Nat) : State :=
  let s := s.modDie d fun x => x.modNode nid fun n => { n with killed := n.killed.orElse fun _ => some st }
  let s := ((s.die d).groups.filter fun g => g.node == nid && !g.dead).foldl (fun s g => s.killGroup d g.gid) s
  s.modDie d fun x => x.checkSettled nid

/-- Kill a group and record a status on its node's counter; the node is not run again (R402). A group whose node was
killed for a consumption ends with that node (R400). -/
def State.killWith (s : State) (d gid st : Nat) : State :=
  match s.group? d gid with
  | none => s
  | some g =>
    if g.poisonDue.isSome then s.killNode d g.node St.poison
    else
      let s := s.killGroup d gid
      s.modDie d fun x =>
        match x.nodeOf g with
        | none => x
        | some n =>
          let x := x.modNode n.nid fun n =>
            { n with killed := n.killed.orElse fun _ => if n.restartable && n.revocable then some st else none }
          (x.arrive n.rec_.pn n.rec_.done 0 st).checkSettled n.nid

/-! ## Gate calls that end (R355) -/

/-- The innermost gate call begins to end with a value for s63; the callee's threads issue nothing more. -/
def Group.endGate (g : Group) (word : Nat) : Group :=
  match g.gates with
  | [] => g
  | f :: rest => { g with gates := { f with ending := some word } :: rest, trap := none }

/-- A gate call ends abnormally (R355): the callee's waits are withdrawn and its streams closed. -/
def State.endGate (s : State) (d gid word : Nat) : State :=
  match s.group? d gid with
  | none => s
  | some g =>
    let s := (s.withdrawWaits d gid g.gateDepth).closeStreams d gid g.gateDepth
    s.modGroup d gid fun g => g.endGate word

/-! ## Traps (R381 to R386, R437) -/

/-- The trap frame of R383. -/
def Group.trapFrame (g : Group) (tr : Trap) (pc addr : DWord) : List Byte :=
  let at_ := fun (l : Nat) => g.atLane tr.warp l
  let lanes := tr.lanes.foldl (fun m l => Nat.lor m (2 ^ l)) 0
  let pcs := (List.range 32).flatMap fun l => toBytes 8 (((at_ l).map fun t => (g.thread t).pc.toNat).getD 0)
  let ist := (List.range 32).flatMap fun l => toBytes 4 (((at_ l).map fun t =>
    let h := g.thread t
    (t / 32) * 2 ^ 21 + 2 ^ 20 + (h.wait.any fun w => !w.resource).toNat * 2 ^ 19 + h.m.toNat * 2 ^ 18 + h.y.toNat * 2 ^ 17
      + h.depth.toNat).getD 0)
  let prs := (List.range 32).map fun l => BitVec.ofNat 8 (((at_ l).map fun t => (g.thread t).preds.toNat).getD 0)
  let srs := (List.range 64).flatMap fun n => toBytes 8 (g.sreg tr.warp n).val.toNat
  toBytes 2 tr.cause ++ toBytes 1 tr.warp ++ toBytes 1 tr.precise.toNat ++ toBytes 4 lanes ++ toBytes 8 pc.toNat
    ++ toBytes 8 addr.toNat ++ List.replicate 40 0 ++ pcs ++ ist ++ prs ++ List.replicate 32 0 ++ srs

/-- Deliver a trap to the handler warp (R382). A member that waits for a resource stands at its word; every other
waiting member is suspended. -/
def Group.enterHandler (g : Group) (tr : Trap) (pc addr : DWord) : Group :=
  let g := g.putWindow g.b3 (g.trapFrame tr pc addr) false
  let g := g.unwait ((g.members tr.warp).filter fun t => (g.thread t).wait.any Wait.resource)
  let g := g.modThreads (g.members tr.warp) fun t =>
    { t with pc := g.ctx.handler, y := false, m := false, wait := none, suspEnd := none,
             susp := match t.wait with
               | some w => if w.resource then none else some w
               | none => none }
  { g.modCtx fun c => { c with trapcause := BitVec.ofNat 64 tr.cause, trappc := pc, trapaddr := addr } with
    trap := some tr }

/-- The lowest-numbered warp that has a member (R381). -/
def Group.lowestWarp (g : Group) : Option Nat := (List.range g.warps).find? fun w => !(g.members w).isEmpty

/-- Deliver a trap (R382): the handler warp's QWAIT is withdrawn, and a PREF range that waits for room issues again. CANCEL
discards the group's matrix entries (R336). -/
def State.deliver (s : State) (d gid : Nat) (tr : Trap) (pc addr : DWord) : State :=
  let s := s.withdraw d fun a => match a with
    | .wait dst .. => dst.gid == gid && dst.warp == tr.warp
    | _ => false
  s.modDie d fun x =>
    match x.group? gid with
    | none => x
    | some g =>
      let x := if tr.cause = Cause.cancel then x.dropMatrix gid else x
      (x.dropHeldPrefetch g (g.members tr.warp)).modGroup gid fun g => g.enterHandler tr pc addr

/-- A consumption of poison (R400): the node's other groups die; the consuming one keeps its handler for 100 µs. -/
def State.poisonNode (s : State) (d gid : Nat) : State :=
  match s.group? d gid with
  | none => s
  | some g =>
    let s := s.modDie d fun x => x.modNode g.node fun n => { n with killed := n.killed.orElse fun _ => some St.poison }
    let s := ((s.die d).groups.filter fun h => h.node == g.node && h.gid != gid && !h.dead).foldl
      (fun s h => s.killGroup d h.gid) s
    if g.ctx.handler = 0 ∨ g.trap.isSome then (s.killGroup d gid).modDie d fun x => x.checkSettled g.node
    else s.modGroup d gid fun g => { g with poisonDue := some ((s.die d).ps + 100 * usec) }

/-- A precise cause at a word of a warp (R380 to R386, R412). -/
def State.precise (s : State) (d gid cause warp : Nat) (lanes : List Nat) (pc addr : DWord) (len : Nat) : State :=
  match s.group? d gid with
  | none => s
  | some g =>
    let tr : Trap := ⟨cause, warp, true, lanes, len, (s.die d).ps, false⟩
    if cause = Cause.poison then
      let s := s.poisonNode d gid
      s.deliver d gid tr pc addr
    else if g.trap.isSome then s.killWith d gid St.killed
    else if g.ctx.handler = 0 then
      if g.gateDepth = 0 then s.killWith d gid St.killed
      else s.endGate d gid (St.fault + cause * 256)
    else s.deliver d gid tr pc addr

/-- A fault of a collective (R437): the lowest warp with a thread waiting at the word; every waiting thread stands at
its word. -/
def State.collective (s : State) (d gid cause : Nat) (sel : Wait → Bool) (addr : DWord) : State :=
  match s.group? d gid with
  | none => s
  | some g =>
    let waiting := g.threadsWith fun t => t.wait.any sel
    let warp := (List.range g.warps).find? fun w => (g.members w).any waiting.contains
    match warp with
    | none => s
    | some w =>
      let mine := (g.members w).filter waiting.contains
      let first := g.thread (mine.headD 0)
      let len := ((first.wait.bind Wait.word?).map Issued.len).getD 8
      (s.modGroup d gid fun g => g.unwait waiting).precise d gid cause w (mine.map (· % 32)) first.pc addr len

/-- A thread whose WAIT has read poison consumes it as the step ends, unless its warp is stopped: then after TRET (R281, R291,
R385). -/
def State.consumeStruck (s : State) (d : Nat) (g : Group) : State :=
  let hit := fun (t : Nat) => match (g.thread t).wait with
    | some (.wait x _ _ _ true) => if g.stopped x.warp || g.trap.isSome then none else some x
    | _ => none
  match (List.range g.threads.length).findSome? hit with
  | none => s
  | some x =>
    let ts := (List.range g.threads.length).filter fun t => hit t == some x
    if g.phase ≠ .resident ∨ g.dead then s
    else (s.modGroup d g.gid fun g => g.unwait ts).precise d g.gid Cause.poison x.warp (ts.map (· % 32)) (BitVec.ofNat 64 x.pc) 0 x.len

/-- Every group of a die consumes the poison that its WAITs have read. -/
def State.consumeAll (s : State) (d : Nat) : State := (s.die d).groups.foldl (fun s g => s.consumeStruck d g) s

/-- Order a save of a group at once, by forced save (R377, R386, R391). -/
def State.forceSave (s : State) (d gid : Nat) : State :=
  s.modGroup d gid fun g => { g with preemptDue := some (s.die d).ps }

/-- An asynchronous cause: PREEMPT, CANCEL or WATCHDOG (R381, R385, R386, R355, R356). DESIGN CHOICE (log entry 64): CANCEL kills
a swapped-out group at once, whatever its HANDLER, as R369 says that it ends such a group. -/
def State.asynchronous (s : State) (d gid cause warp : Nat) : State :=
  match s.group? d gid with
  | none => s
  | some g =>
    let noHandler := g.ctx.handler == 0 || g.lowestWarp.isNone
    let now := (s.die d).ps
    if cause = Cause.preempt then
      if g.trap.isSome || g.gateDepth != 0 || noHandler then s.forceSave d gid
      else (s.deliver d gid ⟨cause, g.lowestWarp.getD 0, false, [], 8, now, false⟩ 0 0).modGroup d gid fun g =>
        { g with preemptDue := some ((s.die d).ps + 100 * usec) }
    else if cause = Cause.cancel then
      if g.phase ≠ .resident then s.killWith d gid St.cancelled
      else if g.trap.isSome || g.gateDepth != 0 then
        s.modGroup d gid fun g => { g with held := if g.held.any fun h => h.cause == cause then g.held else g.held ++ [⟨cause, 0⟩] }
      else if noHandler then s.killWith d gid St.cancelled
      else s.deliver d gid ⟨cause, g.lowestWarp.getD 0, false, [], 8, now, false⟩ 0 0
    else
      match g.trap with
      | some tr =>
        if tr.warp = warp then s.killWith d gid St.watchdog
        else s.modGroup d gid fun g => { g with held := g.held ++ [⟨cause, warp⟩] }
      | none =>
        if g.gateDepth ≠ 0 then s.endGate d gid St.watchdog
        else if noHandler then s.killWith d gid St.watchdog
        else s.deliver d gid ⟨cause, warp, false, [], 8, now, false⟩ 0 0

/-- The held cause that is delivered next once the group leaves its handler or its gate: CANCEL, then WATCHDOG
(R385, R356). -/
def State.deliverHeld (s : State) (d gid : Nat) : State :=
  match s.group? d gid with
  | none => s
  | some g =>
    if g.trap.isSome || g.gateDepth != 0 then s
    else
      match (g.held.find? fun h => h.cause == Cause.cancel).orElse fun _ => g.held.head? with
      | none => s
      | some h =>
        let s := s.modGroup d gid fun g => { g with held := g.held.erase h }
        s.asynchronous d gid h.cause h.warp

/-- A meaning's result: every instruction ends in a next state. -/
def State.finish (s : State) : Host.Outcome State Fault Refusal := .next s

end Sys2Proof.Machine
end

