-- ==== Sys2Proof/Machine/Issue.lean ====
section
/-! DEFINITION. What every word does at its issue before its own effect (R190, R193, R199 to R213, R286, R399), and
the ways in which a word ends: it passes, waits or faults. -/

namespace Sys2Proof.Machine

/-- A word at work: where it runs, the word with its captured sources, the threads that it passes over, and its
fields. -/
structure Job where
  d : Nat
  gid : Nat
  x : Issued
  ts : List Nat
  sig : Sig
  f : Fields
deriving DecidableEq, Repr, Inhabited

/-- The active threads, lowest lane first. -/
def Job.act (j : Job) : List Nat := j.x.lanes.map LaneSrc.t
/-- The lanes of the active threads. -/
def Job.lanes (j : Job) : List Nat := j.act.map (· % 32)
/-- The group. -/
def Job.group (j : Job) (s : State) : Group := (s.group? j.d j.gid).getD default
/-- Change the group. -/
def Job.mod (j : Job) (s : State) (f : Group → Group) : State := s.modGroup j.d j.gid f
/-- The sources of a uniform word. -/
def Job.src (j : Job) : LaneSrc := j.x.lanes.headD default
/-- Source A of a uniform word. -/
def Job.a (j : Job) : Nat := j.src.a.toNat
/-- Source B of a uniform word. -/
def Job.b (j : Job) : Nat := j.src.b.toNat
/-- Source C of a uniform word. -/
def Job.c (j : Job) : Nat := j.src.c.toNat

/-- The word passes: its threads stand at the next instruction (R191). -/
def Job.pass (j : Job) (s : State) : State := j.mod s (·.advance j.ts j.x.len)

/-- The active threads wait; the others pass (R286). -/
def Job.wait (j : Job) (s : State) (w : Wait) : State :=
  j.mod s fun g => (g.advance (j.ts.filter fun t => !j.act.contains t) j.x.len).await j.act w

/-- A per-lane word waits: every issued thread waits at it (R58, R72). -/
def Job.hold (j : Job) (s : State) (w : Wait) : State := j.mod s (·.await j.ts w)

/-- A precise fault of the word, at lanes and with an address (R380). -/
def Job.fault (j : Job) (s : State) (cause : Nat) (lanes : List Nat) (addr : Nat) : State :=
  s.precise j.d j.gid cause j.x.warp lanes (BitVec.ofNat 64 j.x.pc) (BitVec.ofNat 64 addr) j.x.len

/-- Write a uniform word's result and pass. -/
def Job.result (j : Job) (s : State) (v : Nat) : State :=
  j.pass (j.mod s fun g => g.putResult j.x.warp j.f.dst (BitVec.ofNat 64 v))

/-- Mark the destination pending and pass: the result comes later (R211). -/
def Job.later (j : Job) (s : State) : State :=
  j.pass (j.mod s fun g => match j.f.dst with
    | .s n => g.pendSet [.s j.x.warp n.toNat]
    | _ => g)

/-- Where an asynchronous result goes. -/
def Job.dest (j : Job) (s : State) : Dest := ⟨j.gid, (j.group s).gateDepth, j.x.warp, j.f.dst⟩

/-- Each active thread computes a value that goes to the destination (R204, R240). -/
def Job.perLane (j : Job) (s : State) (f : LaneSrc → Nat) : State :=
  j.pass (j.mod s fun g => j.x.lanes.foldl (fun g l => g.writeDst j.x.warp l.t j.sig.dst.width j.f.dst (f l)) g)

/-- The format slots that a word names: by an operand byte, or MRD slot by bits 6:4 (R333). -/
def slotsNamed (i : Instr) (f : Fields) : List Nat :=
  ([f.dst, f.sa, f.sb, f.sc].filterMap fun o => match o with
    | .fs n => some n.toNat
    | _ => none) ++ match i with
    | .mrdSlot w => [bits w.imm.toNat 6 4]
    | _ => []

/-- The type that the named format slot holds has 64 bits. -/
def Group.slot64 (g : Group) (i : Instr) (f : Fields) : Bool :=
  (slotsNamed i f).any fun n => typeWidth (bits (g.formatSlot n).toNat 7 0) == 64

/-- The members that the watchdog still waits for, after the threads `ts` issued (R193). -/
def Group.watchIssued (g : Group) (warp : Nat) (ts : List Nat) : Group :=
  let ready := (g.members warp).filter fun t => (g.thread t).wait.isNone
  let owed := (tgetD g.wdowed warp ready).filter fun t => !ts.contains t && ready.contains t
  if owed.isEmpty then { g with wdcount := tdel g.wdcount warp, wdowed := tput g.wdowed warp ready }
  else { g with wdowed := tput g.wdowed warp owed }

end Sys2Proof.Machine

namespace Sys2Proof
open Machine

/-- Source A is that of a lane which the word names: BCAST, LANE, SHFL and UNPK layout 1 (R269). -/
def View.crossLane (v : View) : Bool :=
  match v with
  | .reg op w => (0x72 ≤ op && op ≤ 0x77) || (0x6B ≤ op && op ≤ 0x6F && w.imm[4])
  | .short op _ => 0x78 ≤ op && op ≤ 0x7B
  | _ => false

/-- The sources of a word of which each lane reads its own, for the consumption of poison (R395). -/
def View.ownSources (v : View) (sig : Sig) : Sig := if v.crossLane then { sig with sa := .unused } else sig

/-- The scalar slot's source registers of a word, for the consumption of poison (R397). -/
def View.scalarSources (v : View) (warp : Nat) : List Res :=
  match v with
  | .pair sop p => (p.scalarRegs sop warp).drop (match scalarForm sop with | .branch => 0 | _ => 1)
  | _ => []

end Sys2Proof

namespace Sys2Proof.Machine

/-- An s-register of the list is poisoned. -/
def Group.anyBadS (g : Group) (rs : List Res) : Bool :=
  rs.any fun r => match r with
    | .s w n => (g.sreg w n).poison
    | _ => false

/-- What the checks of a word at its issue give: nothing issues; the word traps precisely at lanes; every guard is
false and the threads pass; or the word has its effect. -/
inductive Issue where
  | idle
  | trap (j : Job) (s : State) (cause : Nat) (lanes : List Nat)
  | skip (j : Job) (s : State)
  | run (j : Job) (s : State)
deriving DecidableEq, Repr, Inhabited

/-- A word of a warp of a group is issued: the checks of R213 and R241, the guard, the consumption of poison. DESIGN CHOICE: when
every issued thread's guard is false, the checks of the instruction's own description (R241) are not taken; R213's are (log
entry 124). -/
def prepare (i : Instr) (v : View) (sigOf : Bool → Sig) (s : State) (d : Nat) (g : Group) (warp : Nat) : Issue :=
  let g := g.clearY warp
  match g.select warp with
  | [] => .idle
  | t0 :: more =>
    let ts := t0 :: more
    let g := g.watchIssued warp ts
    let s := s.modGroup d g.gid fun _ => g
    let f := v.fields
    let sig := sigOf (g.slot64 i f)
    let act := ts.filter fun t => (g.thread t).guard f.guard
    let job : Job := ⟨d, g.gid, ⟨i, warp, (g.thread t0).pc.toNat, if f.lit.isSome then 16 else 8, act.map (g.capture sig f warp), g.ctx.tbase, g.ctx.tlen, g.resClk,
      sig.writes f warp act, 0⟩, ts, sig, f⟩
    if (v.bad sig).isSome then .trap job s Cause.illegal (act.map (· % 32))
    else if sig.unallocated f g.ctx.frame.regs (if g.ctx.tilesOk then g.tiles.length else 0) then
      .trap job s Cause.register (act.map (· % 32))
    else if act.isEmpty then .skip job s
    else if !sig.legal then .trap job s Cause.illegal (act.map (· % 32))
    else
      let scalarBad := g.anyBadS (v.scalarSources warp)
      let eaters := act.filter fun t => scalarBad || g.consumes (v.ownSources sig) f warp t
      if !eaters.isEmpty then .trap job s Cause.poison (eaters.map (· % 32)) else .run job s

/-- The word's effect after its checks. -/
def Issue.perform (p : Issue) (s : State) (body : Job → State → State) : State :=
  match p with
  | .idle => s
  | .trap j s cause lanes => j.fault s cause lanes 0
  | .skip j s => j.pass s
  | .run j s => body j s

/-- The warp whose turn it is prepares the word; where no group is in its slot, nothing issues (R373). -/
def State.prepared (s : State) (i : Instr) (v : View) (sigOf : Bool → Sig) : Issue :=
  match (s.die s.cur.d).groupAt s.cur.core s.cur.slot with
  | none => .idle
  | some g => prepare i v sigOf s s.cur.d g s.cur.warp

/-- The warp whose turn it is issues the word (R373). -/
def issueWord (i : Instr) (s : State) (body : Job → State → State) : Host.Outcome State Fault Refusal :=
  ((s.prepared i i.view i.sig).perform s body).finish

/-- A P word issues: its vector slot's signature is that of its opcode (R205). -/
def issuePair (sop : Nat) (p : PairWord) (s : State) (body : Job → State → State) : Host.Outcome State Fault Refusal :=
  ((s.prepared default (.pair sop p) fun _ => p.vop.sig p.vector).perform s body).finish

end Sys2Proof.Machine
end

