-- ==== Sys2Proof/Machine/Alu.lean ====
section
/-! DEFINITION. Integer arithmetic, logic, shifts, bit fields, compares and predicates (R243 to R253). -/

namespace Sys2Proof.Machine

/-- A word whose active lanes each compute a value from their sources at the width that MOD gives (R240). -/
def aluWord (m : BitVec 2) (f : Nat → Bool → Nat → Nat → Nat → Nat) (j : Job) (s : State) : State :=
  let w := opw m
  j.perLane s fun l => f w m[1] (l.a.toNat % 2 ^ w) (l.b.toNat % 2 ^ w) (l.c.toNat % 2 ^ w)

/-- A word whose operands have fixed widths. -/
def fixedWord (f : Nat → Nat → Nat → Nat) (j : Job) (s : State) : State :=
  j.perLane s fun l => f l.a.toNat l.b.toNat l.c.toNat

/-- IADDC: the sum goes to the destination and the carry to p6 (R244). -/
def carryWord (m : BitVec 2) (j : Job) (s : State) : State :=
  let w := opw m
  j.pass (j.mod s fun g => j.x.lanes.foldl (fun g l =>
    let (d, c) := iaddc w (l.a.toNat % 2 ^ w) (l.b.toNat % 2 ^ w) ((g.thread l.t).pred 6)
    (g.writeDst j.x.warp l.t w j.f.dst d).modThread l.t fun h => h.setPred 6 c) g)

/-- PMOV with DIR 1: predicates from a register under a mask (R253). -/
def predsFrom (mask : Nat) (j : Job) (s : State) : State :=
  j.pass (j.mod s fun g => j.x.lanes.foldl (fun g l =>
    (List.range 7).foldl (fun g i =>
      if bit mask i then g.modThread l.t fun h => h.setPred i (bit l.a.toNat i) else g) g) g)

/-- PMOV with DIR 0: predicates to a register; bit 7 is p7 (R253). -/
def predsTo (j : Job) (s : State) : State :=
  let g := j.group s
  j.perLane s fun l => (g.thread l.t).preds.toNat + 128

/-- d := (a + b) mod 2^w (R243). -/
def execIadd (w : RegWord) (s : State) : Host.Outcome State Fault Refusal :=
  issueWord (.iadd w) s (aluWord w.mod fun n _ a b _ => iadd n a b)

/-- d := (a + b) mod 2^w, b from IMM32 (R243). -/
def execIaddWide (w : WideWord) (s : State) : Host.Outcome State Fault Refusal :=
  issueWord (.iaddWide w) s (aluWord w.mod fun n _ a b _ => iadd n a b)

/-- d := (a − b) mod 2^w (R243). -/
def execIsub (w : RegWord) (s : State) : Host.Outcome State Fault Refusal :=
  issueWord (.isub w) s (aluWord w.mod fun n _ a b _ => isub n a b)

/-- d := (a − b) mod 2^w, b from IMM32 (R243). -/
def execIsubWide (w : WideWord) (s : State) : Host.Outcome State Fault Refusal :=
  issueWord (.isubWide w) s (aluWord w.mod fun n _ a b _ => isub n a b)

/-- d := (a × b) mod 2^w (R243). -/
def execImul (w : RegWord) (s : State) : Host.Outcome State Fault Refusal :=
  issueWord (.imul w) s (aluWord w.mod fun n _ a b _ => imul n a b)

/-- d := (a × b) mod 2^w, b from IMM32 (R243). -/
def execImulWide (w : WideWord) (s : State) : Host.Outcome State Fault Refusal :=
  issueWord (.imulWide w) s (aluWord w.mod fun n _ a b _ => imul n a b)

/-- The lesser of a and b (R243). -/
def execImin (w : RegWord) (s : State) : Host.Outcome State Fault Refusal :=
  issueWord (.imin w) s (aluWord w.mod fun n u a b _ => iminmax n u false a b)

/-- The lesser of a and b, b from IMM32 (R243). -/
def execIminWide (w : WideWord) (s : State) : Host.Outcome State Fault Refusal :=
  issueWord (.iminWide w) s (aluWord w.mod fun n u a b _ => iminmax n u false a b)

/-- The greater of a and b (R243). -/
def execImax (w : RegWord) (s : State) : Host.Outcome State Fault Refusal :=
  issueWord (.imax w) s (aluWord w.mod fun n u a b _ => iminmax n u true a b)

/-- The greater of a and b, b from IMM32 (R243). -/
def execImaxWide (w : WideWord) (s : State) : Host.Outcome State Fault Refusal :=
  issueWord (.imaxWide w) s (aluWord w.mod fun n u a b _ => iminmax n u true a b)

/-- Bitwise and (R246). -/
def execAnd (w : RegWord) (s : State) : Host.Outcome State Fault Refusal :=
  issueWord (.and w) s (aluWord w.mod fun _ _ a b _ => Nat.land a b)

/-- Bitwise and, b from IMM32 (R246). -/
def execAndWide (w : WideWord) (s : State) : Host.Outcome State Fault Refusal :=
  issueWord (.andWide w) s (aluWord w.mod fun _ _ a b _ => Nat.land a b)

/-- Bitwise or (R246). -/
def execOr (w : RegWord) (s : State) : Host.Outcome State Fault Refusal :=
  issueWord (.or w) s (aluWord w.mod fun _ _ a b _ => Nat.lor a b)

/-- Bitwise or, b from IMM32 (R246). -/
def execOrWide (w : WideWord) (s : State) : Host.Outcome State Fault Refusal :=
  issueWord (.orWide w) s (aluWord w.mod fun _ _ a b _ => Nat.lor a b)

/-- Bitwise exclusive or (R246). -/
def execXor (w : RegWord) (s : State) : Host.Outcome State Fault Refusal :=
  issueWord (.xor w) s (aluWord w.mod fun _ _ a b _ => Nat.xor a b)

/-- Bitwise exclusive or, b from IMM32 (R246). -/
def execXorWide (w : WideWord) (s : State) : Host.Outcome State Fault Refusal :=
  issueWord (.xorWide w) s (aluWord w.mod fun _ _ a b _ => Nat.xor a b)

/-- a and not b (R246). -/
def execAndn (w : RegWord) (s : State) : Host.Outcome State Fault Refusal :=
  issueWord (.andn w) s (aluWord w.mod fun n _ a b _ => iandn n a b)

/-- a and not b, b from IMM32 (R246). -/
def execAndnWide (w : WideWord) (s : State) : Host.Outcome State Fault Refusal :=
  issueWord (.andnWide w) s (aluWord w.mod fun n _ a b _ => iandn n a b)

/-- a or not b (R246). -/
def execOrn (w : RegWord) (s : State) : Host.Outcome State Fault Refusal :=
  issueWord (.orn w) s (aluWord w.mod fun n _ a b _ => iorn n a b)

/-- a or not b, b from IMM32 (R246). -/
def execOrnWide (w : WideWord) (s : State) : Host.Outcome State Fault Refusal :=
  issueWord (.ornWide w) s (aluWord w.mod fun n _ a b _ => iorn n a b)

/-- Left shift by b mod w (R246). -/
def execShl (w : RegWord) (s : State) : Host.Outcome State Fault Refusal :=
  issueWord (.shl w) s (aluWord w.mod fun n _ a b _ => ishl n a b)

/-- Left shift by b mod w, b from IMM32 (R246). -/
def execShlWide (w : WideWord) (s : State) : Host.Outcome State Fault Refusal :=
  issueWord (.shlWide w) s (aluWord w.mod fun n _ a b _ => ishl n a b)

/-- Logical right shift by b mod w (R246). -/
def execShr (w : RegWord) (s : State) : Host.Outcome State Fault Refusal :=
  issueWord (.shr w) s (aluWord w.mod fun n _ a b _ => ishr n a b)

/-- Logical right shift by b mod w, b from IMM32 (R246). -/
def execShrWide (w : WideWord) (s : State) : Host.Outcome State Fault Refusal :=
  issueWord (.shrWide w) s (aluWord w.mod fun n _ a b _ => ishr n a b)

/-- Arithmetic right shift by b mod w (R246). -/
def execSar (w : RegWord) (s : State) : Host.Outcome State Fault Refusal :=
  issueWord (.sar w) s (aluWord w.mod fun n _ a b _ => isar n a b)

/-- Arithmetic right shift by b mod w, b from IMM32 (R246). -/
def execSarWide (w : WideWord) (s : State) : Host.Outcome State Fault Refusal :=
  issueWord (.sarWide w) s (aluWord w.mod fun n _ a b _ => isar n a b)

/-- Left rotation by b mod w (R246). -/
def execRol (w : RegWord) (s : State) : Host.Outcome State Fault Refusal :=
  issueWord (.rol w) s (aluWord w.mod fun n _ a b _ => irol n a b)

/-- Left rotation by b mod w, b from IMM32 (R246). -/
def execRolWide (w : WideWord) (s : State) : Host.Outcome State Fault Refusal :=
  issueWord (.rolWide w) s (aluWord w.mod fun n _ a b _ => irol n a b)

/-- Bit field of a (R248). -/
def execBfx (w : RegWord) (s : State) : Host.Outcome State Fault Refusal :=
  issueWord (.bfx w) s (aluWord w.mod fun n u a b _ => bfx n u a b)

/-- Bit field of a, b from IMM32 (R248). -/
def execBfxWide (w : WideWord) (s : State) : Host.Outcome State Fault Refusal :=
  issueWord (.bfxWide w) s (aluWord w.mod fun n u a b _ => bfx n u a b)

/-- d := (a × b + c) mod 2^w (R243). -/
def execImad (w : RegWord) (s : State) : Host.Outcome State Fault Refusal :=
  issueWord (.imad w) s (aluWord w.mod fun n _ a b c => imad n a b c)

/-- d := (a × b + c) mod 2^w, b from IMM16 (R243). -/
def execImadShort (w : ShortWord) (s : State) : Host.Outcome State Fault Refusal :=
  issueWord (.imadShort w) s (aluWord w.mod fun n _ a b c => imad n a b c)

/-- d := (|a − b| + c) mod 2^w (R243). -/
def execIsad (w : RegWord) (s : State) : Host.Outcome State Fault Refusal :=
  issueWord (.isad w) s (aluWord w.mod fun n u a b c => isad n u a b c)

/-- d := (|a − b| + c) mod 2^w, b from IMM16 (R243). -/
def execIsadShort (w : ShortWord) (s : State) : Host.Outcome State Fault Refusal :=
  issueWord (.isadShort w) s (aluWord w.mod fun n u a b c => isad n u a b c)

/-- a inserted in c (R248). -/
def execBfi (w : RegWord) (s : State) : Host.Outcome State Fault Refusal :=
  issueWord (.bfi w) s (aluWord w.mod fun n _ a b c => bfi n a b c)

/-- a inserted in c, b from IMM16 (R248). -/
def execBfiShort (w : ShortWord) (s : State) : Host.Outcome State Fault Refusal :=
  issueWord (.bfiShort w) s (aluWord w.mod fun n _ a b c => bfi n a b c)

/-- Funnel shift of c and a (R246). -/
def execShf (w : RegWord) (s : State) : Host.Outcome State Fault Refusal :=
  issueWord (.shf w) s (aluWord w.mod fun n _ a b c => ishf n a b c)

/-- Funnel shift of c and a, b from IMM16 (R246). -/
def execShfShort (w : ShortWord) (s : State) : Host.Outcome State Fault Refusal :=
  issueWord (.shfShort w) s (aluWord w.mod fun n _ a b c => ishf n a b c)

/-- High half of the product (R243). -/
def execImulh (w : RegWord) (s : State) : Host.Outcome State Fault Refusal :=
  issueWord (.imulh w) s (aluWord w.mod fun n u a b _ => imulh n u a b)

/-- 32-bit product with a 64-bit sum (R243). -/
def execImadw (w : RegWord) (s : State) : Host.Outcome State Fault Refusal :=
  issueWord (.imadw w) s (fixedWord fun a b c => imadw w.mod[1] (a % 2 ^ 32) (b % 2 ^ 32) c)

/-- 32-bit product with a 64-bit sum, b from IMM16 (R243). -/
def execImadwShort (w : ShortWord) (s : State) : Host.Outcome State Fault Refusal :=
  issueWord (.imadwShort w) s (fixedWord fun a b c => imadw w.mod[1] (a % 2 ^ 32) (b % 2 ^ 32) c)

/-- |a| mod 2^w (R243). -/
def execIabs (w : RegWord) (s : State) : Host.Outcome State Fault Refusal :=
  issueWord (.iabs w) s (aluWord w.mod fun n _ a _ _ => iabs n a)

/-- (0 − a) mod 2^w (R243). -/
def execIneg (w : RegWord) (s : State) : Host.Outcome State Fault Refusal :=
  issueWord (.ineg w) s (aluWord w.mod fun n _ a _ _ => ineg n a)

/-- Not a (R246). -/
def execNot (w : RegWord) (s : State) : Host.Outcome State Fault Refusal :=
  issueWord (.not w) s (aluWord w.mod fun n _ a _ _ => inot n a)

/-- Count of one bits (R246). -/
def execPopc (w : RegWord) (s : State) : Host.Outcome State Fault Refusal :=
  issueWord (.popc w) s (aluWord w.mod fun n _ a _ _ => popc n a)

/-- Count of leading zeros (R246). -/
def execClz (w : RegWord) (s : State) : Host.Outcome State Fault Refusal :=
  issueWord (.clz w) s (aluWord w.mod fun n _ a _ _ => clz n a)

/-- Count of trailing zeros (R246). -/
def execCtz (w : RegWord) (s : State) : Host.Outcome State Fault Refusal :=
  issueWord (.ctz w) s (aluWord w.mod fun n _ a _ _ => ctz n a)

/-- Bit reversal (R246). -/
def execBrev (w : RegWord) (s : State) : Host.Outcome State Fault Refusal :=
  issueWord (.brev w) s (aluWord w.mod fun n _ a _ _ => brev n a)

/-- Each bit through the table TT, inverted by INV (R247). -/
def execLop3 (w : RegWord) (s : State) : Host.Outcome State Fault Refusal :=
  issueWord (.lop3 w) s (aluWord w.mod fun n _ a b c => lop3 n a b c (bits w.imm.toNat 7 0) w.imm[8])

/-- a + (b << SH) mod 2^64; a 32-bit b is sign-extended (R245). -/
def execLea (w : RegWord) (s : State) : Host.Outcome State Fault Refusal :=
  issueWord (.lea w) s (fixedWord fun a b _ => lea a (wrapInt 64 (signedOf (opw w.mod) b)) (bits w.imm.toNat 2 0))

/-- a + SignExtend(IMM32) mod 2^64 (R245). -/
def execLeaWide (w : WideWord) (s : State) : Host.Outcome State Fault Refusal :=
  issueWord (.leaWide w) s (fixedWord fun a b _ => lea a b 0)

/-- Bytes of a and c under the control word b (R249). -/
def execPrmt (w : RegWord) (s : State) : Host.Outcome State Fault Refusal :=
  issueWord (.prmt w) s (fixedWord fun a b c => prmt a b c)

/-- Bytes of a and c under IMM16 (R249). -/
def execPrmtShort (w : ShortWord) (s : State) : Host.Outcome State Fault Refusal :=
  issueWord (.prmtShort w) s (fixedWord fun a _ c => prmt a w.imm.toNat c)

/-- Sum with carry through p6 (R244). -/
def execIaddc (w : RegWord) (s : State) : Host.Outcome State Fault Refusal :=
  issueWord (.iaddc w) s (carryWord w.mod)

/-- Sum with carry through p6, b from IMM32 (R244). -/
def execIaddcWide (w : WideWord) (s : State) : Host.Outcome State Fault Refusal :=
  issueWord (.iaddcWide w) s (carryWord w.mod)

/-- Compare into a predicate (R250). -/
def execIcmp (w : RegWord) (s : State) : Host.Outcome State Fault Refusal :=
  issueWord (.icmp w) s (aluWord w.mod fun n u a b c => (combine (bits w.imm.toNat 4 3) (icompare n u (bits w.imm.toNat 2 0) a b) (c != 0)).toNat)

/-- a if q else b (R251). -/
def execSel (w : RegWord) (s : State) : Host.Outcome State Fault Refusal :=
  issueWord (.sel w) s (aluWord w.mod fun _ _ a b c => if c != 0 then a else b)

/-- a if q else IMM16 (R251). -/
def execSelShort (w : ShortWord) (s : State) : Host.Outcome State Fault Refusal :=
  issueWord (.selShort w) s (aluWord w.mod fun _ _ a b c => if c != 0 then a else b)

/-- A predicate from two others through TT (R252). -/
def execPset (w : RegWord) (s : State) : Host.Outcome State Fault Refusal :=
  issueWord (.pset w) s (fixedWord fun a b _ => (psetBit (bits w.imm.toNat 3 0) (a != 0) (b != 0)).toNat)

/-- Predicates to or from a register (R253). -/
def execPmov (w : RegWord) (s : State) : Host.Outcome State Fault Refusal :=
  issueWord (.pmov w) s (if w.imm[0] then predsFrom (bits w.imm.toNat 14 8) else predsTo)

/-- d := a (R265). -/
def execMov (w : RegWord) (s : State) : Host.Outcome State Fault Refusal :=
  issueWord (.mov w) s (aluWord w.mod fun _ _ a _ _ => a)

/-- d := IMM32 (R265). -/
def execMovi (w : WideWord) (s : State) : Host.Outcome State Fault Refusal :=
  issueWord (.movi w) s (aluWord w.mod fun _ _ _ b _ => b)

end Sys2Proof.Machine
end

