-- ==== Sys2Proof/Machine/Park.lean ====
section
/-! DEFINITION. Fetching an instruction's bytes (R74, R199, R202, R397), parking a word in the operand log with its
notice (R58, R387, R388), and the passing of time. -/

namespace Sys2Proof.Machine

/-! ## Parking (R58, R387, R388) -/

/-- The cell of a warp place in the system fault queue (R138). -/
def placeCell (core slot warp : Nat) : Nat := core * 64 + slot * 8 + warp
/-- The cell of a stream-engine log entry. -/
def streamCell (core entry : Nat) : Nat := 8192 + core * 64 + entry
/-- The cell of a copy record. -/
def copyCell (core copy : Nat) : Nat := 16384 + core * 32 + copy
/-- The cell of a translation entry. -/
def transCell (txid : Nat) : Nat := 20480 + txid

/-- The code of a parking cause in a notice (R388). -/
def causeCode (cause : Nat) : Nat := if cause = Cause.page ∨ cause = Cause.malformed then 1 else if cause = Cause.remote then 2 else 3

/-- The access notice's body (R388). -/
def accessBody (va lanes kind size pn causes log : Nat) : List Byte :=
  toBytes 8 va ++ toBytes 4 lanes ++ toBytes 1 kind ++ toBytes 1 size ++ toBytes 2 pn ++ toBytes 8 causes
    ++ toBytes 2 log ++ List.replicate 22 0

/-- A LOG value is in use on the die. -/
def Die.logUsed (d : Die) (log : Nat) : Bool := d.groups.any fun g => g.log.any fun w => w.log == log

/-- The operand-log entry that a word parks in: the lowest that neither the group nor a group swapped out of the
same slot holds, so that a notice names one word. -/
def Die.freeLog (d : Die) (g : Group) : Nat :=
  let own := fun (e : Nat) => g.log.any fun w => w.entry == e
  ((List.range 16).find? fun e => !own e && !d.logUsed (g.core * 128 + g.slot * 16 + e)).getD
    (((List.range 16).find? fun e => !own e).getD 0)

/-- The warp has a parked word (R58). -/
def Group.parked (g : Group) (warp : Nat) : Bool := g.log.any fun w => w.x.warp == warp

/-- Park threads of a word: the operand log takes the word and one notice goes to the system fault queue. `addrs`
gives each lane's address, `causes` the faulting lanes' causes. -/
def State.park (s : State) (d gid : Nat) (x : Issued) (threads : List Nat) (kind size : Nat)
    (addrs : List (Nat × DWord)) (causes : List (Nat × Nat)) (fetch : Bool) : State :=
  match s.group? d gid with
  | none => s
  | some g =>
    let e := (s.die d).freeLog g
    let low := (leastBy (fun c => c.1) causes).map (·.1)
    let va := ((addrs.find? fun a => some a.1 == low).map fun a => a.2.toNat).getD 0
    let lanes := causes.foldl (fun m c => Nat.lor m (2 ^ c.1)) 0
    let codes := causes.foldl (fun m c => m + causeCode c.2 * 4 ^ c.1) 0
    let log := g.core * 128 + g.slot * 16 + e
    let s := s.modGroup d gid fun g =>
      { (g.await threads (.fault e)).pendSet x.dst with
        log := g.log ++ [⟨e, log, x, threads, kind, size, addrs, causes.map fun c => (c.1, causeCode c.2), fetch, causes.any fun c => c.2 == Cause.malformed, none, false⟩] }
    s.modDie d fun y => y.notice
      ⟨placeCell g.core g.slot x.warp, 0x0101, accessBody va lanes kind size g.ctx.pn codes log⟩

/-! ## Fetching (R74, R199, R397) -/

/-- What a fetch of bytes through the instruction cache gives. -/
inductive Fetched where
  | ok (x : Nat) (poison : Bool)
  | bad (cause : Nat)
  | hole (a : Nat)
deriving DecidableEq, Repr, Inhabited

/-- A line as a fetch takes it in: its bytes, and which of them are poisoned (R397, R436). -/
def Die.lineNow (d : Die) (r : LineRef) : BitVec 512 × DWord :=
  let bs := (List.range 64).map fun i => d.committedByte r i
  (BitVec.ofNat 512 (ofBytes (bs.map (·.1))), BitVec.ofNat 64 (((List.range 64).zip bs).foldl (fun m b => m + b.2.2.toNat * 2 ^ b.1) 0))

/-- A line enters the instruction cache, which holds 1,024 lines (R74). DESIGN CHOICE (log entry 81): the spec gives the
cache no sets and no replacement; it is fully associative, and the line that came in first leaves. -/
def Core.fillCode (c : Core) (pn line : Nat) (data : BitVec 512) (poison : DWord) : Core :=
  let kept := c.icache.filter fun l => !(l.pn == pn && l.line == line)
  { c with icache := kept.drop (kept.length + 1 - 1024) ++ [⟨pn, line, data, poison⟩] }

/-- The instruction cache's line (R74): filled through the L2 on a miss, and left there on a hit. While the line in memory
has changed since, either may be fetched until an XINV is complete: a free choice. -/
def State.codeLine (s : State) (d core pn : Nat) (r : LineRef) : (BitVec 512 × DWord) × State :=
  let now := (s.die d).lineNow r
  let fill := fun (s : State) =>
    (now, s.modDie d fun x => (x.l2Load r 0).modCore core fun c => c.fillCode pn r.addr now.1 now.2)
  match ((s.die d).core core).icache.find? fun l => l.pn == pn && l.line == r.addr with
  | none => fill s
  | some l =>
    if (l.data, l.poison) = now then (now, s)
    else
      let (n, s) := s.draw
      if Config.freeKeep n then ((l.data, l.poison), s) else fill s

/-- `n` bytes, within one line, fetched with the right EX in a process's address space. DESIGN CHOICE (log entry 82): a
fetch from a page of device-register space is ADDRESS, whatever its size and alignment, as the instruction cache takes in
whole lines and R41 allows 4 or 8 bytes. -/
def State.fetchBytes (s : State) (d core pn va n : Nat) : Fetched × State :=
  let (c, s) := s.checkAccess d core pn ⟨[], [], []⟩ .fetch va n
  match c with
  | .bad cause => (.bad cause, s)
  | .hole a => (.hole a, s)
  | .ok spots _ =>
    match spots with
    | .line r off :: _ =>
      let ((data, poison), s) := s.codeLine d core pn r
      let bad := (List.range n).any fun i => poison.toNat.testBit (off + i)
      (.ok (data.toNat / 256 ^ off % 256 ^ n) bad, s)
    | _ => (.bad Cause.address, s)

/-- What a fetch of a word with its literal gives: the bytes; or the cause, the address whose fetch failed and the length of
the word as far as it is known. -/
inductive FetchedWord where
  | ok (x : Nat)
  | bad (cause at_ len : Nat)
  | hole (a : Nat)
deriving DecidableEq, Repr, Inhabited

/-- A fetch as one of a word's: poisoned bytes are the cause POISON (R397). -/
def Fetched.asWord (f : Fetched) (at_ len : Nat) (k : Nat → FetchedWord) : FetchedWord :=
  match f with
  | .ok x false => k x
  | .ok _ true => .bad Cause.poison at_ len
  | .bad cause => .bad cause at_ len
  | .hole a => .hole a

/-- The word at an address with its literal (R199, R202): the bytes of a format-10 word's second word follow, and a fault
of their fetch is a fault of the whole word. -/
def State.fetchWord (s : State) (d core pn pc : Nat) : FetchedWord × State :=
  let (a, s) := s.fetchBytes d core pn pc 8
  match a with
  | .ok x false =>
    if wordLength (BitVec.ofNat 64 x) = 8 then (.ok x, s)
    else
      let lit := (pc + 8) % 2 ^ 43
      let (b, s) := s.fetchBytes d core pn lit 8
      (b.asWord lit 16 fun y => .ok (x + y * 2 ^ 64), s)
  | other => (other.asWord pc 8 .ok, s)

/-! ## Time -/

/-- The clock period in picoseconds at a frequency point (R3, R409): 0 1.25 GHz, 1 1.00 GHz, 2 0.80 GHz. -/
def period (point : BitVec 2) : Nat := if point = 0 then 800 else if point = 1 then 1000 else 1250

/-- The warp counts as waiting for the watchdog: every member waits, it is parked on absent lines, or it is stopped (R72,
R193, R382). -/
def Group.idle (g : Group) (w : Nat) : Bool :=
  g.stopped w || g.linesParked w || (g.members w).all fun t => (g.thread t).wait.isSome

/-- Time passes for a resident group: its resident clocks and the watchdog counters of its warps (R193). -/
def Group.tick (g : Group) (clocks ps : Nat) : Group :=
  if g.phase ≠ .resident then g
  else
    let g := { g with resClk := g.resClk + clocks, resPs := g.resPs + ps }
    (List.range g.warps).foldl (fun g w =>
      if g.idle w then g
      else { g with wdcount := tput g.wdcount w (tgetD g.wdcount w 0 + clocks) }) g

/-- Clocks pass on a die. While a frequency change runs, issue and engines pause (R409). -/
def State.passTime (s : State) (d clocks : Nat) : State :=
  s.modDie d fun x =>
    let ps := clocks * period x.freqPoint
    { x with clock := x.clock + clocks, ps := x.ps + ps
             groups := x.groups.map fun g => { (if x.paused then g else g.tick clocks ps) with now := x.ps + ps }
             cores := x.cores.map fun (k, c) => (k, { c with port := none }) }

end Sys2Proof.Machine
end

