-- ==== Sys2Proof/Machine/Registers.lean ====
section
/-! DEFINITION. Writes of the device registers (R41, R42, R103, R112, R370, R371, R389, R392, R433). -/

namespace Sys2Proof.Machine

/-! ## Port commands and invalidations: their start -/

/-- OP of a QCMD write. -/
def cmdOp (c : DWord) : Nat := bits c.toNat 63 56
/-- INDEX of a QCMD write. -/
def cmdIndex (c : DWord) : Nat := bits c.toNat 47 32

/-- Commands whose OP is none of R113's complete with MALFORMED; one of the management core ends with its reply. -/
def Port.skipUnknown (p : Port) (cmds : List PortCmd) : Port :=
  match cmds with
  | [] => { p with cmds := [] }
  | c :: rest =>
    if (1 ≤ cmdOp c.word ∧ cmdOp c.word ≤ 7) ∨ c.back.isSome then { p with cmds := c :: rest }
    else { p with status := BitVec.ofNat 8 St.malformed, result := 0 }.skipUnknown rest

/-- A command begins, or is held behind the one in progress (R112). -/
def Port.addCmd (p : Port) (c : PortCmd) : Port :=
  if p.cmds.isEmpty then p.skipUnknown [c] else { p with cmds := p.cmds ++ [c] }

/-- The command in progress completes with a status and a result; the next one begins (R112). -/
def Port.endCmd (p : Port) (status result : Nat) : Port :=
  { p with status := BitVec.ofNat 8 status, result := BitVec.ofNat 16 result }.skipUnknown (p.cmds.drop 1)

/-- A write of XINV: scope 3 is ignored, and a write while one is in progress is held (R42, R61). -/
def Space.writeXinv (x : Space) (v : DWord) : Space :=
  if bits v.toNat 63 62 = 3 then x
  else if x.xinv.isSome then { x with xinvHeld := x.xinvHeld ++ [v] } else { x with xinv := some v }

/-- A write of FANS (R389): the answer is kept with its entry until it is carried out. COMPLETE on an entry of KIND
3 or 4, on a stream entry, or where a malformed entry was met, is taken as DECLINE (R59; log entry 85). -/
def Die.writeFans (d : Die) (v : Nat) : Die :=
  let ans := bits v 31 30
  let log := v % 2 ^ 14
  if ans = 0 then d
  else if bit v 29 then
    d.modCore (bits log 13 7) fun c =>
      { c with slog := modWhere (fun e => e.entry == log % 64 && e.answer.isNone)
                         (fun e => { e with answer := some (if ans = 2 then 3 else ans) }) c.slog }
  else
    match d.parkedAt log with
    | none => d
    | some (g, w) =>
      if w.answered then d
      else
        let ans := if ans = 2 ∧ (3 ≤ w.kind ∨ w.malformed) then 3 else ans
        let (x, d) := if ans = 2 then d.fetchAt .engine (bits d.sched.frblk.toNat 51 9 * 512) 512 else ((0, false), d)
        let block := if ans = 2 then toBytes 512 x.1 else []
        d.modGroup g.gid fun g =>
          { g with log := modWhere (fun x => x.entry == w.entry) (fun x => { x with answer := some (ans, block), answered := true }) g.log }

/-- A write of TXANS (R371): the answer is kept with its entry until it is carried out. -/
def Die.writeTxans (d : Die) (v : Nat) : Die :=
  let ans := bits v 31 30
  if ans = 1 ∨ ans = 2 then
    d.modSched fun x =>
      { x with trans := modWhere (fun t => t.txid == v % 4096 && t.waiting && t.answer.isNone)
                          (fun t => { t with answer := some ans }) x.trans }
  else d

/-! ## Writes -/

/-- A value that a 4-byte or 8-byte write leaves in a 64-bit register; a half that is not written keeps its value. -/
def half (old : DWord) (lo n v : Nat) : Nat :=
  if n = 8 then v else setBits old.toNat (8 * lo + 31) (8 * lo) v

/-- A write of a 64-bit register or of half of one; `mc` is the management core. A half of a command register is
written with the other half zero. -/
def Die.writeReg64 (d : Die) (block off lo n v : Nat) : Die :=
  let word := fun (old : DWord) => half old lo n v
  let cmd := BitVec.ofNat 64 (half 0 lo n v)
  match block, off with
  | 1, 0x00 =>
    let x := word d.space.procbase
    { d with space := { d.space with procbase := BitVec.ofNat 64 (bits x 51 15 * 2 ^ 15 + x % 2) } }
  | 1, 0x10 => { d with space := d.space.writeXinv cmd }
  | 2, 0x00 => d.modPort fun p => let x := word p.qntroot; { p with qntroot := BitVec.ofNat 64 (bits x 51 16 * 2 ^ 16 + x % 2) }
  | 2, 0x08 => d.modPort fun p => p.addCmd ⟨cmd, none, none⟩
  | 2, 0x10 => d.modPort fun p => { p with qarg := BitVec.ofNat 64 (bits (word p.qarg) 51 6 * 64) }
  | 3, 0x20 => d.modSched fun x => { x with frblk := BitVec.ofNat 64 (bits (word x.frblk) 51 9 * 512) }
  | 3, 0x28 => d.modSched fun x => { x with savebase := BitVec.ofNat 64 (bits (word x.savebase) 51 14 * 2 ^ 14) }
  | _, _ => d

/-- The configuration record that 128 bytes make, reserved bits dropped (R25). -/
def confOf (bs : List Byte) : ConfRec :=
  let w := fun (o : Nat) => ofBytes ((bs.drop o).take 4)
  let word := fun (o : Nat) => BitVec.ofNat 32 (w o)
  { bootClass := BitVec.ofNat 32 (w 0 / 4 * 4), liveClass := BitVec.ofNat 32 (w 4 / 4 * 4), gen := word 8
    ident := BitVec.ofNat 32 (w 0xC / 16 * 16)
    clmap := ((bs.drop 0x10).take 32).map (· &&& 0x8F), cloff := ((bs.drop 0x30).take 32).map (· &&& 0x8F)
    ch := [word 0x50, word 0x54], choff := [word 0x58, word 0x5C], seams := BitVec.ofNat 32 (w 0x60 % 2 ^ 20), retired := word 0x64 }

/-- The management core writes a word of the configuration record; GEN follows every change (R25). -/
def ConfRec.write (c : ConfRec) (off v : Nat) : ConfRec :=
  let bs := c.bytes
  let c' := confOf (bs.take off ++ toBytes 4 v ++ bs.drop (off + 4))
  if c' = c ∨ off = 8 then c' else { c' with gen := c.gen + 1 }

/-- A write of a 32-bit register. -/
def Die.writeReg32 (d : Die) (mc : Bool) (block off v : Nat) : Die :=
  match block, off with
  | 0, off => if mc ∧ off < 128 then { d with conf := d.conf.write off v } else d
  | 1, 0x08 =>
    let i := v % 2 ^ 20
    if mc ∧ 1000 ≤ i ∧ i ≤ 1000000 then { d with space := { d.space with pendingInterval := some i } } else d
  | 1, 0x1C =>
    let q := v % 32
    if mc ∧ 1 ≤ q ∧ q ≤ 16 then { d with flash := { d.flash with table := { d.flash.table with qspill := q }, mirrorDue := true } } else d
  | 3, 0x00 =>
    let t := v % 2 ^ 20
    if t = 0 ∨ (100 ≤ t ∧ t ≤ 1000000) then d.modSched fun x => { x with swapth := t } else d
  | 3, 0x10 => d.writeTxans v
  | 3, 0x18 => d.writeFans v
  | 3, 0x1C => d.modSched fun x => { x with fsel := BitVec.ofNat 32 (bits v 29 29 * 2 ^ 29 + v % 2 ^ 14) }
  | 3, 0x30 =>
    let n := v % 2 ^ 11
    if n ≤ 1024 then d.modSched fun x => { x with saven := n } else d
  | 4, 0x00 => { d with memctl := { d.memctl with mchot := BitVec.ofNat 32 (v % 2 ^ 24) } }
  | 5, 0x00 =>
    -- the level only rises (R432), and a bit of SRC stays set (R433)
    if mc then { d with alarm := max d.alarm (bits v 31 30), glitch := bits v 23 16
                        alarmSrc := d.alarmSrc ||| BitVec.ofNat 6 (v % 64) } else d
  | 5, 0x04 =>
    -- POINT is never above REQ (R435): 2 is the lowest point
    let req := if bits v 3 2 = 3 then d.freqReq else BitVec.ofNat 2 (bits v 3 2)
    let point := if bits v 1 0 = 3 then d.freqPoint else BitVec.ofNat 2 (bits v 1 0)
    if mc then { d with tj := BitVec.ofNat 8 (bits v 31 24), power := BitVec.ofNat 8 (bits v 23 16)
                        freqReq := req, freqPoint := if point < req then req else point } else d
  | _, _ => d

/-- The 64-bit registers that are written. -/
def isReg64 (block off : Nat) : Bool :=
  [(1, 0x00), (1, 0x10), (2, 0x00), (2, 0x08), (2, 0x10), (3, 0x20), (3, 0x28)].contains (block, off)

/-- The 32-bit registers at offsets that are multiples of 8, the words of the configuration record among them: they take no
8-byte width (R25, R423). -/
def isReg32 (block off : Nat) : Bool :=
  (block == 0 && off < 0x68) || [(1, 0x08), (1, 0x18), (2, 0x18), (3, 0x00), (3, 0x10), (3, 0x18), (3, 0x30), (4, 0x00), (4, 0x18), (4, 0x20), (5, 0x00)].contains
    (block, off)

/-- An aligned write of 4 or 8 bytes of device-register space by system software, or by the management core when
`mc` is set. An 8-byte write over two 32-bit registers writes both. -/
def Die.writeReg (d : Die) (mc : Bool) (a n v : Nat) : Die :=
  let off := a - devBase
  let block := off / 65536
  let o := off % 65536
  if isReg64 block (o - o % 8) then d.writeReg64 block (o - o % 8) (o % 8) n v
  else if n = 8 then (d.writeReg32 mc block o (v % 2 ^ 32)).writeReg32 mc block (o + 4) (bits v 63 32)
  else d.writeReg32 mc block o v

end Sys2Proof.Machine
end

