-- ==== Sys2Proof/Machine/Window.lean ====
section
/-! DEFINITION. The window (R44 to R47, R353), parking on absent lines (R71, R72), the re-evaluation of WAIT (R281)
and reads of tables as code (R276, R57, R58). -/

namespace Sys2Proof.Machine

/-- A window access of n bytes is aligned and lies below the frame's top (R46). -/
def Group.windowOk (g : Group) (off n : Nat) : Bool := off < 2 ^ 17 && off % n == 0 && off + n ≤ g.top

/-- The v-registers that `n` window bytes overlap (R45, R47). -/
def Group.regsAt (g : Group) (off n : Nat) : List Res :=
  let r := g.ctx.frame.regs
  distinct ((List.range n).filterMap fun i =>
    let k := (off + i) / 128
    if off + i < g.b1 then some (.v (k / r) (k % r)) else none)

/-- A wait on the window of a word that issued before word x (R47). -/
def Wait.before (w : Wait) (x : Issued) : Bool :=
  match w with
  | .lines y _ _ => x.order == 0 || y.order < x.order
  | _ => false

/-- The window accesses that words issued before x have still to make (R47). -/
def Group.accsBefore (g : Group) (x : Issued) : List WinAcc :=
  g.threads.flatMap fun t => match t.wait with
    | some (.lines y accs regs) => if Wait.before (.lines y accs regs) x then accs else []
    | _ => []

/-- A write of the register that came before word x is not complete: one by a word that waits on the window too is told by
its place, and no other word issues while the register is pending (R47, R211). -/
def Group.writtenBefore (g : Group) (x : Issued) (r : Res) : Bool :=
  g.isPending r && (x.order == 0 || (g.log.any fun w => w.x.dst.contains r) || g.threads.any fun t => t.wait.any fun w =>
    w.held.contains r && match w with
      | .lines .. => w.before x
      | _ => true)

/-- Two window accesses have to be made in issue order (R47). -/
def WinAcc.clashes (a b : WinAcc) : Bool := (a.store || b.store) && a.off < b.off + b.n && b.off < a.off + a.n

/-- A window access of word x waits: a line is absent (R72), or an earlier write of an overlapped register or an earlier
access of the same bytes is not complete (R47). -/
def Group.accBusy (g : Group) (x : Issued) (a : WinAcc) : Bool :=
  g.anyAbsent a.off a.n || (g.regsAt a.off a.n).any (g.writtenBefore x) || (g.accsBefore x).any a.clashes

/-- The registers that some held window load has still to read: no later word writes them first (R47). -/
def Group.heldReads (g : Group) : List Res :=
  g.threads.flatMap fun t => match t.wait with
    | some (.lines _ accs _) => (accs.filter fun a => !a.store).flatMap fun a => g.regsAt a.off a.n
    | _ => []

/-- The word's wait on the window: it takes its place after every word that waits there already, and keeps it (R47). -/
def Group.windowWait (g : Group) (x : Issued) (accs : List WinAcc) : Wait :=
  let last := g.threads.foldl (fun n t => match t.wait with
    | some (.lines y _ _) => max n y.order
    | _ => n) 0
  .lines (if x.order = 0 then { x with order := last + 1 } else x) accs
    (distinct ((accs.filter WinAcc.store).flatMap fun a => g.regsAt a.off a.n))

/-- A word that reads the window in one piece does so once its bytes are there and every earlier store to them is made (R46,
R47, R72). -/
def Job.readsWindow (j : Job) (s : State) (accs : List WinAcc) (k : State → State) : State :=
  if accs.any ((j.group s).accBusy j.x) then j.wait s ((j.group s).windowWait j.x accs) else k s

/-- A read of n window bytes. -/
def readAcc (off n : Nat) : WinAcc := ⟨off, n, false⟩

/-- What a read of four bytes at a partition offset gives and whether it is poisoned, none while their line is absent (R72,
R281). -/
def Group.watched (g : Group) (off : Nat) : Option (Nat × Bool) :=
  if g.absent.contains (off / 64) then none
  else
    let bs := (List.range 4).map fun i => g.partByte (off + i)
    some (ofBytes (bs.map (·.1)), bs.any (·.2))

/-- The read of a WAIT has met poison: the thread waits no more for its word, and consumes the poison as the step ends (R281,
R291). -/
def Wait.strike (w : Wait) : Wait :=
  match w with
  | .wait x off cmp deadline _ => .wait x off cmp deadline true
  | w => w

/-- The threads that satisfy a test, suspended or not, have met poison. -/
def Group.strikeWaits (g : Group) (sel : Wait → Bool) : Group :=
  let hit := fun (o : Option Wait) => o.map fun w => if sel w then w.strike else w
  { g with threads := g.threads.map fun t =>
      { t with wait := hit t.wait, susp := if t.suspEnd.isNone then hit t.susp else t.susp } }

/-- The four bytes at an offset lie in one of some ranges, given by offset and length, in part at least. -/
def rangesHit (ranges : List (Nat × Nat)) (off : Nat) : Bool := ranges.any fun r => r.1 < off + 4 && off < r.1 + r.2

/-- Evaluate the WAITs of the group whose bytes lie in ranges of the partition that were written or became present (R281,
R72): one whose four bytes differ from the compare value ends with pd 1. The read that ends a wait is a window load, which
consumes poison (R291). The offset in the wait is a partition offset. -/
def Group.recheckWaits (g : Group) (ranges : List (Nat × Nat)) : Group :=
  let test := fun (p : Word → Nat × Bool → Bool) (w : Wait) => match w with
    | .wait _ off cmp _ false => rangesHit ranges off && (g.watched off).any (p cmp)
    | _ => false
  let bad := test fun _ r => r.2
  let due := test fun cmp r => !r.2 && r.1 != cmp.toNat
  let g := if g.hasWait bad then g.strikeWaits bad else g
  if g.hasWait due then g.endWaits due ⟨true, 0⟩ else g

/-- Evaluate the WAITs on window bytes of the context in force. -/
def Group.recheckWindow (g : Group) (ranges : List (Nat × Nat)) : Group :=
  g.recheckWaits (ranges.map fun r => (g.ctx.frame.base + r.1, r.2))

/-- Evaluate the WAITs on partition lines. -/
def Group.recheckLines (g : Group) (ls : List Nat) : Group := g.recheckWaits (ls.map fun l => (64 * l, 64))

/-- Store bytes in the window and evaluate the WAITs. -/
def Group.storeWindow (g : Group) (off : Nat) (bs : List Byte) (poison : Bool) : Group :=
  (g.putWindow off bs poison).recheckWindow [(off, bs.length)]

/-! ## Reads of table entries as code (R276, R350) -/

/-- The outcome of one lane's read. -/
structure LaneRead where
  t : Nat
  va : Nat
  got : Fetched
deriving DecidableEq, Repr, Inhabited

/-- Read n bytes as code for each of some threads. -/
def State.readLanes (s : State) (d core pn n : Nat) (l : List (Nat × Nat)) : List LaneRead × State :=
  match l with
  | [] => ([], s)
  | (t, va) :: rest =>
    let (f, s) := s.fetchBytes d core pn va n
    let (more, s) := s.readLanes d core pn n rest
    (⟨t, va, f⟩ :: more, s)

/-- The cause of a read that failed. -/
def LaneRead.cause (r : LaneRead) : Nat :=
  match r.got with
  | .bad c => c
  | _ => 0

/-- The value read. -/
def LaneRead.value (r : LaneRead) : Nat :=
  match r.got with
  | .ok x _ => x
  | _ => 0

/-- The value read is poisoned. -/
def LaneRead.poisoned (r : LaneRead) : Bool :=
  match r.got with
  | .ok _ b => b
  | _ => false

/-- The walk left the memory that exists. -/
def LaneRead.hole (r : LaneRead) : Option Nat :=
  match r.got with
  | .hole a => some a
  | _ => none

/-- The issued threads that are not active pass, while the active ones wait. -/
def Job.passOthers (j : Job) (s : State) : State :=
  j.mod s (·.advance (j.ts.filter fun t => !j.act.contains t) j.x.len)

/-- Read 8-byte entries as code, one for each active lane, and go on with the values; faults come in the order of
R57, and PAGE, REMOTE and ANCHORED park the word (R58, KIND 3). -/
def Job.withEntries (j : Job) (s : State) (addr : LaneSrc → Nat) (k : List LaneRead → State → State) : State :=
  let g := j.group s
  let (rs, s) := s.readLanes j.d g.core g.ctx.pn 8 (j.x.lanes.map fun l => (l.t, addr l))
  match rs.findSome? LaneRead.hole with
  | some a => { s with hole := some a }
  | none =>
    match leastBy (fun r => causeRank r.cause) (rs.filter fun r => r.cause != 0 && !parks r.cause) with
    | some r =>
      let same := rs.filter fun q => q.cause == r.cause
      j.fault s r.cause (same.map fun q => q.t % 32) r.va
    | none =>
      let parked := rs.filter fun r => parks r.cause
      if !parked.isEmpty then
        s.park j.d j.gid j.x j.ts 3 8 (rs.map fun r => (r.t % 32, BitVec.ofNat 64 r.va))
          (parked.map fun r => (r.t % 32, r.cause)) false
      else
        let eaters := rs.filter LaneRead.poisoned
        if !eaters.isEmpty then j.fault s Cause.poison (eaters.map fun r => r.t % 32) 0
        else k rs s

end Sys2Proof.Machine
end

