-- ==== Sys2Proof/Machine/Access.lean ====
section
/-! DEFINITION. Performing accesses: in the L1, in a line's L2 slice, in a restartable node's tentative copies, or
at a device register (R41, R73, R78 to R82, R151, R167 to R170, R290, R436). -/

namespace Sys2Proof.Machine

/-- In whose name an access is made: the die and core, the slot for the L1, the node and the reuse hint. -/
structure Asking where
  d : Nat
  core : Nat
  slot : Nat
  node : Nat
  hint : Nat
deriving DecidableEq, Repr, Inhabited

/-! ## Tentative copies (R82, R167) -/

/-- The line that an L2 line or copy is of. -/
def L2Line.ref (l : L2Line) : LineRef := ⟨l.line, l.attr, l.pres⟩

/-- The node's writes are tentative (R167, R170). -/
def Die.tentative (d : Die) (nid : Nat) : Bool := (d.node? nid).any fun n => n.revocable && !n.turning

/-- The copy in the staging reserve stands beside this line, in the same slice. -/
def Die.stagedIs (d : Die) (t : TentLine) (r : LineRef) : Bool :=
  t.line == r.addr && t.pres == r.pres && d.sliceOf t.attr t.line == d.sliceOf r.attr r.addr

/-- A node's copy of a line that is in the staging reserve. -/
def Die.stagedOf (d : Die) (nid : Nat) (r : LineRef) : Option TentLine :=
  (d.node? nid).bind fun n => n.tent.find? fun t => d.stagedIs t r

/-- The copy as it reads back from the reserve: a sector that reads poisoned there loses the bytes that the node wrote to
it, and takes the mark (R82, R436). -/
def Die.unstaged (d : Die) (nid : Nat) (t : TentLine) : L2Line :=
  let bs := (List.range 64).map fun i => d.byteAt .engine (d.placeAddr t.place + i)
  let lost := [0, 1].filter fun i => ((bs.drop (32 * i)).take 32).any (·.2) && bits t.mask.toNat (32 * i + 31) (32 * i) != 0
  lost.foldl L2Line.strike
    { (default : L2Line) with
      slice := d.sliceOf t.attr t.line, line := t.line, attr := t.attr, pres := t.pres, node := some nid, valid := t.mask, dirty := t.mask
      mark := t.mark, data := BitVec.ofNat 512 (ofBytes (bs.map (·.1))) }

/-- A node's tentative copy of a line in its slice. -/
def Die.copyIn (d : Die) (nid : Nat) (r : LineRef) : Option L2Line := d.l2.find? fun l => l.isCopy nid (d.sliceOf r.attr r.addr) r

/-- A node's tentative copy of a line, wherever it is. -/
def Die.tentOf (d : Die) (nid : Nat) (r : LineRef) : Option L2Line :=
  (d.copyIn nid r).orElse fun _ => (d.stagedOf nid r).map (d.unstaged nid)

/-- Change a node's tentative copy in its slice. -/
def Die.copyModify (d : Die) (nid : Nat) (r : LineRef) (f : L2Line → L2Line) : Die :=
  let s := d.sliceOf r.attr r.addr
  { d with l2 := modWhere (fun l => l.isCopy nid s r) f d.l2 }

/-- The line of a place of the staging reserve is read in its slice (R78, R79). -/
def Die.fetchPlace (d : Die) (k : Nat) : Die := d.fetchLines .engine (d.placeAddr k) 64

/-- The node's tentative copy of a line is in its slice: it is there, it comes back from the reserve, or it starts with no
byte (R79, R82). -/
def Die.tentOpen (d : Die) (nid : Nat) (r : LineRef) (hint : Nat) : Die :=
  match d.copyIn nid r with
  | some _ => d.copyModify nid r fun l => { l with rr := if hint = 3 then l.rr else 0 }
  | none =>
    let s := d.sliceOf r.attr r.addr
    let d := match d.stagedOf nid r with
      | some t => d.fetchPlace t.place
      | none => d
    let (d, w) := d.makeRoom s (l2Set r.addr)
    match d.stagedOf nid r with
    | some t =>
      let d := { d with l2 := d.l2 ++ [{ d.unstaged nid t with way := w, rr := insertValue hint }] }
      d.modNode nid fun n => { n with tent := n.tent.filter fun u => u.place != t.place }
    | none => { d with l2 := d.l2 ++ [⟨s, r.addr, w, 0, 0, 0, 0, false, insertValue hint, 0, r.pres, some nid, r.attr⟩] }

/-- A node has a tentative line (R167). -/
def Die.hasTent (d : Die) (nid : Nat) : Bool :=
  d.l2.any (fun l => l.node == some nid) || (d.node? nid).any fun n => !n.tent.isEmpty

/-- A byte has a tentative copy. -/
def L2Line.has (t : L2Line) (i : Nat) : Bool := t.valid.toNat.testBit i || t.mark.toNat.testBit (i / 32)

/-! ## One line -/

/-- The bytes of a tentative copy as the node reads them. Those of an ALIAS line read as AWRITE would leave them over the
committed line (R97, R167; log entry 80). -/
def Die.copyData (d : Die) (r : LineRef) (t : L2Line) : BitVec 512 :=
  match r.pres with
  | none => t.data
  | some (_, _, afmt, _) =>
    let old := BitVec.ofNat 512 (ofBytes ((List.range 64).map fun i => (d.committedByte r i).1))
    aliasRound afmt (mergeBytes t.valid t.data old)

/-- Byte `i` of a line as the node sees it: its tentative copy where there is one, else the committed byte. -/
def Die.seenByte (d : Die) (nid : Nat) (r : LineRef) (i : Nat) : Byte × Bool :=
  match d.tentOf nid r with
  | none => d.committedByte r i
  | some t =>
    if t.valid.toNat.testBit i then (BitVec.ofNat 8 ((d.copyData r t).toNat / 256 ^ i), false)
    else if t.mark.toNat.testBit (i / 32) then (0, true)
    else d.committedByte r i

/-- The line comes into the L1 as its set's most recent, and the set keeps 8 (R73). -/
def Core.l1Touch (c : Core) (slice line slot : Nat) : Core :=
  let set := fun (a : Nat) => Config.l1Set a % 512
  let rest := c.l1.filter fun t => !(t.slice == slice && t.line == line && t.slot == slot)
  let same := rest.filter fun t => set t.line == set line
  { c with l1 := ⟨slice, line, slot⟩ :: rest.filter fun t => !((same.drop 7).contains t) }

/-- Bring a line in for a read: an L1 hit stays in the core; every other read goes to the slice that its translation
selects (R73, R77, R78, R80). -/
def Die.open_ (d : Die) (q : Asking) (r : LineRef) (l1 : Bool) : Die :=
  let slice := d.sliceOf r.attr r.addr
  if l1 && q.hint != 3 && (d.core q.core).l1.contains ⟨slice, r.addr, q.slot⟩ then d.modCore q.core fun c => c.l1Touch slice r.addr q.slot
  else
    let d := d.l2Load r q.hint
    let d := if (d.tentOf q.node r).isSome then d.tentOpen q.node r q.hint else d
    if l1 && q.hint != 3 then
      (d.modCore q.core fun c => c.l1Touch slice r.addr q.slot).l2Modify r fun l => { l with l1 := true }
    else d

/-- Store bytes of one line: tentatively in a revocable node; else directly, merged into a tentative copy where the
byte has one (R80, R167, R170). -/
def Die.storeLine (d : Die) (q : Asking) (r : LineRef) (bs : List (Nat × Byte)) : Die :=
  let put := fun (d : Die) (bs : List (Nat × Byte)) =>
    ((d.tentOpen q.node r q.hint).l1Invalidate r).copyModify q.node r fun l => bs.foldl (fun l (i, b) => l.putByte i b) l
  if d.tentative q.node then put d bs
  else
    let mine := (d.tentOf q.node r).getD default
    let kept := bs.filter fun b => mine.has b.1
    let rest := bs.filter fun b => !mine.has b.1
    let d := if kept.isEmpty then d else put d kept
    if rest.isEmpty then d else d.l2Store r q.hint rest

/-- Write poison over sectors of one line (R396, R436): tentatively in a revocable node; else directly, but for a sector of
which the node has a tentative byte, whose copy takes it (R167, R170). -/
def Die.poisonLine (d : Die) (q : Asking) (r : LineRef) (sectors : List Nat) : Die :=
  let mine := (d.tentOf q.node r).getD default
  let held := fun (i : Nat) => d.tentative q.node || (List.range 32).any fun k => mine.has (32 * i + k)
  let kept := sectors.filter held
  let rest := sectors.filter fun i => !held i
  let d := if kept.isEmpty then d
    else ((d.tentOpen q.node r q.hint).l1Invalidate r).copyModify q.node r fun l => kept.foldl L2Line.poison l
  if rest.isEmpty then d else d.l2Poison r q.hint rest

/-! ## Accesses of several bytes -/

/-- The lines of an access, in order. -/
def linesOfSpots (spots : List Spot) : List LineRef :=
  distinct (spots.filterMap fun p => match p with
    | .line r _ => some r
    | .reg _ => none)

/-- The register that an access names, if it names one. -/
def regOfSpots (spots : List Spot) : Option Nat :=
  match spots with
  | .reg a :: _ => some a
  | _ => none

/-- Read the bytes of an access, each with its poison. -/
def State.readSpots (s : State) (q : Asking) (spots : List Spot) (l1 : Bool) : List (Byte × Bool) × State :=
  match regOfSpots spots with
  | some a => ((toBytes spots.length ((s.die q.d).readReg a spots.length)).map fun b => (b, false), s)
  | none =>
    let s := s.modDie q.d fun x => (linesOfSpots spots).foldl (fun x r => x.open_ q r l1) x
    (spots.map fun p => match p with
      | .line r i => (s.die q.d).seenByte q.node r i
      | .reg _ => (0, false), s)

/-- The bytes of an access that lie in a line, with their values. -/
def bytesIn (r : LineRef) (cells : List (Spot × Byte)) : List (Nat × Byte) :=
  cells.filterMap fun (p, b) => match p with
    | .line r' i => if r' = r then some (i, b) else none
    | .reg _ => none

/-- Store the bytes of an access. -/
def State.writeSpots (s : State) (q : Asking) (spots : List Spot) (bs : List Byte) : State :=
  s.modDie q.d fun x =>
    match regOfSpots spots with
    | some a => x.writeReg false a spots.length (ofBytes bs)
    | none => (linesOfSpots spots).foldl (fun x r => x.storeLine q r (bytesIn r (spots.zip bs))) x

/-- Write poison over every sector that the bytes of an access lie in. -/
def State.poisonSpots (s : State) (q : Asking) (spots : List Spot) : State :=
  s.modDie q.d fun x => (linesOfSpots spots).foldl (fun x r =>
    x.poisonLine q r (distinct ((bytesIn r (spots.map fun p => (p, 0))).map fun c => c.1 / 32))) x

/-! ## Commit (R168) -/

/-- Poison and then bytes are written to a line. -/
def Die.commitBytes (d : Die) (r : LineRef) (sectors : List Nat) (bs : List (Nat × Byte)) : Die :=
  let d := if sectors.isEmpty then d else d.l2Poison r 0 sectors
  if bs.isEmpty then d else d.l2Store r 0 bs

/-- The poisoned sectors of a line. -/
def L2Line.markedSectors (l : L2Line) : List Nat := [0, 1].filter fun i => l.mark.toNat.testBit i

/-- The bytes a line holds, each with its place in the line. -/
def L2Line.heldBytes (l : L2Line) : List (Nat × Byte) :=
  ((List.range 64).filter fun i => l.valid.toNat.testBit i).map fun i => (i, BitVec.ofNat 8 (l.data.toNat / 256 ^ i))

/-- One tentative copy becomes committed: its poison and then its bytes, as stores to the line do. DEDUCED (log entry 117): a
commit is an engine's access, so it carries the hint .mid (R79). -/
def Die.commitLine (d : Die) (l : L2Line) : Die := d.commitBytes l.ref l.markedSectors l.heldBytes

/-- Every tentative line of a node loses its tag and becomes committed; its staged lines drain from the reserve. -/
def Die.commitNode (d : Die) (nid : Nat) : Die :=
  let tent := ((d.node? nid).map Node.tent).getD []
  let d := tent.foldl (fun d t => d.fetchPlace t.place) d
  let staged := tent.map (d.unstaged nid)
  let copies := d.l2.filter fun l => l.node == some nid
  ((copies ++ staged).foldl Die.commitLine { d with l2 := d.l2.filter fun l => l.node != some nid }).modNode nid fun n =>
    { n with tent := [] }

/-! ## Irrevocable effects (R169, R170) -/

/-- A registration of the die that is VALID or REVOKING holds one of the bytes (R169). -/
def Die.hostVisible (d : Die) (pn va n : Nat) : Bool :=
  d.port.registrations.any fun r => r.state != 0 && r.pn == pn && r.base < va + n && va < r.base + r.len

/-- An effect that makes the node irrevocable: it is held until what the node has staged is committed (R170). With
nothing staged the node turns irrevocable at once. -/
def Job.irrevocable (j : Job) (s : State) (k : State → State) : State :=
  let g := j.group s
  match (s.die j.d).nodeOf g with
  | none => k s
  | some n =>
    if !n.revocable then k s
    else if !(s.die j.d).hasTent n.nid then k (s.modDie j.d fun x => x.turnIrrevocable n.nid)
    else j.wait (s.modDie j.d fun x => x.modNode n.nid fun n => { n with turning := true }) (.commit j.x)

/-- The asking of a job's memory accesses. -/
def Job.asking (j : Job) (s : State) (hint : Nat) : Asking :=
  let g := j.group s
  ⟨j.d, g.core, g.slot, g.node, hint⟩

end Sys2Proof.Machine
end

