-- ==== Sys2Proof/Machine/Control.lean ====
section
/-! DEFINITION. Control flow (R191, R272 to R282). -/

namespace Sys2Proof.Machine

/-- A valid target (R272). -/
def validPc (x : Nat) : Bool := x % 8 == 0 && x < 2 ^ 43

/-- T of a relative branch (R272). -/
def relTarget (pc : Nat) (imm : BitVec 64) : Nat := (BitVec.ofNat 64 pc + imm * 8).toNat

/-- Send the active threads to their targets; the others pass. Every target must be valid (R272, R275). -/
def Job.goto (j : Job) (s : State) (target : LaneSrc → Nat) (after : Group → Group) : State :=
  match j.x.lanes.find? fun l => !validPc (target l) with
  | some l => j.fault s Cause.address ((j.x.lanes.filter fun m => !validPc (target m)).map fun m => m.t % 32) (target l)
  | none => j.mod s fun g =>
      after (j.x.lanes.foldl (fun g l => g.modThread l.t fun h => { h with pc := BitVec.ofNat 64 (target l) })
        (g.advance j.ts j.x.len))

/-- BRAY's yield (R190): the taken threads yield and the other candidates must issue first. -/
def Group.yieldTaken (g : Group) (warp : Nat) (taken : List Nat) : Group :=
  let others := (g.candidates warp).filter fun u => !taken.contains u && !(g.thread u).y
  (g.modThreads taken fun t => { t with y := true }).modThreads others fun t => { t with m := true }

/-- BRA (R273). -/
def braWord (imm : Word) (j : Job) (s : State) : State := j.goto s (fun _ => relTarget j.x.pc (imm.signExtend 64)) id

/-- BRA.u: a guard that differs among the issued threads is UNIFORMITY (R273). -/
def braUWord (imm : Word) (j : Job) (s : State) : State :=
  if j.act.length ≠ j.ts.length then j.fault s Cause.uniformity j.lanes 0 else braWord imm j s

/-- BRAY (R273). -/
def brayWord (imm : Word) (j : Job) (s : State) : State :=
  j.goto s (fun _ => relTarget j.x.pc (imm.signExtend 64)) fun g => g.yieldTaken j.x.warp j.act

/-- BRU (R274): taken when the uniform value is zero or is not. -/
def bruWord (nz : Bool) (imm : Word) (j : Job) (s : State) : State :=
  if (j.a != 0) = nz then braWord imm j s else j.pass s

/-- JMP (R275). -/
def jmpWord (j : Job) (s : State) : State := j.goto s (fun l => l.a.toNat) id

/-! ## Dispatch tables (R276) -/

/-- The index check, then `checks`, then the entry reads, then the targets (R276); TBASE and TLEN are those at issue (R209). -/
def tableWord (checks : Group → Option (Nat × List Nat)) (k : (LaneSrc → Nat) → Job → State → State) (j : Job) (s : State) : State :=
  let g := j.group s
  let tlen := j.x.tlen.toNat
  let addr := fun (l : LaneSrc) => (j.x.tbase.toNat + 8 * (l.a.toNat % 2 ^ 32)) % 2 ^ 64
  match j.x.lanes.find? fun l => tlen ≤ l.a.toNat % 2 ^ 32 with
  | some l =>
    j.fault s Cause.jtab ((j.x.lanes.filter fun m => tlen ≤ m.a.toNat % 2 ^ 32).map fun m => m.t % 32) (addr l)
  | none =>
    match checks g with
    | some (cause, ts) => j.fault s cause (ts.map (· % 32)) 0
    | none =>
      j.withEntries s addr fun rs s =>
        let broken := rs.filter fun r => bits r.value 63 43 != 0 || bits r.value 2 0 != 0
        match broken with
        | r :: _ => j.fault s Cause.address (broken.map fun q => q.t % 32) r.va
        | [] => k (fun l => ((rs.find? fun r => r.t == l.t).map LaneRead.value).getD 0) j s

/-- JTAB (R276). -/
def jtabWord (j : Job) (s : State) : State := tableWord (fun _ => none) (fun target j s => j.goto s target id) j s

/-! ## Calls (R277, R278) -/

/-- The window offset of a return-stack entry (R45). -/
def Group.returnSlot (g : Group) (t depth : Nat) : Nat :=
  g.b2 + (((t / 32) * g.ctx.frame.rse + depth % g.ctx.frame.rse) * 32 + t % 32) * 8

/-- The threads for which a call faults with STACK: there is no return stack, or DEPTH is at its limit (R277). -/
def Job.stackFull (j : Job) (g : Group) : List Nat :=
  if g.ctx.frame.rse = 0 then j.act else j.act.filter fun t => (g.thread t).depth == 65535

/-- The accesses to the return-stack entries of the active threads, `up` entries below their DEPTH. -/
def Job.stackAccs (j : Job) (g : Group) (up : Nat) (store : Bool) : List WinAcc :=
  j.act.map fun t => ⟨g.returnSlot t ((g.thread t).depth.toNat - up), 8, store⟩

/-- Push return addresses, raise DEPTH and go (R277). The push is a window store, made after every earlier access of the
entry (R47). -/
def callTo (target : LaneSrc → Nat) (j : Job) (s : State) : State :=
  let g := j.group s
  let accs := j.stackAccs g 0 true
  if accs.any (g.accBusy j.x) then j.hold s (g.windowWait j.x accs)
  else j.goto s target fun g => j.act.foldl (fun g t =>
    (g.storeWindow (g.returnSlot t (g.thread t).depth.toNat) (toBytes 8 (j.x.pc + j.x.len)) false).modThread t fun h =>
      { h with depth := h.depth + 1 }) g

/-- CALL with its targets (R277). -/
def callWord (target : LaneSrc → Nat) (j : Job) (s : State) : State :=
  let full := j.stackFull (j.group s)
  if full.isEmpty then callTo target j s else j.fault s Cause.stack (full.map (· % 32)) 0

/-- CALLT: the index check, then STACK, then the entries (R277). -/
def calltWord (j : Job) (s : State) : State :=
  tableWord (fun g => if (j.stackFull g).isEmpty then none else some (Cause.stack, j.stackFull g)) callTo j s

/-- RET (R278), which reads its entry after every earlier window store to it is made (R47). -/
def retWord (j : Job) (s : State) : State :=
  let g := j.group s
  let shallow := j.act.filter fun t => (g.thread t).depth == 0
  if !shallow.isEmpty then j.fault s Cause.stack (shallow.map (· % 32)) 0
  else
    let slot := fun (t : Nat) => g.window (g.returnSlot t ((g.thread t).depth.toNat - 1)) 8
    let accs := j.stackAccs g 1 false
    if accs.any (g.accBusy j.x) then j.hold s (g.windowWait j.x accs) else
    let eaters := j.act.filter fun t => (slot t).2
    if !eaters.isEmpty then j.fault s Cause.poison (eaters.map (· % 32)) 0
    else j.goto s (fun l => ofBytes (slot l.t).1) fun g => g.modThreads j.act fun h => { h with depth := h.depth - 1 }

/-! ## REFORM (R194, R279) -/

/-- File a thread at the tail of the cairn of its key; the cairns stand in the order of their keys (R418). -/
def fileInCairn (cs : List Cairn) (key : Nat) (f : Filed) : List Cairn :=
  if cs.any fun c => c.key == key then modWhere (fun c => c.key == key) (fun c => { c with filed := c.filed ++ [f] }) cs
  else (cs.takeWhile fun c => c.key < key) ++ ⟨key, [f]⟩ :: cs.dropWhile fun c => c.key < key

/-- REFORM (R194, R279). -/
def reformWord (j : Job) (s : State) : State :=
  tableWord
    (fun g =>
      let deep := if g.gateDepth = 0 then j.act.filter fun t => (g.thread t).depth != 0 else j.act
      if deep.isEmpty then none else some (Cause.reform, deep))
    (fun target j s =>
      let g := j.group s
      let keys := distinct (g.cairns.map Cairn.key ++ j.x.lanes.map target)
      if 16 < keys.length then j.fault s Cause.reform j.lanes 0
      else
        let s := j.passOthers s
        j.mod s fun g => j.x.lanes.foldl (fun g l =>
          { (g.await [l.t] .cairn).modThread l.t fun h => { h with warp := none } with
            cairns := fileInCairn g.cairns (target l) ⟨l.t, j.x.warp, g.resClk⟩ }) g)
    j s

/-! ## WAIT, SLEEP, NOP (R281, R282) -/

/-- WAIT (R281). -/
def waitWord (lim : Nat) (j : Job) (s : State) : State :=
  let g := j.group s
  let off := fun (l : LaneSrc) => l.a.toNat % 2 ^ 32
  match j.x.lanes.find? fun l => !g.windowOk (off l) 4 with
  | some l => j.fault s Cause.window ((j.x.lanes.filter fun m => !g.windowOk (off m) 4).map fun m => m.t % 32) (off l)
  | none =>
    let accs := j.x.lanes.map fun l => readAcc (off l) 4
    if accs.any (g.accBusy j.x) then j.hold s (g.windowWait j.x accs)
    else
      let eaters := j.x.lanes.filter fun l => (g.window (off l) 4).2
      if !eaters.isEmpty then j.fault s Cause.poison (eaters.map fun l => l.t % 32) 0
      else
        let deadline := if lim = 0 then none else some (j.x.clk + 256 * lim)
        let s := j.passOthers s
        j.mod s fun g => j.x.lanes.foldl (fun g l =>
          let g := g.await [l.t] (.wait j.x (g.ctx.frame.base + off l) (BitVec.ofNat 32 l.b.toNat) deadline false)
          if ofBytes (g.window (off l) 4).1 ≠ l.b.toNat % 2 ^ 32 then g.endWait l.t ⟨true, 0⟩ else g) g

/-- SLEEP (R282). -/
def sleepWord (j : Job) (s : State) : State :=
  let s := j.passOthers s
  j.mod s fun g => j.x.lanes.foldl (fun g l =>
    let n := min (l.a.toNat % 2 ^ 32) (2 ^ 24)
    if n = 0 then g.advance [l.t] j.x.len else g.await [l.t] (.sleep j.x (g.resClk + n))) g

/-- BRA (R273). -/
def execBra (w : WideWord) (s : State) : Host.Outcome State Fault Refusal := issueWord (.bra w) s (braWord w.imm)
/-- BRA.u (R273). -/
def execBraU (w : WideWord) (s : State) : Host.Outcome State Fault Refusal := issueWord (.braU w) s (braUWord w.imm)
/-- BRAY (R273). -/
def execBray (w : WideWord) (s : State) : Host.Outcome State Fault Refusal := issueWord (.bray w) s (brayWord w.imm)
/-- BRU.nz (R274). -/
def execBruNz (w : WideWord) (s : State) : Host.Outcome State Fault Refusal := issueWord (.bruNz w) s (bruWord true w.imm)
/-- BRU.z (R274). -/
def execBruZ (w : WideWord) (s : State) : Host.Outcome State Fault Refusal := issueWord (.bruZ w) s (bruWord false w.imm)
/-- JMP (R275). -/
def execJmp (w : RegWord) (s : State) : Host.Outcome State Fault Refusal := issueWord (.jmp w) s jmpWord
/-- JTAB (R276). -/
def execJtab (w : RegWord) (s : State) : Host.Outcome State Fault Refusal := issueWord (.jtab w) s jtabWord
/-- CALL (R277). -/
def execCall (w : WideWord) (s : State) : Host.Outcome State Fault Refusal :=
  issueWord (.call w) s fun j => callWord (fun _ => relTarget j.x.pc (w.imm.signExtend 64)) j
/-- CALL register (R277). -/
def execCallRegister (w : RegWord) (s : State) : Host.Outcome State Fault Refusal :=
  issueWord (.callRegister w) s (callWord fun l => l.a.toNat)
/-- CALLT (R277). -/
def execCallt (w : RegWord) (s : State) : Host.Outcome State Fault Refusal := issueWord (.callt w) s calltWord
/-- RET (R278). -/
def execRet (w : RegWord) (s : State) : Host.Outcome State Fault Refusal := issueWord (.ret w) s retWord
/-- REFORM (R279). -/
def execReform (w : RegWord) (s : State) : Host.Outcome State Fault Refusal := issueWord (.reform w) s reformWord
/-- WAIT (R281). -/
def execWait (w : RegWord) (s : State) : Host.Outcome State Fault Refusal := issueWord (.wait w) s (waitWord w.imm.toNat)
/-- SLEEP (R282). -/
def execSleep (w : RegWord) (s : State) : Host.Outcome State Fault Refusal := issueWord (.sleep w) s sleepWord
/-- NOP (R282). -/
def execNop (w : RegWord) (s : State) : Host.Outcome State Fault Refusal := issueWord (.nop w) s Job.pass

end Sys2Proof.Machine
end

