-- ==== Sys2Proof/Machine/LoadStore.lean ====
section
/-! DEFINITION. Loads, stores, atomics, fences and prefetches (R284 to R299), in memory and in the window. -/

namespace Sys2Proof.Machine

/-! ## Addresses (R284) -/

/-- OFF16, as a number mod 2^64. -/
def Job.off16 (j : Job) : Nat := ((BitVec.ofNat 16 j.f.imm).signExtend 64).toNat

/-- The address of a non-window form. -/
def Job.address (j : Job) (l : LaneSrc) : Nat :=
  (l.a.toNat + ((BitVec.ofNat 32 l.b.toNat).signExtend 64).toNat + j.off16) % 2 ^ 64

/-- The offset of a window form. -/
def Job.offset (j : Job) (l : LaneSrc) : Nat := (l.a.toNat % 2 ^ 32 + l.b.toNat % 2 ^ 32 + j.off16) % 2 ^ 64

/-! ## The checks of an access of several lanes (R57, R58, R289) -/

/-- What the checks of one lane's access give. -/
structure LaneCheck where
  t : Nat
  va : Nat
  got : Checked
deriving DecidableEq, Repr, Inhabited

/-- A lane's access that may be performed. -/
structure LaneSpots where
  t : Nat
  va : Nat
  spots : List Spot
  l1 : Bool
deriving DecidableEq, Repr, Inhabited

/-- Check one access for each lane. A lane whose address is not a multiple of `align` faults with ADDRESS (R294). -/
def State.checkLanes (s : State) (d : Nat) (g : Group) (acc : Acc) (n align : Nat) (ls : List (Nat × Nat)) :
    List LaneCheck × State :=
  match ls with
  | [] => ([], s)
  | (t, va) :: rest =>
    let (c, s) := if va % align ≠ 0 then (Checked.bad Cause.address, s) else s.checkAccess d g.core g.ctx.pn g.ctx.ext acc va n
    let (more, s) := s.checkLanes d g acc n align rest
    (⟨t, va, c⟩ :: more, s)

/-- The cause of a check that failed. -/
def LaneCheck.cause (c : LaneCheck) : Nat :=
  match c.got with
  | .bad x => x
  | _ => 0

/-- The walk left the memory that exists. -/
def LaneCheck.hole (c : LaneCheck) : Option Nat :=
  match c.got with
  | .hole a => some a
  | _ => none

/-- The access that passed its checks. -/
def LaneCheck.ready (c : LaneCheck) : Option LaneSpots :=
  match c.got with
  | .ok spots l1 => some ⟨c.t, c.va, spots, l1⟩
  | _ => none

/-- Check an access of every lane and go on with the accesses when all pass. A precise cause faults; PAGE, REMOTE
and ANCHORED park the word with KIND `kind` (R57, R58). A parked per-lane word holds every issued thread, as the run of
chapter 14 shows; in a uniform word guard-false threads advance (R286). -/
def Job.withAccess (j : Job) (s : State) (acc : Acc) (kind n align : Nat) (lanes : List (Nat × Nat))
    (k : List LaneSpots → State → State) : State :=
  let g := j.group s
  let (cs, s) := s.checkLanes j.d g acc n align lanes
  match cs.findSome? LaneCheck.hole with
  | some a => { s with hole := some a }
  | none =>
    match leastBy (fun c => causeRank c.cause) (cs.filter fun c => c.cause != 0 && !parks c.cause) with
    | some c => j.fault s c.cause ((cs.filter fun x => x.cause == c.cause).map fun x => x.t % 32) c.va
    | none =>
      let parked := cs.filter fun c => parks c.cause
      if parked.isEmpty then k (cs.filterMap LaneCheck.ready) s
      else
        let held := if kind = 4 then (j.act, j.passOthers s) else (j.ts, s)
        held.2.park j.d j.gid j.x held.1 kind n (cs.map fun c => (c.t % 32, BitVec.ofNat 64 c.va))
          (parked.map fun c => (c.t % 32, c.cause)) false

/-! ## Loads (R288, R289) -/

/-- The register value of a load of n bytes (R288). -/
def widenLoad (n : Nat) (signed : Bool) (x : Nat) : Nat :=
  if signed then ((BitVec.ofNat (8 * n) x).signExtend 32).toNat else x

/-- The lanes that make an access: the lowest active lane for a uniform load, else every active lane (R285). -/
def Job.accessLanes (j : Job) : List LaneSrc :=
  match j.f.dst with
  | .s _ => j.x.lanes.take 1
  | _ => j.x.lanes

/-- Read every lane's bytes. -/
def State.readAll (s : State) (q : Asking) (ls : List LaneSpots) : List (Nat × List (Byte × Bool)) × State :=
  match ls with
  | [] => ([], s)
  | l :: rest =>
    let (bs, s) := s.readSpots q l.spots l.l1
    let (more, s) := s.readAll q rest
    ((l.t, bs) :: more, s)

/-- Write the loaded values and pass; a poisoned byte is consumed (R291). -/
def Job.deliverLoads (j : Job) (s : State) (n : Nat) (signed : Bool) (got : List (Nat × List (Byte × Bool))) : State :=
  let eaters := got.filter fun r => r.2.any (·.2)
  if !eaters.isEmpty then j.fault s Cause.poison (eaters.map fun r => r.1 % 32) 0
  else
    j.pass (j.mod s fun g => (got.foldl (fun g r =>
      g.writeDst j.x.warp r.1 (8 * max n 4) j.f.dst (widenLoad n signed (ofBytes (r.2.map (·.1))))) g).pendClear j.x.dst)

/-- LD of n bytes. -/
def loadWord (n : Nat) (signed : Bool) (hint : BitVec 2) (j : Job) (s : State) : State :=
  j.withAccess s .load 0 n 1 (j.accessLanes.map fun l => (l.t, j.address l)) fun ls s =>
    let (got, s) := s.readAll (j.asking s hint.toNat) ls
    j.deliverLoads s n signed got

/-- Window accesses of every lane pass the checks of R46, their lines are present (R72) and no earlier access or write of the
same bytes is still to come; else the word faults or waits, and a store marks what it is to overwrite (R47). -/
def Job.withWindow (j : Job) (s : State) (n : Nat) (stores : Bool) (off : LaneSrc → Nat) (k : State → State) : State :=
  let g := j.group s
  match j.x.lanes.find? fun l => !g.windowOk (off l) n with
  | some l => j.fault s Cause.window ((j.x.lanes.filter fun m => !g.windowOk (off m) n).map fun m => m.t % 32) (off l)
  | none =>
    let accs := j.x.lanes.map fun l => (⟨off l, n, stores⟩ : WinAcc)
    if accs.any (g.accBusy j.x) then j.hold s (g.windowWait j.x accs) else k s

/-- LD.win of n bytes. -/
def loadWindow (n : Nat) (signed : Bool) (j : Job) (s : State) : State :=
  j.withWindow s n false j.offset fun s =>
    let g := j.group s
    j.deliverLoads s n signed (j.x.lanes.map fun l =>
      (l.t, (List.range n).map fun i => g.partByte (g.ctx.frame.base + j.offset l + i)))

/-! ## Stores (R289 to R292) -/

/-- The group is still there and alive. -/
def Job.alive (j : Job) (s : State) : Bool := (s.group? j.d j.gid).any fun g => !g.dead

/-- Store one lane after another, in ascending lane order (R290); a node killed for STAGING stops (R82). -/
def Job.storeAll (j : Job) (s : State) (q : Asking) (ls : List (LaneSpots × List Byte)) : State :=
  match ls with
  | [] => j.pass s
  | (l, bs) :: rest => if j.alive s then j.storeAll (s.writeSpots q l.spots bs) q rest else s

/-- An effect on bytes that a registration holds is irrevocable (R169). -/
def Job.hostChecked (j : Job) (s : State) (n : Nat) (ls : List LaneSpots) (also : Bool) (k : State → State) : State :=
  let g := j.group s
  if also || ls.any fun l => (s.die j.d).hostVisible g.ctx.pn l.va n then j.irrevocable s k else k s

/-- ST of n bytes. -/
def storeWord (n : Nat) (hint : BitVec 2) (j : Job) (s : State) : State :=
  j.withAccess s .store 1 n 1 (j.x.lanes.map fun l => (l.t, j.address l)) fun ls s =>
    j.hostChecked s n ls false fun s =>
      j.storeAll s (j.asking s hint.toNat) (ls.zip (j.x.lanes.map fun l => toBytes n l.c.toNat))

/-- ST.win of n bytes. -/
def storeWindow (n : Nat) (j : Job) (s : State) : State :=
  j.withWindow s n true j.offset fun s =>
    j.pass (j.mod s fun g =>
      (j.x.lanes.foldl (fun g l => g.putWindow (j.offset l) (toBytes n l.c.toNat) false) g).recheckWindow
        (j.x.lanes.map fun l => (j.offset l, n)))

/-! ## Atomics (R293 to R296) -/

/-- The new value of an atomic, or none when it fails (R294). -/
def atomicOp (w : Nat) (aop : Nat) (uns : Bool) (old b c : Nat) : Option Nat :=
  let rd := readInt w uns
  match aop with
  | 0 => some ((old + b) % 2 ^ w)
  | 1 => some (if rd b < rd old then b else old)
  | 2 => some (if rd old < rd b then b else old)
  | 3 => some (Nat.land old b)
  | 4 => some (Nat.lor old b)
  | 5 => some (Nat.xor old b)
  | 6 => some b
  | 7 => if old = c then some b else none
  | 8 =>
    let t := rd old + rd b
    if t ≤ rd c ∧ rd (wrapInt w t) = t then some (wrapInt w t) else none
  | _ => some (fadd (if w = 32 then 0x12 else 0x13) 0 old b)

/-- The sub-modifiers of an atomic. -/
def Job.aop (j : Job) : Nat := bits j.f.imm 3 0

/-- One lane's atomic: the new value, from the old one. -/
def Job.atomic (j : Job) (w : Nat) (l : LaneSrc) (old : Nat) : Option Nat :=
  atomicOp w j.aop (bit j.f.imm 7) old (l.b.toNat % 2 ^ w) (l.c.toNat % 2 ^ w)

/-- The registers that a lane's atomic writes (R294). -/
def Job.atomicResult (j : Job) (w : Nat) (l : LaneSrc) (old : Nat) (ok : Bool) (g : Group) : Group :=
  let g := g.writeDst j.x.warp l.t w j.f.dst old
  if bit j.f.imm 11 then g.modThread l.t fun h => h.setPred (bits j.f.imm 10 8) ok else g

/-- Perform one lane's atomic at its place. -/
def Job.atomLane (j : Job) (s : State) (w : Nat) (q : Asking) (l : LaneSrc) (p : LaneSpots) : State :=
  let (bs, s) := s.readSpots q p.spots false
  let old := ofBytes (bs.map (·.1))
  let new := j.atomic w l old
  let s := match new with
    | some v => s.writeSpots q p.spots (toBytes (w / 8) v)
    | none => s
  j.mod s (j.atomicResult w l old new.isSome)

/-- Perform the lanes' atomics in ascending order (R290). -/
def Job.atomAll (j : Job) (s : State) (w : Nat) (q : Asking) (ls : List (LaneSrc × LaneSpots)) : State :=
  match ls with
  | [] => j.pass s
  | (l, p) :: rest => if j.alive s then j.atomAll (j.atomLane s w q l p) w q rest else s

/-- ATOM of width w. On an A or SH extent it is irrevocable, whether or not it succeeds (R169, R295). -/
def atomWord (w : Nat) (hint : BitVec 2) (j : Job) (s : State) : State :=
  let n := w / 8
  j.withAccess s .atom 2 n n (j.x.lanes.map fun l => (l.t, l.a.toNat % 2 ^ 64)) fun ls s =>
    let g := j.group s
    let shared := ls.any fun l => (g.ctx.ext.holding l.va n).any fun e => e.2.mode == 3 || e.2.mode == 4
    let q := j.asking s hint.toNat
    let (got, s) := s.readAll q ls
    let eaters := got.filter fun r => r.2.any (·.2)
    if !eaters.isEmpty then j.fault s Cause.poison (eaters.map fun r => r.1 % 32) 0
    else j.hostChecked s n ls shared fun s => j.atomAll s w q (j.x.lanes.zip ls)

/-- One lane's atomic in the slot partition. -/
def Job.atomWindowLane (j : Job) (w : Nat) (g : Group) (l : LaneSrc) : Group :=
  let off := l.a.toNat % 2 ^ 32
  let old := ofBytes (g.window off (w / 8)).1
  match j.atomic w l old with
  | some v => j.atomicResult w l old true (g.putWindow off (toBytes (w / 8) v) false)
  | none => j.atomicResult w l old false g

/-- ATOM.win of width w: an offset that is no multiple of its size is ADDRESS, before the checks of R46 (R294). -/
def atomWindow (w : Nat) (j : Job) (s : State) : State :=
  let off := fun (l : LaneSrc) => l.a.toNat % 2 ^ 32
  match j.x.lanes.find? fun l => off l % (w / 8) ≠ 0 with
  | some l => j.fault s Cause.address ((j.x.lanes.filter fun m => off m % (w / 8) ≠ 0).map fun m => m.t % 32) (off l)
  | none =>
    j.withWindow s (w / 8) true off fun s =>
      let g := j.group s
      let eaters := j.x.lanes.filter fun l => (g.window (off l) (w / 8)).2
      if !eaters.isEmpty then j.fault s Cause.poison (eaters.map fun l => l.t % 32) 0
      else j.pass (j.mod s fun g => (j.x.lanes.foldl (j.atomWindowLane w) g).recheckWindow
        (j.x.lanes.map fun l => (off l, w / 8)))

/-! ## Prefetches (R298, R299) -/

/-- Bring the line that holds an address into its slice, unless its access would fault (R56, R298). -/
def State.prefetch (s : State) (d core pn : Nat) (ext : ExtTable) (va hint : Nat) : State :=
  let (c, s) := s.checkAccess d core pn ext .load va 1
  match c with
  | .ok (.line r _ :: _) _ => s.modDie d fun x => x.l2Load r hint
  | .hole a => { s with hole := some a }
  | _ => s

/-- PREF. -/
def prefWord (hint : BitVec 2) (j : Job) (s : State) : State :=
  let g := j.group s
  match j.x.lanes.find? fun l => 2 ^ 60 ≤ j.address l with
  | some l => j.fault s Cause.address ((j.x.lanes.filter fun m => 2 ^ 60 ≤ j.address m).map fun m => m.t % 32) (j.address l)
  | none => j.pass (j.x.lanes.foldl (fun s l => s.prefetch j.d g.core g.ctx.pn g.ctx.ext (j.address l) hint.toNat) s)


/-! ## The words -/

/-- LD of 1 bytes (R288, R289). -/
def execLdB (w : RegWord) (s : State) : Host.Outcome State Fault Refusal :=
  issueWord (.ldB w) s (loadWord 1 false w.mod)

/-- LD.win of 1 bytes (R288, R289). -/
def execLdBWin (w : RegWord) (s : State) : Host.Outcome State Fault Refusal :=
  issueWord (.ldBWin w) s (loadWindow 1 false)

/-- LD of 1 bytes (R288, R289). -/
def execLdBI8 (w : RegWord) (s : State) : Host.Outcome State Fault Refusal :=
  issueWord (.ldBI8 w) s (loadWord 1 true w.mod)

/-- LD.win of 1 bytes (R288, R289). -/
def execLdBI8Win (w : RegWord) (s : State) : Host.Outcome State Fault Refusal :=
  issueWord (.ldBI8Win w) s (loadWindow 1 true)

/-- LD of 2 bytes (R288, R289). -/
def execLdH (w : RegWord) (s : State) : Host.Outcome State Fault Refusal :=
  issueWord (.ldH w) s (loadWord 2 false w.mod)

/-- LD.win of 2 bytes (R288, R289). -/
def execLdHWin (w : RegWord) (s : State) : Host.Outcome State Fault Refusal :=
  issueWord (.ldHWin w) s (loadWindow 2 false)

/-- LD of 2 bytes (R288, R289). -/
def execLdHI16 (w : RegWord) (s : State) : Host.Outcome State Fault Refusal :=
  issueWord (.ldHI16 w) s (loadWord 2 true w.mod)

/-- LD.win of 2 bytes (R288, R289). -/
def execLdHI16Win (w : RegWord) (s : State) : Host.Outcome State Fault Refusal :=
  issueWord (.ldHI16Win w) s (loadWindow 2 true)

/-- LD of 4 bytes (R288, R289). -/
def execLdW (w : RegWord) (s : State) : Host.Outcome State Fault Refusal :=
  issueWord (.ldW w) s (loadWord 4 false w.mod)

/-- LD.win of 4 bytes (R288, R289). -/
def execLdWWin (w : RegWord) (s : State) : Host.Outcome State Fault Refusal :=
  issueWord (.ldWWin w) s (loadWindow 4 false)

/-- LD of 8 bytes (R288, R289). -/
def execLdD (w : RegWord) (s : State) : Host.Outcome State Fault Refusal :=
  issueWord (.ldD w) s (loadWord 8 false w.mod)

/-- LD.win of 8 bytes (R288, R289). -/
def execLdDWin (w : RegWord) (s : State) : Host.Outcome State Fault Refusal :=
  issueWord (.ldDWin w) s (loadWindow 8 false)

/-- LD of 16 bytes (R288, R289). -/
def execLdQ (w : RegWord) (s : State) : Host.Outcome State Fault Refusal :=
  issueWord (.ldQ w) s (loadWord 16 false w.mod)

/-- LD.win of 16 bytes (R288, R289). -/
def execLdQWin (w : RegWord) (s : State) : Host.Outcome State Fault Refusal :=
  issueWord (.ldQWin w) s (loadWindow 16 false)

/-- ST of 1 bytes (R288, R289). -/
def execStB (w : RegWord) (s : State) : Host.Outcome State Fault Refusal :=
  issueWord (.stB w) s (storeWord 1 w.mod)

/-- ST.win of 1 bytes (R288, R289). -/
def execStBWin (w : RegWord) (s : State) : Host.Outcome State Fault Refusal :=
  issueWord (.stBWin w) s (storeWindow 1)

/-- ST of 2 bytes (R288, R289). -/
def execStH (w : RegWord) (s : State) : Host.Outcome State Fault Refusal :=
  issueWord (.stH w) s (storeWord 2 w.mod)

/-- ST.win of 2 bytes (R288, R289). -/
def execStHWin (w : RegWord) (s : State) : Host.Outcome State Fault Refusal :=
  issueWord (.stHWin w) s (storeWindow 2)

/-- ST of 4 bytes (R288, R289). -/
def execStW (w : RegWord) (s : State) : Host.Outcome State Fault Refusal :=
  issueWord (.stW w) s (storeWord 4 w.mod)

/-- ST.win of 4 bytes (R288, R289). -/
def execStWWin (w : RegWord) (s : State) : Host.Outcome State Fault Refusal :=
  issueWord (.stWWin w) s (storeWindow 4)

/-- ST of 8 bytes (R288, R289). -/
def execStD (w : RegWord) (s : State) : Host.Outcome State Fault Refusal :=
  issueWord (.stD w) s (storeWord 8 w.mod)

/-- ST.win of 8 bytes (R288, R289). -/
def execStDWin (w : RegWord) (s : State) : Host.Outcome State Fault Refusal :=
  issueWord (.stDWin w) s (storeWindow 8)

/-- ST of 16 bytes (R288, R289). -/
def execStQ (w : RegWord) (s : State) : Host.Outcome State Fault Refusal :=
  issueWord (.stQ w) s (storeWord 16 w.mod)

/-- ST.win of 16 bytes (R288, R289). -/
def execStQWin (w : RegWord) (s : State) : Host.Outcome State Fault Refusal :=
  issueWord (.stQWin w) s (storeWindow 16)

/-- ATOM of 32 bits (R293, R294). -/
def execAtomW (w : RegWord) (s : State) : Host.Outcome State Fault Refusal :=
  issueWord (.atomW w) s (atomWord 32 w.mod)

/-- ATOM.win of 32 bits (R293, R294). -/
def execAtomWWin (w : RegWord) (s : State) : Host.Outcome State Fault Refusal :=
  issueWord (.atomWWin w) s (atomWindow 32)

/-- ATOM of 64 bits (R293, R294). -/
def execAtomD (w : RegWord) (s : State) : Host.Outcome State Fault Refusal :=
  issueWord (.atomD w) s (atomWord 64 w.mod)

/-- ATOM.win of 64 bits (R293, R294). -/
def execAtomDWin (w : RegWord) (s : State) : Host.Outcome State Fault Refusal :=
  issueWord (.atomDWin w) s (atomWindow 64)

/-- FENCE (R297): memory accesses are performed one after another, in the order of issue, so a fence only passes. -/
def execFence (w : RegWord) (s : State) : Host.Outcome State Fault Refusal := issueWord (.fence w) s Job.pass

/-- PREF (R298). -/
def execPref (w : RegWord) (s : State) : Host.Outcome State Fault Refusal := issueWord (.pref w) s (prefWord w.mod)

end Sys2Proof.Machine
end

