-- ==== Sys2Proof/Machine/Fp.lean ====
section
/-! DEFINITION. Floating point and conversion of single values (R254 to R262). MOD is the rounding. -/

namespace Sys2Proof.Machine

/-- A word whose active lanes each compute a value from their sources. -/
def floatWord (f : Nat → Nat → Nat → Nat) (j : Job) (s : State) : State :=
  j.perLane s fun l => f l.a.toNat l.b.toNat l.c.toNat

/-- A value of a narrow type as a register holds it: sign bits above i8 and i16, zeros above the others (R260). -/
def widen (t x : Nat) : Nat :=
  if t = 1 then (BitVec.ofNat 8 x).signExtend 32 |>.toNat
  else if t = 2 then (BitVec.ofNat 16 x).signExtend 32 |>.toNat
  else x

/-- CVT: a value of type `st` as type `dt` (R261). -/
def convert (st dt rnd x : Nat) : Nat := widen dt (roundTo dt (valueOf st x) rnd false false)

/-- The format slot that a word names, read at issue. -/
def Job.slot (j : Job) (s : State) (o : Operand) : SlotFmt :=
  match o with
  | .fs n => (slotFmt ((j.group s).formatSlot n.toNat).toNat).getD default
  | _ => default

/-- The word goes on when the named slot is legal and holds one of the listed types; it is ILLEGAL otherwise (R226). -/
def slotWord (o : Operand) (ok : Nat → Bool) (body : SlotFmt → Job → State → State) (j : Job) (s : State) : State :=
  let raw := match o with
    | .fs n => ((j.group s).formatSlot n.toNat).toNat
    | _ => 0
  match slotFmt raw with
  | some t => if ok t.etype then body t j s else j.fault s Cause.illegal j.lanes 0
  | none => j.fault s Cause.illegal j.lanes 0

/-- The integer and float types that CVTS accepts in its slot (R262). -/
def scalarType (t : Nat) : Bool := isIntType t || isFloatType t

/-- a + b, correctly rounded, in f32 (R255). -/
def execFaddF32 (w : RegWord) (s : State) : Host.Outcome State Fault Refusal :=
  issueWord (.faddF32 w) s (floatWord fun a b _ => fadd 0x12 w.mod.toNat a b)

/-- a − b, correctly rounded, in f32 (R255). -/
def execFsubF32 (w : RegWord) (s : State) : Host.Outcome State Fault Refusal :=
  issueWord (.fsubF32 w) s (floatWord fun a b _ => fsub 0x12 w.mod.toNat a b)

/-- a × b, correctly rounded, in f32 (R255). -/
def execFmulF32 (w : RegWord) (s : State) : Host.Outcome State Fault Refusal :=
  issueWord (.fmulF32 w) s (floatWord fun a b _ => fmul 0x12 w.mod.toNat a b)

/-- a × b + c, rounded once, in f32 (R255). -/
def execFfmaF32 (w : RegWord) (s : State) : Host.Outcome State Fault Refusal :=
  issueWord (.ffmaF32 w) s (floatWord fun a b c => ffma 0x12 w.mod.toNat a b c)

/-- The lesser operand, in f32 (R257). -/
def execFminF32 (w : RegWord) (s : State) : Host.Outcome State Fault Refusal :=
  issueWord (.fminF32 w) s (floatWord fun a b _ => fminmax 0x12 false a b)

/-- The greater operand, in f32 (R257). -/
def execFmaxF32 (w : RegWord) (s : State) : Host.Outcome State Fault Refusal :=
  issueWord (.fmaxF32 w) s (floatWord fun a b _ => fminmax 0x12 true a b)

/-- Compare into a predicate, in f32 (R250). -/
def execFcmpF32 (w : RegWord) (s : State) : Host.Outcome State Fault Refusal :=
  issueWord (.fcmpF32 w) s (floatWord fun a b c => (combine (bits w.imm.toNat 4 3) (fcompare 0x12 (bits w.imm.toNat 2 0) a b) (c != 0)).toNat)

/-- MASK at the class of a, in f32 (R257). -/
def execFclassF32 (w : RegWord) (s : State) : Host.Outcome State Fault Refusal :=
  issueWord (.fclassF32 w) s (floatWord fun a _ _ => (bit w.imm.toNat (fclass 0x12 a)).toNat)

/-- Reciprocal, correctly rounded, in f32 (R256). -/
def execFrcpF32 (w : RegWord) (s : State) : Host.Outcome State Fault Refusal :=
  issueWord (.frcpF32 w) s (floatWord fun a _ _ => fround 0x12 w.mod.toNat (fval 0x12 a).recip)

/-- Reciprocal square root, correctly rounded, in f32 (R256). -/
def execFrsqF32 (w : RegWord) (s : State) : Host.Outcome State Fault Refusal :=
  issueWord (.frsqF32 w) s (floatWord fun a _ _ => fround 0x12 w.mod.toNat (fval 0x12 a).rsqrt)

/-- Square root, correctly rounded, in f32 (R256). -/
def execFsqrtF32 (w : RegWord) (s : State) : Host.Outcome State Fault Refusal :=
  issueWord (.fsqrtF32 w) s (floatWord fun a _ _ => fround 0x12 w.mod.toNat (fval 0x12 a).sqrt)

/-- 2^a, correctly rounded, in f32 (R256). -/
def execFexp2F32 (w : RegWord) (s : State) : Host.Outcome State Fault Refusal :=
  issueWord (.fexp2F32 w) s (floatWord fun a _ _ => fround 0x12 w.mod.toNat (fval 0x12 a).exp2)

/-- Base-2 logarithm, correctly rounded, in f32 (R256). -/
def execFlog2F32 (w : RegWord) (s : State) : Host.Outcome State Fault Refusal :=
  issueWord (.flog2F32 w) s (floatWord fun a _ _ => fround 0x12 w.mod.toNat (fval 0x12 a).log2)

/-- Rounding to an integral value, in f32 (R258). -/
def execFrndF32 (w : RegWord) (s : State) : Host.Outcome State Fault Refusal :=
  issueWord (.frndF32 w) s (floatWord fun a _ _ => frnd 0x12 w.mod.toNat a)

/-- a × 2^b, in f32 (R258). -/
def execFscaleF32 (w : RegWord) (s : State) : Host.Outcome State Fault Refusal :=
  issueWord (.fscaleF32 w) s (floatWord fun a b _ => fscale 0x12 w.mod.toNat a b)

/-- a + b, correctly rounded, in f64 (R255). -/
def execFaddF64 (w : RegWord) (s : State) : Host.Outcome State Fault Refusal :=
  issueWord (.faddF64 w) s (floatWord fun a b _ => fadd 0x13 w.mod.toNat a b)

/-- a − b, correctly rounded, in f64 (R255). -/
def execFsubF64 (w : RegWord) (s : State) : Host.Outcome State Fault Refusal :=
  issueWord (.fsubF64 w) s (floatWord fun a b _ => fsub 0x13 w.mod.toNat a b)

/-- a × b, correctly rounded, in f64 (R255). -/
def execFmulF64 (w : RegWord) (s : State) : Host.Outcome State Fault Refusal :=
  issueWord (.fmulF64 w) s (floatWord fun a b _ => fmul 0x13 w.mod.toNat a b)

/-- a × b + c, rounded once, in f64 (R255). -/
def execFfmaF64 (w : RegWord) (s : State) : Host.Outcome State Fault Refusal :=
  issueWord (.ffmaF64 w) s (floatWord fun a b c => ffma 0x13 w.mod.toNat a b c)

/-- The lesser operand, in f64 (R257). -/
def execFminF64 (w : RegWord) (s : State) : Host.Outcome State Fault Refusal :=
  issueWord (.fminF64 w) s (floatWord fun a b _ => fminmax 0x13 false a b)

/-- The greater operand, in f64 (R257). -/
def execFmaxF64 (w : RegWord) (s : State) : Host.Outcome State Fault Refusal :=
  issueWord (.fmaxF64 w) s (floatWord fun a b _ => fminmax 0x13 true a b)

/-- Compare into a predicate, in f64 (R250). -/
def execFcmpF64 (w : RegWord) (s : State) : Host.Outcome State Fault Refusal :=
  issueWord (.fcmpF64 w) s (floatWord fun a b c => (combine (bits w.imm.toNat 4 3) (fcompare 0x13 (bits w.imm.toNat 2 0) a b) (c != 0)).toNat)

/-- MASK at the class of a, in f64 (R257). -/
def execFclassF64 (w : RegWord) (s : State) : Host.Outcome State Fault Refusal :=
  issueWord (.fclassF64 w) s (floatWord fun a _ _ => (bit w.imm.toNat (fclass 0x13 a)).toNat)

/-- Reciprocal, correctly rounded, in f64 (R256). -/
def execFrcpF64 (w : RegWord) (s : State) : Host.Outcome State Fault Refusal :=
  issueWord (.frcpF64 w) s (floatWord fun a _ _ => fround 0x13 w.mod.toNat (fval 0x13 a).recip)

/-- Reciprocal square root, correctly rounded, in f64 (R256). -/
def execFrsqF64 (w : RegWord) (s : State) : Host.Outcome State Fault Refusal :=
  issueWord (.frsqF64 w) s (floatWord fun a _ _ => fround 0x13 w.mod.toNat (fval 0x13 a).rsqrt)

/-- Square root, correctly rounded, in f64 (R256). -/
def execFsqrtF64 (w : RegWord) (s : State) : Host.Outcome State Fault Refusal :=
  issueWord (.fsqrtF64 w) s (floatWord fun a _ _ => fround 0x13 w.mod.toNat (fval 0x13 a).sqrt)

/-- 2^a, correctly rounded, in f64 (R256). -/
def execFexp2F64 (w : RegWord) (s : State) : Host.Outcome State Fault Refusal :=
  issueWord (.fexp2F64 w) s (floatWord fun a _ _ => fround 0x13 w.mod.toNat (fval 0x13 a).exp2)

/-- Base-2 logarithm, correctly rounded, in f64 (R256). -/
def execFlog2F64 (w : RegWord) (s : State) : Host.Outcome State Fault Refusal :=
  issueWord (.flog2F64 w) s (floatWord fun a _ _ => fround 0x13 w.mod.toNat (fval 0x13 a).log2)

/-- Rounding to an integral value, in f64 (R258). -/
def execFrndF64 (w : RegWord) (s : State) : Host.Outcome State Fault Refusal :=
  issueWord (.frndF64 w) s (floatWord fun a _ _ => frnd 0x13 w.mod.toNat a)

/-- a × 2^b, in f64 (R258). -/
def execFscaleF64 (w : RegWord) (s : State) : Host.Outcome State Fault Refusal :=
  issueWord (.fscaleF64 w) s (floatWord fun a b _ => fscale 0x13 w.mod.toNat a b)

/-- FFMA of two f16 halves (R259). -/
def execFfmaF16x2 (w : RegWord) (s : State) : Host.Outcome State Fault Refusal :=
  issueWord (.ffmaF16x2 w) s (floatWord fun a b c => ffmaPacked 0x10 w.mod.toNat a b c)

/-- FFMA of two bf16 halves (R259). -/
def execFfmaBf16x2 (w : RegWord) (s : State) : Host.Outcome State Fault Refusal :=
  issueWord (.ffmaBf16x2 w) s (floatWord fun a b c => ffmaPacked 0x11 w.mod.toNat a b c)

/-- Float to float (R261). -/
def execCvtFF (w : RegWord) (s : State) : Host.Outcome State Fault Refusal :=
  issueWord (.cvtFF w) s (floatWord fun a _ _ => convert (highType w) (lowType w) w.mod.toNat a)

/-- Integer to float (R261). -/
def execCvtIF (w : RegWord) (s : State) : Host.Outcome State Fault Refusal :=
  issueWord (.cvtIF w) s (floatWord fun a _ _ => convert (highType w) (lowType w) w.mod.toNat a)

/-- Float to integer (R261). -/
def execCvtFI (w : RegWord) (s : State) : Host.Outcome State Fault Refusal :=
  issueWord (.cvtFI w) s (floatWord fun a _ _ => convert (highType w) (lowType w) w.mod.toNat a)

/-- Integer to integer (R261). -/
def execCvtII (w : RegWord) (s : State) : Host.Outcome State Fault Refusal :=
  issueWord (.cvtII w) s (floatWord fun a _ _ => convert (highType w) (lowType w) 0 a)

/-- A value of the named type to the slot (R262). -/
def execCvtsTo (w : RegWord) (s : State) : Host.Outcome State Fault Refusal :=
  issueWord (.cvtsTo w) s (slotWord w.sc scalarType fun t => floatWord fun a _ _ => widen t.etype (roundTo t.etype (valueOf (lowType w) a) t.rnd t.sat t.nanz))

/-- A value of the slot's type to the named type (R262). -/
def execCvtsFrom (w : RegWord) (s : State) : Host.Outcome State Fault Refusal :=
  issueWord (.cvtsFrom w) s (slotWord w.sc scalarType fun t => floatWord fun a _ _ => widen (lowType w) (roundTo (lowType w) (valueOf t.etype a) t.rnd t.sat t.nanz))

end Sys2Proof.Machine
end

