-- ==== Sys2Proof/Machine/Extents.lean ====
section
/-! DEFINITION. Extents at dispatch and at a gate call: reading the list (R439), translation (R51 to R53) and the
conflict check (R160 to R162, R352). -/

namespace Sys2Proof.Machine

/-! ## Reading in a process's address space (R351, R439) -/

/-- What reading bytes as a load of a process gives. -/
inductive ProcRead where
  | ok (bytes : List Byte) (poison : Bool)
  /-- The page is not present: its address and the TYPE of the leaf found (R362). -/
  | absent (va type : Nat)
  | refused
  | hole (a : Nat)
deriving DecidableEq, Repr, Inhabited

/-- TYPE of what a walk found; one that ended early reports 0 (R362). -/
def Found.type (f : Found) : Nat :=
  match f with
  | .leaf _ e _ => leafType e
  | _ => 0

/-- The places of `n` bytes read as a load of a process with the rights of R37. -/
def Die.procSpots (d : Die) (pn va n : Nat) (pages : List Nat) (spots : List Spot) : Except ProcRead (List Spot) × Die :=
  match pages with
  | [] => (.ok spots, d)
  | p :: rest =>
    let lo := max va (p * 65536)
    let hi := min (va + n) ((p + 1) * 65536)
    let (f, d) := d.translate pn lo
    match f with
    | .none | .malformed => (.error (.absent (p * 65536) 0), d)
    | .hole a => (.error (.hole a), d)
    | .leaf level e _ =>
      if leafType e = 2 ∨ leafType e = 3 then (.error (.absent (p * 65536) (leafType e)), d)
      else if isDevice (leafFrame e) ∨ d.leafCause (d.service pn) .load e ≠ 0 then (.error .refused, d)
      else d.procSpots pn va n rest (spots ++ (List.range (hi - lo)).map fun i => leafSpot level e (lo + i))

/-- Read `n` bytes as a load of a process. -/
def Die.procRead (d : Die) (pn va n : Nat) : ProcRead × Die :=
  if 2 ^ 60 < va + n then (.refused, d)
  else
    match d.procSpots pn va n (pagesOf va n) [] with
    | (.error r, d) => (r, d)
    | (.ok spots, d) =>
      let d := (linesOfSpots spots).foldl (fun d r => d.l2Load r 0) d
      let bs := spots.map fun p => match p with
        | .line r i => ((d.l2Find r).map fun (l : L2Line) => l.byte i).getD (0, false)
        | .reg _ => (0, false)
      (.ok (bs.map (·.1)) (bs.any (·.2)), d)

/-! ## Translation (R51 to R53) -/

/-- What translating extents gives. -/
inductive TransResult where
  | done (t : ExtTable)
  /-- The status EXTENT. -/
  | fail
  /-- A page that is not present: its address, the extent, the TYPE found and the runs pinned so far. -/
  | notice (va idx type : Nat) (pins : List Run)
  | hole (a : Nat)
deriving DecidableEq, Repr, Inhabited

/-- The result with the runs of the earlier extents among the pins. -/
def TransResult.withPins (r : TransResult) (earlier : List Run) : TransResult :=
  match r with
  | .notice va i t pins => .notice va i t (earlier ++ pins)
  | other => other

/-- The rights that a mode needs (R51). -/
def modeNeeds (mode : Nat) : List Nat := if mode = 0 then [0] else if mode = 1 then [1] else [0, 1]

/-- Two runs are one (R52): NORMAL pages, contiguous, with equal attributes. DESIGN CHOICE (log entry 91): those are the
attributes that a run keeps, CHE, CH, IL, AFMT and the type; rights, SVC and OPEN were tested page by page. -/
def Run.joins (a b : Run) : Bool :=
  a.attr == b.attr && a.attr.afmt.isNone && a.va + a.len == b.va && a.pa + a.len == b.pa

/-- Append a run, joined with the last one where they are one. -/
def addRun (rs : List Run) (r : Run) : List Run :=
  match rs.getLast? with
  | some l => if l.joins r then rs.dropLast ++ [{ l with len := l.len + r.len }] else rs ++ [r]
  | none => [r]

/-- Translate the pages of one extent from `va` on. Each walk reads through the translation cache of some core (R61): which
one is a free choice, numbered by `no` and the page. -/
def Die.transPages (d : Die) (no fuel pn : Nat) (svc : Bool) (i : Nat) (e : Extent) (va : Nat) (runs : List Run) :
    Except TransResult (List Run) × Die :=
  match fuel with
  | 0 => (.ok runs, d)
  | fuel + 1 =>
    if e.base + e.len ≤ va then (.ok runs, d)
    else
      let page := va / 65536 * 65536
      let (f, d) := d.walkThrough (Config.freeCache no (va / 65536)) pn va
      match f with
      | .none | .malformed => (.error (.notice page i 0 runs), d)
      | .hole a => (.error (.hole a), d)
      | .leaf level w _ =>
        let t := leafType w
        if isDevice (leafFrame w) then (.error .fail, d)
        else if t = 2 ∨ t = 3 then (.error (.notice page i t runs), d)
        else if t = 4 ∨ t = 6 ∨ (t = 5 ∧ 3 ≤ e.mode) then (.error .fail, d)
        else if (bit w 3 && !svc) || (modeNeeds e.mode).any fun b => !bit w b then (.error .fail, d)
        else
          let size := 2 ^ levelShift level
          let stop := min (e.base + e.len) ((va / size + 1) * size)
          let attr := leafAttr w
          let pa := if attr.afmt.isSome then leafFrame w else leafFrame w + va % size
          d.transPages no fuel pn svc i e stop (addRun runs ⟨va, stop - va, pa, i, e.mode, attr⟩)

/-- Translate the extents from index `i` on. -/
def Die.transExtents (d : Die) (no pn : Nat) (svc : Bool) (i : Nat) (es : List Extent) (t : ExtTable) : TransResult × Die :=
  match es with
  | [] => (.done t, d)
  | e :: rest =>
    if e.mode = 5 then d.transExtents no pn svc (i + 1) rest t
    else
      match d.transPages no (e.len / 65536 + 2) pn svc i e e.base [] with
      | (.error r, d) => (r.withPins t.runs, d)
      | (.ok runs, d) =>
        if 64 < t.runs.length + runs.length then d.transExtents no pn svc (i + 1) rest { t with demoted := t.demoted ++ [i] }
        else d.transExtents no pn svc (i + 1) rest { t with runs := t.runs ++ runs }

/-- Translate a list of extents for a process. -/
def Die.translateAll (d : Die) (no pn : Nat) (es : List Extent) : TransResult × Die :=
  d.transExtents no pn (d.service pn) 0 es ⟨es, [], []⟩

/-! ## The conflict check (R160 to R162) -/

/-- Modes of overlapping extents that conflict (R161). -/
def modesConflict (a b : Nat) : Bool := a < 4 && b < 4 && !(a == 0 && b == 0) && !(a == 3 && b == 3)

/-- A member of a comparison set: its order, its node's DONECC and its extents. -/
structure Member where
  order : Nat
  done : Nat
  exts : List Extent
deriving DecidableEq, Repr, Inhabited

/-- The contexts that a group's gate calls run in, with the order of each call (R352). -/
def Group.gateCtxs (g : Group) : List (Ctx × Nat) :=
  (g.ctx :: g.gates.map GateFrame.ctx).zip (g.gates.map GateFrame.order)

/-- The comparison set of a process, without the gate calls of one group (R160, R352). -/
def Die.members (d : Die) (pn : Nat) (own : Option Nat) : List Member :=
  ((d.sched.nodes.filter fun n => n.rec_.pn == pn).map fun n => ⟨n.order, n.rec_.done, n.ext.exts⟩)
    ++ (d.groups.filter fun g => !g.dead && some g.gid != own).flatMap fun g =>
      ((g.gateCtxs.filter fun c => c.1.pn == pn).map fun c =>
        ⟨c.2, ((d.nodeOf g).map fun n => n.rec_.done).getD 0, c.1.ext.exts⟩)

/-- A conflict that a MODEL event reports (R162). -/
structure Conflict where
  old : Nat
  newIdx : Nat
  oldIdx : Nat
  a : Extent
  b : Extent
deriving DecidableEq, Repr, Inhabited

/-- The first of a member's extents that conflicts with an extent. -/
def Member.against (m : Member) (i : Nat) (e : Extent) : Option Conflict :=
  (((List.range m.exts.length).zip m.exts).find? fun (_, b) => e.overlaps b && modesConflict e.mode b.mode).map
    fun (k, b) => ⟨m.done, i, k, e, b⟩

/-- The conflict reported: the lowest new extent, then the earliest member, then its lowest extent (R162). -/
def findConflict (es : List Extent) (ms : List Member) : Option Conflict :=
  ((List.range es.length).zip es).findSome? fun (i, e) =>
    (leastBy Member.order (ms.filter fun m => (m.against i e).isSome)).bind fun m => m.against i e

/-- The MODEL event's body (R162). -/
def Conflict.body (c : Conflict) (newcc pn : Nat) : List Byte :=
  let lo := max c.a.base c.b.base
  let hi := min (c.a.base + c.a.len) (c.b.base + c.b.len)
  toBytes 8 newcc ++ toBytes 8 c.old ++ toBytes 8 lo ++ toBytes 8 (hi - lo) ++ toBytes 2 pn ++ toBytes 1 c.newIdx
    ++ toBytes 1 c.oldIdx ++ toBytes 1 c.a.mode ++ toBytes 1 c.b.mode

/-- A page is pinned: a run of a dispatched node, or of a gate call in progress, holds it (R53). -/
def Die.pinned (d : Die) (pn va : Nat) : Bool :=
  let touches := fun (rs : List Run) => rs.any fun r => r.va < va + 65536 && va < r.va + r.len
  (d.sched.nodes.any fun n => n.rec_.pn == pn && touches n.ext.runs)
    || (d.sched.trans.any fun t => t.rec_.pn == pn && touches t.pins)
    || d.groups.any fun g => !g.dead && g.gateCtxs.any fun c => c.1.pn == pn && touches c.1.ext.runs

end Sys2Proof.Machine
end

