-- ==== Sys2Proof/Machine/Gate.lean ====
section
/-! DEFINITION. Gate calls (R197, R350 to R356): the gathering of a GATE or GRET, the entry, the callee's context
and the return. -/

namespace Sys2Proof.Machine

/-! ## Gathering (R197) -/

/-- The threads that a collective waits for: those not EXITED and not filed in a cairn. -/
def Group.gatherers (g : Group) : List Nat := g.threadsWith fun t => !t.exited && t.wait != some .cairn

/-- Every one of them waits so. -/
def Group.gathered (g : Group) (sel : Wait → Bool) : Bool :=
  !g.gatherers.isEmpty && g.gatherers.all fun t => (g.thread t).wait.any sel

/-- A cairn holds a thread. -/
def Group.cairnHolds (g : Group) : Bool := g.cairns.any fun c => !c.filed.isEmpty

/-- A collective's own read is parked: its entry in the operand log names no thread. -/
def Group.collectiveParked (g : Group) : Bool := g.log.any fun w => w.threads.isEmpty

/-- The first thread, in warp and lane order, that waits so: the word of its wait is the collective's. -/
def Group.firstWaiter (g : Group) (sel : Wait → Bool) : Option Nat :=
  (List.range g.warps).findSome? fun w => (g.members w).find? fun t => (g.thread t).wait.any sel

/-- The threads of the handler warp of a collective (R437): the lowest warp's waiting members. -/
def Group.leaders (g : Group) (sel : Wait → Bool) : List Nat :=
  ((List.range g.warps).findSome? fun w =>
    let ts := (g.members w).filter fun t => (g.thread t).wait.any sel
    if ts.isEmpty then none else some ts).getD []

/-- Park the one access that a collective makes (R58): its threads go on waiting. -/
def State.parkCollective (s : State) (d gid kind size va cause : Nat) (sel : Wait → Bool) : State :=
  match s.group? d gid with
  | none => s
  | some g =>
    let ts := g.leaders sel
    match ((g.thread (ts.headD 0)).wait.bind Wait.word?) with
    | none => s
    | some x => s.park d gid x [] kind size (ts.map fun t => (t % 32, BitVec.ofNat 64 va)) (ts.map fun t => (t % 32, cause)) false

/-! ## The gate-table entry (R350, R351) -/

/-- A gate-table entry. -/
structure GateEntry where
  cpn : Nat
  target : Nat
  vin : Nat
  vout : Nat
  sin : Nat
  sout : Nat
  frame : Frame
  extCount : Nat
  extAddr : Nat
  chand : Nat
  limit : Nat
deriving DecidableEq, Repr, Inhabited

/-- The fields of an entry of 64 bytes. -/
def gateEntry (x base : Nat) : GateEntry where
  cpn := bits x 54 43
  target := bits x 42 3 * 8
  vin := bits x 127 120
  vout := bits x 119 112
  sin := bits x 111 106
  sout := bits x 105 100
  frame := ⟨base, bits x 99 92, bits x 91 84, bits x 83 79⟩
  extCount := bits x 191 187
  extAddr := bits x 186 132 * 16
  chand := bits x 255 192
  limit := bits x 287 256

/-- The process table has the process (R39). -/
def Die.processExists (d : Die) (pn : Nat) : Bool :=
  let p := d.space.procbase.toNat
  p % 2 == 1 && (let (e, bad) := d.engineRead (bits p 51 15 * 32768 + 8 * pn) 8
                 !bad && bit e 63 && bits e 62 52 == 0 && bits e 13 0 == 0)

/-- The entry is well formed for a caller with `regs` registers (R351). -/
def Die.gateOk (d : Die) (x : Nat) (e : GateEntry) (regs : Nat) : Bool :=
  bit x 63 && bits x 62 55 == 0 && bits x 2 0 == 0 && bits x 78 64 == 0 && bits x 131 128 == 0
    && bits x 319 288 == 0 && bits x 511 320 == 0
    && 1 ≤ e.frame.regs && e.frame.regs ≤ 128 && e.frame.rse ≤ 16 && e.extCount ≤ 16
    && e.vin ≤ e.frame.regs && e.vout ≤ e.frame.regs && e.vin ≤ regs && e.vout ≤ regs
    && e.chand % 8 == 0 && e.chand < 2 ^ 43 && d.processExists e.cpn

/-! ## Entering the callee (R353, R354) -/

/-- The words of a frame of the partition become zero, with every line present. -/
def Group.zeroFrame (g : Group) (base size : Nat) : Group :=
  { g with part := g.part.filter fun w => !(base ≤ 4 * w.1 && 4 * w.1 < base + size)
           absent := g.absent.filter fun l => !(base ≤ 64 * l && 64 * l < base + size) }

/-- The words of registers v0 to v(n−1) of every thread. -/
def Group.vWords (g : Group) (n : Nat) : List (Nat × Nat × CoreWord) :=
  (List.range (32 * g.warps)).flatMap fun t => (List.range n).map fun k => (t, k, g.word (g.vWord t k))

/-- Write registers. -/
def Group.setVWords (g : Group) (ws : List (Nat × Nat × CoreWord)) : Group :=
  ws.foldl (fun g w => g.setWord (g.vWord w.1 w.2.1) w.2.2) g

/-- Sixteen unbound handles (R183). -/
def noHandles : List Handle := List.replicate 16 ⟨false, 0, 0, 0, 0⟩

/-- The callee's context. -/
def GateEntry.ctx (e : GateEntry) (t : ExtTable) : Ctx where
  pn := e.cpn
  frame := e.frame
  ext := t
  handles := noHandles
  handler := BitVec.ofNat 64 e.chand
  tbase := 0
  tlen := 0
  trapcause := 0
  trappc := 0
  trapaddr := 0
  fs := List.replicate 8 0
  tilesOk := false

/-- What a gate call keeps of its caller; `order` is the call's own. -/
def Group.callerFrame (g : Group) (e : GateEntry) (order : Nat) : GateFrame where
  ctx := g.ctx
  sregs := g.sregs
  preds := g.threads.map Thread.preds
  pcs := g.threads.map fun t => pcAfter t.pc ((t.wait.bind Wait.word?).map Issued.len |>.getD 8)
  depths := g.threads.map Thread.depth
  pend := g.pend
  wdlimit := g.wdlimit
  trap := g.trap
  vin := e.vin
  vout := e.vout
  sout := e.sout
  deadline := if e.limit = 0 then none else some (g.resPs + e.limit * usec)
  order := order
  ending := none

/-- The group enters the callee (R354). -/
def Group.enterGate (g : Group) (e : GateEntry) (t : ExtTable) (order : Nat) : Group :=
  let vs := g.vWords e.vin
  let f := g.callerFrame e order
  let g := { g with gates := f :: g.gates, ctx := e.ctx t, trap := none, pend := []
                    sregs := g.sregs.filter fun r => r.1 % 64 < e.sin }
  let g := (g.zeroFrame e.frame.base g.top).setVWords vs
  g.modThreads g.living fun h => { h with pc := BitVec.ofNat 64 e.target, preds := 0, wait := none, y := false, m := false }

/-- The end of the innermost frame (R351). -/
def Group.frameEnd (g : Group) : Nat := g.ctx.frame.base + g.top

/-! ## Leaving the callee (R355) -/

/-- s63 of every warp. -/
def Group.setStatus63 (g : Group) (word : Nat) : Group :=
  (List.range g.warps).foldl (fun g w => g.setSreg w 63 ⟨BitVec.ofNat 64 word, false⟩) g

/-- A call that ends before any callee instruction: every waiting thread goes on after its GATE (R355). -/
def Group.gateRefused (g : Group) (word : Nat) : Group :=
  (g.setStatus63 word).endWaits (fun w => match w with | .gate .. => true | _ => false) ⟨false, 0⟩

/-- The caller is restored, with the results of a normal return (R355); `word` goes to s63. -/
def Group.leaveGate (g : Group) (f : GateFrame) (rest : List GateFrame) (word : Nat) : Group :=
  let normal := word == 0
  let vs := if normal then g.vWords f.vout else []
  let ss := if normal then g.sregs.filter fun r => r.1 % 64 < f.sout else []
  let g := g.zeroFrame g.ctx.frame.base g.top
  let g := { g with gates := rest, ctx := f.ctx, trap := f.trap, pend := f.pend, log := [], wdlimit := f.wdlimit
                    barriers := g.barriers.map fun _ => ⟨false, none, 0⟩
                    sregs := if normal then (f.sregs.filter fun r => !(r.1 % 64 < f.sout)) else f.sregs }
  let g := ss.foldl (fun g r => g.setSreg (r.1 / 64) (r.1 % 64) r.2) (g.setVWords vs)
  let g := g.setStatus63 word
  g.living.foldl (fun g t => g.modThread t fun h =>
    { h with pc := f.pcs.getD t 0, depth := f.depths.getD t 0, preds := f.preds.getD t 0, wait := none, y := false, m := false,
             susp := none, suspEnd := none }) g

/-- An asynchronous result goes to the s-registers of the gate depth it was asked at (R313, R354). -/
def Group.putAt (g : Group) (dst : Dest) (v : Nat) : Group :=
  if dst.depth = g.gateDepth then g.putResult dst.warp dst.reg (BitVec.ofNat 64 v)
  else
    match dst.reg with
    | .s n =>
      { g with gates := g.gates.modify (g.gateDepth - 1 - dst.depth) fun f =>
          { f with sregs := tputD f.sregs (dst.warp * 64 + n.toNat) ⟨BitVec.ofNat 64 v, false⟩ ⟨0, false⟩
                   pend := f.pend.filter fun r => r != .s dst.warp n.toNat } }
    | _ => g

/-! ## The call and the return -/

/-- A wait at GATE. -/
def Wait.isGate (w : Wait) : Bool := match w with | .gate .. => true | _ => false
/-- A wait at GRET. -/
def Wait.isGret (w : Wait) : Bool := match w with | .gret .. => true | _ => false
/-- n of a wait at GATE. -/
def Wait.gateNo (w : Wait) : Nat := match w with | .gate _ n => n | _ => 0

/-- The callee's extents are translated and compared, and the call begins or ends at once (R351, R352). -/
def State.beginGate (s : State) (d gid : Nat) (g : Group) (e : GateEntry) (exts : List Extent) : State :=
  let refuse := fun (s : State) (word : Nat) => s.modGroup d gid fun g => g.gateRefused word
  let (no, s) := s.draw
  let (r, die) := (s.die d).translateAll no e.cpn exts
  let s := s.modDie d fun _ => die
  match r with
  | .hole a => { s with hole := some a }
  | .fail => refuse s St.extent
  | .notice .. => refuse s St.extent
  | .done t =>
    let done := (((s.die d).nodeOf g).map fun n => n.rec_.done).getD 0
    match findConflict exts ((s.die d).members e.cpn (some gid)) with
    | some c => refuse (s.modDie d fun x => x.sysEvent 0x0005 (c.body done e.cpn)) St.model
    | none =>
      let (order, s) := s.newId
      s.modGroup d gid fun g => g.enterGate e t order

/-- The callee's extent list is read in its address space (R351). -/
def State.openGate (s : State) (d gid : Nat) (g : Group) (e : GateEntry) : State :=
  let refuse := fun (s : State) => s.modGroup d gid fun g => g.gateRefused St.malformed
  if e.extCount = 0 then s.beginGate d gid g e []
  else
    let (r, die) := (s.die d).procRead e.cpn e.extAddr (16 * e.extCount)
    let s := s.modDie d fun _ => die
    match r with
    | .hole a => { s with hole := some a }
    | .ok bytes false =>
      match parseExtents (s.die d).numClusters e.extCount bytes with
      | some exts => s.beginGate d gid g e exts
      | none => refuse s
    | _ => refuse s

/-- Where every gathered thread of a GATE stands, the call is checked and begins (R197, R351). DESIGN CHOICE (log entry 84):
the notice of a gate-table entry's fetch gives SIZE 16, the most that R388 lets a KIND 3 notice give for its 64 bytes. -/
def State.gatherGate (s : State) (d gid : Nat) : State :=
  match s.group? d gid with
  | none => s
  | some g =>
    if !g.gathered Wait.isGate || g.collectiveParked then s
    else
      let ns := distinct (g.gatherers.map fun t => ((g.thread t).wait.map Wait.gateNo).getD 0)
      let va := 2 ^ 60 - 65536 + 64 * ns.headD 0
      if 1 < ns.length then s.collective d gid Cause.gateMismatch Wait.isGate 0
      else if g.gateDepth = 4 ∨ g.cairnHolds then s.collective d gid Cause.gate Wait.isGate 0
      else
        let (f, s) := s.fetchBytes d g.core g.ctx.pn va 64
        match f with
        | .hole a => { s with hole := some a }
        | .bad c =>
          if parks c then s.parkCollective d gid 3 16 va c Wait.isGate
          else s.collective d gid c Wait.isGate (BitVec.ofNat 64 va)
        | .ok x bad =>
          let e := gateEntry x g.frameEnd
          if bad then s.collective d gid Cause.poison Wait.isGate 0
          else if !(s.die d).gateOk x e g.ctx.frame.regs then s.collective d gid Cause.gate Wait.isGate 0
          else if 131072 < g.frameEnd + footprint g.warps e.frame.regs e.frame.scr e.frame.rse then
            s.collective d gid Cause.gate Wait.isGate 0
          else
            match (s.die d).nodeOf g with
            | some n =>
              if n.revocable && (s.die d).hasTent n.nid then
                s.modDie d fun x => x.modNode n.nid fun n => { n with turning := true }
              else (if n.revocable then s.modDie d fun x => x.turnIrrevocable n.nid else s).openGate d gid g e
            | none => s.openGate d gid g e

/-- Where every gathered thread waits at GRET, the callee begins to end (R355). -/
def State.gatherGret (s : State) (d gid : Nat) : State :=
  match s.group? d gid with
  | none => s
  | some g =>
    if !g.gathered Wait.isGret then s
    else
      match g.gates with
      | [] => s.collective d gid Cause.gate Wait.isGret 0
      | f :: rest => if f.ending.isSome then s else s.modGroup d gid fun g => { g with gates := { f with ending := some 0 } :: rest }

/-- An operation of the callee is still under way: of the gate depth in force. -/
def Die.calleeBusy (d : Die) (g : Group) : Bool :=
  let here := fun (gid depth : Nat) => gid == g.gid && depth == g.gateDepth
  (d.cores.any fun (_, c) => (c.copies.any fun k => here k.gid k.depth) || (c.outOps.any fun o => here o.dst.gid o.dst.depth)
    || (c.launches.any fun l => here l.dst.gid l.dst.depth) || c.prefetches.any fun p => here p.gid p.depth)
    || d.port.requests.any fun r => match r.asker with
      | .get dst .. | .wait dst .. => here dst.gid dst.depth
      | _ => false

end Sys2Proof.Machine
end

