-- ==== Sys2Proof/Machine/Queue.lean ====
section
/-! DEFINITION. The outbound engine queue (R165), the queue words (R311 to R319) and LAUNCH (R309, R310). -/

namespace Sys2Proof.Machine

/-! ## Handles (R311) -/

/-- Change handle n of the context at a gate depth. -/
def Group.modHandleAt (g : Group) (depth n : Nat) (f : Handle → Handle) : Group :=
  if depth = g.gateDepth then g.modHandle n f
  else { g with gates := g.gates.modify (g.gateDepth - 1 - depth) fun fr =>
           { fr with ctx := { fr.ctx with handles := fr.ctx.handles.modify n f } } }

/-- The number of the handle that an operand names. -/
def handleNo (o : Operand) : Nat :=
  match o with
  | .h n => n.toNat
  | _ => 0

/-- One more operation through a handle has its status still to come (R318). -/
def Group.opBegun (g : Group) (n : Nat) : Group := g.modHandle n fun h => { h with out := h.out + 1 }

/-- The status of an operation through a handle has been written. -/
def Group.opDone (g : Group) (depth n : Nat) : Group := g.modHandleAt depth n fun h => { h with out := h.out - 1 }

/-- The result word of R313. -/
def queueWord (esize status ticket : Nat) : Nat := esize * 2 ^ 56 + status * 2 ^ 48 + ticket % 2 ^ 48

/-- PID of a group as the identity of its first dispatch, with the issuing warp (R115, R127). -/
def Group.pidFirst (g : Group) (warp : Nat) : Nat := g.pcore * 2 ^ 15 + g.pslot * 2 ^ 12 + warp * 2 ^ 9 + g.pinst
/-- PID of a group where it now runs (R127). -/
def Group.pidNow (g : Group) (warp : Nat) : Nat := g.core * 2 ^ 15 + g.slot * 2 ^ 12 + warp * 2 ^ 9 + g.pinst

/-! ## The outbound engine (R165, R315, R316, R319) -/

/-- An outbound operation of a core. -/
def Core.outOp? (c : Core) (id : Nat) : Option OutOp := c.outOps.find? fun o => o.id == id

/-- An operation enters the outbound queue. -/
def Die.enterOut (d : Die) (core : Nat) (o : OutOp) : Die :=
  d.modCore core fun c => { c with outOps := c.outOps ++ [o], outQ := c.outQ ++ [.op o.id] }

/-- An outbound operation completes with its result word. -/
def State.closeOut (s : State) (d core : Nat) (o : OutOp) (word : Nat) : State :=
  let s := s.modDie d fun x => (x.modCore core fun c => { c with outOps := c.outOps.filter fun y => y.id != o.id }).endOp core o.id
  s.modGroup d o.dst.gid fun g => (g.putAt o.dst word).opDone o.dst.depth o.handle

/-- Translate the queue of an operation and look for a lost target (R108, R135): a refusal, or the entry. -/
def State.nameFor (s : State) (d pn : Nat) (vqn : Word) (enq deq : Bool) : Except Nat NameEntry × State :=
  let (r, s) := s.translateName d pn vqn.toNat enq deq
  match r with
  | .error st => (.error st, s)
  | .ok n =>
    if (s.die d).port.holdsLost (bits n.qid.toNat 63 48) (bits n.qid.toNat 47 45) then (.error St.targetLost, s) else (.ok n, s)

/-- The message that an outbound operation sends. -/
def OutOp.message (o : OutOp) (g : Group) (n : NameEntry) : Msg :=
  let msg := fun (kind pid : Nat) => requestMsg kind n.qid.toNat n.dom pid o.pn
  match o.kind with
  | .res k => { msg Kind.resv (g.pidFirst o.dst.warp) with arg0 := BitVec.ofNat 64 k }
  | .put t bytes bad => { msg Kind.put (g.pidFirst o.dst.warp) with ticket := t, bytes := bytes, mlen := bytes.length, bad := bad }
  | .cancelGrant t => { msg Kind.cancel (g.pidFirst o.dst.warp) with ticket := t }
  | .cancelWait w => { msg Kind.cancel (g.pidNow w) with arg0 := 1 }
  | .launch _ => msg Kind.resv 0

/-- An enqueue needs the right ENQ; a cancellation needs none. -/
def OutKind.enqueues (k : OutKind) : Bool :=
  match k with
  | .res _ | .put .. => true
  | _ => false

/-- Start an operation: it is sent, or it completes with the refusal of its translation. -/
def State.startOut (s : State) (d core : Nat) (o : OutOp) : State :=
  let (r, s) := s.nameFor d o.pn o.vqn o.kind.enqueues false
  match r with
  | .error st => s.closeOut d core o (queueWord 0 st 0)
  | .ok n =>
    let g := (s.group? d o.dst.gid).getD default
    let s := s.modDie d fun x => x.modCore core fun c =>
      { c with outOps := modWhere (fun y => y.id == o.id) (fun y => { y with started := true }) c.outOps }
    s.request d (.out core o.id) (o.message g n)

/-- The operation at the head of the outbound queue that is not yet started, other than a launch, which the
pending-launch queue starts (R310). -/
def Core.nextOut (c : Core) : Option OutOp :=
  match c.outQ.head? with
  | some (.op id) => (c.outOp? id).filter fun o => !o.started && match o.kind with | .launch _ => false | _ => true
  | _ => none

/-- Start what stands at the head of the outbound queue. -/
def State.pumpOut (s : State) (fuel d core : Nat) : State :=
  match fuel with
  | 0 => s
  | fuel + 1 =>
    match ((s.die d).core core).nextOut with
    | none => s
    | some o => (s.startOut d core o).pumpOut fuel d core

/-- Start what can start on a core; engines pause while the frequency changes (R409). -/
def State.pump (s : State) (d core : Nat) : State :=
  if (s.die d).paused then s else s.pumpOut (((s.die d).core core).outQ.length + 1) d core

/-- An outbound operation completes, and the next one starts. -/
def State.endOut (s : State) (d core : Nat) (o : OutOp) (word : Nat) : State := (s.closeOut d core o word).pump d core

/-- A word's operation through a handle enters the outbound queue; the word passes with its destination pending. -/
def Job.outbound (j : Job) (s : State) (n : Nat) (kind : OutKind) : State :=
  let g := j.group s
  let h := g.handle n
  let (id, s) := s.newId
  let o : OutOp := ⟨id, kind, n, h.binding, h.vqn, g.ctx.pn, j.dest s, false⟩
  let s := j.later (j.mod s (·.opBegun n))
  (s.modDie j.d fun x => x.enterOut g.core o).pump j.d g.core

/-! ## QBIND, QRES, QPUT, QSTAT, QCANCEL -/

/-- QBIND (R314). -/
def qbindWord (j : Job) (s : State) : State :=
  let (id, s) := s.newId
  j.pass (j.mod s fun g => g.modHandle (handleNo j.f.dst) fun h =>
    { h with bound := true, vqn := BitVec.ofNat 32 j.a, esize := 0, binding := id })

/-- The word completes with a status and sends nothing. -/
def Job.queueStatus (j : Job) (s : State) (st : Nat) : State := j.result s (queueWord 0 st 0)

/-- QRES and QRES wide. -/
def qresWord (count : Job → Nat) (j : Job) (s : State) : State :=
  let n := handleNo j.f.sa
  if !((j.group s).handle n).bound then j.queueStatus s St.name else j.outbound s n (.res (count j))

/-- The 32-bit words of a window range that hold a poisoned byte (R396). -/
def Group.badWords (g : Group) (base n : Nat) : List Nat :=
  (List.range (n / 4)).filter fun k => (List.range 4).any fun i => (g.partByte (base + 4 * k + i)).2

/-- The bytes of a partition range. -/
def Group.partBytes (g : Group) (base n : Nat) : List Byte := (List.range n).map fun i => (g.partByte (base + i)).1

/-- QPUT. Its element is read at issue, poison and all (R316, R396). -/
def qputWord (j : Job) (s : State) : State :=
  let g := j.group s
  let n := handleNo j.f.sa
  let h := g.handle n
  let a := j.c % 2 ^ 32
  let z := 2 ^ h.esize
  if !h.bound then j.queueStatus s St.name
  else if h.esize = 0 then j.queueStatus s St.rights
  else if a % min z 64 ≠ 0 ∨ g.top < a + z then j.fault s Cause.window j.lanes a
  else
    j.irrevocable s fun s =>
      let g := j.group s
      let at_ := g.ctx.frame.base + a
      j.readsWindow s [readAcc a z] fun s => j.outbound s n (.put (j.b % 2 ^ 48) (g.partBytes at_ z) (g.badWords at_ z))

/-- A QWAIT of the group waits through handle n (R318). -/
def Group.waitsThrough (g : Group) (n : Nat) : Bool :=
  g.hasWait fun w => match w with
    | .qwait x => handleNo x.i.fields.sa == n
    | _ => false

/-- The word that QSTAT writes (R318). -/
def Group.qstat (g : Group) (n : Nat) : Nat :=
  let h := g.handle n
  min h.out 255 * 2 ^ 40 + h.esize * 2 ^ 36 + (g.waitsThrough n).toNat * 2 ^ 35 + h.bound.toNat * 2 ^ 34
    + (if h.bound then h.vqn.toNat else 0)

/-- QSTAT. -/
def qstatWord (j : Job) (s : State) : State := j.result s ((j.group s).qstat (handleNo j.f.sa))

/-- QCANCEL grant and QCANCEL wait. -/
def qcancelWord (kind : Job → OutKind) (j : Job) (s : State) : State :=
  let n := handleNo j.f.sa
  if !((j.group s).handle n).bound then j.queueStatus s St.name else j.outbound s n (kind j)

/-! ## QGET and QWAIT (R317) -/

/-- Bytes that QGET and QWAIT allow for. -/
def Issued.deqSize (x : Issued) : Nat := 2 ^ (x.i.fields.imm % 16)
/-- The window offset that QGET and QWAIT name. -/
def Issued.deqOff (x : Issued) : Nat := (x.lanes.headD default).b.toNat % 2 ^ 32

/-- Write a delivered element's bytes, with the poison of its words, from a partition offset. -/
def Group.putElement (g : Group) (base : Nat) (bytes : List Byte) (bad : List Nat) : Group :=
  (List.range (bytes.length / 4)).foldl (fun g k => g.putPart (base + 4 * k) ((bytes.drop (4 * k)).take 4) (bad.contains k)) g

/-- The partition lines of `n` bytes at a partition offset that is a multiple of 64. -/
def linesAt (base n : Nat) : List Nat := (List.range ((n + 63) / 64)).map fun i => base / 64 + i

/-- A QGET or QWAIT ends (R317): the element, if one came, its lines present, the result word and the waiting
threads. -/
def Group.endDeq (g : Group) (wait : Bool) (dst : Dest) (handle off size : Nat) (el : Option (List Byte × List Nat × Nat))
    (status : Nat) : Group :=
  let at_ := (g.frameAt dst.depth).base + off
  let (g, word) := match el with
    | some (bytes, bad, ticket) =>
      let esize := bytes.length.log2
      (g.putElement at_ (bytes.take size) bad,
       if bytes.length ≤ size then queueWord esize St.ok ticket else queueWord 0 St.malformed ticket)
    | none => (g, queueWord 0 status 0)
  let g := (g.setLines (linesAt at_ size)).opDone dst.depth handle
  let g := if wait then
      g.endWaits (fun w => match w with
        | .qwait x => x.warp == dst.warp
        | _ => false) ⟨false, BitVec.ofNat 64 word⟩
    else g.putAt dst word
  g.recheckWaits ((el.map fun e => (at_, min size e.1.length)).toList)

/-- Send the DEQ of a QGET or QWAIT of a group: a refusal, if it cannot be sent. -/
def State.sendDeq (s : State) (d : Nat) (g : Group) (x : Issued) (wait : Bool) : Option Nat × State :=
  let n := handleNo x.i.fields.sa
  let dst : Dest := ⟨g.gid, g.gateDepth, x.warp, x.i.fields.dst⟩
  let b := (g.handle n).binding
  let (r, s) := s.nameFor d g.ctx.pn (g.handle n).vqn false true
  match r with
  | .error st => (some st, s)
  | .ok e =>
    let m := { requestMsg Kind.deq e.qid.toNat e.dom (g.pidNow x.warp) g.ctx.pn with
                 arg0 := BitVec.ofNat 64 (wait.toNat + 2 * g.cls), arg1 := BitVec.ofNat 64 x.deqOff }
    (none, s.request d (if wait then .wait dst n b x.deqOff x.deqSize else .get dst n b x.deqOff x.deqSize) m)

/-- The warp has a wait outstanding at a home port (R122). -/
def Die.waitOut (d : Die) (gid warp : Nat) : Bool :=
  d.port.requests.any fun r => match r.asker with
    | .wait dst .. => dst.gid == gid && dst.warp == warp
    | _ => false

/-- QGET and QWAIT after their checks: the lines of the range become absent and the DEQ is sent. -/
def Job.dequeue (j : Job) (s : State) (wait : Bool) : State :=
  let n := handleNo j.f.sa
  let dst := j.dest s
  let g := j.group s
  let s := j.mod s fun g => (g.clearLines (linesAt (g.ctx.frame.base + j.x.deqOff) j.x.deqSize)).opBegun n
  let s := if wait then j.wait s (.qwait j.x) else j.later s
  let (r, s) := s.sendDeq j.d g j.x wait
  match r with
  | none => s
  | some st => j.mod s (·.endDeq wait dst n j.x.deqOff j.x.deqSize none st)

/-- QGET and QWAIT. A QGET makes its node irrevocable only when it takes an element, which its home decides (R169). -/
def deqWord (wait : Bool) (j : Job) (s : State) : State :=
  let g := j.group s
  let a := j.x.deqOff
  if !(g.handle (handleNo j.f.sa)).bound then j.queueStatus s St.name
  else if a % 64 ≠ 0 ∨ a < g.b1 ∨ g.b2 < a + j.x.deqSize then j.fault s Cause.window j.lanes a
  else if wait && (s.die j.d).waitOut j.gid j.x.warp then j.wait s (.qwaitBusy j.x)
  else if wait then j.irrevocable s (j.dequeue · true)
  else j.dequeue s false

/-- The QWAITs of a group that no home port knows of are sent again (R123). -/
def State.resendWaits (s : State) (d gid : Nat) : State :=
  match s.group? d gid with
  | none => s
  | some g =>
    let words := distinct (g.living.filterMap fun t => match (g.thread t).wait with
      | some (.qwait x) => some x
      | _ => none)
    words.foldl (fun s x =>
      match s.group? d gid with
      | none => s
      | some g =>
        if (s.die d).waitOut gid x.warp then s
        else
          let (r, s) := s.sendDeq d g x true
          match r with
          | none => s
          | some st => s.modGroup d gid fun g =>
              g.endDeq true ⟨gid, g.gateDepth, x.warp, x.i.fields.dst⟩ (handleNo x.i.fields.sa) x.deqOff x.deqSize none st) s

/-! ## LAUNCH (R309, R310) -/

/-- The record that LAUNCH reads from the window, with PCHAIN filled in. -/
def Group.launchRecord (g : Group) (a : Nat) : List DWord :=
  let bs := g.partBytes (g.ctx.frame.base + a) 128
  let ws := (List.range 16).map fun i => BitVec.ofNat 64 (ofBytes ((bs.drop (8 * i)).take 8))
  if ws.getD 7 0 = 0 then ws.set 7 g.nodeid else ws

/-- The record enters the pending-launch queue; LAUNCH queue is an operation in flight through its handle (R318). -/
def Job.appendLaunch (j : Job) (s : State) (queue : Bool) : State :=
  let g := j.group s
  let (id, s) := s.newId
  let h := g.handle (handleNo j.f.sb)
  let l : PendLaunch :=
    { id := id, words := g.launchRecord (j.a % 2 ^ 32), bad := g.badWords (g.ctx.frame.base + j.a % 2 ^ 32) 128, queue := queue,
      vqn := if queue && h.bound then some h.vqn else none, handle := handleNo j.f.sb, pn := g.ctx.pn, dom := (s.die j.d).domain g.ctx.pn,
      dst := j.dest s, grant := none, expiry := 0, retry := false, busy := false }
  let o : OutOp := ⟨id, .launch id, 0, 0, 0, g.ctx.pn, j.dest s, false⟩
  let s := if queue then j.mod s (·.opBegun l.handle) else s
  (j.later s).modDie j.d fun x => x.modCore g.core fun c =>
    { c with launches := c.launches ++ [l], outOps := c.outOps ++ [o], outQ := c.outQ ++ [.op id] }

/-- LAUNCH and LAUNCH queue. -/
def launchWord (queue : Bool) (j : Job) (s : State) : State :=
  let g := j.group s
  let a := j.a % 2 ^ 32
  if a % 64 ≠ 0 ∨ a < g.b1 ∨ g.b2 < a + 128 then j.fault s Cause.window j.lanes a
  else if 4 ≤ ((s.die j.d).core g.core).launches.length then j.wait s (.launchFull j.x)
  else j.irrevocable s fun s => j.readsWindow s [readAcc a 128] fun s => j.appendLaunch s queue

/-- A launch leaves the pending-launch queue with its status (R310). -/
def State.endLaunch (s : State) (d core : Nat) (l : PendLaunch) (st : Nat) : State :=
  let s := s.modDie d fun x => (x.modCore core fun c =>
    { c with launches := c.launches.filter fun y => y.id != l.id, outOps := c.outOps.filter fun y => y.id != l.id }).endOp core l.id
  (s.modGroup d l.dst.gid fun g =>
    let g := g.putAt l.dst st
    if l.queue then g.opDone l.dst.depth l.handle else g).pump d core

/-- Change a pending launch. -/
def Die.modLaunch (d : Die) (core id : Nat) (f : PendLaunch → PendLaunch) : Die :=
  d.modCore core fun c => { c with launches := modWhere (fun l => l.id == id) f c.launches }

/-- PID of engine 2 of a core (R127). -/
def enginePid (core engine : Nat) : Nat := 2 ^ 22 + core * 2 ^ 15 + engine * 2 ^ 12

/-- The QID and the domain that a pending launch sends with, or the status that refuses it. -/
def State.launchTarget (s : State) (d : Nat) (l : PendLaunch) : Except Nat (Nat × Word) × State :=
  match l.queue, l.vqn, l.dom with
  | _, _, none => (.error St.name, s)
  | true, none, _ => (.error St.name, s)
  | true, some v, some dom =>
    let (r, s) := s.nameFor d l.pn v true false
    (r.map fun n => (n.qid.toNat, dom), s)
  | false, _, some dom =>
    let i := 3 + bits (l.words.getD 1 0).toNat 49 48
    (.ok ((qid s.pkg d i (((s.die d).queue? i).map Queue.gen |>.getD 1)).toNat, dom), s)

/-- Reserve for a pending launch (R310). -/
def State.reserveLaunch (s : State) (d core : Nat) (l : PendLaunch) : State :=
  let (r, s) := s.launchTarget d l
  match r with
  | .error st => s.endLaunch d core l st
  | .ok (q, dom) =>
    (s.modDie d fun x => x.modLaunch core l.id fun l => { l with busy := true, retry := false }).request d (.launch core l.id)
      { requestMsg Kind.resv q dom (enginePid core 2) l.pn with arg0 := 1 }

/-- The launch that the pending-launch queue of a core works at: its head, once the outbound queue reaches it. -/
def Core.headLaunch (c : Core) : Option PendLaunch :=
  c.launches.head?.filter fun l => c.outQ.head? == some (.op l.id)

/-- PENDING_LAUNCH_DRAIN (R310): the head of the pending-launch queue reserves. -/
def execPendingLaunchDrain (d core : Nat) (s : State) : Host.Outcome State Fault Refusal :=
  match ((s.die d).core core).headLaunch with
  | some l => (if l.busy || l.retry || l.grant.isSome then s else s.reserveLaunch d core l).finish
  | none => s.finish

/-- LAUNCH_RESERVE_RETRY (R310): a launch refused FULL reserves again. -/
def execLaunchReserveRetry (d core : Nat) (s : State) : Host.Outcome State Fault Refusal :=
  match ((s.die d).core core).headLaunch with
  | some l => (if l.retry then s.reserveLaunch d core l else s).finish
  | none => s.finish

/-! ## The words -/

/-- LAUNCH (R309). -/
def execLaunch (w : RegWord) (s : State) : Host.Outcome State Fault Refusal := issueWord (.launch w) s (launchWord false)
/-- LAUNCH queue (R309). -/
def execLaunchQueue (w : RegWord) (s : State) : Host.Outcome State Fault Refusal := issueWord (.launchQueue w) s (launchWord true)
/-- QBIND (R314). -/
def execQbind (w : RegWord) (s : State) : Host.Outcome State Fault Refusal := issueWord (.qbind w) s qbindWord
/-- QRES (R315). -/
def execQres (w : RegWord) (s : State) : Host.Outcome State Fault Refusal :=
  issueWord (.qres w) s (qresWord fun j => j.b % 2 ^ 32)
/-- QRES wide (R315). -/
def execQresWide (w : WideWord) (s : State) : Host.Outcome State Fault Refusal :=
  issueWord (.qresWide w) s (qresWord fun _ => w.imm.toNat)
/-- QPUT (R316). -/
def execQput (w : RegWord) (s : State) : Host.Outcome State Fault Refusal := issueWord (.qput w) s qputWord
/-- QGET (R317). -/
def execQget (w : RegWord) (s : State) : Host.Outcome State Fault Refusal := issueWord (.qget w) s (deqWord false)
/-- QWAIT (R317). -/
def execQwait (w : RegWord) (s : State) : Host.Outcome State Fault Refusal := issueWord (.qwait w) s (deqWord true)
/-- QSTAT (R318). -/
def execQstat (w : RegWord) (s : State) : Host.Outcome State Fault Refusal := issueWord (.qstat w) s qstatWord
/-- QCANCEL grant (R319). -/
def execQcancelGrant (w : RegWord) (s : State) : Host.Outcome State Fault Refusal :=
  issueWord (.qcancelGrant w) s (qcancelWord fun j => .cancelGrant (j.b % 2 ^ 48))
/-- QCANCEL wait (R319). -/
def execQcancelWait (w : RegWord) (s : State) : Host.Outcome State Fault Refusal :=
  issueWord (.qcancelWait w) s (qcancelWord fun j => .cancelWait (j.b % 8))

end Sys2Proof.Machine
end

