-- ==== Sys2Proof/Machine/Stream.lean ====
section
/-! DEFINITION. The stream engine (R337 to R349): layout records, fills, drains, streams from a queue, drains into a
queue, SREL, SJOIN and SWAIT, and the rows that park (R343, R388). -/

namespace Sys2Proof.Machine

/-! ## Layout records (R338) -/

/-- The fields of a layout record of 64 bytes. -/
def layoutOf (x : Nat) : Layout where
  base := BitVec.ofNat 64 x
  str1 := BitVec.ofNat 64 (bits x 127 64)
  str2 := BitVec.ofNat 64 (bits x 191 128)
  str3 := BitVec.ofNat 64 (bits x 255 192)
  cnt1 := bits x 271 256
  cnt2 := bits x 287 272
  cnt3 := bits x 303 288
  rowb := bits x 319 304
  rbase := bits x 351 320
  slotb := bits x 383 352
  nslot := bits x 399 384
  hint := bits x 401 400
  dpitch := bits x 447 416

/-- M: the number of rows. -/
def Layout.rows (l : Layout) : Nat := l.cnt1 * l.cnt2 * l.cnt3

/-- The ring fields are in range. -/
def Layout.ringOk (l : Layout) : Bool := l.rbase % 64 == 0 && l.slotb % 64 == 0 && l.slotb != 0 && 1 ≤ l.nslot && l.nslot ≤ 256

/-- The record of a fill or drain to memory is well formed; `x` is its bytes. -/
def Layout.ok (l : Layout) (x : Nat) : Bool :=
  bits x 415 402 == 0 && bits x 511 448 == 0 && l.ringOk && 1 ≤ l.cnt1 && 1 ≤ l.cnt2 && 1 ≤ l.cnt3
    && 1 ≤ l.rowb && l.rowb ≤ 4096 && !(1 < l.rows && l.dpitch < l.rowb) && (l.rows - 1) * l.dpitch + l.rowb ≤ l.slotb

/-- The record of a queue form is well formed: only RBASE, SLOTB, NSLOT and HINT are used. -/
def Layout.queueOk (l : Layout) (x : Nat) : Bool :=
  bits x 319 0 == 0 && bits x 415 402 == 0 && bits x 511 416 == 0 && l.ringOk

/-- The ring lies in the scratchpad (R339). -/
def Layout.ringFits (l : Layout) (g : Group) : Bool := g.b1 ≤ l.rbase && l.rbase + l.nslot * l.slotb ≤ g.b2

/-- The address of row m in memory. -/
def Layout.rowVa (l : Layout) (off : DWord) (m : Nat) : Nat :=
  let a := BitVec.ofNat 64 (m % l.cnt1)
  let b := BitVec.ofNat 64 (m / l.cnt1 % l.cnt2)
  let c := BitVec.ofNat 64 (m / l.cnt1 / l.cnt2)
  (l.base + off + a * l.str1 + b * l.str2 + c * l.str3).toNat

/-- The window offset of slot k. -/
def Layout.slotOff (l : Layout) (k : Nat) : Nat := l.rbase + k % l.nslot * l.slotb

/-- The lowest and highest byte of all rows, before any wrap (R327, R341). -/
def Layout.span (l : Layout) (off : DWord) : Int × Int :=
  let reach := fun (n : Nat) (s : DWord) => ((n : Int) - 1) * s.toInt
  let dims := [reach l.cnt1 l.str1, reach l.cnt2 l.str2, reach l.cnt3 l.str3]
  let start : Int := (l.base + off).toNat
  (start + dims.foldl (fun m x => m + min 0 x) 0, start + dims.foldl (fun m x => m + max 0 x) 0 + l.rowb - 1)

/-! ## The spans of engine operations (R327, R341) -/

/-- The addresses of a span leave the address space (R327 check 1). -/
def spanWild (sp : Int × Int) : Bool := sp.1 < 0 || 2 ^ 60 ≤ sp.2

/-- R341 on a span of `n` bytes at `lo`: the mode of the one extent that holds it permits the access; no extent is
touched in part. -/
def ExtTable.spanOk (t : ExtTable) (acc : Acc) (lo n : Nat) : Bool :=
  match t.holding lo n with
  | some (i, e) => e.mode == 5 || t.demoted.contains i || modePermits e.mode acc
  | none => !t.touches lo n

/-! ## Copies -/

/-- The context of a group at a gate depth (R353, R354). -/
def Group.ctxAt (g : Group) (depth : Nat) : Ctx :=
  if depth = g.gateDepth then g.ctx else ((g.gates.reverse.drop depth).head?.map GateFrame.ctx).getD g.ctx

/-- Where row m of a copy lies in the partition. -/
def Copy.rowAt (c : Copy) (g : Group) (m : Nat) : Nat := (g.frameAt c.depth).base + c.lay.slotOff c.slot + m * c.lay.dpitch

/-- The partition lines that row m touches. -/
def Copy.rowLines (c : Copy) (g : Group) (m : Nat) : List Nat :=
  let a := c.rowAt g m
  (List.range ((a + c.lay.rowb - 1) / 64 + 1 - a / 64)).map fun i => a / 64 + i

/-- The partition lines that a copy's rows touch. -/
def Copy.allLines (c : Copy) (g : Group) : List Nat := distinct ((List.range c.lay.rows).flatMap (c.rowLines g))

/-- A copy record is free in the core. -/
def Core.freeCopy (c : Core) : Option Nat := (List.range 32).find? fun k => !c.copies.any fun x => x.id == k

/-- Change a copy record. -/
def Die.modCopy (d : Die) (core id : Nat) (f : Copy → Copy) : Die :=
  d.modCore core fun c => { c with copies := modWhere (fun x => x.id == id) f c.copies }

/-- A copy record as it starts; every slot of a ring is free. -/
def Job.newCopy (j : Job) (s : State) (id : Nat) (kind : CopyKind) (lay : Layout) : Copy :=
  let g := j.group s
  let h := g.handle (handleNo j.f.sb)
  { id := id, gid := j.gid, depth := g.gateDepth, kind := kind, lay := lay
    off := if kind = .fill ∨ kind = .drain then BitVec.ofNat 64 j.b else 0
    slot := if kind = .fillQueue then 0 else j.c % 2 ^ 32
    pn := g.ctx.pn, dom := (s.die j.d).domain g.ctx.pn
    vqn := if (kind = .fillQueue ∨ kind = .drainQueue) ∧ h.bound then some h.vqn else none
    done := [], parked := [], next := 0, cnt := if kind = .fillQueue then j.c % 2 ^ 32 else 0
    free := List.range lay.nslot, busy := false, delivered := [], closing := false, status := 0, grant := none, retry := false
    putDue := none }

/-- A copy record is taken, its entry enters its queue, and the word's result is written (R337, R340). -/
def Job.startCopy (j : Job) (s : State) (kind : CopyKind) (lay : Layout) : State :=
  let g := j.group s
  match ((s.die j.d).core g.core).freeCopy with
  | none => j.wait s (.copyFull j.x)
  | some id =>
    let c := j.newCopy s id kind lay
    let s := s.modDie j.d fun x => x.modCore g.core fun k =>
      if kind = .fill ∨ kind = .fillQueue then { k with copies := k.copies ++ [c], fillQ := k.fillQ ++ [.op id] }
      else { k with copies := k.copies ++ [c], drainQ := k.drainQ ++ [.op id] }
    let s := j.mod s fun g =>
      match kind with
      | .fill => g.clearLines (c.allLines g)
      | .fillQueue => g.clearLines ((List.range lay.nslot).flatMap fun k => lay.slotLines g.ctx.frame.base k lay.slotb)
      | _ => g
    j.result s (id * 256)

/-! ## The words (R339 to R346) -/

/-- Read and check the layout record, then go on with it; `queue` names the form of the word. -/
def Job.withLayout (j : Job) (s : State) (queue : Bool) (k : Layout → State → State) : State :=
  let g := j.group s
  let a := j.a % 2 ^ 32
  if a % 64 ≠ 0 ∨ g.top < a + 64 then j.fault s Cause.window j.lanes a
  else j.readsWindow s [readAcc a 64] fun s =>
    let (bs, bad) := g.window a 64
    let x := ofBytes bs
    let l := layoutOf x
    if bad then j.fault s Cause.poison j.lanes 0
    else if !l.ringFits g then j.fault s Cause.window j.lanes l.rbase
    else if !(if queue then l.queueOk x else l.ok x) then j.result s St.malformed
    else k l s

/-- A free copy record is needed before anything else happens (R337). -/
def Job.withRecord (j : Job) (s : State) (k : State → State) : State :=
  if (((s.die j.d).core (j.group s).core).freeCopy).isNone then j.wait s (.copyFull j.x) else k s

/-- The reads of partition lines as window reads. -/
def lineAccs (g : Group) (ls : List Nat) : List WinAcc := ls.map fun l => readAcc (64 * l - g.ctx.frame.base) 64

/-- SFILL and SDRAIN. -/
def copyWord (drain : Bool) (j : Job) (s : State) : State :=
  j.withLayout s false fun l s =>
    let g := j.group s
    let sp := l.span (BitVec.ofNat 64 j.b)
    let lo := sp.1.toNat
    let n := (sp.2 - sp.1 + 1).toNat
    if spanWild sp then j.fault s Cause.address j.lanes (BitVec.ofInt 64 sp.1).toNat
    else if !g.ctx.ext.spanOk (if drain then .store else .load) lo n then j.fault s Cause.extent j.lanes lo
    else
      j.withRecord s fun s =>
        if drain then
          let c := j.newCopy s 0 .drain l
          j.readsWindow s (lineAccs g (c.allLines g)) fun s =>
          if (s.die j.d).hostVisible g.ctx.pn lo n then j.irrevocable s (j.startCopy · .drain l)
          else j.startCopy s .drain l
        else j.startCopy s .fill l

/-- SFILL queue and SDRAIN queue. -/
def queueCopyWord (drain : Bool) (j : Job) (s : State) : State :=
  j.withLayout s true fun l s =>
    j.withRecord s fun s =>
      let g := j.group s
      j.readsWindow s (if drain then lineAccs g (l.slotLines g.ctx.frame.base (j.c % 2 ^ 32) l.slotb) else []) fun s =>
        j.irrevocable s (j.startCopy · (if drain then .drainQueue else .fillQueue) l)

/-- SREL (R345): a slot is released, or the stream closed. -/
def srelWord (j : Job) (s : State) : State :=
  let g := j.group s
  let s := j.pass s
  match ((s.die j.d).core g.core).copy? (j.a % 2 ^ 32) with
  | none => s
  | some c =>
    if c.gid ≠ j.gid ∨ c.kind ≠ .fillQueue then s
    else if bit j.f.imm 0 then s.closeStream j.d g.core c 0
    else
      let k := j.b % 2 ^ 32 % c.lay.nslot
      if c.delivered.contains k then
        s.modDie j.d fun x => x.modCopy g.core c.id fun c => { c with delivered := c.delivered.filter (· != k), free := k :: c.free }
      else s

/-- SJOIN (R166, R347). -/
def sjoinWord (j : Job) (s : State) : State :=
  let set := j.f.imm % 32
  if set = 0 then j.fault s Cause.illegal j.lanes 0
  else
    let g := j.group s
    let (id, s) := s.newId
    let add := fun (b : Nat) (q : List EngEntry) => if bit set b then q ++ [.fence id] else q
    let s := s.modDie j.d fun x =>
      let x := x.modCore g.core fun c =>
        { c with fillQ := add 0 c.fillQ, drainQ := add 1 c.drainQ, prefetchQ := add 2 c.prefetchQ, outQ := add 3 c.outQ }
      let x := if bit set 4 then x.modCluster (x.clusterOf g.core) fun k => { k with fences := k.fences ++ [(j.gid, id, id)] } else x
      x.clearFences g.core
    (j.pass s).pump j.d g.core

/-- Copies of a group that are outstanding, open streams apart (R348). -/
def Die.copiesOut (d : Die) (g : Group) : Nat :=
  ((d.cores.flatMap fun c => c.2.copies).filter fun c => c.gid == g.gid && c.kind != .fillQueue).length

/-- SWAIT and SWAIT count. -/
def swaitWord (count : Job → Nat) (j : Job) (s : State) : State :=
  let g := j.group s
  let out := (s.die j.d).copiesOut g
  if count j < out then j.wait s (.copies j.x (count j))
  else j.result (j.mod s fun g => { g with sticky := 0 }) (g.sticky % 256 + min out 255 * 256)

/-! ## Rows (R342 to R344) -/

/-- What checking a row gives. -/
inductive RowCheck where
  | ok (spots : List Spot)
  /-- The cause, and the first faulting byte. -/
  | bad (cause va : Nat)
  | hole (a : Nat)
deriving DecidableEq, Repr, Inhabited

/-- Check a row page by page. -/
def State.checkRow (s : State) (d core pn : Nat) (ext : ExtTable) (acc : Acc) (va n : Nat) (pages : List Nat)
    (spots : List Spot) : RowCheck × State :=
  match pages with
  | [] => (.ok spots, s)
  | p :: rest =>
    let lo := max va (p * 65536)
    let hi := min (va + n) ((p + 1) * 65536)
    let (c, s) := s.checkAccess d core pn ext acc lo (hi - lo)
    match c with
    | .ok here _ => s.checkRow d core pn ext acc va n rest (spots ++ here)
    | .bad cause => (.bad cause lo, s)
    | .hole a => (.hole a, s)

/-- The stream row notice's body (R388). -/
def rowBody (va row pn log cause dir copy dropped : Nat) : List Byte :=
  toBytes 8 va ++ toBytes 8 row ++ toBytes 2 pn ++ toBytes 2 log ++ toBytes 1 cause ++ toBytes 1 dir ++ toBytes 1 copy
    ++ toBytes 1 0 ++ toBytes 2 dropped ++ List.replicate 22 0

/-- 1 for a drain (R388). -/
def Copy.dir (c : Copy) : Nat := if c.kind = .fill then 0 else 1

/-- The words of partition lines become poisoned, and the lines present (R71). -/
def Group.poisonLines (g : Group) (ls : List Nat) : Group :=
  (ls.foldl (fun g l => (List.range 16).foldl (fun g i => g.setWord (16 * l + i) { g.word (16 * l + i) with poison := true }) g) g).setLines ls

/-- A row of a copy is done: a fill's lines whose rows are all done become present, and a copy whose rows are all done
ends (R342). -/
def Die.rowDone (d : Die) (core id m : Nat) : Die :=
  let d := d.modCopy core id fun c => { c with done := m :: c.done, parked := c.parked.filter (· != m) }
  match (d.core core).copy? id with
  | none => d
  | some c =>
    let d := if c.kind = .fill then d.modGroup c.gid fun g =>
        let open_ := ((List.range c.lay.rows).filter fun k => !c.done.contains k).flatMap (c.rowLines g)
        (g.setLines ((c.rowLines g m).filter fun l => !open_.contains l)).recheckLines (c.rowLines g m)
      else d
    if c.lay.rows ≤ c.done.length then d.endCopy core c c.status else d

/-- A row is unresolvable (R343, R344): a CAUSE 4 notice, unless the copy record's cell is held (R138). -/
def Die.unresolvable (d : Die) (core : Nat) (c : Copy) (m va : Nat) : Die :=
  let lost := tgetD (d.core core).refused c.id 0
  let d := if d.cellHeld (copyCell core c.id) then
      d.modCore core fun k => { k with refused := tput k.refused c.id (min (lost + 1) 0xFFFF) }
    else
      (d.notice ⟨copyCell core c.id, 0x0103, rowBody va m c.pn 0 4 c.dir c.id lost⟩).modCore core fun k =>
        { k with refused := tdel k.refused c.id }
  let d := if c.kind = .fill then d.modGroup c.gid fun g => (g.poisonLines (c.rowLines g m)).recheckLines (c.rowLines g m)
    else d.modCopy core c.id fun c => { c with status := if c.status = 0 then St.fault else c.status }
  d.rowDone core c.id m

/-- A row parks in the stream engine's operand log, if an entry is free (R343, R387). -/
def Die.parkRow (d : Die) (core : Nat) (c : Copy) (m va cause : Nat) : Die :=
  match (List.range 64).find? fun e => !(d.core core).slog.any fun l => l.entry == e with
  | none => d
  | some e =>
    let d := (d.modCopy core c.id fun c => { c with parked := c.parked ++ [m] }).modCore core fun k =>
      { k with slog := k.slog ++ [⟨e, c.id, m, va, causeCode cause, none⟩] }
    d.notice ⟨streamCell core e, 0x0103, rowBody va m c.pn (core * 128 + e) (causeCode cause) c.dir c.id 0⟩

/-- Write the bytes of a fill's row to the partition, word by word (R396). -/
def Group.putRow (g : Group) (a : Nat) (bs : List (Byte × Bool)) : Group :=
  let n := bs.length
  (List.range ((a + n - 1) / 4 + 1 - a / 4)).foldl (fun g w =>
    let lo := max a (4 * (a / 4 + w))
    let hi := min (a + n) (4 * (a / 4 + w) + 4)
    let part := (bs.drop (lo - a)).take (hi - lo)
    g.putPart lo (part.map (·.1)) (part.any (·.2))) g

/-- Store bytes, each clean or poisoned: the clean ones, then poison over the sectors of the others (R396). -/
def State.writeMarked (s : State) (q : Asking) (cells : List (Spot × Byte × Bool)) : State :=
  let clean := cells.filter fun c => !c.2.2
  let foul := cells.filter fun c => c.2.2
  let s := if clean.isEmpty then s else s.writeSpots q (clean.map (·.1)) (clean.map fun c => c.2.1)
  if foul.isEmpty then s else s.poisonSpots q (foul.map (·.1))

/-- Perform row m of a copy (R342 to R344). -/
def State.performRow (s : State) (d core : Nat) (c : Copy) (m : Nat) : State :=
  match s.group? d c.gid with
  | none => s
  | some g =>
    let va := c.lay.rowVa c.off m
    let n := c.lay.rowb
    let (r, s) := s.checkRow d core c.pn (g.ctxAt c.depth).ext (if c.kind = .fill then .load else .store) va n (pagesOf va n) []
    let q : Asking := ⟨d, core, g.slot, g.node, c.lay.hint⟩
    match r with
    | .hole a => { s with hole := some a }
    | .bad cause at_ =>
      if parks cause then s.modDie d fun x => x.parkRow core c m at_ cause
      else s.modDie d fun x => x.unresolvable core c m at_
    | .ok spots =>
      if c.kind = .fill then
        let (bs, s) := s.readSpots q spots false
        (s.modGroup d c.gid fun g => g.putRow (c.rowAt g m) bs).modDie d fun x => x.rowDone core c.id m
      else
        let s := s.writeMarked q ((spots.zip ((List.range n).map fun i => g.partByte (c.rowAt g m + i))).map fun x => (x.1, x.2.1, x.2.2))
        s.modDie d fun x => x.rowDone core c.id m

/-- Every row of the copy is done or parked. -/
def Copy.onlyParked (c : Copy) : Bool := c.lay.rows ≤ c.done.length + c.parked.length

/-- Every entry before a copy's in its queue lets it go on. A fill goes on beside earlier fills that have only parked
rows; the entries of the drain queue are performed one after another (R165, R342). -/
def Core.copyTurn (k : Core) (c : Copy) : Bool :=
  let before := (if c.kind = .fill ∨ c.kind = .fillQueue then k.fillQ else k.drainQ).takeWhile fun e => e != .op c.id
  before.all fun e => match e with
    | .op id => (k.copy? id).any fun o => o.kind == .fill && o.onlyParked
    | .fence _ => false

/-- The earlier copies' parked rows that write a line which row m writes (R342). -/
def Core.rowBlocked (k : Core) (c : Copy) (g : Group) (m : Nat) : Bool :=
  c.kind == .fill && (k.copies.takeWhile fun o => o.id != c.id).any fun o =>
    o.kind == .fill && o.gid == c.gid && (o.parked.flatMap (o.rowLines g)).any (c.rowLines g m).contains

/-- Row m is the next row of the copy: every earlier one is done or parked, or is held because the log is full. -/
def Core.rowTurn (k : Core) (c : Copy) (m : Nat) : Bool :=
  m < c.lay.rows && !c.done.contains m && !c.parked.contains m
    && (64 ≤ k.slog.length || (List.range m).all fun i => c.done.contains i || c.parked.contains i)

/-- A row of a fill or drain is performed when it is its turn. -/
def State.rowStep (s : State) (d core copy row : Nat) (kind : CopyKind) : State :=
  let k := (s.die d).core core
  match k.copy? copy with
  | none => s
  | some c =>
    match s.group? d c.gid with
    | none => s
    | some g =>
      if c.kind = kind ∧ k.copyTurn c ∧ k.rowTurn c row ∧ !k.rowBlocked c g row then (s.performRow d core c row).pump d core else s

/-! ## Streams from a queue (R345) -/

/-- A stream's wait is answered with something other than an element: the stream closes. -/
def State.streamRefused (s : State) (d core copy st : Nat) : State :=
  match ((s.die d).core core).copy? copy with
  | none => s
  | some c => (s.closeStream d core c st).pump d core

/-- Send the DEQ for the next slot of a stream; the stream is open from the first on, and leaves the fill queue. -/
def State.streamAsk (s : State) (d core : Nat) (c : Copy) (g : Group) : State :=
  let s := s.modDie d fun x => (x.modCore core fun k => { k with fillQ := k.fillQ.filter (· != .op c.id) }).clearFences core
  let slot := c.next % c.lay.nslot
  match c.vqn with
  | none => s.streamRefused d core c.id St.name
  | some v =>
    let (r, s) := s.nameFor d c.pn v false true
    match r with
    | .error st => s.streamRefused d core c.id st
    | .ok n =>
      let s := s.modDie d fun x => x.modCopy core c.id fun c => { c with busy := true, free := c.free.filter (· != slot) }
      (s.request d (.stream core c.id slot)
        { requestMsg Kind.deq n.qid.toNat n.dom (enginePid core 0 + c.id * 16) c.pn with
            arg0 := BitVec.ofNat 64 (1 + 2 * g.cls), arg1 := BitVec.ofNat 64 (c.lay.slotOff slot) }).pump d core

/-- An element arrives in a stream's slot. -/
def State.streamDelivered (s : State) (d core copy slot : Nat) (bytes : List Byte) (bad : List Nat) : State :=
  match ((s.die d).core core).copy? copy with
  | none => s
  | some c =>
    let s := s.modGroup d c.gid fun g =>
      let base := (g.frameAt c.depth).base
      let g := if c.lay.nslot ≤ c.next then g.clearLines (c.lay.slotLines base slot c.lay.slotb) else g
      let part := bytes.take c.lay.slotb
      let ls := linesAt (base + c.lay.slotOff slot) part.length
      ((g.putElement (base + c.lay.slotOff slot) part bad).setLines ls).recheckLines ls
    let s := s.modDie d fun x => x.modCopy core copy fun c =>
      { c with busy := false, next := c.next + 1, delivered := slot :: c.delivered
               status := if c.status = 0 ∧ c.lay.slotb < bytes.length then St.malformed else c.status }
    match ((s.die d).core core).copy? copy with
    | some c => if c.cnt ≠ 0 ∧ c.next = c.cnt then (s.closeStream d core c 0).pump d core else s
    | none => s

/-- The open waits of a group's streams are withdrawn, to be sent again on restore (R123, R349). -/
def State.withdrawStreams (s : State) (d gid : Nat) : State :=
  match s.group? d gid with
  | none => s
  | some g =>
    let mine := ((s.die d).core g.core).copies.filter fun c => c.gid == gid && c.kind == .fillQueue && c.busy
    mine.foldl (fun s c =>
      (s.withdraw d fun a => match a with
        | .stream k i _ => k == g.core && i == c.id
        | _ => false).modDie d fun x => x.modCopy g.core c.id fun c => { c with busy := false, free := c.next % c.lay.nslot :: c.free }) s

/-! ## Drains into a queue (R346) -/

/-- A drain into a queue ends with a status. -/
def State.drainEnd (s : State) (d core copy st : Nat) : State :=
  match ((s.die d).core core).copy? copy with
  | none => s
  | some c => (s.modDie d fun x => x.endCopy core c st).pump d core

/-- Reserve one ticket for a drain. -/
def State.drainReserve (s : State) (d core : Nat) (c : Copy) : State :=
  match c.vqn, c.dom with
  | some v, some dom =>
    let (r, s) := s.nameFor d c.pn v true false
    match r with
    | .error st => s.drainEnd d core c.id st
    | .ok n =>
      (s.modDie d fun x => x.modCopy core c.id fun c => { c with busy := true, retry := false }).request d (.drain core c.id)
        { requestMsg Kind.resv n.qid.toNat dom (enginePid core 1) c.pn with arg0 := 1 }
  | _, _ => s.drainEnd d core c.id St.name

/-- Put the slot's bytes, read now, into the granted ticket of a queue that request `m` named; a frequency change holds the put
back (R409). -/
def State.drainPut (s : State) (d core copy : Nat) (m : Msg) : State :=
  match ((s.die d).core core).copy? copy with
  | none => s
  | some c =>
    if (s.die d).paused then s.modDie d fun x => x.modCopy core copy fun c => { c with putDue := some m }
    else match c.grant, s.group? d c.gid with
    | some (ticket, esize), some g =>
      if c.lay.slotb < 2 ^ esize then s.drainEnd d core copy St.malformed
      else
        let a := (g.frameAt c.depth).base + c.lay.slotOff c.slot
        s.request d (.drain core copy) { m with kind := Kind.put, arg0 := 0, ticket := ticket, bytes := g.partBytes a (2 ^ esize),
                                                mlen := 2 ^ esize, bad := g.badWords a (2 ^ esize) }
    | _, _ => s

/-- What a core's engines held back while the frequency changed goes on (R409). -/
def State.pumpCore (s : State) (d core : Nat) : State :=
  let due := ((s.die d).core core).copies.filterMap fun c => c.putDue.map fun m => (c.id, m)
  let s := due.foldl (fun s p => (s.modDie d fun x => x.modCopy core p.1 fun c => { c with putDue := none }).drainPut d core p.1 p.2) s
  s.pump d core

/-- The engines of a die go on, unless its frequency changes. -/
def State.pumpDie (s : State) (d : Nat) : State :=
  if (s.die d).paused then s else (s.die d).cores.foldl (fun s c => s.pumpCore d c.1) s

/-! ## The device's steps -/

/-- STREAM_FILL_ROW (R342). -/
def execStreamFillRow (d core copy row : Nat) (s : State) : Host.Outcome State Fault Refusal :=
  (s.rowStep d core copy row .fill).finish
/-- STREAM_DRAIN_ROW (R344). -/
def execStreamDrainRow (d core copy row : Nat) (s : State) : Host.Outcome State Fault Refusal :=
  (s.rowStep d core copy row .drain).finish

/-- STREAM_SLOT_DEQ (R345): the stream of a resident group asks for the next slot of its ring, once it is free. -/
def execStreamSlotDeq (d core copy : Nat) (s : State) : Host.Outcome State Fault Refusal :=
  let k := (s.die d).core core
  match k.copy? copy with
  | none => s.finish
  | some c =>
    match s.group? d c.gid with
    | none => s.finish
    | some g =>
      let turn := !k.fillQ.contains (.op c.id) || k.copyTurn c
      if c.kind = .fillQueue ∧ g.phase = .resident ∧ turn ∧ !c.busy ∧ c.free.contains (c.next % c.lay.nslot) then
        (s.streamAsk d core c g).finish
      else s.finish

/-- DRAIN_QUEUE_PUT (R346): the drain at the head of its queue reserves. -/
def execDrainQueuePut (d core copy : Nat) (s : State) : Host.Outcome State Fault Refusal :=
  let k := (s.die d).core core
  match k.copy? copy with
  | none => s.finish
  | some c =>
    if c.kind = .drainQueue ∧ k.copyTurn c ∧ !c.busy ∧ !c.retry ∧ c.grant.isNone then (s.drainReserve d core c).finish
    else s.finish

/-- DRAIN_RESERVE_RETRY (R346): a drain refused FULL reserves again. -/
def execDrainReserveRetry (d core copy : Nat) (s : State) : Host.Outcome State Fault Refusal :=
  match ((s.die d).core core).copy? copy with
  | none => s.finish
  | some c => if c.kind = .drainQueue ∧ c.retry then (s.drainReserve d core c).finish else s.finish

/-! ## The words -/

/-- SFILL (R342). -/
def execSfill (w : RegWord) (s : State) : Host.Outcome State Fault Refusal := issueWord (.sfill w) s (copyWord false)
/-- SFILL queue (R345). -/
def execSfillQueue (w : RegWord) (s : State) : Host.Outcome State Fault Refusal := issueWord (.sfillQueue w) s (queueCopyWord false)
/-- SDRAIN (R344). -/
def execSdrain (w : RegWord) (s : State) : Host.Outcome State Fault Refusal := issueWord (.sdrain w) s (copyWord true)
/-- SDRAIN queue (R346). -/
def execSdrainQueue (w : RegWord) (s : State) : Host.Outcome State Fault Refusal := issueWord (.sdrainQueue w) s (queueCopyWord true)
/-- SREL (R345). -/
def execSrel (w : RegWord) (s : State) : Host.Outcome State Fault Refusal := issueWord (.srel w) s srelWord
/-- SJOIN (R347). -/
def execSjoin (w : RegWord) (s : State) : Host.Outcome State Fault Refusal := issueWord (.sjoin w) s sjoinWord
/-- SWAIT (R348). -/
def execSwait (w : RegWord) (s : State) : Host.Outcome State Fault Refusal := issueWord (.swait w) s (swaitWord fun _ => 0)
/-- SWAIT count (R348). -/
def execSwaitCount (w : RegWord) (s : State) : Host.Outcome State Fault Refusal :=
  issueWord (.swaitCount w) s (swaitWord fun j => j.a % 2 ^ 32)

end Sys2Proof.Machine
end

