-- ==== Sys2Proof/Machine/Save.lean ====
section
/-! DEFINITION. Saving a group into a save record, and what restoring it takes from the record (R366, R368, R390 to
R392). -/

namespace Sys2Proof.Machine

/-- Bytes of a save record. -/
def recordSize : Nat := 147456

/-- Bytes of a partition. -/
def partitionSize : Nat := 131072

/-- The address of save record k. -/
def Sched.recordAt (x : Sched) (k : Nat) : Nat := bits x.savebase.toNat 51 14 * 16384 + recordSize * k

/-- The lowest free save record. -/
def Sched.freeRecord (x : Sched) : Option Nat := (List.range x.saven).find? fun k => !x.saveUsed.contains k

/-- Something still reads or writes the group's slot (R196, R368): a fill, a drain or a delivery of QGET. -/
def Die.slotBusy (d : Die) (gid : Nat) : Bool :=
  (d.cores.any fun (_, c) => c.copies.any fun k => k.gid == gid && k.kind != .fillQueue)
    || d.port.requests.any fun r => match r.asker with
      | .get dst .. => dst.gid == gid
      | _ => false

/-- The trap frame's words of the partition. -/
def Group.frameWords (g : Group) : Map CoreWord :=
  let a := (g.ctx.frame.base + g.b3) / 4
  g.part.filter fun w => a ≤ w.1 && w.1 < a + 256

/-- Write the state part, and for a forced save the partition (R390 to R392). Records that SAVEBASE places in device-register
space take no write (R41). -/
def State.writeRecord (s : State) (d k : Nat) (g : Group) (forced : Bool) (no : Nat) : State :=
  let x := s.die d
  let a := x.sched.recordAt k
  if x.unpopulated a recordSize then { s with hole := some (a + recordSize - 1) }
  else if isDevice a then s
  else
    s.modDie d fun x =>
      let x := if forced then x.engineWrite a (g.partBytes 0 partitionSize) else x
      x.engineWrite (a + partitionSize) ((List.range (recordSize - partitionSize)).map (Config.saveByte no))

/-- The thread is in a long wait, suspended by a trap or not (R308). -/
def Thread.inLongWait (t : Thread) : Bool := t.wait.any Wait.long || (t.susp.any Wait.long && t.suspEnd.isNone)

/-- Save a group: its waits are withdrawn, its record is written and its slot is free (R368, R390, R391). After YIELD
only the trap frame of the partition is kept; absent lines stay absent (R71). A group that holds tiles cannot come back to a
core that is offline, and is killed (R366, R410). -/
def State.saveGroup (s : State) (d gid : Nat) (forced : Bool) : State :=
  let s := (s.withdrawWaits d gid 0).withdrawStreams d gid
  match s.group? d gid with
  | none => s
  | some g =>
    let k := g.saveRec.getD 0
    let (no, s) := s.draw
    let s := s.writeRecord d k g forced no
    let s := s.modDie d fun x =>
      let x := x.freeSlot g.core g.slot
      x.modGroup gid fun g =>
        { g with
          phase := .swapped k forced, saveRec := none, saving := none, saveNo := no, preemptDue := none, swapAt := x.ps
          restorable := !g.moved && !g.living.all fun t => (g.thread t).inLongWait
          candAt := x.ps, yielded := !forced
          part := if forced then g.part else g.frameWords }
    if (s.die d).coreOffline g.core && !g.tiles.isEmpty then s.killWith d gid St.killed else s

/-- Save a stopped group whose slot is idle. -/
def State.saveIfIdle (s : State) (d gid : Nat) : State :=
  match s.group? d gid with
  | none => s
  | some g =>
    match g.saving with
    | some forced => if (s.die d).slotBusy gid then s else s.saveGroup d gid forced
    | none => s

/-- The group stops and is saved as soon as its slot is idle. -/
def State.stopAndSave (s : State) (d gid : Nat) (forced : Bool) : State :=
  (s.modGroup d gid fun g => { g with saving := some forced }).saveIfIdle d gid

/-- A record still holds what was written into it: its check code passes (R392). -/
def Die.recordIntact (d : Die) (g : Group) (k : Nat) (forced : Bool) : Bool :=
  let a := d.sched.recordAt k
  let same := fun (o : Nat) (b : Byte) => d.byteAt .engine (a + o) == (b, false)
  ((List.range (recordSize - partitionSize)).all fun i => same (partitionSize + i) (Config.saveByte g.saveNo i))
    && (!forced || (List.range partitionSize).all fun i => same i (g.partByte i).1)

end Sys2Proof.Machine
end

