-- ==== Sys2Proof/Machine/Matrix.lean ====
section
/-! DEFINITION. The matrix words (R321 to R336), the K-steps of MLOOP (R235, R237), the tile fetch unit's pins (R81,
R85) and the matrix arbiter (R374, R375). -/

namespace Sys2Proof.Machine

/-! ## Tiles and versions (R321, R322) -/

/-- Tile n of a group. -/
def Group.tile (g : Group) (n : Nat) : Tile := g.tiles.getD n default

/-- Change tile n of a group. -/
def Group.modTile (g : Group) (n : Nat) (f : Tile → Tile) : Group := { g with tiles := g.tiles.modify n f }

/-- The number of the tile that an operand names. -/
def tileNo (o : Operand) : Nat :=
  match o with
  | .mt n => n.toNat
  | _ => 0

/-- A version is reached (R322). -/
def Tile.reached (t : Tile) (e : Nat) : Bool :=
  let back := (t.issued + 65535 - e) % 65535
  e == 0xFFFF || 32768 ≤ back || (t.issued + 65535 - t.ver) % 65535 ≤ back

/-- Element (i, j) of a tile as an instruction reads it. A poisoned tile's elements are undefined: free values, told
apart by `free` (R238). -/
def Tile.el (t : Tile) (free i j : Nat) : Nat :=
  if t.poison then (Config.freeElement (16384 * free + 128 * i + j)).toNat else (tgetD t.els (128 * i + j) 0).toNat

/-- The result word of R321. -/
def matrixWord (status version : Nat) : Nat := status * 65536 + version

/-! ## The operations (R324 to R332) -/

/-- Elements of a K-step in a fragment of the operand type (R324). -/
def kWidth (t : Nat) : Nat := if t = 0x10 ∨ t = 0x11 then 4 else if t = 0x20 ∨ t = 0x23 then 32 else 8

/-- Bytes of a fragment (R324). -/
def fragBytes (k : Nat) : Nat := if k = 32 then 16 else 8

/-- Block types (R221 to R223). -/
def isBlockType (t : Nat) : Bool := 0x20 ≤ t && t ≤ 0x23

/-- One operand of an MLOOP: the first fragment, row pitch, step, first scale byte, scale pitch and step, and type. -/
structure MatArg where
  base : Nat
  ld : Nat
  inc : Int
  sc : Nat
  ldsc : Nat
  scinc : Int
  type : Nat
deriving DecidableEq, Repr, Inhabited

/-- Operand A of a descriptor of 64 bytes (R325). -/
def descA (x : Nat) : MatArg where
  base := bits x 63 0
  ld := bits x 287 256
  inc := (BitVec.ofNat 32 (bits x 351 320)).toInt
  sc := bits x 191 128
  ldsc := bits x 415 384
  scinc := (BitVec.ofNat 16 (bits x 463 448)).toInt
  type := bits x 487 480

/-- Operand B of a descriptor. -/
def descB (x : Nat) : MatArg where
  base := bits x 127 64
  ld := bits x 319 288
  inc := (BitVec.ofNat 32 (bits x 383 352)).toInt
  sc := bits x 255 192
  ldsc := bits x 447 416
  scinc := (BitVec.ofNat 16 (bits x 479 464)).toInt
  type := bits x 495 488

/-- The permitted types of a K-step width (R326). -/
def pairOk (k a b : Nat) : Bool :=
  if k = 4 then [0x10, 0x11].contains a && [0x10, 0x11].contains b
  else if k = 8 then
    ([0x14, 0x15].contains a && [0x14, 0x15].contains b) || (a == 1 && b == 1)
      || ([0x21, 0x22].contains a && [0x21, 0x22].contains b)
  else [0x20, 0x23].contains a && [0x20, 0x23].contains b

/-- An operand obeys R326. -/
def MatArg.ok (m : MatArg) (k : Nat) : Bool :=
  let z := fragBytes k
  m.base % z == 0 && m.ld % z == 0 && m.inc % z == 0 && (isBlockType m.type == (m.sc != 0))

/-- The descriptor is well formed for a K-step width (R326). -/
def descOk (x k : Nat) : Bool :=
  bits x 511 496 == 0 && (descA x).ok k && (descB x).ok k && pairOk k (descA x).type (descB x).type

/-- The spans of an operand over n steps (R327). -/
def MatArg.spans (m : MatArg) (k n : Nat) : List (Int × Int) :=
  let sweep := fun (base ld : Nat) (last : Int) (z : Nat) =>
    ((base : Int) + min 0 last, (base : Int) + 127 * ld + max 0 last + z - 1)
  if n = 0 then []
  else
    [sweep m.base m.ld ((n - 1 : Nat) * m.inc) (fragBytes k)]
      ++ (if isBlockType m.type then [sweep m.sc m.ldsc (((n * k - 1) / 32 : Nat) * m.scinc) 1] else [])

/-- A span lies wholly inside one extent that is not demoted and whose mode permits the access (R327, R330). -/
def ExtTable.pinnedSpan (t : ExtTable) (acc : Acc) (sp : Int × Int) : Bool :=
  match t.holding sp.1.toNat (sp.2 - sp.1 + 1).toNat with
  | some (i, e) => e.mode != 5 && !t.demoted.contains i && modePermits e.mode acc
  | none => false

/-- The span checks: the first span that fails ADDRESS, then the first that fails EXTENT (R327, R335). -/
def ExtTable.spanFault (t : ExtTable) (acc : Acc) (sps : List (Int × Int)) : Option (Nat × Nat) :=
  let at_ := fun (sp : Int × Int) => (BitVec.ofInt 64 sp.1).toNat
  match sps.find? spanWild with
  | some sp => some (Cause.address, at_ sp)
  | none => (sps.find? fun sp => !t.pinnedSpan acc sp).map fun sp => (Cause.extent, at_ sp)

/-- Bytes of an element of a type in memory (R234, R330). -/
def elBytes (t : Nat) : Nat :=
  if t = 0x30 then 16 else if t ≤ 8 then intWidth t / 8 else if t = 0x12 then 4 else if t = 0x13 then 8 else if t ≤ 0x11 then 2 else 1

/-- The row spec's fields (R330). -/
structure RowSpec where
  pitch : Nat
  rows : Nat
  first : Nat
  e : Nat
deriving DecidableEq, Repr, Inhabited

/-- The fields of a row spec. -/
def rowSpec (x : Nat) : RowSpec := ⟨bits x 63 32, bits x 30 24 + 1, bits x 22 16, bits x 15 0⟩

/-! ## The reservation table (R323, R374) -/

/-- The cluster of a group's core. -/
def Die.clusterFor (d : Die) (g : Group) : Nat := d.clusterOf g.core

/-- Every earlier entry of the entry's group has completed, and no SJOIN fence holds it (R166, R323). -/
def Cluster.firstOf (c : Cluster) (e : MatEntry) : Bool :=
  !(c.table.any fun o => o.gid == e.gid && o.id < e.id) && !c.fences.any fun f => f.1 == e.gid && f.2.1 < e.id

/-- The steps of an MLOOP; 0 for the others. -/
def MatOp.steps (o : MatOp) : Nat :=
  match o with
  | .mloop n _ => n
  | _ => 0

/-- An MLOOP with no K-step. -/
def MatOp.empty (o : MatOp) : Bool :=
  match o with
  | .mloop 0 _ => true
  | _ => false

/-- Window offsets and lengths that MLDT.win reads. -/
def RowSpec.windowRows (r : RowSpec) (addr z : Nat) : List (Nat × Nat) :=
  (List.range r.rows).map fun t => (addr + t * r.pitch, 128 * z)

/-- The frame's window range has an absent line. -/
def Group.absentIn (g : Group) (f : Frame) (rows : List (Nat × Nat)) : Bool :=
  rows.any fun (o, n) => (List.range ((f.base + o + n - 1) / 64 + 1 - (f.base + o) / 64)).any fun i =>
    g.absent.contains ((f.base + o) / 64 + i)

/-- An entry may be granted its next pass (R374). -/
def Die.entryEligible (d : Die) (c : Cluster) (e : MatEntry) : Bool :=
  c.firstOf e && !e.op.empty &&
    match d.group? e.gid with
    | none => false
    | some g =>
      match e.op with
      | .mst _ spec _ _ => (g.tile e.tile).reached (rowSpec spec.toNat).e
      | .mldt type spec addr true => !g.absentIn e.frame ((rowSpec spec.toNat).windowRows addr.toNat (elBytes type))
      | _ => true

/-- Entries that have become eligible take their place in the order of doing so (R375). -/
def State.markEligible (s : State) (d cl : Nat) : State :=
  (((s.die d).cluster cl).table).foldl (fun s e =>
    let ok := (s.die d).entryEligible ((s.die d).cluster cl) e
    if ok && e.since.isNone then
      let (n, s) := s.newId
      s.modDie d fun x => x.modCluster cl fun k => { k with table := modWhere (fun y => y.id == e.id) (fun y => { y with since := some n }) k.table }
    else if !ok && e.since.isSome then
      s.modDie d fun x => x.modCluster cl fun k => { k with table := modWhere (fun y => y.id == e.id) (fun y => { y with since := none }) k.table }
    else s) s

/-- An operation completes: VER takes its version and its entry is free (R321). -/
def Die.completeEntry (d : Die) (cl : Nat) (e : MatEntry) : Die :=
  let d := (d.modGroup e.gid fun g => g.modTile e.tile fun t => { t with ver := e.version }).modCluster cl fun k =>
    { k with table := k.table.filter fun y => y.id != e.id, running := if k.running = some e.id then none else k.running }
  (d.coresOf cl).foldl Die.clearFences d

/-- MLOOPs with no K-step complete once every earlier entry of their group has (R323). -/
def Die.completeEmpty (d : Die) (fuel cl : Nat) : Die :=
  match fuel with
  | 0 => d
  | fuel + 1 =>
    let c := d.cluster cl
    match c.table.find? fun e => e.op.empty && c.firstOf e with
    | none => d
    | some e => (d.completeEntry cl e).completeEmpty fuel cl

/-- What follows a change of the table. -/
def State.settleTable (s : State) (d cl : Nat) : State :=
  let s := s.modDie d fun x => x.completeEmpty 17 cl
  let s := ((s.die d).coresOf cl).foldl (fun s core => s.pump d core) s
  s.markEligible d cl

/-- Post a matrix operation (R321, R323). -/
def Job.post (j : Job) (s : State) (op : MatOp) : State :=
  let g := j.group s
  let cl := (s.die j.d).clusterFor g
  let n := tileNo j.f.sa
  if 16 ≤ ((s.die j.d).cluster cl).table.length then j.wait s (.tableFull j.x)
  else
    let (id, s) := s.newId
    let v := ((g.tile n).issued + 1) % 65535
    let e : MatEntry := { id := id, gid := j.gid, tile := n, version := v, op := op, done := 0, cls := g.cls, age := 0,
                          since := none, ext := g.ctx.ext, frame := g.ctx.frame }
    let s := s.modDie j.d fun x => x.modCluster cl fun k => { k with table := k.table ++ [e] }
    let s := j.result (j.mod s fun g => g.modTile n fun t => { t with issued := v }) (matrixWord St.ok v)
    s.settleTable j.d cl

/-! ## MLOOP, MZERO, MLDT, MST (R324 to R332) -/

/-- MLOOP with K-step width k; `count` gives the operand n. -/
def mloopWord (k : Nat) (count : Job → Nat) (j : Job) (s : State) : State :=
  let g := j.group s
  let a := j.c % 2 ^ 32
  if a % 64 ≠ 0 ∨ g.top < a + 64 then j.fault s Cause.window j.lanes a
  else j.readsWindow s [readAcc a 64] fun s =>
    let (bs, bad) := g.window a 64
    let x := ofBytes bs
    let n := count j % 2 ^ 20
    if bad then j.fault s Cause.poison j.lanes 0
    else
      match g.ctx.ext.spanFault .load ((descA x).spans k n ++ (descB x).spans k n) with
      | some (cause, at_) => j.fault s cause j.lanes at_
      | none =>
        if !descOk x k ∨ 2 ^ 20 ≤ count j then j.result s (matrixWord St.malformed (g.tile (tileNo j.f.sa)).issued)
        else j.post s (.mloop n bs)

/-- MZERO. -/
def mzeroWord (j : Job) (s : State) : State := j.post s .mzero

/-- The span of the rows in memory (R330). -/
def RowSpec.span (r : RowSpec) (addr z : Nat) : Int × Int := (addr, (addr + (r.rows - 1) * r.pitch + 128 * z - 1 : Nat))

/-- The checks that MLDT and MST share, then the rest (R330, R335). -/
def Job.withRows (j : Job) (s : State) (acc : Acc) (win : Bool) (z : Nat) (k : State → State) : State :=
  let g := j.group s
  let r := rowSpec j.b
  let addr := if win then j.c % 2 ^ 32 else j.c
  let al := min z 8
  if win && (r.windowRows addr z).any fun (o, n) => g.top < o + n then j.fault s Cause.window j.lanes addr
  else if addr % al ≠ 0 ∨ r.pitch % al ≠ 0 then j.fault s Cause.address j.lanes addr
  else if win then k s
  else
    match g.ctx.ext.spanFault acc [r.span addr z] with
    | some (cause, at_) => j.fault s cause j.lanes at_
    | none => k s

/-- MLDT and MLDT.win. -/
def mldtWord (win : Bool) (type : Nat) (j : Job) (s : State) : State :=
  j.withRows s .load win (elBytes type) fun s =>
    j.post s (.mldt type (BitVec.ofNat 64 j.b) (BitVec.ofNat 64 (if win then j.c % 2 ^ 32 else j.c)) win)

/-- MST, MST slot and MST.win slot; `slot` is the format slot that the word names. -/
def mstWord (win : Bool) (slot : Option DWord) (z : Nat) (j : Job) (s : State) : State :=
  j.withRows s .store win z fun s =>
    let op := MatOp.mst slot (BitVec.ofNat 64 j.b) (BitVec.ofNat 64 (if win then j.c % 2 ^ 32 else j.c)) win
    let r := rowSpec j.b
    if !win && (s.die j.d).hostVisible (j.group s).ctx.pn j.c ((r.rows - 1) * r.pitch + 128 * z) then j.irrevocable s (j.post · op)
    else j.post s op

/-- The format slot named by bits of a word, when it is legal and holds one of the listed types (R226). -/
def Job.withSlot (j : Job) (s : State) (n : Nat) (ok : Nat → Bool) (k : DWord → SlotFmt → State → State) : State :=
  let raw := (j.group s).formatSlot n
  match slotFmt raw.toNat with
  | some t => if ok t.etype then k raw t s else j.fault s Cause.illegal j.lanes 0
  | none => j.fault s Cause.illegal j.lanes 0

/-- MST slot and MST.win slot. -/
def mstSlotWord (win : Bool) (j : Job) (s : State) : State :=
  j.withSlot s (j.f.imm % 8) scalarType fun raw t s => mstWord win (some raw) (elBytes t.etype) j s

/-! ## MRD and MVER (R333, R334) -/

/-- Wait until the expected version is reached, then go on. -/
def Job.withVersion (j : Job) (s : State) (k : State → State) : State :=
  let n := tileNo j.f.sa
  let e := j.b % 65536
  if ((j.group s).tile n).reached e then k s else j.wait s (.version j.x n e)

/-- MRD: `c` registers for each row, holding `f` of the element. -/
def mrdWord (c : Nat) (f : Nat → Nat) (j : Job) (s : State) : State :=
  j.withVersion s fun s =>
    let (free, s) := s.draw
    let t := (j.group s).tile (tileNo j.f.sa)
    let sel := j.c
    let base := match j.f.dst with | .v n => n.toNat | _ => 0
    j.pass (j.mod s fun g =>
      j.x.lanes.foldl (fun g l => (List.range (j.f.imm % 16 + 1)).foldl (fun g r =>
        g.writeV l.t (base + c * r) c (f (t.el free ((sel % 128 + r) % 128) (32 * (bits sel 8 7) + l.t % 32))) t.poison) g) g)

/-- MRD slot. -/
def mrdSlotWord (j : Job) (s : State) : State :=
  j.withSlot s (bits j.f.imm 6 4) (fun t => (1 ≤ t && t ≤ 8) || (0x10 ≤ t && t ≤ 0x13)) fun _ t s =>
    mrdWord (if typeWidth t.etype = 64 then 2 else 1)
      (fun x => widen t.etype (roundTo t.etype (valueOf 0x30 x) t.rnd t.sat t.nanz)) j s

/-- MVER. -/
def mverWord (j : Job) (s : State) : State :=
  j.withVersion s fun s =>
    let t := (j.group s).tile (tileNo j.f.sa)
    j.result s (t.poison.toNat * 2 ^ 32 + t.issued * 65536 + t.ver)

/-! ## Operand fetch (R85, R328) -/

/-- The place of a byte under the extent table. -/
def ExtTable.spot? (t : ExtTable) (va : Nat) : Option Spot :=
  (t.runs.find? fun r => r.va ≤ va && va < r.va + r.len).map fun r => r.spot va

/-- A byte as a node's engine reads it, its line being in its slice. -/
def Die.engineSees (d : Die) (q : Asking) (t : ExtTable) (va : Nat) : Byte × Bool :=
  match t.spot? va with
  | some (.line r i) => d.seenByte q.node r i
  | _ => (0, false)

/-- The address of the fragment of row i at step s. -/
def MatArg.frag (m : MatArg) (i s : Nat) : Nat := ((m.base + i * m.ld : Nat) + (s : Int) * m.inc).toNat

/-- The address of the scale byte of element k of row i at step s. -/
def MatArg.scale (m : MatArg) (w i s k : Nat) : Nat := ((m.sc + i * m.ldsc : Nat) + (((s * w + k) / 32 : Nat) : Int) * m.scinc).toNat

/-- The addresses of the bytes that row i needs at step s. -/
def MatArg.bytesOf (m : MatArg) (w i s : Nat) : List Nat :=
  ((List.range (fragBytes w)).map fun b => m.frag i s + b)
    ++ (if isBlockType m.type then distinct ((List.range w).map fun k => m.scale w i s k) else [])

/-- Element k of row i at step s: its value. -/
def MatArg.value (m : MatArg) (see : Nat → Byte × Bool) (w i s k : Nat) : Val :=
  let a := m.frag i s
  if w = 32 then
    let b := (see (a + k / 2)).1.toNat
    elementValue m.type (if k % 2 = 0 then b % 16 else b / 16) (see (m.scale w i s k)).1.toNat
  else if w = 4 then valueOf m.type ((see (a + 2 * k)).1.toNat + 256 * (see (a + 2 * k + 1)).1.toNat)
  else if isBlockType m.type then elementValue m.type (see (a + k)).1.toNat (see (m.scale w i s k)).1.toNat
  else valueOf m.type (see (a + k)).1.toNat

/-- Some byte that the 128 rows need at step s is poisoned. -/
def MatArg.bad (m : MatArg) (see : Nat → Byte × Bool) (w s : Nat) : Bool :=
  (List.range 128).any fun i => (m.bytesOf w i s).any fun a => (see a).2

/-- One K-step on a tile (R235, R238). -/
def Tile.step (t : Tile) (see : Nat → Byte × Bool) (a b : MatArg) (s : Nat) : Tile :=
  let w := kWidth a.type
  if t.poison || a.bad see w s || b.bad see w s then { t with poison := true }
  else
    let row := fun (m : MatArg) (i : Nat) => (List.range w).map fun k => m.value see w i s k
    let els : Map (BitVec 80) := (List.range 128).flatMap fun i =>
      let av := row a i
      (List.range 128).map fun j =>
        (128 * i + j, BitVec.ofNat 80 (kstep (a.type == 1) (tgetD t.els (128 * i + j) 0).toNat av (row b j)))
    { t with els := els.filter fun x => x.2 != 0 }

/-- The steps of the entry's next pass (R323). -/
def MatEntry.passSteps (e : MatEntry) : List Nat := (List.range (min 64 (e.op.steps - e.done))).map fun i => e.done + i

/-- The lines of the operand bytes of some K-steps, in the order of use. -/
def MatEntry.linesOf (e : MatEntry) (steps : List Nat) : List LineRef :=
  match e.op with
  | .mloop _ desc =>
    let x := ofBytes desc
    let w := kWidth (descA x).type
    distinct (((steps.flatMap fun s => (List.range 128).flatMap fun i => (descA x).bytesOf w i s ++ (descB x).bytesOf w i s)).filterMap
      fun va => match e.ext.spot? va with
        | some (.line r _) => some r
        | _ => none)
  | _ => []

/-! ## Passes (R81, R85, R374, R375) -/

/-- In whose name an entry's accesses are made. -/
def Die.entryAsks (s : State) (d : Nat) (e : MatEntry) : Asking :=
  let g := (s.group? d e.gid).getD default
  ⟨d, g.core, g.slot, g.node, 0⟩

/-- The lines that an MLDT reads from memory, in the order of its elements. -/
def ExtTable.rowLines (t : ExtTable) (r : RowSpec) (addr z : Nat) : List LineRef :=
  linesOfSpots ((List.range r.rows).flatMap fun k => (List.range (128 * z)).filterMap fun b => t.spot? (addr + k * r.pitch + b))

/-- The tile fetch unit reads lines in their slices (R78, R79). -/
def Die.openLines (d : Die) (q : Asking) (rs : List LineRef) : Die := rs.foldl (fun d r => d.open_ q r false) d

/-- A line by its slice and address. -/
def Die.pinKey (d : Die) (r : LineRef) : Nat × Nat := (d.sliceOf r.attr r.addr, r.addr)

/-- The pinned lines in the set of a line. -/
def Die.pinsInSet (d : Die) (r : LineRef) : List L2Line :=
  d.l2.filter fun l => l.slice == d.sliceOf r.attr r.addr && l2Set l.line == l2Set r.addr && l.pins != 0

/-- Pinning the line would take a ninth way of its set (R81). -/
def Die.pinsFull (d : Die) (r : LineRef) : Bool :=
  let held := d.pinsInSet r
  8 ≤ held.length && !held.any fun l => l.line == r.addr

/-- The tile fetch unit fetches a line of the running pass and pins it, unless it has (R85). -/
def Die.pinLine (d : Die) (cl : Nat) (q : Asking) (r : LineRef) : Die :=
  let d := d.open_ q r false
  if (d.cluster cl).pinned.contains (d.pinKey r) then d
  else (d.modCluster cl fun k => { k with pinned := d.pinKey r :: k.pinned }).l2Modify r fun l => { l with pins := l.pins + 1 }

/-- Fetch and pin lines in their order, up to the first that would take a ninth way of its set (R81); what is left. -/
def Die.pinLines (d : Die) (cl : Nat) (q : Asking) (rs : List LineRef) : Die × List LineRef :=
  match rs with
  | [] => (d, [])
  | r :: rest =>
    if (d.cluster cl).pinned.contains (d.pinKey r) || !d.pinsFull r then (d.pinLine cl q r).pinLines cl q rest else (d, r :: rest)

/-- The pins of lines that no K-step still to run uses are released (R85). -/
def Die.unpinPast (d : Die) (cl : Nat) (left : List LineRef) : Die :=
  let keep := left.map d.pinKey
  let gone := (d.cluster cl).pinned.filter fun p => !keep.contains p
  { d.modCluster cl fun k => { k with pinned := k.pinned.filter fun p => keep.contains p } with
    l2 := d.l2.map fun l => if gone.contains (l.slice, l.line) then { l with pins := l.pins - 1 } else l }

/-- Fetch and pin the lines of K-step k of an entry; whether none of them waits for a way (R81). -/
def State.fetchK (s : State) (d cl : Nat) (e : MatEntry) (k : Nat) : State × Bool :=
  let (x, left) := (s.die d).pinLines cl (Die.entryAsks s d e) (e.linesOf [k])
  (s.modDie d fun _ => x, left.isEmpty)

/-- The K-steps of the running pass that are still to run. -/
def Cluster.stepsLeft (c : Cluster) (e : MatEntry) : List Nat := e.passSteps.drop c.ran

/-- The tile fetch unit reads ahead for the running pass, as far as there are pins; the pass waits when its next K-step lacks a
line (R81, R85). -/
def State.fetchPass (s : State) (d cl : Nat) (e : MatEntry) : State :=
  match ((s.die d).cluster cl).stepsLeft e with
  | [] => s.modDie d fun x => x.modCluster cl fun c => { c with pinWait := false }
  | k :: rest =>
    let (s, ok) := s.fetchK d cl e k
    let q := Die.entryAsks s d e
    let s := if ok then s.modDie d fun x => (x.pinLines cl q (e.linesOf rest)).1 else s
    s.modDie d fun x => x.modCluster cl fun c => { c with pinWait := !ok }

/-- The entry that the arbiter grants (R375). -/
def Cluster.choose (c : Cluster) : Option MatEntry :=
  let ready := c.table.filter fun e => e.since.isSome
  let first := fun (l : List MatEntry) => leastBy (fun e => e.since.getD 0) l
  let due := ready.filter fun e => e.age == 15
  if due.isEmpty then
    match leastBy MatEntry.cls ready with
    | none => none
    | some m => first (ready.filter fun e => e.cls == m.cls)
  else first due

/-- MATRIX_PASS_GRANT (R375): where the engine is free, the arbiter grants the next pass. -/
def execMatrixPassGrant (d cluster : Nat) (s : State) : Host.Outcome State Fault Refusal :=
  let s := s.markEligible d cluster
  let c := (s.die d).cluster cluster
  match c.running, c.choose with
  | none, some e =>
    let s := s.modDie d fun x => x.modCluster cluster fun k =>
      { k with running := some e.id, ran := 0
               table := k.table.map fun y =>
                 if y.id = e.id then { y with age := 0 } else if y.since.isSome then { y with age := min 15 (y.age + 1) } else y }
    (s.fetchPass d cluster e).finish
  | _, _ => s.finish

/-- The entry whose pass runs. -/
def Cluster.current (c : Cluster) : Option MatEntry := c.running.bind fun id => c.table.find? fun e => e.id == id

/-- TILE_PIN_RELEASE_RESUME (R81): a fetch that waits for a pin goes on. -/
def execTilePinReleaseResume (d cluster : Nat) (s : State) : Host.Outcome State Fault Refusal :=
  let c := (s.die d).cluster cluster
  match c.current with
  | some e => (if c.pinWait then s.fetchPass d cluster e else s).finish
  | none => s.finish

/-- The element value of a transferred byte string (R331). -/
def toA80 (type : Nat) (bs : List Byte) : Nat :=
  roundTo 0x30 (valueOf type (if type = 0x30 then ofBytes (bs.take 10) else ofBytes bs)) 0 false false

/-- The bytes of an element stored by MST (R332, R234). -/
def elementOut (slot : Option SlotFmt) (x : Nat) : List Byte :=
  match slot with
  | none => toBytes 16 x
  | some t => toBytes (elBytes t.etype) (roundTo t.etype (valueOf 0x30 x) t.rnd t.sat t.nanz)

/-- MLDT on a tile: `see` gives the bytes at an offset from the address (R331). -/
def Tile.load (t : Tile) (type : Nat) (r : RowSpec) (see : Nat → Byte × Bool) : Tile :=
  let z := elBytes type
  let cells := (List.range r.rows).flatMap fun k => (List.range 128).map fun j =>
    ((r.first + k) % 128 * 128 + j, (List.range z).map fun b => see (k * r.pitch + j * z + b))
  let bad := cells.any fun c => c.2.any (·.2)
  { t with
    els := cells.foldl (fun m c => tputD m c.1 (BitVec.ofNat 80 (toA80 type (c.2.map (·.1)))) 0) t.els
    poison := if bad then true else if r.first = 0 ∧ r.rows = 128 then false else t.poison }

/-- The elements that MST writes, each with its offset from the address. -/
def RowSpec.outputs (r : RowSpec) (t : Tile) (free : Nat) (slot : Option SlotFmt) (z : Nat) : List (Nat × List Byte) :=
  (List.range r.rows).flatMap fun k => (List.range 128).map fun j =>
    (k * r.pitch + j * z, elementOut slot (t.el free ((r.first + k) % 128) j))

/-- Words of the partition of a group that stands in save record k change (R336, R368). -/
def Die.putRecord (d : Die) (k : Nat) (out : List (Nat × List Byte)) : Die :=
  let a := d.sched.recordAt k
  if isDevice a then d else out.foldl (fun d o => d.engineWrite (a + o.1) o.2) d

/-- MST performs its stores (R332); a window store of a group that has been swapped out changes its save record too. -/
def State.storeTile (s : State) (d : Nat) (e : MatEntry) (g : Group) (slot : Option SlotFmt) (r : RowSpec) (addr : Nat) (win : Bool) :
    State :=
  let (free, s) := s.draw
  let t := g.tile e.tile
  let z := (slot.map fun f => elBytes f.etype).getD 16
  let out := r.outputs t free slot z
  if win then
    let at_ := e.frame.base + addr
    let s := s.modGroup d e.gid fun g => (out.foldl (fun g o => g.putPart (at_ + o.1) o.2 t.poison) g).recheckWaits
      (out.map fun o => (at_ + o.1, o.2.length))
    match g.phase with
    | .swapped k true => s.modDie d fun x => x.putRecord k (out.map fun o => (at_ + o.1, o.2))
    | _ => s
  else
    let q := Die.entryAsks s d e
    out.foldl (fun s o =>
      let spots := (List.range z).filterMap fun b => e.ext.spot? (addr + o.1 + b)
      if t.poison then s.poisonSpots q spots else s.writeSpots q spots o.2) s

/-- One K-step of MLOOP; a column that differs twice poisons the tile, and is reported (R237). -/
def State.runStep (s : State) (d cl : Nat) (e : MatEntry) (desc : List Byte) (k : Nat) : State :=
  let x := ofBytes desc
  let see := (s.die d).engineSees (Die.entryAsks s d e) e.ext
  let s := s.modGroup d e.gid fun g => g.modTile e.tile fun t => t.step see (descA x) (descB x) k
  let (n, s) := s.draw
  let s := s.modDie d fun y => y.modCluster cl fun c => { c with chkcol := (c.chkcol + 1) % 128, ran := c.ran + 1 }
  if Config.freeMismatch n then
    (s.modDie d fun y => y.modCluster cl fun c => { c with repeats := c.repeats + 1 }).modGroup d e.gid fun g =>
      g.modTile e.tile fun t => { t with poison := true }
  else s

/-- The K-steps of a pass that are still to run, each once its lines are fetched; its pins go as soon as no later K-step uses
their lines. The pass waits where a line would take a ninth way of its set (R81, R85). -/
def State.runSteps (s : State) (d cl : Nat) (e : MatEntry) (desc : List Byte) (ks : List Nat) : State :=
  match ks with
  | [] => s
  | k :: rest =>
    match s.fetchK d cl e k with
    | (s, false) => s.modDie d fun x => x.modCluster cl fun c => { c with pinWait := true }
    | (s, true) =>
      ((s.runStep d cl e desc k).modDie d fun x => x.unpinPast cl (e.linesOf rest)).runSteps d cl e desc rest

/-- What the running pass does. -/
def State.runPass (s : State) (d cl : Nat) (e : MatEntry) : State :=
  match s.group? d e.gid with
  | none => s
  | some g =>
    match e.op with
    | .mloop _ desc => s.runSteps d cl e desc (((s.die d).cluster cl).stepsLeft e)
    | .mzero => s.modGroup d e.gid fun g => g.modTile e.tile fun t => { t with els := [], poison := false }
    | .mldt type spec addr win =>
      let r := rowSpec spec.toNat
      let q := Die.entryAsks s d e
      let s := if win then s else s.modDie d fun x => x.openLines q (e.ext.rowLines r addr.toNat (elBytes type))
      let die := s.die d
      let see := fun (o : Nat) => if win then g.partByte (e.frame.base + addr.toNat + o) else die.engineSees q e.ext (addr.toNat + o)
      s.modGroup d e.gid fun g => g.modTile e.tile fun t => t.load type r see
    | .mst slot spec addr win => s.storeTile d e g (slot.bind fun f => slotFmt f.toNat) (rowSpec spec.toNat) addr.toNat win

/-- The running pass is over: its pins are released, and an operation whose passes have all run completes. -/
def State.closePass (s : State) (d cl : Nat) (e : MatEntry) : State :=
  let done := e.done + e.passSteps.length
  let s := s.modDie d fun x =>
    let x := x.unpin cl
    if e.op.steps ≤ done then x.completeEntry cl e
    else x.modCluster cl fun k =>
      { k with running := none, table := modWhere (fun y => y.id == e.id) (fun y => { y with done := done }) k.table }
  s.settleTable d cl

/-- MATRIX_PASS_END (R323): the running pass takes effect, as far as its fetches do not wait for a pin. -/
def execMatrixPassEnd (d cluster : Nat) (s : State) : Host.Outcome State Fault Refusal :=
  let c := (s.die d).cluster cluster
  match c.current with
  | none => s.finish
  | some e =>
    if c.pinWait then s.finish
    else
      let s := s.runPass d cluster e
      (if ((s.die d).cluster cluster).pinWait then s else s.closePass d cluster e).finish

/-! ## The words -/

/-- MLOOP.b16 (R328). -/
def execMloopB16 (w : RegWord) (s : State) : Host.Outcome State Fault Refusal :=
  issueWord (.mloopB16 w) s (mloopWord 4 fun j => j.b % 2 ^ 32)
/-- MLOOP.b8 (R328). -/
def execMloopB8 (w : RegWord) (s : State) : Host.Outcome State Fault Refusal :=
  issueWord (.mloopB8 w) s (mloopWord 8 fun j => j.b % 2 ^ 32)
/-- MLOOP.b4 (R328). -/
def execMloopB4 (w : RegWord) (s : State) : Host.Outcome State Fault Refusal :=
  issueWord (.mloopB4 w) s (mloopWord 32 fun j => j.b % 2 ^ 32)
/-- MLOOP.b16 short (R328). -/
def execMloopB16Short (w : ShortWord) (s : State) : Host.Outcome State Fault Refusal :=
  issueWord (.mloopB16Short w) s (mloopWord 4 fun _ => w.imm.toNat)
/-- MLOOP.b8 short (R328). -/
def execMloopB8Short (w : ShortWord) (s : State) : Host.Outcome State Fault Refusal :=
  issueWord (.mloopB8Short w) s (mloopWord 8 fun _ => w.imm.toNat)
/-- MLOOP.b4 short (R328). -/
def execMloopB4Short (w : ShortWord) (s : State) : Host.Outcome State Fault Refusal :=
  issueWord (.mloopB4Short w) s (mloopWord 32 fun _ => w.imm.toNat)
/-- MZERO (R329). -/
def execMzero (w : RegWord) (s : State) : Host.Outcome State Fault Refusal := issueWord (.mzero w) s mzeroWord
/-- MLDT (R331). -/
def execMldt (w : RegWord) (s : State) : Host.Outcome State Fault Refusal :=
  issueWord (.mldt w) s (mldtWord false (lowType w))
/-- MLDT.win (R331). -/
def execMldtWin (w : RegWord) (s : State) : Host.Outcome State Fault Refusal :=
  issueWord (.mldtWin w) s (mldtWord true (lowType w))
/-- MST (R332). -/
def execMst (w : RegWord) (s : State) : Host.Outcome State Fault Refusal := issueWord (.mst w) s (mstWord false none 16)
/-- MST slot (R332). -/
def execMstSlot (w : RegWord) (s : State) : Host.Outcome State Fault Refusal := issueWord (.mstSlot w) s (mstSlotWord false)
/-- MST.win slot (R332). -/
def execMstWinSlot (w : RegWord) (s : State) : Host.Outcome State Fault Refusal :=
  issueWord (.mstWinSlot w) s (mstSlotWord true)
/-- MRD f32 (R333). -/
def execMrdF32 (w : RegWord) (s : State) : Host.Outcome State Fault Refusal :=
  issueWord (.mrdF32 w) s (mrdWord 1 fun x => roundTo 0x12 (valueOf 0x30 x) 0 false false)
/-- MRD slot (R333). -/
def execMrdSlot (w : RegWord) (s : State) : Host.Outcome State Fault Refusal := issueWord (.mrdSlot w) s mrdSlotWord
/-- MRD a80 (R333). -/
def execMrdA80 (w : RegWord) (s : State) : Host.Outcome State Fault Refusal := issueWord (.mrdA80 w) s (mrdWord 4 id)
/-- MVER (R334). -/
def execMver (w : RegWord) (s : State) : Host.Outcome State Fault Refusal := issueWord (.mver w) s mverWord

end Sys2Proof.Machine
end

