-- ==== Sys2Proof/Machine/Sync.lean ====
section
/-! DEFINITION. EXIT (R196, R280), the group barriers and barrier objects (R306, R307), completion counters (R300
to R305) and PREF range (R299). -/

namespace Sys2Proof.Machine

/-! ## Group barriers (R306) -/

/-- A wait at barrier b. -/
def Wait.isBar (b : Nat) (w : Wait) : Bool := match w with | .bar _ k => k == b | _ => false

/-- A suspended thread still waits at its barrier (R382). -/
def Thread.waits (t : Thread) (sel : Wait → Bool) : Bool := t.wait.any sel || (t.susp.any sel && t.suspEnd.isNone)

/-- The barrier is to be released. -/
def Group.barDue (g : Group) (b : Nat) : Bool :=
  let r := g.barriers.getD b ⟨false, none, 0⟩
  r.busy && match r.count with
    | some n => n ≤ r.arrived
    | none => g.living.all fun t => (g.thread t).waits (Wait.isBar b)

/-- Release barrier b if it is due. -/
def Group.releaseBar (g : Group) (b : Nat) : Group :=
  if g.barDue b then
    { g.endWaits (Wait.isBar b) ⟨false, 0⟩ with barriers := g.barriers.modify b fun _ => ⟨false, none, 0⟩ }
  else g

/-- Arrivals at barrier b. -/
def Group.arriveBar (g : Group) (b n : Nat) (count : Option Nat) : Group :=
  { g with barriers := g.barriers.modify b fun r =>
      if r.busy then { r with arrived := r.arrived + n } else ⟨true, count, n⟩ }

/-! ## Barrier objects (R301, R307) -/

/-- A wait at a barrier object that has not yet arrived. -/
def Wait.gathersObj (w : Wait) : Bool :=
  match w with
  | .barObj _ _ none | .barArrive .. => true
  | _ => false

/-- The address that a wait at a barrier object names. -/
def Wait.objAddr (w : Wait) : DWord :=
  match w with
  | .barObj _ a _ | .barArrive _ a => a
  | _ => 0

/-- Every group waiting on the object in phase `ph` is released; a swapped-out one becomes restorable (R369). -/
def Die.releasePhase (d : Die) (o : ObjRef) (ph : Word) : Die :=
  let sel : Wait → Bool := fun w => match w with
    | .barObj _ _ (some (p, h)) => p.pa == o.pa && h == ph
    | _ => false
  { d with groups := d.groups.map fun g =>
      if !g.hasWait sel then g
      else if g.phase = .resident then g.endWaits sel ⟨false, ph.setWidth 64⟩
      else { g with restorable := true, candAt := if g.restorable then g.candAt else d.ps } }

/-- A group's arrival at the object: its threads at BAR object arrive go on, those at BAR object wait for the phase. -/
def Group.arrivedObj (g : Group) (o : ObjRef) (ph : Word) : Group :=
  let g := g.endWaits (fun w => match w with | .barArrive .. => true | _ => false) ⟨false, ph.setWidth 64⟩
  g.modThreads g.living fun t => match t.wait with
    | some (.barObj x a none) => { t with wait := some (.barObj x a (some (o, ph))) }
    | _ => t

/-- One group arrival (R307). -/
def State.arriveObj (s : State) (d gid : Nat) (o : ObjRef) : State :=
  s.modDie d fun x =>
    let k := x.object o
    let ph : Word := BitVec.ofNat 32 (bPhase k)
    let x := x.modGroup gid fun g => g.arrivedObj o ph
    if bArrived k + 1 = bExpect k then
      (x.putObject o (setBits (setBits k 31 0 0) 95 64 ((bPhase k + 1) % 2 ^ 32))).releasePhase o ph
    else x.putObject o (setBits k 31 0 (bArrived k + 1))

/-- Where every thread of the group waits at a barrier object, the collective is checked and arrives (R300, R307). -/
def State.gatherObj (s : State) (d gid : Nat) : State :=
  match s.group? d gid with
  | none => s
  | some g =>
    if g.living.isEmpty || !(g.living.all fun t => (g.thread t).wait.any Wait.gathersObj) || g.collectiveParked then s
    else
      let addrs := distinct (g.living.map fun t => ((g.thread t).wait.map Wait.objAddr).getD 0)
      let va := (((g.thread ((g.leaders Wait.gathersObj).headD 0)).wait).map Wait.objAddr).getD 0
      let fault := fun (s : State) (cause : Nat) => s.collective d gid cause Wait.gathersObj va
      if 1 < addrs.length ∨ 2 ^ 60 ≤ va.toNat ∨ va.toNat % 32 ≠ 0 then fault s Cause.address
      else
        let (c, s) := s.checkAccess d g.core g.ctx.pn ⟨[], [], []⟩ .object va.toNat 32
        match c with
        | .hole a => { s with hole := some a }
        | .bad cause =>
          if parks cause then s.parkCollective d gid 4 32 va.toNat cause Wait.gathersObj else fault s cause
        | .ok (.line r off :: _) _ =>
          let o : ObjRef := ⟨r.attr, r.addr + off⟩
          let k := (s.die d).object o
          if (s.die d).objectBad o then s.collective d gid Cause.poison Wait.gathersObj 0
          else if cLevel k ≠ 0 ∨ bExpect k = 0 then fault s Cause.address
          else
            match (s.die d).nodeOf g with
            | some n =>
              if n.revocable && (s.die d).hasTent n.nid then
                s.modDie d fun x => x.modNode n.nid fun n => { n with turning := true }
              else (if n.revocable then s.modDie d fun x => x.turnIrrevocable n.nid else s).arriveObj d gid o
            | none => s.arriveObj d gid o
        | .ok _ _ => fault s Cause.address

/-- The collectives of a group are checked after every arrival and every EXIT (R197, R306, R307). -/
def State.gather (s : State) (d gid : Nat) : State :=
  let s := s.modGroup d gid fun g => (List.range 4).foldl Group.releaseBar g
  ((s.gatherObj d gid).gatherGate d gid).gatherGret d gid

/-- BAR and BAR count. -/
def barWord (count : Job → Option Nat) (j : Job) (s : State) : State :=
  let b := j.f.imm % 4
  let s := (j.wait s (.bar j.x b))
  (j.mod s fun g => g.arriveBar b j.act.length (count j)).gather j.d j.gid

/-- BAR object and BAR object arrive. -/
def barObjWord (arrive : Bool) (j : Job) (s : State) : State :=
  let a := BitVec.ofNat 64 j.a
  (j.wait s (if arrive then .barArrive j.x a else .barObj j.x a none)).gather j.d j.gid

/-! ## EXIT (R196, R280) -/

/-- Every thread has EXITED: the group's streams close (R196). -/
def State.lastExit (s : State) (d gid : Nat) : State :=
  match s.group? d gid with
  | none => s
  | some g => if g.living.isEmpty then s.closeStreams d gid 0 else s

/-- The handler has executed EXIT (R193). -/
def Group.handlerExits (g : Group) : Group :=
  { g with trap := g.trap.map fun t => { t with exited := true } }

/-- EXIT. In the diagnosis of a consumption it ends the node (R400). -/
def exitWord (j : Job) (s : State) : State :=
  let g := j.group s
  if g.gateDepth ≠ 0 then j.fault s Cause.gate j.lanes 0
  else
    let s := (j.passOthers s)
    let s := j.mod s fun g => (g.modThreads j.act fun t => { t with exited := true, m := false }).handlerExits
    if g.poisonDue.isSome then s.killNode j.d g.node St.poison
    else (s.gather j.d j.gid).lastExit j.d j.gid

/-! ## Completion counters (R300 to R305) -/

/-- Check the address of an object and go on with the object, whose line its slice has (R78, R300); `lvl` says which LEVELs pass. -/
def Job.withObject (j : Job) (s : State) (va : Nat) (lvl : Nat → Bool) (k : ObjRef → State → State) : State :=
  if 2 ^ 60 ≤ va ∨ va % 32 ≠ 0 then j.fault s Cause.address j.lanes va
  else
    j.withAccess s .object 4 32 1 (j.x.lanes.map fun l => (l.t, va)) fun ls s =>
      match (ls.headD default).spots with
      | .line r off :: _ =>
        let o : ObjRef := ⟨r.attr, r.addr + off⟩
        let s := s.modDie j.d fun x => (x.fetchAt o.attr o.pa 32).2
        if (s.die j.d).objectBad o then j.fault s Cause.poison j.lanes 0
        else if lvl (cLevel ((s.die j.d).object o)) then k o s
        else j.fault s Cause.address j.lanes va
      | _ => j.fault s Cause.address j.lanes va

/-- LEVEL 1 to 4 (R300). -/
def isCounter (l : Nat) : Bool := 1 ≤ l && l ≤ 4

/-- A group waits on a barrier object. -/
def Die.objWaited (d : Die) (o : ObjRef) : Bool :=
  d.groups.any fun g => g.hasWait fun w => match w with
    | .barObj _ _ (some (p, _)) => p.pa == o.pa
    | _ => false

/-- CINIT's decision: the status, and the object when it is written (R302). -/
def cinit (k lvl t p : Nat) (waited : Bool) : Nat × Option Nat :=
  let l := cLevel k
  if (isCounter l && cPend k != 0) || (l == 0 && (bArrived k != 0 || waited)) then (St.busy, none)
  else if (lvl == 0 && t == 0) || (lvl != 0 && (2 ^ 60 ≤ p || p % 32 != 0)) then (St.malformed, none)
  else if lvl = 0 then (St.ok, some (t * 2 ^ 32))
  else (St.ok, some (t * 2 ^ 32 + p * 2 ^ 64 + lvl * 2 ^ 136 + (t == 0).toNat * 2 ^ 139))

/-- CINIT. A counter that starts DONE wakes what still waits on it (R175). -/
def cinitWord (j : Job) (s : State) : State :=
  j.withObject s j.a (fun _ => true) fun o s =>
    j.irrevocable s fun s =>
      let d := s.die j.d
      let (st, new) := cinit (d.object o) (j.f.imm % 8) (j.b % 2 ^ 32) j.c (d.objWaited o)
      let s := match new with
        | some x => s.modDie j.d fun d => (d.putObject o x).wakeDone o
        | none => s
      j.result s st

/-- CADD and CADD wide. -/
def caddWord (n : Job → Nat) (j : Job) (s : State) : State :=
  j.withObject s j.a isCounter fun _ s =>
    j.irrevocable s fun s =>
      let pn := (j.group s).ctx.pn
      j.pass (s.modDie j.d fun d => d.arrive pn j.a (n j) 0)

/-- CWAIT and CWAIT limit: the limit counts from the word's issue. -/
def cwaitWord' (limit : Job → Nat) (j : Job) (s : State) : State :=
  j.withObject s j.a isCounter fun o s =>
    let x := (s.die j.d).object o
    if cWakes x then j.result s (cwaitWord x false).toNat
    else
      let l := limit j
      j.wait s (.cwait j.x o j.a (if l = 0 then none else some (j.x.clk + 256 * l)))

/-! ### CANCEL (R177) -/

/-- The die after its engine has reached for every counter of a chain (R78, R93). -/
def Die.reachChain (d : Die) (fuel pn va : Nat) : Die :=
  match fuel with
  | 0 => d
  | fuel + 1 =>
    if va = 0 then d
    else
      let d := d.reachSync pn va
      match d.counterAddr pn va with
      | none => d
      | some p => d.reachChain fuel pn (cParent (d.object p))

/-- The counter `o` is the counter at `va`, or an ancestor of it by PARENT. -/
def Die.chainHas (d : Die) (fuel pn va : Nat) (o : ObjRef) : Bool :=
  match fuel with
  | 0 => false
  | fuel + 1 =>
    if va = 0 then false
    else
      match d.counterAddr pn va with
      | none => false
      | some p => p.pa == o.pa || d.chainHas fuel pn (cParent (d.object p)) o

/-- A record is under the counter (R177). -/
def Die.under (d : Die) (r : TaskRec) (o : ObjRef) : Bool :=
  d.chainHas 8 r.pn r.done o || d.chainHas 8 r.pn r.pchain o

/-- The die after its engine has reached for the chains of a record (R177). -/
def Die.reachRecord (d : Die) (r : TaskRec) : Die := (d.reachChain 8 r.pn r.done).reachChain 8 r.pn r.pchain

/-- The task record that an element of a task queue holds. -/
def Ticket.record (t : Ticket) (cls : Nat) : TaskRec where
  words := (List.range 16).map fun i => BitVec.ofNat 64 (ofBytes ((t.bytes.drop (8 * i)).take 8))
  pn := t.pn
  cls := cls
  at_ := t.at_
  retries := 0
  poison := !t.bad.isEmpty
  rid := 0

/-- The record that an element of a task queue holds, at the queue's class (R106, R179). DESIGN CHOICE (log entry 98): queues
3 to 6 alone have a class of their own; a record in a task queue that system software created has the class of its PRIO. -/
def Queue.record (q : Queue) (t : Ticket) : TaskRec :=
  let prio := bits (ofBytes ((t.bytes.drop 8).take 8)) 49 48
  t.record (if 3 ≤ q.index ∧ q.index ≤ 6 then q.index - 3 else prio)

/-- The committed records of the task queues, with their queues and tickets. -/
def Die.queuedRecords (d : Die) : List (Nat × Nat × TaskRec) :=
  (d.port.queues.filter Queue.isTask).flatMap fun q =>
    (q.tickets.filter fun t => t.st == .committed).map fun t => (q.index, t.num, q.record t)

/-- Discard the records under a counter that are not yet dispatched, each with CANCELLED on its own counter. -/
def Die.cancelRecords (d : Die) (pa : ObjRef) : Die :=
  let d := (d.queuedRecords.map (·.2.2) ++ d.sched.hold ++ d.sched.ready ++ d.sched.again ++ d.sched.trans.map TransEntry.rec_
    ++ d.sched.nodes.map Node.rec_).foldl Die.reachRecord d
  let queued := d.queuedRecords.filter fun q => d.under q.2.2 pa
  let held := d.sched.hold.filter fun r => d.under r pa
  let ready := d.sched.ready.filter fun r => d.under r pa
  let again := d.sched.again.filter fun r => d.under r pa
  let trans := d.sched.trans.filter fun t => d.under t.rec_ pa
  let d := queued.foldl (fun d q => (d.markTaken q.1 q.2.1 none true).belayLog (.assigned q.1 q.2.1)) d
  let d := d.modSched fun x =>
    { x with hold := x.hold.filter fun r => !held.contains r
             ready := x.ready.filter fun r => !ready.contains r
             again := x.again.filter fun r => !again.contains r
             trans := x.trans.filter fun t => !trans.contains t }
  let d := (held.filter TaskRec.isSignal).foldl (fun d r => d.register r.pn r.done false) d
  (queued.map (·.2.2) ++ held ++ ready ++ again ++ trans.map TransEntry.rec_).foldl
    (fun d r => d.discardRecord r St.cancelled) d

/-- The group runs: it is there and has not retired (R177, R196). -/
def Group.runs (g : Group) : Bool := !g.dead && g.phase != .tracked && !g.living.isEmpty

/-- CANCEL reaches a group: its waits and the open waits of its streams are withdrawn, and the trap is delivered (R123, R177). A
group that goes on at once, in a gate call, places its waits again. -/
def State.cancelGroup (s : State) (d gid : Nat) : State :=
  let s := ((s.withdrawWaits d gid 0).withdrawStreams d gid).asynchronous d gid Cause.cancel 0
  if (s.group? d gid).any fun g => g.trap.isNone && g.gateDepth != 0 then s.resendWaits d gid else s

/-- CANCEL on the counter `pa`, which is at `va` (R123, R177). -/
def State.cancelCounter (s : State) (d pn : Nat) (pa : ObjRef) (va : Nat) : State :=
  let s := s.modDie d fun x => ((x.putObject pa (setBits (x.object pa) 140 140 1)).arrive pn va 0 St.cancelled).wakeCwait pa
  let s := s.modDie d fun x => x.cancelRecords pa
  let nodes := (s.die d).sched.nodes.filter fun n => (s.die d).under n.rec_ pa
  let s := nodes.foldl (fun s n => s.modDie d fun x => x.modNode n.nid fun n => { n with cancelled := true }) s
  let gids := ((s.die d).groups.filter fun g => g.runs && nodes.any fun n => n.nid == g.node).map Group.gid
  let s := gids.foldl (fun s gid => s.cancelGroup d gid) s
  nodes.foldl (fun s n => s.modDie d fun x => x.checkSettled n.nid) s

/-- CANCEL. The cancel takes effect before any trap is delivered, and the word itself has passed by then (R305). -/
def cancelWord (j : Job) (s : State) : State :=
  j.withObject s j.a isCounter fun pa s =>
    j.irrevocable s fun s =>
      let pn := (j.group s).ctx.pn
      (j.pass s).cancelCounter j.d pn pa j.a

/-! ## PREF range (R299) -/

/-- The prefetch enters the engine queue. -/
def Job.enterPrefetch (j : Job) (s : State) : State :=
  let g := j.group s
  let (id, s) := s.newId
  let p : Prefetch := ⟨id, g.gid, g.gateDepth, g.ctx.pn, (s.die j.d).service g.ctx.pn, g.ctx.ext, j.a, j.b, j.f.mod.toNat, BitVec.ofNat 64 j.c⟩
  j.pass (s.modDie j.d fun x => x.modCore g.core fun c =>
    { c with prefetches := c.prefetches ++ [p], prefetchQ := c.prefetchQ ++ [.op id] })

/-- PREF range. Its arrival is registered before it waits for room. -/
def prefRangeWord (j : Job) (s : State) : State :=
  if 2 ^ 60 ≤ j.a ∨ 2 ^ 60 < j.a + j.b then j.fault s Cause.address j.lanes j.a
  else
    let enter := fun (s : State) =>
      let g := j.group s
      if 16 ≤ ((s.die j.d).core g.core).prefetches.length then j.wait s (.prefetchFull j.x) else j.enterPrefetch s
    if j.c = 0 then enter s
    else
      j.withObject s j.c isCounter fun _ s =>
        let pn := (j.group s).ctx.pn
        enter (s.modDie j.d fun d => d.register pn j.c true)

/-! ## The words -/

/-- EXIT (R280). -/
def execExit (w : RegWord) (s : State) : Host.Outcome State Fault Refusal := issueWord (.exit w) s exitWord
/-- BAR (R306). -/
def execBar (w : RegWord) (s : State) : Host.Outcome State Fault Refusal := issueWord (.bar w) s (barWord fun _ => none)
/-- BAR count (R306). -/
def execBarCount (w : RegWord) (s : State) : Host.Outcome State Fault Refusal :=
  issueWord (.barCount w) s (barWord fun j => some (j.a % 2 ^ 32))
/-- BAR object (R307). -/
def execBarObject (w : RegWord) (s : State) : Host.Outcome State Fault Refusal := issueWord (.barObject w) s (barObjWord false)
/-- BAR object arrive (R307). -/
def execBarObjectArrive (w : RegWord) (s : State) : Host.Outcome State Fault Refusal :=
  issueWord (.barObjectArrive w) s (barObjWord true)
/-- CINIT (R302). -/
def execCinit (w : RegWord) (s : State) : Host.Outcome State Fault Refusal := issueWord (.cinit w) s cinitWord
/-- CADD (R303). -/
def execCadd (w : RegWord) (s : State) : Host.Outcome State Fault Refusal :=
  issueWord (.cadd w) s (caddWord fun j => j.b % 2 ^ 32)
/-- CADD wide (R303). -/
def execCaddWide (w : WideWord) (s : State) : Host.Outcome State Fault Refusal :=
  issueWord (.caddWide w) s (caddWord fun _ => w.imm.toNat)
/-- CWAIT (R304). -/
def execCwait (w : RegWord) (s : State) : Host.Outcome State Fault Refusal := issueWord (.cwait w) s (cwaitWord' fun _ => 0)
/-- CWAIT limit (R304). -/
def execCwaitLimit (w : RegWord) (s : State) : Host.Outcome State Fault Refusal :=
  issueWord (.cwaitLimit w) s (cwaitWord' fun j => j.b % 2 ^ 32)
/-- CANCEL (R305). -/
def execCancel (w : RegWord) (s : State) : Host.Outcome State Fault Refusal := issueWord (.cancel w) s cancelWord
/-- PREF range (R299). -/
def execPrefRange (w : RegWord) (s : State) : Host.Outcome State Fault Refusal := issueWord (.prefRange w) s prefRangeWord

end Sys2Proof.Machine
end

