-- ==== Sys2Proof/Machine/System.lean ====
section
/-! DEFINITION. Gate calls, traps and special registers as words: GATE, GRET, TRAP, BRK, TRET, YIELD, RDSR and WRSR
(R197, R208, R209, R350 to R358, R384, R390). -/

namespace Sys2Proof.Machine

/-! ## GATE and GRET -/

/-- GATE: the active threads wait for the group to gather (R197, R351). -/
def gateWord (j : Job) (s : State) : State := (j.wait s (.gate j.x (j.f.imm % 256))).gather j.d j.gid

/-- GRET (R355). -/
def gretWord (j : Job) (s : State) : State := (j.wait s (.gret j.x)).gather j.d j.gid

/-! ## TRAP, BRK, TRET and YIELD -/

/-- The cause TRAP, with TRAPADDR (R357). -/
def trapWord (base : Nat) (j : Job) (s : State) : State := j.fault s Cause.trap j.lanes (base + j.f.imm % 65536)

/-- A field of n bytes of the trap frame at an offset (R383). -/
def frameField (fr : List Byte) (o n : Nat) : Nat := ofBytes ((fr.drop o).take n)

/-- Where a thread of the handler warp resumes (R384). -/
def Trap.resume (tr : Trap) (fr : List Byte) (next : Bool) (lane : Nat) : Nat :=
  frameField fr (0x40 + 8 * lane) 8 + if next && tr.precise && tr.lanes.contains lane then tr.len else 0

/-- A thread as TRET restores it; a wait of the handler itself is over (R384). -/
def Trap.restore (tr : Trap) (fr : List Byte) (next : Bool) (lane : Nat) (t : Thread) : Thread :=
  let ist := frameField fr (0x140 + 4 * lane) 4
  { t with pc := BitVec.ofNat 64 (tr.resume fr next lane), depth := BitVec.ofNat 16 ist, m := bit ist 18, y := bit ist 17
           preds := BitVec.ofNat 7 (frameField fr (0x1C0 + lane) 1), wait := t.susp, susp := none, suspEnd := none }

/-- The group as TRET leaves it: threads, then s-registers, then the waits that ended meanwhile (R382, R384). -/
def Group.leaveHandler (g : Group) (tr : Trap) (fr : List Byte) (next : Bool) : Group :=
  let ts := g.members tr.warp
  let ended := ts.filterMap fun t => (g.thread t).suspEnd.map fun e => (t, e)
  let g := g.unwait (ts.filter fun t => (g.thread t).wait.isSome)
  let g := ts.foldl (fun g t => g.modThread t (tr.restore fr next (t % 32))) g
  let g := (List.range 64).foldl (fun g n =>
    g.setSreg tr.warp n ⟨BitVec.ofNat 64 (frameField fr (0x200 + 8 * n) 8), false⟩) g
  let g := ended.foldl (fun g e => g.endWait e.1 e.2) g
  { g with trap := none, yielded := false
           log := g.log.filter fun w => w.threads.isEmpty || w.threads.any fun t => (g.thread t).wait == some (.fault w.entry) }

/-- The group leaves its handler (R384, R385). -/
def State.leaveHandler (s : State) (d gid : Nat) (tr : Trap) (fr : List Byte) (next : Bool) : State :=
  let s := s.modGroup d gid fun g => g.leaveHandler tr fr next
  ((s.resendWaits d gid).gather d gid).deliverHeld d gid

/-- TRET (R384). A return from the diagnosis of a consumption ends the node (R400). -/
def tretWord (j : Job) (s : State) : State :=
  let g := j.group s
  match g.trap with
  | none => j.fault s Cause.illegal j.lanes 0
  | some tr =>
    if g.poisonDue.isSome then s.killNode j.d g.node St.poison
    else if bit j.f.imm 1 then
      if g.gateDepth = 0 then j.fault s Cause.illegal j.lanes 0
      else s.endGate j.d j.gid (St.fault + g.ctx.trapcause.toNat % 256 * 256)
    else j.readsWindow s [readAcc g.b3 1024] fun s =>
      let (fr, bad) := g.window g.b3 1024
      if bad then j.fault s Cause.poison j.lanes 0
      else if (g.members tr.warp).any fun t => !validPc (tr.resume fr (bit j.f.imm 0) (t % 32)) then
        s.killWith j.d j.gid St.killed
      else s.leaveHandler j.d j.gid tr fr (bit j.f.imm 0)

/-- YIELD (R357, R390). In the diagnosis of a consumption it ends the node (R400). -/
def yieldWord (j : Job) (s : State) : State :=
  let g := j.group s
  if g.poisonDue.isSome then s.killNode j.d g.node St.poison
  else if (g.trap.any fun tr => tr.cause == Cause.preempt) && g.preemptDue.isSome then
    (j.pass s).stopAndSave j.d j.gid false
  else j.pass s

/-! ## RDSR and WRSR -/

/-- A special register as thread t of the warp reads it (R208). -/
def State.special (s : State) (d : Nat) (g : Group) (warp t n : Nat) : Nat :=
  let x := s.die d
  match n with
  | 0x00 => t % 32
  | 0x01 => warp
  | 0x02 => g.groupid.toNat
  | 0x03 => g.griddim.toNat
  | 0x04 => g.nodeid.toNat
  | 0x05 => x.conf.ident.toNat
  | 0x06 => x.clusterOf g.core
  | 0x07 => g.core
  | 0x08 => g.slot
  | 0x09 => x.clock
  | 0x0A => (g.thread t).depth.toNat
  | 0x0B => g.ctx.handler.toNat
  | 0x0C => g.ctx.trapcause.toNat
  | 0x0D => g.ctx.trappc.toNat
  | 0x0E => g.ctx.trapaddr.toNat
  | 0x0F => g.ctx.tbase.toNat
  | 0x10 => g.ctx.tlen.toNat
  | 0x11 => g.gateDepth
  | _ => g.wdlimit

/-- RDSR. -/
def rdsrWord (j : Job) (s : State) : State :=
  let g := j.group s
  j.perLane s fun l => s.special j.d g j.x.warp l.t (j.f.imm % 256)

/-- The group with a special register written, none when the value breaks the register's rule (R208, R209). -/
def Group.writeSpecial (g : Group) (n v : Nat) : Option Group :=
  let w := BitVec.ofNat 64 v
  match n with
  | 0x0B => if v % 8 = 0 ∧ v < 2 ^ 43 then some (g.modCtx fun c => { c with handler := w }) else none
  | 0x0F => if v % 8 = 0 ∧ v < 2 ^ 60 then some (g.modCtx fun c => { c with tbase := w }) else none
  | 0x10 => if v < 2 ^ 16 then some (g.modCtx fun c => { c with tlen := w }) else none
  | _ => some (if 16 ≤ v ∧ v ≤ 40 then { g with wdlimit := v } else g)

/-- WRSR. -/
def wrsrWord (j : Job) (s : State) : State :=
  match (j.group s).writeSpecial (j.f.imm % 256) j.a with
  | some g => j.pass (j.mod s fun _ => g)
  | none => j.fault s Cause.illegal j.lanes 0

/-! ## The words -/

/-- GATE (R351). -/
def execGate (w : RegWord) (s : State) : Host.Outcome State Fault Refusal := issueWord (.gate w) s gateWord
/-- GRET (R355). -/
def execGret (w : RegWord) (s : State) : Host.Outcome State Fault Refusal := issueWord (.gret w) s gretWord
/-- TRAP (R357). -/
def execTrap (w : RegWord) (s : State) : Host.Outcome State Fault Refusal := issueWord (.trap w) s (trapWord 0)
/-- BRK (R357). -/
def execBrk (w : RegWord) (s : State) : Host.Outcome State Fault Refusal := issueWord (.brk w) s (trapWord 65536)
/-- TRET (R384). -/
def execTret (w : RegWord) (s : State) : Host.Outcome State Fault Refusal := issueWord (.tret w) s tretWord
/-- YIELD (R390). -/
def execYield (w : RegWord) (s : State) : Host.Outcome State Fault Refusal := issueWord (.yield w) s yieldWord
/-- RDSR (R358). -/
def execRdsr (w : RegWord) (s : State) : Host.Outcome State Fault Refusal := issueWord (.rdsr w) s rdsrWord
/-- WRSR (R358). -/
def execWrsr (w : RegWord) (s : State) : Host.Outcome State Fault Refusal := issueWord (.wrsr w) s wrsrWord

end Sys2Proof.Machine
end

