-- ==== Sys2Proof/Machine/Perform.lean ====
section
/-! DEFINITION. Performing a captured word later than its issue: a word that waited for a resource (R72, R170, R299,
R309, R317, R322, R323, R337, R348) or that was parked and is replayed (R59, R387). -/

namespace Sys2Proof.Machine

/-- The effect of a word that can wait or park, the same that its meaning has at issue. -/
def bodyOf (i : Instr) : Option (Job → State → State) :=
  match i with
  | .ldB w => some (loadWord 1 false w.mod)
  | .ldBWin _ => some (loadWindow 1 false)
  | .ldBI8 w => some (loadWord 1 true w.mod)
  | .ldBI8Win _ => some (loadWindow 1 true)
  | .ldH w => some (loadWord 2 false w.mod)
  | .ldHWin _ => some (loadWindow 2 false)
  | .ldHI16 w => some (loadWord 2 true w.mod)
  | .ldHI16Win _ => some (loadWindow 2 true)
  | .ldW w => some (loadWord 4 false w.mod)
  | .ldWWin _ => some (loadWindow 4 false)
  | .ldD w => some (loadWord 8 false w.mod)
  | .ldDWin _ => some (loadWindow 8 false)
  | .ldQ w => some (loadWord 16 false w.mod)
  | .ldQWin _ => some (loadWindow 16 false)
  | .stB w => some (storeWord 1 w.mod)
  | .stBWin _ => some (storeWindow 1)
  | .stH w => some (storeWord 2 w.mod)
  | .stHWin _ => some (storeWindow 2)
  | .stW w => some (storeWord 4 w.mod)
  | .stWWin _ => some (storeWindow 4)
  | .stD w => some (storeWord 8 w.mod)
  | .stDWin _ => some (storeWindow 8)
  | .stQ w => some (storeWord 16 w.mod)
  | .stQWin _ => some (storeWindow 16)
  | .atomW w => some (atomWord 32 w.mod)
  | .atomWWin _ => some (atomWindow 32)
  | .atomD w => some (atomWord 64 w.mod)
  | .atomDWin _ => some (atomWindow 64)
  | .cinit _ => some (cinitWord)
  | .cadd _ => some (caddWord fun j => j.b % 2 ^ 32)
  | .caddWide w => some (caddWord fun _ => w.imm.toNat)
  | .cwait _ => some (cwaitWord' fun _ => 0)
  | .cwaitLimit _ => some (cwaitWord' fun j => j.b % 2 ^ 32)
  | .cancel _ => some (cancelWord)
  | .prefRange _ => some (prefRangeWord)
  | .launch _ => some (launchWord false)
  | .launchQueue _ => some (launchWord true)
  | .qres _ => some (qresWord fun j => j.b % 2 ^ 32)
  | .qresWide w => some (qresWord fun _ => w.imm.toNat)
  | .qput _ => some (qputWord)
  | .qget _ => some (deqWord false)
  | .qwait _ => some (deqWord true)
  | .qstat _ => some (qstatWord)
  | .qcancelGrant _ => some (qcancelWord fun j => .cancelGrant (j.b % 2 ^ 48))
  | .qcancelWait _ => some (qcancelWord fun j => .cancelWait (j.b % 8))
  | .sfill _ => some (copyWord false)
  | .sfillQueue _ => some (queueCopyWord false)
  | .sdrain _ => some (copyWord true)
  | .sdrainQueue _ => some (queueCopyWord true)
  | .srel _ => some (srelWord)
  | .sjoin _ => some (sjoinWord)
  | .swait _ => some (swaitWord fun _ => 0)
  | .swaitCount _ => some (swaitWord fun j => j.a % 2 ^ 32)
  | .mloopB16 _ => some (mloopWord 4 fun j => j.b % 2 ^ 32)
  | .mloopB8 _ => some (mloopWord 8 fun j => j.b % 2 ^ 32)
  | .mloopB4 _ => some (mloopWord 32 fun j => j.b % 2 ^ 32)
  | .mloopB16Short w => some (mloopWord 4 fun _ => w.imm.toNat)
  | .mloopB8Short w => some (mloopWord 8 fun _ => w.imm.toNat)
  | .mloopB4Short w => some (mloopWord 32 fun _ => w.imm.toNat)
  | .mzero _ => some (mzeroWord)
  | .mldt w => some (mldtWord false (lowType w))
  | .mldtWin w => some (mldtWord true (lowType w))
  | .mst _ => some (mstWord false none 16)
  | .mstSlot _ => some (mstSlotWord false)
  | .mstWinSlot _ => some (mstSlotWord true)
  | .mrdF32 _ => some (mrdWord 1 fun x => roundTo 0x12 (valueOf 0x30 x) 0 false false)
  | .mrdSlot _ => some (mrdSlotWord)
  | .mrdA80 _ => some (mrdWord 4 id)
  | .mver _ => some (mverWord)
  | .jtab _ => some (jtabWord)
  | .call w => some (fun j => callWord (fun _ => relTarget j.x.pc (w.imm.signExtend 64)) j)
  | .callRegister _ => some (callWord fun l => l.a.toNat)
  | .callt _ => some (calltWord)
  | .ret _ => some (retWord)
  | .reform _ => some (reformWord)
  | .wait w => some (waitWord w.imm.toNat)
  | .tret _ => some (tretWord)
  | _ => none

/-- A captured word at work again, for some of its threads. -/
def Issued.again (x : Issued) (d : Nat) (g : Group) (ts : List Nat) : Job :=
  let lanes := x.lanes.filter fun l => ts.contains l.t
  let sig := x.i.sig (g.slot64 x.i x.i.fields)
  ⟨d, g.gid, { x with lanes := lanes, dst := sig.writes x.i.fields x.warp (lanes.map LaneSrc.t) }, ts, sig, x.i.fields⟩

/-- The threads of a group that wait so. -/
def Group.waiters (g : Group) (sel : Wait → Bool) : List Nat := g.threadsWith fun t => t.wait.any sel

/-- Perform a word that its threads waited to perform. -/
def State.performWait (s : State) (d gid : Nat) (w : Wait) : State :=
  match s.group? d gid, w.word? with
  | some g, some x =>
    let ts := g.waiters (· == w)
    let s := s.modGroup d gid fun g => g.unwait ts
    let j := x.again d g ts
    if ts.isEmpty then s
    else
      match w with
      | .prefetchFull _ => j.enterPrefetch s
      | _ =>
        match bodyOf x.i with
        | some body => body j s
        | none => s
  | _, _ => s

/-- The resource that a word waits for is there. Absent lines and staged commits have their own steps. -/
def Die.waitOver (d : Die) (g : Group) (w : Wait) : Bool :=
  let c := d.core g.core
  match w with
  | .copyFull _ => c.freeCopy.isSome
  | .tableFull _ => (d.cluster (d.clusterFor g)).table.length < 16
  | .prefetchFull _ => c.prefetches.length < 16
  | .launchFull _ => c.launches.length < 4
  | .version _ t e => (g.tile t).reached e
  | .copies _ n => d.copiesOut g ≤ n
  | .qwaitBusy x => !d.waitOut g.gid x.warp
  | _ => false

/-- The resource waits of a group whose words can be performed now. -/
def Die.waitsOver (d : Die) (g : Group) : List Wait :=
  distinct ((g.threadsWith fun t => t.warp.any fun w => !g.stopped w).filterMap fun t =>
    (g.thread t).wait.bind fun w => if d.waitOver g w then some w else none)

/-- Perform a group's words whose resources are there, one after another. -/
def State.performWaits (s : State) (d gid : Nat) : State :=
  match s.group? d gid with
  | none => s
  | some g => ((s.die d).waitsOver g).foldl (fun s w =>
      match s.group? d gid with
      | some g => if (s.die d).waitOver g w then s.performWait d gid w else s
      | none => s) s

/-- Perform the words of a group that wait so, whatever they wait for. -/
def State.performSel (s : State) (d gid : Nat) (sel : Wait → Bool) : State :=
  match s.group? d gid with
  | none => s
  | some g => (distinct ((g.waiters sel).filterMap fun t => (g.thread t).wait)).foldl (fun s w => s.performWait d gid w) s

/-- What an issue turn does before a word issues: the outbound queue goes on, words whose resource is there are
performed, and stopped groups whose slot is idle are saved. -/
def State.resumeCore (s : State) (d core : Nat) : State :=
  let s := s.pump d core
  let gids := ((s.die d).groups.filter fun g => g.core == core && g.phase == .resident).map Group.gid
  gids.foldl (fun s gid => (s.performWaits d gid).saveIfIdle d gid) s

end Sys2Proof.Machine
end

