-- ==== Sys2Proof/Machine/Hash.lean ====
section
/-! DEFINITION. SHA-512 and HMAC-SHA-512, which R421, R428, R429 and R430 name: FIPS 180-4 and FIPS 198-1 (log entry 7). -/

namespace Sys2Proof.Machine

/-- A 64-bit number rotated right. -/
def rotr (n x : Nat) : Nat := (x / 2 ^ n + x * 2 ^ (64 - n)) % 2 ^ 64

/-- The constants of rounds 0 to 39. -/
def shaConstLow : List Nat :=
  [0x428A2F98D728AE22, 0x7137449123EF65CD, 0xB5C0FBCFEC4D3B2F, 0xE9B5DBA58189DBBC, 0x3956C25BF348B538,
   0x59F111F1B605D019, 0x923F82A4AF194F9B, 0xAB1C5ED5DA6D8118, 0xD807AA98A3030242, 0x12835B0145706FBE,
   0x243185BE4EE4B28C, 0x550C7DC3D5FFB4E2, 0x72BE5D74F27B896F, 0x80DEB1FE3B1696B1, 0x9BDC06A725C71235,
   0xC19BF174CF692694, 0xE49B69C19EF14AD2, 0xEFBE4786384F25E3, 0x0FC19DC68B8CD5B5, 0x240CA1CC77AC9C65,
   0x2DE92C6F592B0275, 0x4A7484AA6EA6E483, 0x5CB0A9DCBD41FBD4, 0x76F988DA831153B5, 0x983E5152EE66DFAB,
   0xA831C66D2DB43210, 0xB00327C898FB213F, 0xBF597FC7BEEF0EE4, 0xC6E00BF33DA88FC2, 0xD5A79147930AA725,
   0x06CA6351E003826F, 0x142929670A0E6E70, 0x27B70A8546D22FFC, 0x2E1B21385C26C926, 0x4D2C6DFC5AC42AED,
   0x53380D139D95B3DF, 0x650A73548BAF63DE, 0x766A0ABB3C77B2A8, 0x81C2C92E47EDAEE6, 0x92722C851482353B]

/-- The constants of rounds 40 to 79. -/
def shaConstHigh : List Nat :=
  [0xA2BFE8A14CF10364, 0xA81A664BBC423001, 0xC24B8B70D0F89791, 0xC76C51A30654BE30, 0xD192E819D6EF5218,
   0xD69906245565A910, 0xF40E35855771202A, 0x106AA07032BBD1B8, 0x19A4C116B8D2D0C8, 0x1E376C085141AB53,
   0x2748774CDF8EEB99, 0x34B0BCB5E19B48A8, 0x391C0CB3C5C95A63, 0x4ED8AA4AE3418ACB, 0x5B9CCA4F7763E373,
   0x682E6FF3D6B2B8A3, 0x748F82EE5DEFB2FC, 0x78A5636F43172F60, 0x84C87814A1F0AB72, 0x8CC702081A6439EC,
   0x90BEFFFA23631E28, 0xA4506CEBDE82BDE9, 0xBEF9A3F7B2C67915, 0xC67178F2E372532B, 0xCA273ECEEA26619C,
   0xD186B8C721C0C207, 0xEADA7DD6CDE0EB1E, 0xF57D4F7FEE6ED178, 0x06F067AA72176FBA, 0x0A637DC5A2C898A6,
   0x113F9804BEF90DAE, 0x1B710B35131C471B, 0x28DB77F523047D84, 0x32CAAB7B40C72493, 0x3C9EBE0A15C9BEBC,
   0x431D67C49C100D4C, 0x4CC5D4BECB3E42B6, 0x597F299CFC657E2A, 0x5FCB6FAB3AD6FAEC, 0x6C44198C4A475817]

/-- The eight working words. -/
structure ShaWords where
  a : Nat
  b : Nat
  c : Nat
  d : Nat
  e : Nat
  f : Nat
  g : Nat
  h : Nat
deriving DecidableEq, Repr, Inhabited

/-- The words before the first block. -/
def shaInit : ShaWords :=
  ⟨0x6A09E667F3BCC908, 0xBB67AE8584CAA73B, 0x3C6EF372FE94F82B, 0xA54FF53A5F1D36F1,
   0x510E527FADE682D1, 0x9B05688C2B3E6C1F, 0x1F83D9ABFB41BD6B, 0x5BE0CD19137E2179⟩

/-- One round, with its constant and the word of the schedule. -/
def ShaWords.round (s : ShaWords) (k w : Nat) : ShaWords :=
  let s1 := (rotr 14 s.e).xor ((rotr 18 s.e).xor (rotr 41 s.e))
  let ch := (s.e.land s.f).xor ((2 ^ 64 - 1 - s.e).land s.g)
  let t1 := s.h + s1 + ch + k + w
  let s0 := (rotr 28 s.a).xor ((rotr 34 s.a).xor (rotr 39 s.a))
  let maj := (s.a.land s.b).xor ((s.a.land s.c).xor (s.b.land s.c))
  ⟨(t1 + s0 + maj) % 2 ^ 64, s.a, s.b, s.c, (s.d + t1) % 2 ^ 64, s.e, s.f, s.g⟩

/-- The rounds that some constants belong to, with the next sixteen words of the schedule. -/
def shaRounds (ks w : List Nat) (s : ShaWords) : List Nat × ShaWords :=
  ks.foldl (fun r k =>
    let x := fun n => r.1.getD n 0
    let s0 := (rotr 1 (x 1)).xor ((rotr 8 (x 1)).xor (x 1 / 2 ^ 7))
    let s1 := (rotr 19 (x 14)).xor ((rotr 61 (x 14)).xor (x 14 / 2 ^ 6))
    (r.1.drop 1 ++ [(s1 + x 9 + s0 + x 0) % 2 ^ 64], r.2.round k (x 0))) (w, s)

/-- The number that big-endian bytes are. -/
def fromBig (bs : List Byte) : Nat := bs.foldl (fun n b => n * 256 + b.toNat) 0

/-- A number as n bytes, the most significant first. -/
def toBig (n v : Nat) : List Byte := (toBytes n v).reverse

/-- The words after a block of 128 bytes. -/
def ShaWords.block (s : ShaWords) (bs : List Byte) : ShaWords :=
  let w := (List.range 16).map fun i => fromBig ((bs.drop (8 * i)).take 8)
  let r := shaRounds shaConstLow w s
  let t := (shaRounds shaConstHigh r.1 r.2).2
  ⟨(s.a + t.a) % 2 ^ 64, (s.b + t.b) % 2 ^ 64, (s.c + t.c) % 2 ^ 64, (s.d + t.d) % 2 ^ 64, (s.e + t.e) % 2 ^ 64, (s.f + t.f) % 2 ^ 64,
    (s.g + t.g) % 2 ^ 64, (s.h + t.h) % 2 ^ 64⟩

/-- SHA-512: its 64 bytes. -/
def sha512 (bs : List Byte) : List Byte :=
  let n := bs.length
  let m := bs ++ [0x80] ++ List.replicate ((239 - n % 128) % 128) 0 ++ toBig 16 (8 * n)
  let s := (List.range (m.length / 128)).foldl (fun s i => s.block ((m.drop (128 * i)).take 128)) shaInit
  [s.a, s.b, s.c, s.d, s.e, s.f, s.g, s.h].flatMap (toBig 8)

/-- HMAC-SHA-512 of a key and a message. -/
def hmac (key bs : List Byte) : List Byte :=
  let k := if 128 < key.length then sha512 key else key
  let k := k ++ List.replicate (128 - k.length) 0
  sha512 (k.map (fun b => b ^^^ 0x5C) ++ sha512 (k.map (fun b => b ^^^ 0x36) ++ bs))

end Sys2Proof.Machine
end

