-- ==== Sys2Proof/Machine/HostPort.lean ====
section
/-! DEFINITION. What die 0's host port sends (R145, R148, R420, R421): datagrams on its connections and management replies. -/

namespace Sys2Proof.Machine

/-- The host port sends something. -/
def State.send (s : State) (x : Sent) : State := { s with host := { s.host with sent := s.host.sent ++ [x] } }

/-! ## Management replies (R421, R422) -/

/-- The datagram of a management reply (R421): its MAC is zero where no session key applies. -/
def Reply.datagram (r : Reply) (status : Nat) (payload : List Byte) (port : BitVec 16) : Packet :=
  let body := toBytes 1 r.op ++ toBytes 1 r.die ++ toBytes 1 status ++ toBytes 1 0 ++ toBytes 4 payload.length
    ++ toBytes 8 r.seq ++ List.replicate 16 0 ++ payload
  ⟨r.dst, r.src, port, r.sport, 2, body ++ match r.key with
    | some k => hmac k body
    | none => List.replicate 64 0⟩

/-- A management reply is sent, with ECT(0) (R420). From alarm level 2 of die 0 on it is lost with the host traffic, unless it
answers SESSION or READ, or an ATTEST, which R435 has signed before (`State.mgmt` signs none later; R431). -/
def State.reply (s : State) (r : Reply) (status : Nat) (payload : List Byte) : State :=
  if 2 ≤ (s.die 0).alarm ∧ r.op ≠ 1 ∧ r.op ≠ 8 ∧ r.op ≠ 9 then s
  else s.send (.datagram (r.datagram status payload s.host.mgmtPort))

/-! ## Connections (R145 to R148) -/

/-- Die 0's host port is running. -/
def State.hostUp (s : State) : Bool := (s.die 0).phase == .up && (s.die 0).alarm < 3 && (s.die 0).stopped.isNone

/-- Change a connection. -/
def State.modConn (s : State) (index : Nat) (f : Conn → Conn) : State :=
  { s with host := { s.host with conns := modWhere (fun c => c.index == index) f s.host.conns } }

/-- The live queue that a QID names in this package. -/
def State.queueOfQid (s : State) (q : DWord) : Option Queue :=
  ((s.die (bits q.toNat 47 45)).queue? (bits q.toNat 44 29)).filter fun x =>
    bits q.toNat 63 48 == s.pkg && x.gen == bits q.toNat 28 16 && bits q.toNat 15 0 == 0

/-- The transport header of 32 bytes. -/
structure Transport where
  type : Nat
  ece : Bool
  conn : Nat
  seq : Nat
  ackn : Nat
  rwin : Nat
  nelem : Nat
deriving DecidableEq, Repr, Inhabited

/-- The header as a number. -/
def Transport.word (t : Transport) : Nat :=
  t.type * 2 ^ 248 + t.ece.toNat * 2 ^ 240 + t.conn % 2 ^ 16 * 2 ^ 224 + t.seq % 2 ^ 48 * 2 ^ 176 + t.ackn % 2 ^ 48 * 2 ^ 128
    + t.rwin % 2 ^ 32 * 2 ^ 96 + t.nelem % 2 ^ 16 * 2 ^ 80

/-- RWIN: the free capacity of INQ (R148). -/
def State.freeWindow (s : State) (c : Conn) : Nat :=
  match s.queueOfQid c.inq with
  | some q => min ((q.cap - q.occupancy) * 2 ^ q.esize) (2 ^ 32 - 1)
  | none => 0

/-- Send a datagram on a connection, with ECT(0) (R420). -/
def State.sendOn (s : State) (c : Conn) (type seq : Nat) (els : List (List Byte)) : State :=
  let t : Transport := ⟨type, c.ece, (Config.peerConn c.index).toNat, seq, c.rcvNxt, s.freeWindow c, els.length⟩
  let own := if bits c.peer.toNat 127 118 = 0x3FA then s.host.linkLocal else s.host.unicast
  s.send (.datagram ⟨own, c.peer, c.lport, c.pport, 2, toBytes 32 t.word ++ els.flatten⟩)

/-- What a connection sends acknowledges all it has accepted. DESIGN CHOICE: an ACK, which carries no element, has SNDNXT in SEQ:
R145 says what SEQ is of a first element only (log entry 120). -/
def State.sendAck (s : State) (c : Conn) : State :=
  (s.sendOn c 2 c.sndNxt []).modConn c.index fun c => { c with ackDue := 0, ece := false }

/-- The connection as a producer (R115, R127). -/
def State.connProducer (s : State) (c : Conn) : Producer := ⟨s.pkg, 0, 2 * 2 ^ 22 + c.index⟩

/-- A message of a connection to a queue. -/
def Conn.msg (c : Conn) (kind : Nat) (q : DWord) (pn : Nat) : Msg := requestMsg kind q.toNat c.dom (2 * 2 ^ 22 + c.index) pn

/-- Reserve a reply ticket on OUTQ for each of n elements: the tickets and the state, none when one is refused. -/
def State.reserveReplies (s : State) (c : Conn) (n : Nat) : Option (List Nat × State) :=
  (List.range n).foldl (fun (r : Option (List Nat × State)) _ =>
    match r with
    | none => none
    | some (ts, s) =>
      let m := c.msg Kind.resv c.outq 0
      let ((st, first), x) := (s.die 0).reserve m.qidx m.qgen c.dom 1 (s.connProducer c) 0
      if st = St.ok then some (ts ++ [first], s.modDie 0 fun _ => x) else none) (some ([], s))

/-- REPLYQ and RTICKET written over what the host sent (R139, R148). -/
def withReply (bs : List Byte) (q : DWord) (ticket : Nat) : List Byte :=
  bs.take 0x10 ++ toBytes 8 q.toNat ++ toBytes 8 ticket ++ bs.drop 0x20

/-- The elements of a datagram as they go to INQ: those for a memory service get a reply ticket each (R148), if there is room
for all. -/
def State.withReplies (s : State) (c : Conn) (service : Bool) (els : List (List Byte)) : Option (List (List Byte) × State) :=
  if !service then some (els, s)
  else (s.reserveReplies c els.length).map fun (ts, s) => (els.zipIdx.map fun (b, i) => withReply b c.outq (ts.getD i 0), s)

/-- A datagram's DATA is accepted: RCVNXT passes it, and every second one is acknowledged at once (R148). -/
def State.acceptData (s : State) (c : Conn) (i : Incoming) : State :=
  let c := { c with rwin := i.rwin, rcvNxt := (c.rcvNxt + i.els.flatten.length) % 2 ^ 48, ackDue := c.ackDue + 1, ece := c.ece || i.ce
                    data := none }
  let s := s.modConn c.index fun _ => c
  if 2 ≤ c.ackDue then s.sendAck c else s

/-- The bytes of an element as they leave the package; a poisoned word's are free values. -/
def State.openBytes (s : State) (t : Ticket) : List Byte × State :=
  let (n, s) := s.draw
  (t.bytes.zipIdx.map fun (b, i) => if t.bad.contains (i / 4) then Config.freeByte (4096 * n + i) else b, s)

/-- An element stands unacknowledged on a connection, behind those that are sent. -/
def Conn.sentOne (c : Conn) (ticket : Nat) (bs : List Byte) (now : Nat) (again : Bool) : Conn :=
  { c with unacked := c.unacked ++ [⟨c.sndNxt, ticket, bs, now, again⟩], sndNxt := (c.sndNxt + bs.length) % 2 ^ 48 }

/-- A tenant's process is not named by the host: the PN of an element that it sends is free. -/
def State.freePn (s : State) : Nat × State :=
  let (n, s) := s.draw
  ((Config.enqueuePn n).toNat, s)

end Sys2Proof.Machine
end

