-- ==== Sys2Proof/Machine/Ports.lean ====
section
/-! DEFINITION. The messages between queue ports: what the home port does with a request (R109, R115 to R125) and
what a requester does with an answer (R134, R135, R148, R315 to R317, R345, R346, R310), and the management core's traffic on
queue 7 (R422). -/

namespace Sys2Proof.Machine

/-! ## The inbox -/

/-- The kinds that a queue takes in the order of arrival. -/
def queueKinds : List Nat := [Kind.resv, Kind.put, Kind.deq, Kind.cancel, Kind.rput]

/-- A dequeue that does not wait. -/
def Msg.isTake (m : Msg) : Bool := m.kind == Kind.deq && !bit m.arg0.toNat 0

/-- An earlier message for the same queue comes first; a take, which may be held for its requester's commit (R169),
holds back no other message. -/
def Msg.holdsBack (e m : Msg) : Bool := queueKinds.contains m.kind && queueKinds.contains e.kind && e.qidx == m.qidx && !e.isTake

/-- The request that an answer answers (R127). -/
def Port.requestOf (p : Port) (m : Msg) : Option Request :=
  p.requests.find? fun r => r.mseq == m.mseq && r.pkg == m.spkg && r.die == m.sdie

/-- What a port takes in while a planned reset has stopped it (R406): link maintenance and belay traffic. -/
def Port.takesStopped (p : Port) (m : Msg) : Bool :=
  [Kind.probe, Kind.incarn, Kind.lostdie, Kind.save, Kind.saveack].contains m.kind
    || (m.kind == Kind.retry && (p.requestOf m).any fun r => r.asker == .save)

/-- The port takes a message in: its die is up, or the message is management traffic for a die that is up for it alone (R431). -/
def Die.hears (d : Die) (m : Msg) : Bool :=
  if d.phase = .up then d.stopped.isNone || d.port.takesStopped m else d.mgmtUp && m.isMgmt

/-- Message k of the port's inbox, when it is of a kind and its turn has come. -/
def Die.message (d : Die) (k kind : Nat) : Option Msg :=
  (d.port.inbox[k]?).filter fun m => m.kind == kind && d.hears m && !(d.port.inbox.take k).any fun e => e.holdsBack m

/-- Message k leaves the inbox. -/
def State.dropMsg (s : State) (d k : Nat) : State := s.modDie d fun x => x.modPort fun p => { p with inbox := p.inbox.eraseIdx k }

/-- Take message k of a kind and do something with it. -/
def State.takeMsg (s : State) (d k kind : Nat) (f : State → Msg → State) : Host.Outcome State Fault Refusal :=
  match (s.die d).message k kind with
  | none => s.finish
  | some m => (f (s.dropMsg d k) m).finish

/-- A request is answered TARGET_LOST: its INC is not the home die's incarnation (R134), or it comes from another package, which
sees the queues of a die at alarm level 2 as lost (R431). -/
def Die.lostTo (d : Die) (m : Msg) : Bool := m.inc != d.incarnation || (m.spkg != d.pkgNo && 2 ≤ d.alarm)

/-- A request that the home port is not lost to. -/
def State.current (s : State) (d : Nat) (m : Msg) (k : State → State) : State :=
  if (s.die d).lostTo m then s.stat d m St.targetLost else k s

/-! ## Requests at the home port -/

/-- RESV (R109, R115). -/
def State.takeResv (s : State) (d : Nat) (m : Msg) : State :=
  s.current d m fun s =>
    let n := m.arg0.toNat
    let ((st, first), x) := (s.die d).reserve m.qidx m.qgen m.dom n m.producer m.pn
    let s := s.modDie d fun _ => x
    if st ≠ St.ok then s.stat d m st
    else
      let q := ((s.die d).queue? m.qidx).getD default
      s.answer d m Kind.grant St.ok fun a =>
        { a with ticket := first, arg0 := m.arg0, arg1 := BitVec.ofNat 64 q.esize, arg2 := BitVec.ofNat 64 q.life }

/-- The ticket is GRANTED. -/
def Queue.isGranted (q : Queue) (ticket : Nat) : Bool := q.tickets.any fun t => t.num == ticket && t.st == .granted

/-- The data of a PUT is discarded for its ticket's state or its size, and its fragment is counted (R116, R129). -/
def Queue.discards (q : Queue) (ticket st : Nat) : Bool :=
  [St.expired, St.rights, St.malformed].contains st || (st == St.ok && !q.isGranted ticket)

/-- A commit's answer: an OK waits until what is still on its way to the belay partner has reached it (R405). -/
def State.statLogged (s : State) (d : Nat) (m : Msg) (st : Nat) : State :=
  match (s.die d).belayQ.getLast?, decide (st = St.ok) with
  | some b, true =>
    s.modDie d fun x => { x with belayQ := x.belayQ.dropLast ++ [{ b with answers := b.answers ++ [{ m with bytes := [], bad := [] }] }] }
  | _, _ => s.stat d m st

/-- A whole PUT (R109, R116, R129, R405). -/
def State.takePut (s : State) (d : Nat) (m : Msg) : State :=
  s.current d m fun s =>
    match (s.die d).checkQueue m.qidx m.qgen m.dom true with
    | .error st => s.stat d m st
    | .ok q =>
      let (st, x) := (s.die d).commit q m.ticket m.producer false (s.outqInError d q) m.bytes m.mlen m.bad m.dom m.mseq
      let x := if st = St.ok ∧ q.isGranted m.ticket then x.belayLog (.message m) else x
      let x := if q.discards m.ticket st then x.modPort fun p => p.countStale 1 else x
      (s.modDie d fun _ => x).statLogged d m st

/-- An element is assigned to a dequeue, which goes to the belay log (R120, R405). -/
def State.serveLogged (s : State) (d idx : Nat) (t : Ticket) (w : Waiter) : State :=
  (s.serve d idx t w).modDie d fun x => x.belayLog (.assigned idx t.num)

/-! ## The management core's queue (R422) -/

/-- The reply to a command has come back to die 0, which sends it where the command came from. -/
def State.returned (s : State) (c : CmdRef) (status : Nat) (payload : List Byte) : State :=
  let mine := fun (r : Reply) => r.op == c.op && r.die == c.die && r.seq == c.seq
  match s.host.awaiting.find? mine with
  | none => s
  | some r => { s with host := { s.host with awaiting := s.host.awaiting.eraseP mine } }.reply r status payload

/-- A command or reply is whole at a die: die 0 returns a reply of another die's core, and a core keeps a command of die 0's until
its turn comes. -/
def State.gathered (s : State) (d : Nat) (g : Gather) : State :=
  let f := fun (o n : Nat) => ofBytes ((g.bytes.drop o).take n)
  let payload := (g.bytes.drop 32).take (f 4 4)
  if d = 0 ∧ g.prod.die ≠ 0 then s.returned ⟨f 0 1, f 1 1, f 8 8⟩ (f 2 1) payload
  else if g.prod.die = 0 then s.modDie d fun x => { x with mgmtIn := x.mgmtIn ++ [⟨f 0 1, f 1 1, f 8 8, payload, []⟩] }
  else s

/-- The management core takes an element of queue 7 (R120, R376, R422): those of one grant make a command or a reply. DESIGN
CHOICE: an element that no management core of the package has put is taken and discarded, and so is a command or a reply of
which a word is poisoned (log entry 111). -/
def State.coreTake (s : State) (d idx : Nat) (t : Ticket) : State :=
  let s := s.modDie d fun x => (x.take idx t.num none true).belayLog (.assigned idx t.num)
  if t.prod.pkg ≠ s.pkg ∨ t.prod.pid ≠ corePid then s
  else
    let old := (s.die d).gather.find? fun g => g.prod == t.prod && g.grant == t.grant
    let g : Gather := ⟨t.prod, t.grant, ((old.map Gather.bytes).getD []) ++ t.bytes, old.any Gather.bad || !t.bad.isEmpty⟩
    let s := s.modDie d fun x => { x with gather := x.gather.filter fun g => g.prod != t.prod }
    if g.bytes.length < 32 + ofBytes ((g.bytes.drop 4).take 4) then s.modDie d fun x => { x with gather := x.gather ++ [g] }
    else if g.bad then s
    else s.gathered d g

/-- One eligible element of a queue goes to its first waiter (R122), of queue 7 to the management core. -/
def State.assign (s : State) (d : Nat) (q : Queue) : State :=
  match q.eligible with
  | [] => s
  | t :: _ =>
    if q.ckind = 5 then s.coreTake d q.index t
    else match q.waiters with
      | w :: rest => (s.modDie d fun x => x.modQueue q.index fun q => { q with waiters := rest }).serveLogged d q.index t w
      | [] => s

/-- The queue whose consumer, a waiter or the management core, the port serves next (R376). -/
def Die.nextWaited (d : Die) : Option Queue :=
  d.nextServed fun q =>
    if q.ckind = 5 then d.mgmtUp else d.phase == .up && d.stopped.isNone && !q.waiters.isEmpty

/-- The port assigns until no queue with such a consumer is ready: each queue is served once in a clock, so its queues bound the
number (R122, R376). -/
def State.serveWaiters (s : State) (d fuel : Nat) : State :=
  match fuel with
  | 0 => s
  | fuel + 1 =>
    match (s.die d).nextWaited with
    | none => s
    | some q => (s.assign d q).serveWaiters d fuel

/-- Every die's port serves its waiters: an element that becomes eligible is assigned in the same step (R122). -/
def State.serveAll (s : State) : State :=
  (List.range 8).foldl (fun s d => s.serveWaiters d (s.die d).port.queues.length) s

/-- The consumer kind admits the dequeuer (R109, R120). -/
def Queue.admits (q : Queue) (m : Msg) : Bool := bits m.pid 23 22 == q.ckind && q.ckind ≤ 1

/-- The node of the group whose QGET a message to die `d` is, when that group's die is in the package: MSEQ counts for each
target (R127). -/
def State.takerNode (s : State) (d : Nat) (m : Msg) : Option Node :=
  match (s.die m.sdie).port.requests.find? fun r =>
      r.mseq == m.mseq && r.pkg == s.pkg && r.die == d && r.msg.kind == Kind.deq with
  | some ⟨_, _, _, .get dst .., _, _⟩ => (s.group? m.sdie dst.gid).bind fun g => (s.die m.sdie).nodeOf g
  | _ => none

/-- The waiter record of a DEQ. -/
def Msg.waiter (m : Msg) : Waiter := ⟨m.spkg, m.sdie, m.pid, m.mseq, bits m.arg0.toNat 2 1, m.arg1.toNat⟩

/-- A take (R121, R169): it gets the first element that no waiter is to get, once the port has an assignment left for its queue
in the clock (R376). A QGET in a revocable node is held, before it gets its element, until what the node has staged is
committed. `k` is the message's place in the inbox. -/
def State.takeNow (s : State) (d k : Nat) (m : Msg) (q : Queue) : State :=
  match (q.eligible.drop q.waiters.length).head? with
  | none => (s.dropMsg d k).stat d m St.empty
  | some t =>
    if q.served = some (s.die d).clock then s
    else
    match s.takerNode d m with
    | some n =>
      if n.revocable && (s.die m.sdie).hasTent n.nid then s.modDie m.sdie fun x => x.modNode n.nid fun n => { n with turning := true }
      else
        let s := if n.revocable then s.modDie m.sdie fun x => x.turnIrrevocable n.nid else s
        (s.dropMsg d k).serveLogged d m.qidx t m.waiter
    | none => (s.dropMsg d k).serveLogged d m.qidx t m.waiter

/-- The requester of a wait has not withdrawn it (R123). -/
def State.waitStands (s : State) (d : Nat) (m : Msg) : Bool :=
  (s.die m.sdie).port.requests.any fun r => r.mseq == m.mseq && r.pkg == s.pkg && r.die == d

/-- DEQ (R109, R120 to R123). -/
def State.takeDeq (s : State) (d k : Nat) (m : Msg) : State :=
  let refuse := fun (st : Nat) => (s.dropMsg d k).stat d m st
  if (s.die d).lostTo m then refuse St.targetLost
  else
    match (s.die d).checkQueue m.qidx m.qgen m.dom false with
    | .error st => refuse st
    | .ok q =>
      if !q.admits m then refuse St.kind
      else if m.spkg ≠ s.pkg then refuse St.far
      else if m.isTake then s.takeNow d k m q
      else if !s.waitStands d m then s.dropMsg d k
      else (s.dropMsg d k).modDie d fun x => x.modQueue m.qidx fun q => { q with waiters := insertWaiter m.waiter q.waiters }

/-- A waiter record of a cancelled wait is removed and its warp is woken (R124). -/
def State.cancelWaiter (s : State) (d : Nat) (m : Msg) (q : Queue) : State :=
  let mine := fun (w : Waiter) => w.pkg == m.spkg && w.die == m.sdie && w.pid == m.pid
  let s := s.modDie d fun x => x.modQueue m.qidx fun q => { q with waiters := q.waiters.filter fun w => !mine w }
  (q.waiters.filter mine).foldl (fun s w => s.stat d { m with mseq := w.mseq } St.cancelled) s

/-- CANCEL (R124). -/
def State.takeCancel (s : State) (d : Nat) (m : Msg) : State :=
  s.current d m fun s =>
    match (s.die d).queue? m.qidx with
    | none => s.stat d m St.noqueue
    | some q =>
      if q.gen ≠ m.qgen then s.stat d m St.noqueue
      else if bit m.arg0.toNat 0 then (s.cancelWaiter d m q).stat d m St.ok
      else
        let s := s.modDie d fun x => (x.cancelGrant m.qidx m.ticket m.producer).belayLog (.message m)
        s.stat d m St.ok

/-- The reply refuses the MIGRATE of a page move (R63, R139, R140): it is the one that goes to that MIGRATE's reply ticket. -/
def Msg.refuses (m : Msg) (d : Nat) (a : Arrival) : Bool :=
  bits (ofBytes m.bytes) 15 8 == 4 && (m.bytes.getD 0 0) != 0 && a.home == m.sdie && a.rticket == m.ticket
    && bits a.replyQ 47 45 == d && bits a.replyQ 44 29 == m.qidx && bits a.replyQ 28 16 == m.qgen

/-- A reply element arrives at its queue (R133, R140): it commits into any GRANTED ticket, and is discarded otherwise. A MIGRATE
that it refuses is no longer outstanding (R63). -/
def State.takeRput (s : State) (d : Nat) (m : Msg) : State :=
  let s := (List.range 8).foldl (fun s e => s.modDie e fun x => x.modPort fun p =>
    { p with arrivals := p.arrivals.filter fun a => m.spkg != s.pkg || !m.refuses d a }) s
  match (s.die d).queue? m.qidx with
  | none => s
  | some q =>
    if q.gen ≠ m.qgen ∨ bits m.pid 23 22 ≠ 3 ∨ !q.isGranted m.ticket then s
    else
      let (st, x) := (s.die d).commit q m.ticket m.producer true false m.bytes m.mlen m.bad m.dom m.mseq
      s.modDie d fun _ => if st = St.ok then x.belayLog (.message m) else x

/-! ## Answers at the requester -/

/-- The request is answered for good. -/
def State.endRequest (s : State) (d : Nat) (r : Request) : State :=
  s.modDie d fun x => x.modPort fun p =>
    { p with requests := p.requests.filter fun y => !(y.mseq == r.mseq && y.pkg == r.pkg && y.die == r.die) }

/-- The port learns a die's incarnation: translations tagged with another are dropped (R134). -/
def Port.learn (p : Port) (pkg die inc : Nat) : Port :=
  { p with known := tput p.known (dieKey pkg die) inc
           names := p.names.filter fun n => !(bits n.qid.toNat 63 48 == pkg && bits n.qid.toNat 47 45 == die && n.inc != inc) }

/-- A grant sets the ESIZE of the handle, unless it has been bound again (R314, R315). -/
def Group.grantTo (g : Group) (o : OutOp) (esize : Nat) : Group :=
  g.modHandleAt o.dst.depth o.handle fun h => if h.binding = o.binding then { h with esize := esize } else h

/-- An answer to an operation of the outbound queue (R315, R316, R319). -/
def State.outAnswered (s : State) (d core id : Nat) (m : Msg) : State :=
  match ((s.die d).core core).outOp? id with
  | none => s
  | some o =>
    if m.kind = Kind.grant then
      let e := bits m.arg1.toNat 3 0
      (s.modGroup d o.dst.gid fun g => g.grantTo o e).endOut d core o (queueWord e St.ok m.ticket)
    else s.endOut d core o (queueWord 0 (if m.kind = Kind.retry then St.retry else m.status) 0)

/-- An answer to a drain into a queue (R346): refused FULL it reserves again, and after RETRY it puts again. -/
def State.drainAnswered (s : State) (d core copy : Nat) (r : Request) (m : Msg) : State :=
  let change := fun (f : Copy → Copy) => s.modDie d fun x => x.modCopy core copy f
  if m.kind = Kind.grant then
    (change fun c => { c with grant := some (m.ticket, bits m.arg1.toNat 3 0) }).drainPut d core copy r.msg
  else if m.kind = Kind.retry then s.drainPut d core copy r.msg
  else if m.status = St.full then change fun c => { c with busy := false, retry := true }
  else s.drainEnd d core copy m.status

/-- The put of a pending launch (R310). -/
def State.launchPut (s : State) (d core : Nat) (l : PendLaunch) (ticket : Nat) (m : Msg) : State :=
  s.request d (.launch core l.id) { m with
    kind := Kind.put, arg0 := 0, ticket := ticket, bytes := l.words.flatMap fun w => toBytes 8 w.toNat, mlen := 128, bad := l.bad }

/-- An answer to a pending launch (R310). After RETRY the ticket is put again until it expires; a put that comes too late
ends with RETRY, the one answer that the rule has for it (DEDUCED, log entry 97). -/
def State.launchAnswered (s : State) (d core id : Nat) (r : Request) (m : Msg) : State :=
  match ((s.die d).core core).launches.find? fun l => l.id == id with
  | none => s
  | some l =>
    let change := fun (f : PendLaunch → PendLaunch) => s.modDie d fun x => x.modLaunch core id f
    if m.kind = Kind.grant then
      if bits m.arg1.toNat 3 0 ≠ 7 then s.endLaunch d core l St.malformed
      else
        (change fun l => { l with grant := some m.ticket, expiry := (s.die d).ps + m.arg2.toNat * usec }).launchPut d core l m.ticket
          r.msg
    else if m.kind = Kind.retry then
      (if (s.die d).ps < l.expiry then s.launchPut d core l (l.grant.getD 0) r.msg else s.endLaunch d core l St.retry)
    else if m.status = St.full then change fun l => { l with busy := false, retry := true }
    else s.endLaunch d core l (if m.status = St.expired then St.retry else m.status)

/-! ## Management relay (R422) -/

/-- The 128-byte elements that carry a command or its reply on queue 7. -/
def relayElements (bs : List Byte) : List (List Byte) :=
  (List.range ((bs.length + 127) / 128)).map fun i =>
    let e := (bs.drop (128 * i)).take 128
    e ++ List.replicate (128 - e.length) 0

/-- The bytes of a command as they are relayed: its first 32 bytes and its payload. -/
def Mgmt.relayed (m : Mgmt) : List Byte :=
  toBytes 32 (m.op + m.die * 2 ^ 8 + m.payload.length * 2 ^ 32 + m.seq * 2 ^ 64) ++ m.payload

/-- The bytes of a reply on its way to die 0. -/
def ReplyDue.relayed (r : ReplyDue) : List Byte :=
  toBytes 32 (r.ref.op + r.ref.die * 2 ^ 8 + r.status * 2 ^ 16 + r.payload.length * 2 ^ 32 + r.ref.seq * 2 ^ 64) ++ r.payload

/-- A message of a management core to queue 7 of a die, whose GEN is 1 (R106). -/
def State.coreMsg (s : State) (kind dst : Nat) : Msg := requestMsg kind (qid s.pkg dst 7 1).toNat 0 corePid 0

/-- A management core reserves elements on queue 7 of a die, under one grant. -/
def State.coreReserve (s : State) (d dst : Nat) (a : Asker) (bs : List Byte) : State :=
  s.request d a { s.coreMsg Kind.resv dst with arg0 := BitVec.ofNat 64 (relayElements bs).length }

/-- A management core puts its elements into the tickets that it was granted. -/
def State.corePuts (s : State) (d dst first : Nat) (bs : List Byte) : State :=
  (relayElements bs).zipIdx.foldl (fun s (e, i) =>
    s.request d .relayPut { s.coreMsg Kind.put dst with ticket := (first + i) % 2 ^ 48, bytes := e, mlen := 128 }) s

/-- Change the host port's relayed commands. -/
def State.modRelays (s : State) (f : List Relaying → List Relaying) : State :=
  { s with host := { s.host with relays := f s.host.relays } }

/-- The reservation may be made again: the queue has no room for now, or the die has another incarnation than the one that the
request named (R134; DESIGN CHOICE, log entry 111). -/
def State.relayAgain (s : State) (d : Nat) (r : Request) (m : Msg) : Bool :=
  m.status == St.full || m.status == St.busy || (m.status == St.targetLost && (s.die d).port.knows r.pkg r.die != r.msg.inc)

/-- An answer to die 0's reservation for a command: its elements are put, or the command is answered with the status. -/
def State.relayAnswered (s : State) (die : Nat) (r : Request) (m : Msg) : State :=
  let mine := fun (x : Relaying) => x.cmd.die == die && x.sent
  match s.host.relays.find? mine with
  | none => s
  | some x =>
    if m.kind = Kind.grant then
      let s := s.modRelays (·.eraseP mine)
      { s with host := { s.host with awaiting := s.host.awaiting ++ [x.back] } }.corePuts 0 die m.ticket x.cmd.relayed
    else if m.kind = Kind.retry ∨ s.relayAgain 0 r m = true then s.modRelays (modWhere mine fun x => { x with sent := false })
    else (s.modRelays (·.eraseP mine)).reply x.back m.status []

/-- An answer to a die's reservation for a reply: its elements are put, or it is dropped. -/
def State.replyAnswered (s : State) (d : Nat) (r : Request) (m : Msg) : State :=
  match (s.die d).mgmtOut with
  | [] => s
  | x :: rest =>
    let next := fun (l : List ReplyDue) => s.modDie d fun y => { y with mgmtOut := l }
    if m.kind = Kind.grant then (next rest).corePuts d 0 m.ticket x.relayed
    else if m.kind = Kind.retry ∨ s.relayAgain d r m = true then next ({ x with sent := false } :: rest)
    else next rest

/-- The port holds a die to be lost that is not up for management traffic either. -/
def State.coreLost (s : State) (d dst : Nat) : Bool :=
  (s.die d).port.holdsLost s.pkg dst && (s.die dst).phase != .scrapped

/-- Die 0 relays its oldest command for a die: one reservation for each die is under way at a time, so the commands keep
their order. -/
def State.pumpRelay (s : State) (die : Nat) : State :=
  match s.host.relays.find? fun x => x.cmd.die == die with
  | none => s
  | some x =>
    if x.sent || !(s.die 0).mgmtUp then s
    else if s.coreLost 0 die then (s.modRelays (·.eraseP fun x => x.cmd.die == die)).reply x.back St.targetLost []
    else (s.modRelays (modWhere (· == x) fun x => { x with sent := true })).coreReserve 0 die (.relay die) x.cmd.relayed

/-- A die's oldest reply goes to queue 7 of die 0. -/
def State.pumpReply (s : State) (d : Nat) : State :=
  match (s.die d).mgmtOut with
  | [] => s
  | x :: rest =>
    if x.sent || !(s.die d).mgmtUp then s
    else if s.coreLost d 0 then s.modDie d fun y => { y with mgmtOut := rest }
    else (s.modDie d fun y => { y with mgmtOut := { x with sent := true } :: rest }).coreReserve d 0 .reply x.relayed

/-- The reply to a command that a die's management core has performed: die 0's own is sent, another's goes to die 0. -/
def State.replyVia (s : State) (d : Nat) (ref : CmdRef) (status : Nat) (payload : List Byte) : State :=
  if d = 0 then s.returned ref status payload
  else s.modDie d fun x => { x with mgmtOut := x.mgmtOut ++ [⟨ref, status, payload, false⟩] }

/-- The commands that wait for a reply of a die that is lost are answered TARGET_LOST (DEDUCED from R135; log entry 111). -/
def State.failAwaiting (s : State) (die : Nat) : State :=
  let gone := s.host.awaiting.filter fun r => r.die == die
  gone.foldl (fun s r => s.reply r St.targetLost [])
    { s with host := { s.host with awaiting := s.host.awaiting.filter fun r => r.die != die } }

/-! ## DATA for another die's queue (R126, R148) -/

/-- The DATA that a connection's reservation on another die was made for, while the connection is OPEN. -/
def State.awaitsGrant (s : State) (conn : Nat) (r : Request) : Option (Conn × Incoming) :=
  match s.host.conns.find? fun c => c.index == conn && c.state == 0 with
  | none => none
  | some c => (c.data.filter fun i => bits c.inq.toNat 44 29 == r.msg.qidx && i.els.length == r.msg.arg0.toNat).map fun i => (c, i)

/-- An answer to that reservation: the elements are put and RCVNXT advances, or the datagram is dropped. A grant that is of no
use is cancelled. -/
def State.hostAnswered (s : State) (conn : Nat) (r : Request) (m : Msg) : State :=
  let cancel := fun (s : State) =>
    if m.kind = Kind.grant then s.request 0 (.hostPut conn) { r.msg with kind := Kind.cancel, arg0 := 0, ticket := m.ticket } else s
  match s.awaitsGrant conn r with
  | none => cancel s
  | some (c, i) =>
    if m.kind ≠ Kind.grant then s.modConn conn fun c => { c with data := none }
    else
      match s.withReplies c (((s.queueOfQid c.inq).map Queue.ckind) == some 3) i.els with
      | none => (cancel s).modConn conn fun c => { c with data := none }
      | some (els, s) =>
        let put := fun (s : State) (e : List Byte) (k : Nat) =>
          let (pn, s) := s.freePn
          s.request 0 (.hostPut conn) { c.msg Kind.put c.inq pn with ticket := (m.ticket + k) % 2 ^ 48, bytes := e, mlen := e.length }
        (els.zipIdx.foldl (fun s (e, k) => put s e k) s).acceptData c i

/-- An answer reaches what asked for it. -/
def State.answered (s : State) (d : Nat) (r : Request) (m : Msg) : State :=
  let s := s.endRequest d r
  let deq := fun (wait : Bool) (dst : Dest) (handle off size : Nat) =>
    s.modGroup d dst.gid fun g =>
      g.endDeq wait dst handle off size (if m.kind = Kind.deliver then some (m.bytes, m.bad, m.ticket) else none) m.status
  match r.asker with
  | .out core id => s.outAnswered d core id m
  | .get dst handle _ off size => deq false dst handle off size
  | .wait dst handle _ off size => deq true dst handle off size
  | .stream core copy slot =>
    if m.kind = Kind.deliver then s.streamDelivered d core copy slot m.bytes m.bad else s.streamRefused d core copy m.status
  | .drain core copy => s.drainAnswered d core copy r m
  | .launch core id => s.launchAnswered d core id r m
  | .page _ => if m.kind = Kind.retry then s.request d r.asker r.msg else s
  | .host conn => s.hostAnswered conn r m
  | .hostPut _ => if m.kind = Kind.retry then s.request d r.asker r.msg else s
  | .relay die => s.relayAnswered die r m
  | .reply => s.replyAnswered d r m
  | .relayPut => if m.kind = Kind.retry then s.request d r.asker r.msg else s
  | .save =>
    -- a part of the mirror, or a checkpoint's or the log's, is sent again (R24, R404)
    if bit r.msg.arg1.toNat 0 then s.modDie d fun x => { x with flash := { x.flash with mirrorDue := true } }
    else s.modDie d fun x => { x with belayBusy := false }

/-- GRANT, STAT, DELIVER and RETRY: the answer goes to its request, if the request still stands. An element that finds
no request returns to its queue (R123). -/
def State.takeAnswer (s : State) (d : Nat) (m : Msg) : State :=
  let s := if m.kind = Kind.stat ∧ m.status = St.targetLost then
      s.modDie d fun x => x.modPort fun p => p.learn m.spkg m.sdie m.inc
    else s
  let back := fun (s : State) (b : Bool) =>
    if m.kind = Kind.deliver ∧ m.spkg = s.pkg then s.delivered m.sdie m.qidx m.ticket (s.pkg, d, m.mseq) b else s
  match (s.die d).port.requestOf m with
  | none => back s true
  | some r =>
    -- a MIGRATE that was refused is no longer outstanding (R63)
    let s := match s.arrivalOf d r.msg with
      | some a => if m.kind = Kind.stat ∧ m.status ≠ St.ok then s.modDie d fun x => x.modPort fun p => p.dropArrival a else s
      | none => s
    back (s.answered d r m) false

/-! ## Loss of a die (R134, R135) -/

/-- The status with which the loss of its target ends a request: waits are woken with LOST. -/
def Asker.lostStatus (a : Asker) : Nat :=
  match a with
  | .wait .. => St.lost
  | _ => St.targetLost

/-- What a home queue does about a lost die: its waiters go, and elements not yet delivered to it return (R135). -/
def Queue.loseDie (q : Queue) (pkg die : Nat) : Queue :=
  { q with
    waiters := q.waiters.filter fun w => !(w.pkg == pkg && w.die == die)
    tickets := modWhere (fun t => t.st == .taken && !t.delivered && t.taker.any fun k => k.1 == pkg && k.2.1 == die)
      (fun t => { t with st := .committed, taker := none }) q.tickets }

/-- What a home port does about a lost die: the tickets GRANTED to its producers become HOLEs too (R116, R135). -/
def Die.loseDie (d : Die) (pkg die : Nat) : Die :=
  let d := d.modPort fun p => { p with queues := p.queues.map fun q => q.loseDie pkg die }
  (d.port.queues.map Queue.index).foldl (fun d i => d.makeHoles i fun t => t.prod.pkg == pkg && t.prod.die == die) d

/-- Complete the requests that name a die, with the status of its loss. -/
def State.failRequests (s : State) (d pkg die : Nat) : State :=
  let gone := (s.die d).port.requests.filter fun r => r.pkg == pkg && r.die == die
  gone.foldl (fun s r =>
    if (s.die d).port.requests.contains r then
      s.answered d r { r.msg with kind := Kind.stat, status := r.asker.lostStatus, spkg := pkg, sdie := die }
    else s) s

/-- The clean-up that a port makes when a die is lost. A page move to it ends there (R63), and a move from it never
arrives. -/
def State.loseDie (s : State) (d pkg die : Nat) : State :=
  let s := s.modDie d fun x => (x.loseDie pkg die).modPort fun p =>
    { p with moves := if pkg = s.pkg then p.moves.filter fun m => m.toDie != die else p.moves
             arrivals := if pkg = s.pkg then p.arrivals.filter fun a => a.home != die else p.arrivals }
  let s := s.failRequests d pkg die
  if d = 0 ∧ pkg = s.pkg then s.failAwaiting die else s

/-- The body of LOSTDIE: the die and its last incarnation, a byte each (R137; DESIGN CHOICE: the rule names the two and gives
neither a place nor a width, log entry 121). -/
def lostBody (die inc : Nat) : List Byte := toBytes 1 die ++ toBytes 1 inc

/-- A port holds a die of its package to be lost, once. -/
def State.declareLost (s : State) (d die inc : Nat) : State :=
  let key := dieKey s.pkg die
  if (s.die d).port.lost.contains key then s
  else
    let s := s.modDie d fun x => (x.modPort fun p => { p with lost := p.lost ++ [key] }).sysEvent 0x0006 (lostBody die inc)
    s.loseDie d s.pkg die

/-- INCARN: a new incarnation ends what was under way with the old one (R134, R136, R406). -/
def State.takeIncarn (s : State) (d : Nat) (m : Msg) : State :=
  let inc := m.arg0.toNat % 256
  let s := if (s.die d).port.knows m.spkg m.sdie = inc then s else s.loseDie d m.spkg m.sdie
  s.modDie d fun x => x.modPort fun p =>
    { p.learn m.spkg m.sdie inc with lost := p.lost.filter (· != dieKey m.spkg m.sdie) }

/-- A message that every other live port of the package gets (R134, R135). -/
def State.broadcast (s : State) (d kind : Nat) (a0 a1 : Nat) : State :=
  ((List.range 8).filter fun e => e != d && (s.die e).phase == .up).foldl (fun s e =>
    (s.sendNew d { requestMsg kind (qid s.pkg e 0 0).toNat 0 0 0 with
      inc := (s.die d).incarnation, arg0 := BitVec.ofNat 64 a0, arg1 := BitVec.ofNat 64 a1 }).2) s

/-! ## Belay traffic (R15, R404, R405) -/

/-- The die has a belay partner that can be reached (R15). -/
def State.hasBelay (s : State) (d : Nat) : Bool :=
  !bit (s.die d).conf.ident.toNat 4 && (s.die (belay d)).phase == .up && !(s.die d).port.holdsLost s.pkg (belay d)

/-- The OKs that waited for belay traffic go out. -/
def State.sendOks (s : State) (d : Nat) (b : BelaySave) : State := b.answers.foldl (fun s m => s.stat d m St.ok) s

/-- The place of the next SAVE in the partner's checkpoint area (R40, R404): two images of 512 MiB, then the log. -/
def State.belayAddr (s : State) (d : Nat) (i : BelayItem) : Nat :=
  let x := s.die d
  let base := (s.die (belay d)).memTop - 2 * gib
  match i with
  | .image _ part _ => base + x.imageNo % 2 * (gib / 2) + part * 4096
  | .entry _ => base + gib + min x.logPos (gib - 4096)

/-- The next SAVE to the belay partner goes out; one is under way at a time, and its length and bytes are free values (DESIGN
CHOICE, log entry 110). Without a partner nothing is kept, and no OK waits. -/
def State.pumpBelay (s : State) (d : Nat) : State :=
  let x := s.die d
  match x.belayQ with
  | [] => s
  | b :: _ =>
    if x.phase ≠ .up then s
    else if !s.hasBelay d then x.belayQ.foldl (fun s b => s.sendOks d b) (s.modDie d fun x => { x with belayQ := [], belayBusy := false })
    else if x.belayBusy then s
    else
      let (n, s) := s.draw
      let len := Config.saveLen n % 4096 + 1
      let m := { requestMsg Kind.save (qid s.pkg (belay d) 0 0).toNat 0 (3 * 2 ^ 22 + 1) 0 with
        arg0 := BitVec.ofNat 64 (s.belayAddr d b.item), bytes := (List.range len).map (Config.saveByte n), mlen := len }
      (s.modDie d fun x => { x with belayBusy := true, logPos := match b.item with
        | .image .. => x.logPos
        | .entry _ => x.logPos + len }).request d .save m

/-- A SAVE has reached the partner (R404, R405): the next part of an image follows, the log restarts once an image is
complete, and the OKs that waited go out. -/
def State.belaySaved (s : State) (d : Nat) : State :=
  match (s.die d).belayQ with
  | [] => s
  | b :: rest =>
    let done := fun (f : Die → Die) => (s.modDie d fun x => f { x with belayQ := rest, belayBusy := false }).sendOks d b
    match b.item with
    | .entry _ => done id
    | .image c part total =>
      if total ≤ part + 1 then done fun x => { x with imageNo := x.imageNo + 1, logPos := 0 }
      else s.modDie d fun x => { x with belayQ := { b with item := .image c (part + 1) total } :: rest, belayBusy := false }

/-- What a SAVE's arrival leaves at the belay partner (R404): the older image goes once the new one is complete, and the
log restarts. -/
def Die.keep (d : Die) (i : BelayItem) : Die :=
  match i with
  | .entry e => { d with keptLog := d.keptLog ++ [e] }
  | .image c part total => if total ≤ part + 1 then { d with kept := c :: d.kept.take 1, keptLog := [] } else d

/-! ## The steps -/

/-- RESV (R115). -/
def execResv (d k : Nat) (s : State) : Host.Outcome State Fault Refusal := s.takeMsg d k Kind.resv fun s m => s.takeResv d m
/-- PUT (R116). -/
def execPut (d k : Nat) (s : State) : Host.Outcome State Fault Refusal := s.takeMsg d k Kind.put fun s m => s.takePut d m
/-- DEQ (R122). -/
def execDeq (d k : Nat) (s : State) : Host.Outcome State Fault Refusal :=
  match (s.die d).message k Kind.deq with
  | none => s.finish
  | some m => (s.takeDeq d k m).finish
/-- CANCEL message (R124). -/
def execCancelMessage (d k : Nat) (s : State) : Host.Outcome State Fault Refusal :=
  s.takeMsg d k Kind.cancel fun s m => s.takeCancel d m
/-- RPUT (R133). -/
def execRput (d k : Nat) (s : State) : Host.Outcome State Fault Refusal := s.takeMsg d k Kind.rput fun s m => s.takeRput d m
/-- GRANT (R315). -/
def execGrant (d k : Nat) (s : State) : Host.Outcome State Fault Refusal := s.takeMsg d k Kind.grant fun s m => s.takeAnswer d m
/-- STAT (R128). -/
def execStat (d k : Nat) (s : State) : Host.Outcome State Fault Refusal := s.takeMsg d k Kind.stat fun s m => s.takeAnswer d m
/-- DELIVER (R120). -/
def execDeliver (d k : Nat) (s : State) : Host.Outcome State Fault Refusal := s.takeMsg d k Kind.deliver fun s m => s.takeAnswer d m
/-- RETRY (R129). -/
def execRetry (d k : Nat) (s : State) : Host.Outcome State Fault Refusal := s.takeMsg d k Kind.retry fun s m => s.takeAnswer d m
/-- PROBE (R135): its arrival on the seam is all that it says. -/
def execProbe (d k : Nat) (s : State) : Host.Outcome State Fault Refusal := s.takeMsg d k Kind.probe fun s _ => s
/-- INCARN (R134). -/
def execIncarn (d k : Nat) (s : State) : Host.Outcome State Fault Refusal := s.takeMsg d k Kind.incarn fun s m => s.takeIncarn d m
/-- LOSTDIE (R135). -/
def execLostdie (d k : Nat) (s : State) : Host.Outcome State Fault Refusal :=
  s.takeMsg d k Kind.lostdie fun s m => if m.arg0.toNat % 8 = d then s else s.declareLost d (m.arg0.toNat % 8) m.arg1.toNat
/-- SAVEACK (R128). -/
def execSaveack (d k : Nat) (s : State) : Host.Outcome State Fault Refusal :=
  s.takeMsg d k Kind.saveack fun s m =>
    match (s.die d).port.requestOf m with
    | some r => let s := s.endRequest d r; if r.asker == .save && !bit r.msg.arg1.toNat 0 then s.belaySaved d else s
    | none => s

/-- ELEMENT_ASSIGN (R122, R376): one eligible element of the queue that the port serves next goes to its first waiter. -/
def execElementAssign (d index : Nat) (s : State) : Host.Outcome State Fault Refusal :=
  match (s.die d).nextWaited with
  | none => s.finish
  | some q => if q.index = index then (s.assign d q).finish else s.finish

/-- TICKET_EXPIRY (R116): a GRANTED ticket whose time has passed becomes a HOLE. -/
def execTicketExpiry (d index ticket : Nat) (s : State) : Host.Outcome State Fault Refusal :=
  (s.modDie d fun x => x.makeHoles index fun t => t.num == ticket && t.expiry ≤ x.ps).finish

end Sys2Proof.Machine
end

