-- ==== Sys2Proof/Machine/Memsvc.lean ====
section
/-! DEFINITION. The memory-service agent (R139 to R144), the hotness counters it raises (R100) and page migration
(R62 to R67, R133). -/

namespace Sys2Proof.Machine

/-! ## Requests (R139) -/

/-- A memory-service element. -/
structure Svc where
  op : Nat
  size : Nat
  aop : Nat
  pn : Nat
  tag : Nat
  va : Nat
  replyQ : Nat
  rticket : Nat
  opnd1 : Nat
  opnd2 : Nat
  data : List Byte
deriving DecidableEq, Repr, Inhabited

/-- The fields of an element of 128 bytes. -/
def svcOf (bs : List Byte) : Svc :=
  let f := fun (o n : Nat) => ofBytes ((bs.drop o).take n)
  { op := f 0 1, size := f 1 1, aop := f 2 1, pn := f 4 2 % 4096, tag := f 6 2, va := f 8 8, replyQ := f 0x10 8,
    rticket := f 0x18 6, opnd1 := f 0x20 8, opnd2 := f 0x28 8, data := bs.drop 0x40 }

/-- The element is malformed: a reserved byte of R139, or a reserved bit of REPLYQ (R105), is set, or a field is out of its
range. -/
def svcMalformed (bs : List Byte) : Bool :=
  let v := svcOf bs
  let f := fun (o n : Nat) => ofBytes ((bs.drop o).take n)
  f 3 1 != 0 || bits (f 4 2) 15 12 != 0 || f 0x10 2 != 0 || f 0x1E 2 != 0 || f 0x30 16 != 0 || v.op == 0 || 4 < v.op || 9 < v.aop
    || (match v.op with
        | 1 | 2 => v.size == 0 || 64 < v.size || 64 < v.va % 64 + v.size
        | 3 => !(v.size == 4 || v.size == 8) || v.va % v.size != 0
        | _ => v.size != 0)

/-- The bytes of a reply (R140). -/
def Svc.reply (v : Svc) (status result : Nat) (data : List Byte) : List Byte :=
  toBytes 1 status ++ toBytes 1 v.op ++ toBytes 4 0 ++ toBytes 2 v.tag ++ toBytes 8 v.va ++ toBytes 8 result
    ++ List.replicate 40 0 ++ (data ++ List.replicate 64 0).take 64

/-- Answer a request by RPUT (R140); `bad` marks poisoned words of the reply. -/
def State.replySvc (s : State) (d : Nat) (v : Svc) (status result : Nat) (data : List Byte) (bad : List Nat) : State :=
  (s.sendNew d { requestMsg Kind.rput v.replyQ 0 (3 * 2 ^ 22) v.pn with
    inc := (s.die d).port.knows (bits v.replyQ 63 48) (bits v.replyQ 47 45), ticket := v.rticket,
    bytes := v.reply status result data, mlen := 128, bad := bad }).2

/-! ## Hotness (R100) -/

/-- The class of a requester at die d. -/
def hotClass (pkg d : Nat) (p : Producer) : Option Nat :=
  if bits p.pid 23 22 = 2 then some 8
  else if p.pkg ≠ pkg then some 7
  else if p.die = d then none
  else some ((p.die + 8 - d - 1) % 8)

/-- The threshold of a class in MCHOT. -/
def MemCtl.hotLimit (m : MemCtl) (cls : Nat) : Nat :=
  if cls = 8 then bits m.mchot.toNat 23 16 else if cls = 7 then bits m.mchot.toNat 15 8 else bits m.mchot.toNat 7 0

/-- One request touches the 64 KiB block of an address. -/
def Die.countHot (d : Die) (cls a : Nat) : Die :=
  let key := a / 65536 * 16 + cls
  let old := tgetD d.memctl.hot key 0
  let d := { d with memctl := { d.memctl with hot := tput d.memctl.hot key (min 255 (old + 1)) } }
  if d.memctl.hotLimit cls ≠ 0 ∧ old + 1 = d.memctl.hotLimit cls then
    d.sysEvent 0x0001 (toBytes 16 (d.epoch8 * 2 ^ 64 + a / 65536 * 65536 + cls))
  else d

/-! ## Admission (R142, R144) -/

/-- The right of a registration that an operation needs. -/
def Svc.right (v : Svc) : Nat := v.op - 1

/-- Bytes that a request touches. -/
def Svc.bytes (v : Svc) : Nat := v.size

/-- What the checks of a request's domain give. -/
inductive Admit where
  | free
  | reg (index : Nat)
  | refuse (status : Nat)
deriving DecidableEq, Repr, Inhabited

/-- Check a request's domain (R142, R144). -/
def Die.admitsSvc (d : Die) (v : Svc) (dom : Word) : Admit :=
  match d.domain v.pn with
  | none => .refuse St.rights
  | some own =>
    if dom = own ∨ dom = 0 then .free
    else
      let fits := fun (r : Registration) =>
        r.pn == v.pn && r.dom == dom && r.base ≤ v.va && v.va + v.bytes ≤ r.base + r.len && bit r.rights v.right
      match d.port.registrations.find? fun r => r.state == 1 && fits r with
      | some r => .reg r.index
      | none => if d.port.registrations.any fun r => r.state == 2 && fits r then .refuse St.revoked else .refuse St.rights

/-- The admitted count of a registration rises. -/
def Port.raise (p : Port) (index : Nat) : Port :=
  { p with registrations := modWhere (fun r => r.index == index) (fun r => { r with admitted := r.admitted + 1 }) p.registrations }

/-- A REVOKING registration that nothing holds any more is FREE, and REVOKED is enqueued (R144). -/
def Die.freeRevoked (d : Die) (index : Nat) : Die :=
  if d.port.registrations.any fun r => r.index == index && r.state == 2 && r.admitted == 0 then
    (d.modPort fun p => { p with registrations := p.registrations.filter fun r => r.index != index }).sysEvent 0x0007
      (toBytes 2 index)
  else d

/-- The admitted count falls when a reply is sent (R144). -/
def Die.lowerReg (d : Die) (reg : Option Nat) : Die :=
  match reg with
  | none => d
  | some i =>
    (d.modPort fun p => { p with registrations := modWhere (fun r => r.index == i) (fun r => { r with admitted := r.admitted - 1 })
                                   p.registrations }).freeRevoked i

/-! ## Performing (R141) -/

/-- In whose name the agent's accesses are made: no group and no node. -/
def agentAsks (d : Nat) : Asking := ⟨d, 0, 0, 0, 0⟩

/-- The kind of access an operation makes. -/
def Svc.acc (v : Svc) : Acc := if v.op = 1 then .load else if v.op = 2 then .store else .atom

/-- The value that ATOM writes (R139, R141). -/
def Svc.atomNew (v : Svc) (old : Nat) : Nat :=
  let w := 8 * v.size
  let b := v.opnd1 % 2 ^ w
  match v.aop with
  | 0 => (old + b) % 2 ^ w
  | 1 => iminmax w false false old b
  | 2 => iminmax w true false old b
  | 3 => iminmax w false true old b
  | 4 => iminmax w true true old b
  | 5 => Nat.land old b
  | 6 => Nat.lor old b
  | 7 => Nat.xor old b
  | 8 => b
  | _ => if old = v.opnd2 % 2 ^ w then b else old

/-- The places of a request's bytes in its page; none where device-register space does not take it. -/
def Svc.spots (v : Svc) (level e : Nat) : Option (List Spot) :=
  let sp := (List.range v.size).map fun i => leafSpot level e (v.va + i)
  if (regOfSpots sp).isSome && (v.op == 3 || !(v.size == 4 || v.size == 8) || v.va % v.size != 0) then none else some sp

/-- A reply to a performed request, and its count falls. -/
def State.endSvc (s : State) (d : Nat) (v : Svc) (reg : Option Nat) (status result : Nat) (data : List Byte) (bad : List Nat) :
    State :=
  (s.replySvc d v status result data bad).modDie d fun x => x.lowerReg reg

/-- The reply words that hold poisoned bytes of the data read. -/
def poisonWords (got : List (Byte × Bool)) : List Nat :=
  distinct (((List.range got.length).filter fun i => (got.getD i (0, false)).2).map fun i => 16 + i / 4)

/-- Perform a request on a leaf it may use. `bad` lists the poisoned words of the element. -/
def State.performOn (s : State) (d : Nat) (v : Svc) (reg : Option Nat) (sp : List Spot) (bad : List Nat) : State :=
  let q := agentAsks d
  match v.op with
  | 1 =>
    let (got, s) := s.readSpots q sp false
    s.endSvc d v reg (if got.any (·.2) then St.poison else St.ok) 0 (got.map (·.1)) (poisonWords got)
  | 2 =>
    let s := s.writeSpots q sp (v.data.take v.size)
    let marked := (List.range v.size).filter fun i => bad.contains (16 + i / 4)
    let s := if marked.isEmpty then s else s.poisonSpots q (marked.filterMap fun i => sp[i]?)
    s.endSvc d v reg St.ok 0 [] []
  | _ =>
    let (got, s) := s.readSpots q sp false
    let old := ofBytes (got.map (·.1))
    if got.any (·.2) then s.endSvc d v reg St.poison old [] []
    else (s.writeSpots q sp (toBytes v.size (v.atomNew old))).endSvc d v reg St.ok old [] []

/-- Perform an admitted request (R141). -/
def State.performSvc (s : State) (d : Nat) (v : Svc) (dom : Word) (prod : Producer) (reg : Option Nat) (bad : List Nat) : State :=
  let fail := fun (s : State) (st result : Nat) => s.endSvc d v reg st result [] []
  if 2 ^ 60 ≤ v.va then fail s St.fault 0
  else
    let (f, x) := (s.die d).translate v.pn v.va
    let s := s.modDie d fun _ => x
    match f with
    | .hole a => { s with hole := some a }
    | .none => fail s St.fault 0
    | .malformed => fail s St.fault 0
    | .leaf level e _ =>
      if leafType e = 2 ∨ leafType e = 3 then fail s St.moved (bits e 47 32 * 2 ^ 32 + bits e 18 16 * 2 ^ 16)
      else if x.leafCause (dom == 0) v.acc e ≠ 0 then fail s St.fault 0
      else
        match v.spots level e with
        | none => fail s St.fault 0
        | some sp =>
          let block := leafFrame e + if leafType e = 5 then 0 else v.va % 2 ^ levelShift level
          let s := match hotClass s.pkg d prod with
            | some c => if isDevice block then s else s.modDie d fun x => x.countHot c block
            | none => s
          s.performOn d v reg sp bad

/-- The page is in a move, as its home or as its destination (R63). -/
def Port.inMove (p : Port) (pn vpn : Nat) : Bool :=
  (p.moves.any fun m => m.pn == pn && m.vpn == vpn) || p.arrivals.any fun a => a.pn == pn && a.vpn == vpn

/-- A request of the same producer waits already. -/
def Port.waitsFor (p : Port) (prod : Producer) : Bool := p.waiting.any fun w => w.prod == prod

/-- The agent takes an element of one of its queues; the capacity is free at once (R116, R405). -/
def State.takeSvc (s : State) (d i : Nat) (t : Ticket) : State :=
  s.modDie d fun x => (x.take i t.num none true).belayLog (.assigned i t.num)

/-- The element that the agent takes next from the memory-service queues, with its queue, when its ticket is `k` (R118, R120,
R376). -/
def Die.svcHead (d : Die) (k : Nat) : Option (Nat × Ticket) :=
  ((d.nextFor 3).map fun (q, t) => (q.index, t)).filter fun x => x.2.num == k

/-- A request waits behind a move, or behind an earlier request of its producer (R63, R141). -/
def State.keepSvc (s : State) (d : Nat) (t : Ticket) (reg : Option Nat) : State :=
  let (id, s) := s.newId
  s.modDie d fun x => x.modPort fun p => { p with waiting := p.waiting ++ [⟨id, t.bytes, t.bad, t.dom, t.prod, reg⟩] }

/-- READ, WRITE or ATOM from queue `i` (R139 to R144). An element whose words are poisoned is not performed. -/
def State.serveSvc (s : State) (d i : Nat) (t : Ticket) : State :=
  let v := svcOf t.bytes
  let s := s.takeSvc d i t
  if t.bad.any fun w => w < 16 then s.replySvc d v St.poison 0 [] []
  else if svcMalformed t.bytes then s.replySvc d v St.malformed 0 [] []
  else
    match (s.die d).admitsSvc v t.dom with
    | .refuse st => s.replySvc d v st 0 [] []
    | adm =>
      let reg := match adm with
        | .reg i => some i
        | _ => none
      let s := match reg with
        | some i => s.modDie d fun x => x.modPort fun p => p.raise i
        | none => s
      let p := (s.die d).port
      if p.inMove v.pn (v.va / 65536) || p.waitsFor t.prod then s.keepSvc d t reg
      else s.performSvc d v t.dom t.prod reg t.bad

/-- The agent takes ticket k when it holds one of these operations. -/
def State.svcStep (s : State) (d k : Nat) (ops : Nat → Bool) : Host.Outcome State Fault Refusal :=
  match (s.die d).svcHead k with
  | none => s.finish
  | some (i, t) => if ops (svcOf t.bytes).op then (s.serveSvc d i t).finish else s.finish

/-! ## Migration (R62 to R67) -/

/-- Every core of the die forgets the translations and code of one page (R61, R62). -/
def Die.forgetPage (d : Die) (pn va : Nat) : Die :=
  { d with cores := d.cores.map fun (k, c) => (k, { c with
      tcache := c.tcache.filter fun t => !t.covers pn va
      icache := c.icache.filter fun l => l.pn != pn }) }

/-- The REMOTE leaf that names a die (R36). -/
def remoteLeaf (pkg die : Nat) : Nat := 2 * 2 ^ 60 + pkg % 65536 * 2 ^ 32 + die % 8 * 2 ^ 16

/-- The NORMAL leaf that a moved page gets: rights, SVC, OPEN and IL copied; MEPOCH is the receiver's (R62, R67). -/
def movedLeaf (old frame count : Nat) : Nat :=
  2 ^ 60 + frame + (bit old 15).toNat * 2 ^ 15 + count * 2 ^ 12 + (bit old 10).toNat * 2 ^ 10 + bits old 3 0

/-- The page's count of moves in this epoch: a MEPOCH of another epoch makes it zero (R66). -/
def Die.moveCount (d : Die) (e : Nat) : Nat := if bits e 59 52 = d.epoch8 then bits e 13 12 else 0

/-- The agent's decision of a MIGRATE (R62, R63, R66): a page in a move is BUSY whatever its entry says. A page is found by
bits 59:0 of VADDR (DESIGN CHOICE, log entry 86). -/
def State.decideMigrate (s : State) (d : Nat) (v : Svc) (prod : Producer) : State :=
  let reply := fun (s : State) (st result : Nat) => s.replySvc d v st result [] []
  let anchored := fun (s : State) => reply s St.anchored (s.die d).space.epoch.toNat
  let va := v.va % 2 ^ 60
  if (s.die d).port.inMove v.pn (va / 65536) then reply s St.busy 0
  else
    let (f, x) := (s.die d).translate v.pn va
    let s := s.modDie d fun _ => x
    match f with
    | .hole a => { s with hole := some a }
    | .none => anchored s
    | .malformed => anchored s
    | .leaf level e loc =>
      let away := leafType e == 2 || (leafType e == 3 && bits e 31 24 != x.epoch8)
      if away then reply s St.moved (bits e 47 32 * 2 ^ 32 + bits e 18 16 * 2 ^ 16)
      else if leafType e ≠ 1 ∨ level ≠ 4 ∨ prod.pkg ≠ s.pkg ∨ isDevice (leafFrame e) then anchored s
      else if x.pinned v.pn va then reply s St.busy 0
      else
        let count := x.moveCount e
        if count = 3 then anchored s
        else
          let (id, s) := s.newId
          let m : Move := ⟨id, v.pn, va / 65536, leafFrame e, BitVec.ofNat 64 e, count, prod.die,
            bits v.opnd1 51 16 * 65536, BitVec.ofNat 64 v.replyQ, v.rticket, v.tag, BitVec.ofNat 64 v.va, false, []⟩
          s.modDie d fun x =>
            ((x.putEntry loc (remoteLeaf s.pkg prod.die)).forgetPage v.pn va).modPort fun p => { p with moves := p.moves ++ [m] }

/-- MIGRATE at the agent, from queue `i` (R62, R141, R142): it keeps its producer's order. -/
def State.serveMigrate (s : State) (d i : Nat) (t : Ticket) : State :=
  let v := svcOf t.bytes
  let s := s.takeSvc d i t
  let reply := fun (st : Nat) => s.replySvc d v st 0 [] []
  if t.bad.any fun w => w < 16 then reply St.poison
  else if svcMalformed t.bytes ∨ (t.prod.pkg = s.pkg ∧ t.prod.die = d) then reply St.malformed
  else
    match (s.die d).domain v.pn with
    | none => reply St.rights
    | some own =>
      if ¬(t.dom = own ∨ t.dom = 0) then reply St.rights
      else if (s.die d).port.waitsFor t.prod then s.keepSvc d t none
      else s.decideMigrate d v t.prod

/-- The request of a move, for its reply. -/
def Move.svc (m : Move) : Svc := ⟨4, 0, 0, m.pn, m.tag, m.va.toNat, m.replyQ.toNat, m.rticket, 0, 0, []⟩

/-- The words of 4 KiB that read poisoned. -/
def badWordsOf (cells : List (Byte × Bool)) : List Nat :=
  (List.range (cells.length / 4)).filter fun k => (cells.getD (4 * k) (0, false)).2

/-- Send a moved page as 16 PAGE messages, read out in its lines' own slices; no L1 keeps a line of it (R73, R78). The entry
to install, the process and the page ride in ARG1 to ARG3. -/
def State.sendPage (s : State) (d : Nat) (m : Move) : State :=
  let t := leafAttr m.leaf.toNat
  let s := s.modDie d fun x => ((x.fetchLines t m.frame 65536).l1DropRange m.frame 65536).modPort fun p =>
    { p with moves := modWhere (fun v => v.id == m.id) (fun v => { v with sent := true }) p.moves }
  (List.range 16).foldl (fun s i =>
    let cells := (List.range 4096).map fun o => (s.die d).byteAt t (m.frame + 4096 * i + o)
    s.request d (.page m.id) { requestMsg Kind.page (qid s.pkg m.toDie 0 0).toNat 0 (3 * 2 ^ 22) m.pn with
      arg0 := BitVec.ofNat 64 (m.toFrame + 4096 * i), arg1 := BitVec.ofNat 64 (movedLeaf m.leaf.toNat m.toFrame (m.count + 1)),
      arg2 := BitVec.ofNat 64 m.pn, arg3 := BitVec.ofNat 64 (m.vpn * 65536)
      bytes := cells.map (·.1), mlen := 4096, bad := badWordsOf cells }) s

/-- The address of the level-four entry of a page, if the tables above it are there. -/
def Die.entryFrom (d : Die) (fuel level table va : Nat) : Option Nat :=
  match fuel with
  | 0 => none
  | fuel + 1 =>
    let a := table + 8 * bits va (levelShift level + 10) (levelShift level)
    if d.unpopulated a 8 then none
    else if level = 4 then some a
    else
      let (e, bad) := d.look a 8
      if bad ∨ leafType e ≠ 7 then none else d.entryFrom fuel (level + 1) (bits e 51 14 * 16384) va

/-- The level-four entry of a process's page. -/
def Die.entryOf (d : Die) (pn va : Nat) : Option Nat :=
  match d.rootOf pn with
  | .error _ => none
  | .ok t => d.entryFrom 4 1 t va

/-- Write part of a moved page in the slices that its new entry selects; poison stays poison (R78, R398). -/
def Die.writePage (d : Die) (leaf a : Nat) (bytes : List Byte) (bad : List Nat) : Die :=
  (d.writeAt (leafAttr leaf) a bytes).poisonWordsAt (leafAttr leaf) a bad

/-- The last 4 KiB of a page are here: its NORMAL entry is installed (R62). -/
def Die.installPage (d : Die) (a : Arrival) (leaf : Nat) : Die :=
  let va := a.vpn * 65536
  let d := d.modPort fun p => { p with arrivals := p.arrivals.filter fun b => b != a }
  match d.entryOf a.pn va with
  | some loc => (d.putEntry loc (leaf + d.epoch8 * 2 ^ 52)).forgetPage a.pn va
  | none => d

/-- The outstanding MIGRATE that a PAGE belongs to (R133). -/
def State.arrivalOfPage (s : State) (d : Nat) (m : Msg) : Option Arrival :=
  let dest := m.arg0.toNat
  (s.die d).port.arrivals.find? fun a =>
    m.spkg == s.pkg && a.home == m.sdie && a.frame ≤ dest && dest < a.frame + 65536 && dest % 4096 == 0

/-- Bytes of a PAGE go at once into their final place, the destination frame (R129, R133). -/
def State.placePage (s : State) (d : Nat) (m : Msg) (off : Nat) (bytes : List Byte) (bad : List Nat) : State :=
  match s.arrivalOfPage d m with
  | none => s
  | some _ => s.modDie d fun x => x.writePage m.arg1.toNat (m.arg0.toNat + off) bytes bad

/-- PAGE at its destination (R133): one without an outstanding MIGRATE is discarded. -/
def State.takePage (s : State) (d : Nat) (m : Msg) : State :=
  match s.arrivalOfPage d m with
  | none => s
  | some a =>
    let a' := { a with got := distinct (a.got ++ [(m.arg0.toNat - a.frame) / 4096]) }
    let s := (s.placePage d m 0 m.bytes m.bad).modDie d fun x => x.modPort fun p =>
      { p with arrivals := p.arrivals.map fun b => if b = a then a' else b }
    let s := if a'.got.length = 16 then s.modDie d fun x => x.installPage a' m.arg1.toNat else s
    s.answer d m Kind.pageack St.ok id

/-- PAGEACK at the home: after the 16th the agent answers OK and the move ends (R142). -/
def State.takePageack (s : State) (d : Nat) (m : Msg) : State :=
  match (s.die d).port.requestOf m with
  | none => s
  | some r =>
    match r.asker with
    | .page id =>
      let s := (s.endRequest d r).modDie d fun x => x.modPort fun p =>
        { p with moves := modWhere (fun v => v.id == id) (fun v => { v with acks := v.acks ++ [m.mseq] }) p.moves }
      match (s.die d).port.moves.find? fun v => v.id == id with
      | some v =>
        if v.acks.length = 16 then
          (s.replySvc d v.svc St.ok 0 [] []).modDie d fun x => x.modPort fun p =>
            { p with moves := p.moves.filter fun w => w.id != id }
        else s
      | none => s
    | _ => s

/-! ## The steps -/

/-- MEMSVC_READ (R141); it also answers an element whose OP is not listed. -/
def execMemsvcRead (d k : Nat) (s : State) : Host.Outcome State Fault Refusal := s.svcStep d k fun o => o == 1 || o == 0 || 4 < o
/-- MEMSVC_WRITE (R141). -/
def execMemsvcWrite (d k : Nat) (s : State) : Host.Outcome State Fault Refusal := s.svcStep d k (· == 2)
/-- MEMSVC_ATOM (R141). -/
def execMemsvcAtom (d k : Nat) (s : State) : Host.Outcome State Fault Refusal := s.svcStep d k (· == 3)

/-- MIGRATE (R62). -/
def execMigrate (d k : Nat) (s : State) : Host.Outcome State Fault Refusal :=
  match (s.die d).svcHead k with
  | none => s.finish
  | some (i, t) => if (svcOf t.bytes).op = 4 then (s.serveMigrate d i t).finish else s.finish

/-- MIGRATE_PAGE_SEND (R62): every access made under the old entry has been performed, since accesses are performed
whole. -/
def execMigratePageSend (d k : Nat) (s : State) : Host.Outcome State Fault Refusal :=
  match (s.die d).port.moves.find? fun m => m.id == k && !m.sent with
  | some m => (s.sendPage d m).finish
  | none => s.finish

/-- MOVE_END_RESUME (R63, R141): a request whose page is no longer in a move, and whose producer has none waiting before it,
is performed; a MIGRATE is decided. -/
def execMoveEndResume (d k : Nat) (s : State) : Host.Outcome State Fault Refusal :=
  let p := (s.die d).port
  match p.waiting.find? fun w => w.id == k with
  | none => s.finish
  | some w =>
    let v := svcOf w.bytes
    let first := p.waiting.find? fun x => x.prod == w.prod
    if (v.op ≠ 4 ∧ p.inMove v.pn (v.va / 65536)) ∨ first ≠ some w then s.finish
    else
      let s := s.modDie d fun x => x.modPort fun p => { p with waiting := p.waiting.filter fun x => x.id != k }
      (if v.op = 4 then s.decideMigrate d v w.prod else s.performSvc d v w.dom w.prod w.reg w.bad).finish

/-- PAGE (R133). -/
def execPage (d k : Nat) (s : State) : Host.Outcome State Fault Refusal := s.takeMsg d k Kind.page fun s m => s.takePage d m
/-- PAGEACK (R142). -/
def execPageack (d k : Nat) (s : State) : Host.Outcome State Fault Refusal :=
  s.takeMsg d k Kind.pageack fun s m => s.takePageack d m

end Sys2Proof.Machine
end

