-- ==== Sys2Proof/Machine/Commands.lean ====
section
/-! DEFINITION. The queue-port commands (R110 to R114, R125, R143, R144, R146). -/

namespace Sys2Proof.Machine

/-- The command in progress, when the die is up and the command has this OP (R113). -/
def Die.command (d : Die) (op : Nat) : Option DWord :=
  if d.phase ≠ .up ∨ d.stopped.isSome then none else (d.port.cmds.head?.map PortCmd.word).filter fun c => cmdOp c == op

/-- The command in progress completes. A command of the management core is answered with QCMDST (R423). -/
def State.endCommand (s : State) (d status result : Nat) : State :=
  let back := (s.die d).port.cmds.head?.bind PortCmd.back
  let s := s.modDie d fun x => x.modPort (·.endCmd status result)
  match back with
  | some r => s.replyVia d r status (toBytes 8 (result % 2 ^ 16 * 256 + status))
  | none => s

/-- The bytes of the parameter block that QARG names: the number they make and whether any is poisoned (R110, R112). A
block outside the die's memory is an access that R40 gives no effect. -/
def State.argBlock (s : State) (d : Nat) : (Nat × Bool) × State :=
  match (s.die d).port.cmds.head?.bind PortCmd.block with
  | some b => ((ofBytes b, false), s)
  | none =>
  let a := (s.die d).port.qarg.toNat
  if isDevice a then ((s.die d).look a 64, s)
  else if (s.die d).memTop < a + 64 then ((0, true), { s with hole := some a })
  else
    let (x, die) := (s.die d).fetchAt .engine a 64
    (x, s.modDie d fun _ => die)

/-! ## CREATE (R110, R111) -/

/-- The queue that a descriptor of 64 bytes describes at an index. -/
def queueOf (x index gen : Nat) : Queue where
  index := index
  gen := gen
  ckind := bits x 63 61
  esize := bits x 60 57
  slots := bits x 56 40
  maxres := bits x 39 33
  prio := bits x 32 31
  life := bits x 30 17
  dom := BitVec.ofNat 32 (bits x 127 96)
  ownEnq := bit x 95
  ownDeq := bit x 94
  anyEnq := bit x 93
  anyDeq := bit x 92
  spillBase := bits x 179 140 * 4096
  spillCap := bits x 223 192
  next := 0
  tickets := []
  waiters := []
  served := none

/-- The fields are in range and no reserved bit is set. -/
def descriptorOk (x index : Nat) : Bool :=
  let q := queueOf x index 0
  16 ≤ index && q.ckind ≤ 4 && 4 ≤ q.esize && q.esize ≤ 12 && 2 ≤ q.slots && q.slots ≤ 65536 && 1 ≤ q.maxres && q.maxres ≤ 64
    && 10 ≤ q.life && q.life ≤ 10000 && bits x 16 0 == 0 && bits x 91 64 == 0 && bits x 191 180 == 0 && bits x 139 128 == 0
    && bits x 255 224 == 0 && bits x 511 256 == 0

/-- Bytes of window SRAM at a port (R106: 3,616 KiB in use by the device queues and 12,768 KiB for the others). -/
def windowSram : Nat := 16384 * 1024

/-- Bytes of window SRAM that a queue takes. -/
def Queue.windowBytes (q : Queue) : Nat := q.slots * 2 ^ q.esize

/-- Bytes of a queue's spill ring. -/
def Queue.spillBytes (q : Queue) : Nat := q.spillCap * 2 ^ q.esize

/-- Two spill rings overlap. -/
def Queue.spillMeets (a b : Queue) : Bool :=
  a.spillBase < b.spillBase + b.spillBytes && b.spillBase < a.spillBase + a.spillBytes && a.spillBytes != 0 && b.spillBytes != 0

/-- The ring lies in the queue-spill region. -/
def Die.spillInside (d : Die) (q : Queue) : Bool :=
  q.spillBytes == 0 || (d.spillBase ≤ q.spillBase && q.spillBase + q.spillBytes ≤ d.stagingBase)

/-- The status of CREATE. -/
def Die.createStatus (d : Die) (x index : Nat) : Nat :=
  let q := queueOf x index 0
  let used := (d.port.queues.map Queue.windowBytes).sum
  if !descriptorOk x index then St.malformed
  else if (d.queue? index).isSome then St.busy
  else if windowSram < used + q.windowBytes then St.nospace
  else if !d.spillInside q then St.malformed
  else if d.port.queues.any q.spillMeets then St.overlap
  else St.ok

/-- CREATE. -/
def State.create (s : State) (d index : Nat) : State :=
  let ((x, bad), s) := s.argBlock d
  let st := if bad then St.malformed else (s.die d).createStatus x index
  let s := if st ≠ St.ok then s else
    s.modDie d fun y => y.modPort fun p =>
      let gen := (tgetD p.lastGen index 0 + 1) % 8192
      { p with queues := p.queues ++ [queueOf x index gen], lastGen := tput p.lastGen index gen }
  s.endCommand d st 0

/-! ## DESTROY (R125) -/

/-- The mark of a queue that ends: no request names a GEN above 8,191. -/
def endingGen : Nat := 8192

/-- The OPEN connection that serves a queue of die d. -/
def State.servedBy (s : State) (d : Nat) (q : Queue) : Option Conn :=
  s.host.conns.find? fun c => c.state == 0 && d == 0 && c.outq == qid s.pkg 0 q.index q.gen

/-- The queue ends: what has not begun to be delivered is discarded, and every waiter is woken with NOQUEUE. -/
def State.endQueue (s : State) (d : Nat) (q : Queue) : State :=
  let keep := fun (t : Ticket) => t.st == .taken && !t.delivered && (q.ckind != 4 || (s.servedBy d q).isSome)
  let s := s.modDie d fun x => x.modQueue q.index fun q =>
    { q with gen := endingGen, tickets := q.tickets.filter keep, waiters := [] }
  q.waiters.foldl (fun s w =>
    let m := requestMsg Kind.deq (qid w.pkg w.die 0 0).toNat 0 w.pid 0
    s.stat d { m with spkg := w.pkg, sdie := w.die, mseq := w.mseq, qidx := q.index, qgen := q.gen } St.noqueue) s

/-- The queue's window and spill ring are freed once the deliveries already begun have ended. -/
def State.removeQueue (s : State) (d index : Nat) : State :=
  match (s.die d).queue? index with
  | none => s
  | some q =>
    if q.tickets.any fun t => t.st == .taken && !t.delivered then s
    else (s.modDie d fun x => x.modPort fun p => { p with queues := p.queues.filter fun q => q.index != index }).endCommand d St.ok 0

/-- DESTROY. -/
def State.destroy (s : State) (d index : Nat) : State :=
  if index < 16 then s.endCommand d St.malformed 0
  else
    match (s.die d).queue? index with
    | none => s.endCommand d St.noqueue 0
    | some q => (if q.gen = endingGen then s else s.endQueue d q).removeQueue d index

/-! ## NAMEINV (R113) -/

/-- NAMEINV: an operation is sent at once with the translation it used, so the command completes here. A poisoned block
drops every result. -/
def State.nameinv (s : State) (d : Nat) : State :=
  let ((x, bad), s) := s.argBlock d
  let hit := fun (n : NameEntry) => bad || (n.pn == bits x 11 0 && (bit x 64 || n.vqn == bits x 63 32))
  (s.modDie d fun y => y.modPort fun p => { p with names := p.names.filter fun n => !hit n }).endCommand d St.ok 0

/-! ## REGISTER and REVOKE (R143, R144) -/

/-- The registration that a record of 64 bytes describes. -/
def registrationOf (x index : Nat) : Registration where
  index := index
  state := 1
  pn := bits x 11 0
  dom := BitVec.ofNat 32 (bits x 63 32)
  base := bits x 127 64
  len := bits x 191 128
  rights := bits x 194 192
  admitted := 0

/-- The record is well formed (R114). -/
def registrationOk (x : Nat) : Bool :=
  bits x 31 12 == 0 && bits x 127 64 % 64 == 0 && bits x 191 128 != 0 && bits x 191 128 % 64 == 0 && bits x 511 195 == 0

/-- Registrations of a port. -/
def registrationLimit : Nat := 4096

/-- The lowest FREE index. -/
def Port.freeRegistration (p : Port) : Option Nat :=
  (List.range registrationLimit).find? fun i => !p.registrations.any fun r => r.index == i

/-- REGISTER. -/
def State.register (s : State) (d : Nat) : State :=
  let ((x, bad), s) := s.argBlock d
  if bad ∨ !registrationOk x then s.endCommand d St.malformed 0
  else
    match (s.die d).port.freeRegistration with
    | none => s.endCommand d St.nospace 0
    | some i =>
      (s.modDie d fun y => y.modPort fun p => { p with registrations := p.registrations ++ [registrationOf x i] }).endCommand d
        St.ok i

/-- The admitted requests of a registration that wait on a page move complete with REVOKED. -/
def State.revokeWaiting (s : State) (d index : Nat) : State :=
  let mine := fun (w : WaitingSvc) => w.reg == some index
  let gone := (s.die d).port.waiting.filter mine
  let s := s.modDie d fun x => x.modPort fun p => { p with waiting := p.waiting.filter fun w => !mine w }
  gone.foldl (fun s w => s.endSvc d (svcOf w.bytes) w.reg St.revoked 0 [] []) s

/-- REVOKE. -/
def State.revoke (s : State) (d index : Nat) : State :=
  match (s.die d).port.registrations.find? fun r => r.index == index with
  | none => s.endCommand d St.malformed 0
  | some r =>
    if r.state ≠ 1 then s.endCommand d St.ok 0
    else
      let s := s.modDie d fun x => x.modPort fun p =>
        { p with registrations := modWhere (fun r => r.index == index) (fun r => { r with state := 2 }) p.registrations }
      let s := (s.revokeWaiting d index).modDie d fun x => x.freeRevoked index
      s.endCommand d St.ok 0

/-! ## CONNECT and CLOSE (R146, R113, R114) -/

/-- The connection that a block of 64 bytes describes. -/
def connOf (x index : Nat) : Conn where
  index := index
  state := 0
  peer := BitVec.ofNat 128 (bits x 127 0)
  pport := BitVec.ofNat 16 (bits x 143 128)
  lport := BitVec.ofNat 16 (bits x 159 144)
  dom := BitVec.ofNat 32 (bits x 191 160)
  inq := BitVec.ofNat 64 (bits x 255 192)
  outq := BitVec.ofNat 64 (bits x 319 256)
  sndUna := 0
  sndNxt := 0
  rcvNxt := 0
  cwnd := 65536
  srtt := none
  rto := 1000 * usec
  timeouts := 0
  halvedAt := none
  rwin := 0
  unacked := []
  ackDue := 0
  ece := false
  data := none

/-- Connections OPEN or in ERROR at most. -/
def connLimit : Nat := 1024

/-- The block is malformed whatever the queues are. -/
def State.connMalformed (s : State) (x : Nat) (c : Conn) : Bool :=
  bits x 511 320 != 0 || bits c.inq.toNat 15 0 != 0 || bits c.outq.toNat 15 0 != 0 || bits c.inq.toNat 63 48 != s.pkg
    || bits c.outq.toNat 63 48 != s.pkg || bits c.outq.toNat 47 45 != 0 || c.pport == 0 || c.lport == 0
    || c.lport == s.host.mgmtPort

/-- The status of CONNECT, in the order of R114. -/
def State.connectStatus (s : State) (x : Nat) (c : Conn) : Nat :=
  let i := s.queueOfQid c.inq
  let o := s.queueOfQid c.outq
  let differ := match i, o with
    | some a, some b => a.esize != b.esize
    | _, _ => false
  if s.connMalformed x c || (o.any fun q => q.ckind != 4) || differ then St.malformed
  else if i.isNone || o.isNone then St.noqueue
  else if s.host.conns.any fun k => k.state != 1 && k.outq == c.outq then St.busy
  else if connLimit ≤ (s.host.conns.filter fun k => k.state != 1).length then St.nospace
  else St.ok

/-- The lowest index that is CLOSED or has never been used. -/
def HostPort.freeConn (h : HostPort) : Nat :=
  ((List.range connLimit).find? fun i => !h.conns.any fun c => c.index == i && c.state != 1).getD 0

/-- CONNECT: die 0 only. -/
def State.connect (s : State) (d : Nat) : State :=
  if d ≠ 0 then s.endCommand d St.malformed 0
  else
    let ((x, bad), s) := s.argBlock d
    let i := s.host.freeConn
    let c := connOf x i
    let st := if bad then St.malformed else s.connectStatus x c
    if st ≠ St.ok then s.endCommand d st 0
    else { s with host := { s.host with conns := (s.host.conns.filter fun (k : Conn) => k.index != i) ++ [c] } }.endCommand d St.ok i

/-- Elements that were sent on a connection that ends keep no capacity of its outbound queue. -/
def State.dropUnacked (s : State) (c : Conn) : State :=
  c.unacked.foldl (fun s u => s.modDie 0 fun x => x.modQueue (bits c.outq.toNat 44 29) fun q =>
    if q.gen = bits c.outq.toNat 28 16 then q.modTicket u.ticket fun t => { t with delivered := true } else q) s

/-- CLOSE. -/
def State.close (s : State) (d index : Nat) : State :=
  match (s.host.conns.find? fun c => c.index == index).filter fun _ => d == 0 with
  | none => s.endCommand d St.malformed 0
  | some c =>
    if c.state = 1 then s.endCommand d St.ok 0
    else ((s.dropUnacked c).modConn index fun c => { c with state := 1, unacked := [], ackDue := 0 }).endCommand d St.ok 0

/-! ## The steps -/

/-- A command's step: it runs when the command in progress has this OP and index. -/
def State.commandStep (s : State) (d op : Nat) (index : Option Nat) (f : State → State) : Host.Outcome State Fault Refusal :=
  match (s.die d).command op with
  | none => s.finish
  | some c => if index.all fun i => cmdIndex c == i then (f s).finish else s.finish

/-- CREATE (R111). -/
def execCreate (d index : Nat) (s : State) : Host.Outcome State Fault Refusal :=
  s.commandStep d 1 (some index) fun s => s.create d index
/-- DESTROY (R125). -/
def execDestroy (d index : Nat) (s : State) : Host.Outcome State Fault Refusal :=
  s.commandStep d 2 (some index) fun s => s.destroy d index
/-- NAMEINV (R113). -/
def execNameinv (d : Nat) (s : State) : Host.Outcome State Fault Refusal := s.commandStep d 3 none fun s => s.nameinv d
/-- REGISTER (R143). -/
def execRegister (d : Nat) (s : State) : Host.Outcome State Fault Refusal := s.commandStep d 4 none fun s => s.register d
/-- REVOKE (R144). -/
def execRevoke (d index : Nat) (s : State) : Host.Outcome State Fault Refusal :=
  s.commandStep d 5 (some index) fun s => s.revoke d index
/-- CONNECT (R146). -/
def execConnect (d : Nat) (s : State) : Host.Outcome State Fault Refusal := s.commandStep d 6 none fun s => s.connect d
/-- CLOSE (R113). -/
def execClose (d index : Nat) (s : State) : Host.Outcome State Fault Refusal :=
  s.commandStep d 7 (some index) fun s => s.close d index

end Sys2Proof.Machine
end

