-- ==== Sys2Proof/Machine/Wire.lean ====
section
/-! DEFINITION. The links: frames, fragments and reassembly (R126 to R132, R424, R425), probes and the loss of a die
(R135), and the belay traffic of SAVE (R24, R128). -/

namespace Sys2Proof.Machine

/-! ## Reassembly (R129) -/

/-- A done record matches the message. Replies echo another port's MSEQ, so the records are of requests. -/
def Port.isDone (p : Port) (m : Msg) : Bool :=
  vcOf m.kind == 0 && p.doneRecs.any fun r => r.pkg == m.spkg && r.die == m.sdie && r.mseq == m.mseq

/-- The message has completed or has been answered. -/
def Port.done (p : Port) (m : Msg) (now : Nat) : Port :=
  if vcOf m.kind = 0 then { p with doneRecs := p.doneRecs ++ [⟨m.spkg, m.sdie, m.mseq, now⟩] } else p

/-- Two headers are of one message. -/
def Msg.same (a b : Msg) : Bool := a.spkg == b.spkg && a.sdie == b.sdie && a.mseq == b.mseq && vcOf a.kind == vcOf b.kind

/-- Two PUTs of one source name one ticket. -/
def Msg.sameTicket (a b : Msg) : Bool :=
  a.kind == Kind.put && b.kind == Kind.put && a.spkg == b.spkg && a.sdie == b.sdie && a.qidx == b.qidx && a.qgen == b.qgen
    && a.ticket == b.ticket && a.mseq != b.mseq

/-- Sequence number a is later than b (serial numbers of 32 bits). -/
def later32 (a b : Nat) : Bool := a != b && (a + 2 ^ 32 - b) % 2 ^ 32 < 2 ^ 31

/-- What rides beside a message, from its source in this package; a message of another package brings nothing, and its
process is free. -/
def State.withRiding (s : State) (m : Msg) : Msg × State :=
  if m.spkg ≠ s.pkg then let (n, s) := s.draw; ({ m with pn := (Config.enqueuePn n).toNat }, s)
  else
    let hit := fun (r : Msg) => r.kind == m.kind && r.dpkg == m.dpkg && r.ddie == m.ddie && r.mseq == m.mseq
    match (s.die m.sdie).port.riding.find? hit with
    | some r =>
      ({ m with bad := r.bad, pn := r.pn }, s.modDie m.sdie fun x => x.modPort fun p => { p with riding := p.riding.eraseP hit })
    | none => (m, s)

/-- A whole message reaches its port. -/
def State.wholeMessage (s : State) (d : Nat) (m : Msg) (bytes : List Byte) : State :=
  let (m, s) := s.withRiding m
  s.modDie d fun x => x.modPort fun p => { p.done m x.ps with inbox := p.inbox ++ [{ m with bytes := bytes.take m.mlen }] }

/-- What answers the first fragment of a PUT at once: the checks of R109, and the states of R116 in which the element
cannot commit, whose fragments are counted (R129). -/
def State.putRefused (s : State) (d : Nat) (m : Msg) : Option (Nat × Bool) :=
  if (s.die d).lostTo m then some (St.targetLost, false)
  else
    match (s.die d).checkQueue m.qidx m.qgen m.dom true with
    | .error st => some (st, false)
    | .ok q =>
      let waits := q.tickets.any fun t => t.num == m.ticket && t.st == .granted && t.prod == m.producer && (s.die d).ps < t.expiry
      let st := ((s.die d).commit q m.ticket m.producer false (s.outqInError d q) [] m.mlen [] m.dom m.mseq).1
      if waits && m.mlen == 2 ^ q.esize && !s.outqInError d q then none else some (st, q.discards m.ticket st)

/-- The fragments of a message that makes way are discarded. -/
def Port.dropPartial (p : Port) (sel : Reassembly → Bool) : Port :=
  ({ p with reassembly := p.reassembly.filter fun r => !sel r }).countStale ((p.reassembly.filter sel).map Reassembly.frags).sum

/-- The data flits of a message so far, with a fragment's. -/
def addFlits (got : Map (BitVec 512)) (fidx : Nat) (flits : List (BitVec 512)) : Map (BitVec 512) :=
  (List.range flits.length).foldl (fun m i => tput m (fidx + i) (flits.getD i 0)) got

/-- The bytes of gathered flits. -/
def flitBytes (got : Map (BitVec 512)) : List Byte := got.flatMap fun (_, w) => toBytes 64 w.toNat

/-! ## Belay traffic at the partner (R24, R40, R128, R133, R404) -/

/-- A retirement-table entry as its 16 bytes (R22). -/
def RetEntry.bytes (e : RetEntry) : List Byte :=
  toBytes 16 (e.seq * 2 ^ 96 + e.boots * 2 ^ 64 + e.cause * 2 ^ 16 + e.width * 2 ^ 12 + e.unit * 16 + e.kind)

/-- The entry of 16 bytes. -/
def retEntry (x : Nat) : RetEntry := ⟨bits x 127 96, bits x 95 64, bits x 23 16, bits x 15 12, bits x 11 4, bits x 3 0⟩

/-- The entries of a table's bytes. -/
def retEntries (bs : List Byte) : List RetEntry :=
  (List.range (bs.length / 16)).map fun i => retEntry (ofBytes ((bs.drop (16 * i)).take 16))

/-- The persistent tables as their mirror has them: Floor of each KIND, the incarnation and QSPILL in 32 bytes, then the
retirement table. DESIGN CHOICE: the spec gives no layout of the first three (log entry 10). -/
def RetTable.bytes (t : RetTable) : List Byte :=
  (List.range 3).flatMap (fun i => toBytes 4 (t.floors.getD i 0)) ++ toBytes 4 t.incarnation ++ toBytes 16 t.qspill
    ++ t.entries.flatMap RetEntry.bytes

/-- The persistent tables that bytes hold. -/
def retTable (bs : List Byte) (valid : Bool) : RetTable :=
  let f := fun (o n : Nat) => ofBytes ((bs.drop o).take n)
  ⟨retEntries (bs.drop 32), [f 0 4, f 4 4, f 8 4], f 12 4, f 16 16, valid⟩

/-- Part of the mirror is written; its signature verifies once the whole of it is there. -/
def Flash.putMirror (f : Flash) (off : Nat) (bs : List Byte) (whole : Bool) : Flash :=
  let old := f.mirror.bytes
  { f with mirror := retTable (old.take off ++ bs ++ if whole then [] else old.drop (off + bs.length)) whole }

/-- Bytes of a SAVE go at once into the place that it names (R129): the mirror, or the checkpoint area. Whether the receiver
is the sender's partner and the place is there. -/
def State.placeSave (s : State) (d : Nat) (m : Msg) (off : Nat) (bytes : List Byte) (whole : Bool) : Bool × State :=
  let x := s.die d
  let a := bits m.arg0.toNat 51 0
  if m.spkg ≠ s.pkg ∨ m.sdie ≠ belay d then (false, s)
  else if bit m.arg1.toNat 0 then
    (true, s.modDie d fun x => { x with flash := x.flash.putMirror (m.arg0.toNat + off) bytes whole })
  else if a < x.memTop - 2 * gib ∨ x.memTop < a + m.mlen then (false, s)
  else (true, s.modDie d fun x => x.engineWrite (a + off) bytes)

/-- What the SAVE under way at a die carries, when it is this message. -/
def Die.savedItem (d : Die) (m : Msg) : Option BelayItem :=
  if d.belayBusy && d.port.requests.any fun r => r.mseq == m.mseq && r.asker == .save && r.msg.arg0 == m.arg0 then
    d.belayQ.head?.map BelaySave.item
  else none

/-- SAVE at the belay partner. -/
def State.takeSave (s : State) (d : Nat) (m : Msg) : State :=
  let (there, s) := s.placeSave d m 0 m.bytes true
  if !there then s
  else
    let s := match (if bit m.arg1.toNat 0 then none else (s.die m.sdie).savedItem m) with
      | some i => s.modDie d fun x => x.keep i
      | none => s
    s.answer d m Kind.saveack St.ok id

/-- A fragment of a PAGE or a SAVE is written at once into its final place (R129); a PUT's place is its grant's. -/
def State.placeFragment (s : State) (d : Nat) (m : Msg) (f : Fragment) : State :=
  let k := flitFidx f.header
  let bytes := (f.flits.flatMap fun w => toBytes 64 w.toNat).take (m.mlen - 64 * k)
  let poisoned := if m.spkg ≠ s.pkg then [] else
    (((s.die m.sdie).port.riding.find? fun r => r.kind == m.kind && r.ddie == m.ddie && r.mseq == m.mseq).map Msg.bad).getD []
  if m.kind = Kind.page then
    s.placePage d m (64 * k) bytes ((poisoned.filter fun w => 16 * k ≤ w && w < 16 * k + bytes.length / 4).map (· - 16 * k))
  else if m.kind = Kind.save then (s.placeSave d m (64 * k) bytes false).2
  else s

/-- A fragment of a message of several fragments. -/
def State.partFragment (s : State) (d : Nat) (m : Msg) (f : Fragment) : State :=
  let p := (s.die d).port
  let refused := if m.kind = Kind.put ∧ !(p.reassembly.any fun r => r.msg.same m) then s.putRefused d m else none
  match refused with
  | some (st, counted) =>
    (s.modDie d fun x => x.modPort fun p => if counted then (p.done m x.ps).countStale 1 else p.done m x.ps).stat d m st
  | none =>
    let old := p.reassembly.find? fun r => r.msg.same m
    let got := addFlits ((old.map Reassembly.got).getD []) (flitFidx f.header) f.flits
    let r : Reassembly := ⟨m, got, (old.map Reassembly.frags).getD 0 + 1, (old.map Reassembly.first).getD (s.die d).ps⟩
    let s := (s.placeFragment d m f).modDie d fun x => x.modPort fun p =>
      { p with reassembly := p.reassembly.filter fun r => !r.msg.same m }
    if got.length = dataFlits m.mlen then s.wholeMessage d m (flitBytes got)
    else s.modDie d fun x => x.modPort fun p => { p with reassembly := p.reassembly ++ [r] }

/-- The fragment's place in its message is one that R126 and R129 allow. One that they do not allow is discarded and counted
in QERR.BAD (DESIGN CHOICE: no rule lists that case; log entry 94). -/
def fragmentOk (f : Fragment) : Bool :=
  let m := Msg.ofFlit f.header
  let n := dataFlits m.mlen
  let splits := [Kind.put, Kind.page, Kind.save].contains m.kind && 256 < m.mlen
  flitFidx f.header + flitFcnt f.header ≤ n && (splits || flitFcnt f.header == n) && (n == 0 || flitFcnt f.header != 0)

/-- A fragment reaches the port it is addressed to. -/
def State.takeFragment (s : State) (d : Nat) (f : Fragment) : State :=
  let m := Msg.ofFlit f.header
  let p := (s.die d).port
  if !headerOk f.header || !fragmentOk f then s.modDie d fun x => x.modPort fun p => { p with bad := count16 p.bad 1 }
  else if p.isDone m then s.modDie d fun x => x.modPort fun p => p.countStale 1
  else if p.reassembly.any fun r => r.msg.sameTicket m && later32 r.msg.mseq m.mseq then
    s.modDie d fun x => x.modPort fun p => p.countStale 1
  else
    let s := s.modDie d fun x => x.modPort fun p => p.dropPartial fun r => r.msg.sameTicket m
    if flitFcnt f.header = dataFlits m.mlen then s.wholeMessage d m (flitBytes (addFlits [] 0 f.flits)) else s.partFragment d m f

/-- A fragment comes in at a die: its own, or one to forward. A request of another package for a lost die is answered
here (R135); to another package the queues of a die at alarm level 2 are lost (R431). -/
def State.fragmentIn (s : State) (d : Nat) (f : Fragment) : State :=
  let m := Msg.ofFlit f.header
  if m.dpkg = s.pkg ∧ m.ddie = d then s.takeFragment d f
  else if m.dpkg = s.pkg ∧ m.spkg ≠ s.pkg ∧ ((s.die d).port.holdsLost m.dpkg m.ddie ∨ 2 ≤ (s.die m.ddie).alarm) then
    if vcOf m.kind = 0 then
      s.transmit d { m with kind := Kind.stat, dpkg := m.spkg, ddie := m.sdie, spkg := m.dpkg, sdie := m.ddie,
                            inc := (s.die d).port.knows m.dpkg m.ddie, status := St.targetLost, arg0 := 0, arg1 := 0, arg2 := 0,
                            arg3 := 0, mlen := 0 }
    else s
  else s.forward d f

/-! ## Frames (R424, R425) -/

/-- The link's end may carry frames: it is up and no width change is under way (R407). -/
def Link.carries (l : Link) : Bool := l.width != 0 && l.changing.isNone

/-- A ridge port carries no queue traffic from alarm level 2 on (R431). -/
def Die.ridgeOpen (d : Die) : Bool := d.alarm < 2

/-- A frame whose CRC fails: after four in a row the receiver gives its alignment up. -/
def Link.badFrame (l : Link) : Link :=
  if !l.aligned then { l with nak := true, good := 0 }
  else if 3 ≤ l.crcFails then { l with nak := true, crcFails := 0, aligned := false, good := 0 }
  else { l with nak := true, crcFails := l.crcFails + 1 }

/-- The receiver's end takes a frame: the fragments that it completes. -/
def Link.take (l : Link) (f : Frame424) (now : Nat) : List Fragment × Link :=
  if !l.aligned then ([], { l with nak := true, good := l.good + 1 })
  else if f.frame.fseq ≠ (l.rxSeq + 1) % 4096 then ([], { l with nak := true, crcFails := 0 })
  else
    let l := (l.acked f).collectAll f.frame.flits
    (l.1, { l.2 with rxSeq := f.frame.fseq, crcFails := 0, heard := if f.frame.flits.isEmpty then l.2.heard else now })

/-- One frame time at a receiver: a frame, or none that passes its CRC. -/
def State.frameIn (s : State) (d code : Nat) (f : Option Frame424) : State :=
  match (s.die d).link? code, f with
  | none, _ => s
  | some _, none => s.modDie d fun x => x.modLink code Link.badFrame
  | some l, some f =>
    let (fs, l) := l.take f (s.die d).ps
    fs.foldl (fun s f => s.fragmentIn d f) (s.modDie d fun x => x.modLink code fun _ => l)

/-- The frame that a link's end puts on the wire in this frame time; a ridge port's is kept as its 272 bytes. -/
def State.frameOut (s : State) (d code : Nat) : Option Frame424 × State :=
  match ((s.die d).link? code).bind fun l => l.send (s.die d).ps with
  | some (f, l) => (some f, s.modDie d fun x => x.modLink code fun _ => if code < 10 then l else { l with wire := f.bytes })
  | none => (none, s)

/-- LINK_FRAME (R425): one frame time at a receiver. On a ridge port the outside peer takes this port's own frame in the
same time. -/
def execLinkFrame (d link : Nat) (rx : LinkRx) (s : State) : Host.Outcome State Fault Refusal :=
  if !((s.die d).link? link).any Link.carries then s.finish
  else if link < 10 then
    let e := seamPeer d link
    if !s.mgmtSeam link ∨ !((s.die e).link? link).any Link.carries then s.finish
    else
      match rx, s.frameOut e link with
      | .fromPeer, (some f, s) => (s.frameIn d link (some f)).finish
      | .corrupted, (some _, s) => (s.frameIn d link none).finish
      | _, _ => s.finish
  else if (s.die d).phase ≠ .up ∨ !(s.die d).ridgeOpen then s.finish
  else
    match rx with
    | .fromPeer => s.finish
    | .corrupted => ((s.frameOut d link).2.frameIn d link none).finish
    | .outside bs => ((s.frameOut d link).2.frameIn d link (readFrame bs)).finish

/-- LINK_REPLAY_TIMEOUT (R425): the frames after ACKSEQ are sent again. -/
def execLinkReplayTimeout (d link : Nat) (s : State) : Host.Outcome State Fault Refusal :=
  (s.modDie d fun x => x.modLink link fun l => if l.resend.isEmpty then { l with resend := l.replay } else l).finish

/-- FRAME_ALIGNMENT_FOUND (R424): a receiver that is searching takes frames again, once 8 in a row have passed their CRC. -/
def execFrameAlignmentFound (d link offset : Nat) (s : State) : Host.Outcome State Fault Refusal :=
  (s.modDie d fun x => x.modLink link fun l =>
    if l.aligned || l.good < 8 then l else { l with aligned := true, offset := offset % 34, crcFails := 0, good := 0 }).finish

/-! ## Lapses (R129) -/

/-- INCOMPLETE_MESSAGE_DISCARD (R129): 50 µs after its first fragment, RETRY goes to the source. -/
def execIncompleteMessageDiscard (d k : Nat) (s : State) : Host.Outcome State Fault Refusal :=
  match (s.die d).port.reassembly[k]? with
  | none => s.finish
  | some r =>
    if (s.die d).ps < r.first + 50 * usec then s.finish
    else
      let s := s.modDie d fun x => x.modPort fun p =>
        { (p.dropPartial fun y => y.msg.same r.msg).done r.msg x.ps with incomplete := count16 p.incomplete 1 }
      (s.answer d r.msg Kind.retry St.retry id).finish

/-- DONE_RECORD_EXPIRY (R129): after 10 ms. -/
def execDoneRecordExpiry (d k : Nat) (s : State) : Host.Outcome State Fault Refusal :=
  match (s.die d).port.doneRecs[k]? with
  | none => s.finish
  | some r =>
    if (s.die d).ps < r.at_ + 10000 * usec then s.finish
    else (s.modDie d fun x => x.modPort fun p => { p with doneRecs := p.doneRecs.eraseIdx k }).finish

/-- TRANSIT_SPILL_DISCARD (R129): a fragment held for 5 ms. -/
def execTransitSpillDiscard (d k : Nat) (s : State) : Host.Outcome State Fault Refusal :=
  match (s.die d).port.transit[k]? with
  | none => s.finish
  | some (_, t) =>
    if (s.die d).ps < t + 5000 * usec then s.finish
    else (s.modDie d fun x => x.modPort fun p => { p.countStale 1 with transit := p.transit.eraseIdx k }).finish

/-! ## Liveness (R135) -/

/-- PROBE_SEND (R135): a seam without traffic for 100 µs. -/
def execProbeSend (d link : Nat) (s : State) : Host.Outcome State Fault Refusal :=
  match (s.die d).link? link with
  | none => s.finish
  | some l =>
    if 10 ≤ link ∨ !s.seamUp link ∨ !l.txq.isEmpty ∨ (s.die d).ps < l.sent + 100 * usec then s.finish
    else
      let peer := seamPeer d link
      (s.sendNew d { requestMsg Kind.probe (qid s.pkg peer 0 0).toNat 0 0 0 with inc := (s.die d).incarnation }).2.finish

/-- A seam of die `lost` has been silent at its other end for 1 ms, or carries nothing. -/
def State.seamSilent (s : State) (lost code : Nat) : Bool :=
  let e := seamPeer lost code
  let x := s.die e
  x.phase != .up || match x.link? code with
    | some l => l.width == 0 || l.heard + 1000 * usec ≤ x.ps
    | none => true

/-- A die is declared lost by a neighbour: every port is told, and the routes avoid it (R130, R135). -/
def State.announceLost (s : State) (d lost : Nat) : State :=
  let inc := (s.die d).port.knows s.pkg lost
  ((s.declareLost d lost inc).broadcast d Kind.lostdie lost inc).reroute (seamsOf lost)

/-- DIE_LOST (R135): no flit has come from the die over any seam for 1 ms. -/
def execDieLost (d lost : Nat) (s : State) : Host.Outcome State Fault Refusal :=
  if (s.die d).phase = .up ∧ d ≠ lost ∧ lost < 8 ∧ (seamBetween d lost).isSome ∧ !(s.die d).port.holdsLost s.pkg lost
      ∧ (seamsOf lost).all (s.seamSilent lost) then (s.announceLost d lost).finish
  else s.finish

/-- TARGET_LOST_TIMEOUT (R135): a request to another package has had no answer for 2 ms and the residence that the switch
states, at the least. -/
def execTargetLostTimeout (d pkg die : Nat) (s : State) : Host.Outcome State Fault Refusal :=
  let late := fun (r : Request) => r.pkg == pkg && r.die == die && r.at_ + 2000 * usec ≤ (s.die d).ps
  if pkg ≠ s.pkg ∧ (s.die d).port.requests.any late then (s.loseDie d pkg die).finish else s.finish

/-! ## Belay traffic (R24, R128, R133) -/

/-- SAVE (R128). -/
def execSave (d k : Nat) (s : State) : Host.Outcome State Fault Refusal := s.takeMsg d k Kind.save fun s m => s.takeSave d m

/-- MIRROR_REWRITE (R24, R429): the persistent tables go to their mirror on the belay partner, once the partner can be reached. At
most 242 entries (R21) go in one SAVE. -/
def execMirrorRewrite (d : Nat) (s : State) : Host.Outcome State Fault Refusal :=
  let x := s.die d
  let p := belay d
  if x.phase ≠ .up ∨ !x.flash.mirrorDue ∨ (s.die p).phase ≠ .up ∨ x.port.holdsLost s.pkg p then s.finish
  else
    let bs := x.flash.table.bytes
    let s := s.modDie d fun x => { x with flash := { x.flash with mirrorDue := false } }
    (s.request d .save { requestMsg Kind.save (qid s.pkg p 0 0).toNat 0 corePid 0 with
      arg1 := 1, bytes := bs, mlen := bs.length }).finish

end Sys2Proof.Machine
end

