-- ==== Sys2Proof/Machine/Hbm.lean ====
section
/-! DEFINITION. The memory controllers' own steps (R84, R88 to R97, R101, R102). -/

namespace Sys2Proof.Machine

/-! ## Checking a sector (R89) -/

/-- The stack of a die-local address (R19, R87). -/
def Die.stackOf (d : Die) (a : Nat) : Nat := (d.conf.channels.getD (d.channelOf a) (0, 0)).1

/-- Count a corrected sector of a stack. -/
def Die.countCorr (d : Die) (st : Nat) : Die :=
  { d with memctl := { d.memctl with corr := d.memctl.corr.modify st (· + 1) } }

/-- An uncorrectable sector: it becomes a poison sector, it is counted, and UNCORR names it. -/
def Die.uncorrectable (d : Die) (sec : Nat) : Die :=
  let a := 32 * sec
  let ch := d.channelOf a
  let d := d.poisonSector sec
  let m := d.memctl
  { d with memctl := { m with uncorr := m.uncorr.modify (d.stackOf a) (· + 1)
                              chUncorr := tput m.chUncorr ch (tgetD m.chUncorr ch 0 + 1) } }.sysEvent 0x0002 (toBytes 8 (a % 2 ^ 52))

/-- A miscorrected sector: its bytes are free values, and it counts as corrected. -/
def Die.miscorrected (d : Die) (sec n : Nat) : Die :=
  let a := 32 * sec
  { d with mem := memPut d.mem a 0xFFFFFFFF ((List.range 32).map fun i => Config.freeByte (32 * n + i)) }.countCorr (d.stackOf a)

/-- What a read of a sector with so many symbols in error does. Three or more may be miscorrected: a free choice. A poison
sector, a zero-pending one and one of an offline channel have nothing to check. -/
def State.checkSector (s : State) (d sec errors : Nat) : State :=
  let x := s.die d
  if errors = 0 ∨ x.sectorBad sec ∨ inRanges x.zpend sec ∨ x.memTop ≤ 32 * sec then s
  else if errors = 1 then s.modDie d fun x => x.countCorr (x.stackOf (32 * sec))
  else
    let (n, s) := s.draw
    if 3 ≤ errors && Config.freeMiscorrect n then s.modDie d fun x => x.miscorrected sec n
    else s.modDie d fun x => x.uncorrectable sec

/-! ## Requests (R91) -/

/-- A step of a die that is up. -/
def State.whenUp (s : State) (d : Nat) (f : State → State) : Host.Outcome State Fault Refusal :=
  if (s.die d).phase = .up then (f s).finish else s.finish

/-- HBM_READ (R89): the sector that holds the address is checked with so many of its symbols in error. -/
def execHbmRead (d addr badSymbols : Nat) (s : State) : Host.Outcome State Fault Refusal :=
  s.whenUp d fun s => s.checkSector d (addr / 32) badSymbols

/-- HBM_WRITE (R90, R91): one sector, by mask. -/
def execHbmWrite (d addr : Nat) (mask : BitVec 32) (data : BitVec 256) (s : State) : Host.Outcome State Fault Refusal :=
  s.whenUp d fun s =>
    if (s.die d).memTop ≤ addr then { s with hole := some addr }
    else s.modDie d fun x => x.writeSector (addr / 32) mask.toNat (toBytes 32 data.toNat)

/-- HBM_ZERO (R93): a frame becomes zero-pending. -/
def execHbmZero (d addr : Nat) (s : State) : Host.Outcome State Fault Refusal :=
  s.whenUp d fun s =>
    let a := addr - addr % 65536
    if (s.die d).memTop ≤ a then { s with hole := some a } else s.modDie d fun x => x.zeroFrame a 65536 none

/-- HBM_AREAD (R96): the expanded line goes to the slice that asked for it; reading the block changes nothing. -/
def execHbmAread (d frame _asub _afmt _blk : Nat) (s : State) : Host.Outcome State Fault Refusal :=
  s.whenUp d fun s => if (s.die d).memTop ≤ frame then { s with hole := some frame } else s

/-- HBM_AWRITE (R97). -/
def execHbmAwrite (d frame asub afmt blk : Nat) (mask : DWord) (data : BitVec 512) (s : State) :
    Host.Outcome State Fault Refusal :=
  s.whenUp d fun s =>
    if (s.die d).memTop ≤ frame then { s with hole := some frame } else s.modDie d fun x => x.awrite frame asub afmt blk mask data

/-! ## Zeroing (R93, R94) -/

/-- ZP_CLEAR (R93): the walk clears ZP of the entry once ZERO is accepted. -/
def execZpClear (d entry : Nat) (s : State) : Host.Outcome State Fault Refusal :=
  s.whenUp d fun s =>
    if (s.die d).memTop ≤ entry then { s with hole := some entry }
    else
      let e := ((s.die d).engineRead entry 8).1
      if bit e 11 ∧ (leafType e = 1 ∨ leafType e = 4 ∨ leafType e = 5 ∨ leafType e = 6) then
        s.modDie d fun x => x.engineWrite entry (toBytes 8 (e - 2 ^ 11))
      else s

/-- ZERO_BACKGROUND (R94): the pending sectors of one line are zeroed. -/
def execZeroBackground (d line : Nat) (s : State) : Host.Outcome State Fault Refusal :=
  s.whenUp d fun s => s.modDie d fun x => x.zeroLine line

/-! ## Patrol scrub (R101, R102) -/

/-- The logical channels of a stack, in ascending order. -/
def Die.channelsOfStack (d : Die) (st : Nat) : List Nat :=
  (List.range d.numChannels).filter fun k => (d.conf.channels.getD k (0, 0)).1 == st

/-- The die-local sector number of sector i of a stack. DESIGN CHOICE (log entry 92): the spec does not order the lines of
different channels; the model takes the stack's granules of 256 bytes in ascending address, 8 sectors each. -/
def Die.scrubSectorAt (d : Die) (st i : Nat) : Nat :=
  let chs := d.channelsOfStack st
  let g := i / 8
  (g / chs.length * d.numChannels + chs.getD (g % chs.length) 0) * 8 + i % 8

/-- The scrub of a stack goes on to its next sector; after the last one a pass has ended and the next begins. -/
def Die.scrubNext (d : Die) (st : Nat) : Die :=
  let m := d.memctl
  let n := m.scrubSector.getD st 0 + 1
  if n < 2 * d.stackLines st then { d with memctl := { m with scrubSector := m.scrubSector.set st n } }
  else
    { d with memctl := { m with scrubSector := m.scrubSector.set st 0
                                scrubPasses := m.scrubPasses.modify st fun p => min 0xFFFF (p + 1)
                                scrubStart := m.scrubStart.set st d.ps } }

/-- PATROL_SCRUB (R101): the next sector of a stack is checked; `badSymbols` of its symbols are in error. -/
def execPatrolScrub (d stack badSymbols : Nat) (s : State) : Host.Outcome State Fault Refusal :=
  let x := s.die d
  if x.phase ≠ .up ∨ 2 ≤ stack ∨ x.stackLines stack = 0 then s.finish
  else
    let s := s.checkSector d (x.scrubSectorAt stack (x.memctl.scrubSector.getD stack 0)) badSymbols
    (s.modDie d fun x => x.scrubNext stack).finish

/-! ## Bulk prefetch (R84, R299) -/

/-- The lines of a bulk prefetch. -/
def Prefetch.lines (p : Prefetch) : List Nat :=
  if p.len = 0 then [] else (List.range ((p.base + p.len - 1) / 64 + 1 - p.base / 64)).map fun i => 64 * (p.base / 64 + i)

/-- A bulk prefetch is performed whole. Its accesses are those of the process that issued it; no extent table of a node
that has ended is used, since the table rides with it. -/
def State.performPrefetch (s : State) (d core : Nat) (p : Prefetch) : State :=
  let s := p.lines.foldl (fun s va => s.prefetch d core p.pn p.ext va p.hint) s
  s.modDie d fun x =>
    let x := x.modCore core fun c => { c with prefetches := c.prefetches.filter fun y => y.id != p.id }
    let x := x.arriveOwed p.pn p.cc.toNat
    x.endOp core p.id

/-- BULK_PREFETCH (R84): the head of the core's prefetch engine queue. -/
def execBulkPrefetch (d core : Nat) (s : State) : Host.Outcome State Fault Refusal :=
  let c := (s.die d).core core
  match c.prefetchQ with
  | .op id :: _ =>
    match c.prefetches.find? fun p => p.id == id with
    | some p => (s.performPrefetch d core p).finish
    | none => s.finish
  | _ => s.finish

end Sys2Proof.Machine
end

