-- ==== Sys2Proof/Machine/Space.lean ====
section
/-! DEFINITION. Writes of device registers, invalidation of translations and the epoch (R41 to R43, R61, R74, R100). -/

namespace Sys2Proof.Machine

/-- REGISTER_WRITE (R41): an aligned write of 4 or 8 bytes by system software. -/
def execRegisterWrite (d addr size : Nat) (value : DWord) (s : State) : Host.Outcome State Fault Refusal :=
  s.whenUp d fun s =>
    if isDevice addr && (size == 4 || size == 8) && addr % size == 0 then
      s.modDie d fun x => x.writeReg false addr size (value.toNat % 2 ^ (8 * size))
    else s

/-! ## XINV (R61) -/

/-- Every core forgets the translations and the code of one process. -/
def Die.forgetProcess (d : Die) (pn : Nat) : Die :=
  { d with cores := d.cores.map fun (k, c) => (k, { c with
      tcache := c.tcache.filter fun t => t.pn != pn
      icache := c.icache.filter fun l => l.pn != pn }) }

/-- Every core forgets its translations and its code. -/
def Die.forgetAll (d : Die) : Die :=
  { d with cores := d.cores.map fun (k, c) => (k, { c with tcache := [], icache := [] }) }

/-- SCOPE, PN and VPN of a write of XINV. -/
def xinvScope (v : DWord) : Nat := bits v.toNat 63 62
/-- PN of a write of XINV. -/
def xinvPn (v : DWord) : Nat := bits v.toNat 59 48
/-- VPN of a write of XINV. -/
def xinvVpn (v : DWord) : Nat := bits v.toNat 43 0

/-- Drop what a write of XINV names. -/
def Die.invalidate (d : Die) (v : DWord) : Die :=
  match xinvScope v with
  | 0 => d.forgetPage (xinvPn v) (xinvVpn v * 65536)
  | 1 => d.forgetProcess (xinvPn v)
  | _ => d.forgetAll

/-- The invalidation in progress drops its entries, when it is the one named. -/
def State.xinvStep (s : State) (d : Nat) (is : DWord → Bool) : Host.Outcome State Fault Refusal :=
  s.whenUp d fun s => s.modDie d fun x =>
    match x.space.xinv with
    | some v => if is v then x.invalidate v else x
    | none => x

/-- XINV_PAGE (R61). -/
def execXinvPage (d pn vpn : Nat) (s : State) : Host.Outcome State Fault Refusal :=
  s.xinvStep d fun v => xinvScope v == 0 && xinvPn v == pn && xinvVpn v == vpn

/-- XINV_PROCESS (R61). -/
def execXinvProcess (d pn : Nat) (s : State) : Host.Outcome State Fault Refusal :=
  s.xinvStep d fun v => xinvScope v == 1 && xinvPn v == pn

/-- XINV_ALL (R61). -/
def execXinvAll (d : Nat) (s : State) : Host.Outcome State Fault Refusal := s.xinvStep d fun v => xinvScope v == 2

/-- A write of XINV names a page of a process. -/
def xinvCovers (v : DWord) (pn va : Nat) : Bool :=
  match xinvScope v with
  | 0 => xinvPn v == pn && xinvVpn v == va / 65536
  | 1 => xinvPn v == pn
  | _ => true

/-- The invalidation unmaps a SYNC page on which an arrival is still pending (R176). -/
def Die.unmapWaits (d : Die) (v : DWord) : Bool :=
  d.owing.any fun w => xinvCovers v w.pn w.va && cPend (d.object w.ref) != 0 && objectAt (d.walk w.pn w.va) w.va != some w.ref

/-- XINV_COMPLETE (R61): once no unmapped SYNC page has a pending arrival (R176), no cache of the die holds a matching entry,
BUSY clears, and a write that was held begins. Accesses are performed whole, so none that used an entry is under way. -/
def execXinvComplete (d : Nat) (s : State) : Host.Outcome State Fault Refusal :=
  s.whenUp d fun s => s.modDie d fun x =>
    match x.space.xinv with
    | some v =>
      if x.unmapWaits v then x
      else
        let x := x.invalidate v
        { x with space := { x.space with xinv := x.space.xinvHeld.head?, xinvHeld := x.space.xinvHeld.drop 1 } }
    | none => x

/-! ## The epoch (R43) -/

/-- INTERVAL has passed since the die's last boundary. -/
def Die.epochOver (d : Die) : Bool := d.epochPs + d.space.interval * usec ≤ d.ps

/-- A settle interval ends on a die: EPOCH rises, a pending INTERVAL takes effect, and the counters of the epoch clear
(R100, R410). -/
def Die.nextEpoch (d : Die) : Die :=
  { d with
    space := { d.space with epoch := d.space.epoch + 1
                            interval := d.space.pendingInterval.getD d.space.interval
                            pendingInterval := none }
    memctl := { d.memctl with hot := [] }
    clusters := d.clusters.map fun (k, c) => (k, { c with repeats := 0 })
    epochPs := d.ps }

/-- EPOCH_BOUNDARY (R43): on every live die of the package together. -/
def execEpochBoundary (s : State) : Host.Outcome State Fault Refusal :=
  let live := fun (x : Die) => x.phase == .up
  if (s.dies.filter live).all Die.epochOver then
    { s with dies := s.dies.map fun x => if live x then x.nextEpoch else x }.finish
  else s.finish

end Sys2Proof.Machine
end

