-- ==== Sys2Proof/Machine/Answers.lean ====
section
/-! DEFINITION. Carrying out the answers of system software to fault notices (R59, R343, R389, R437), and resuming warps
that parked on absent lines (R72). -/

namespace Sys2Proof.Machine

/-- A load that extends its sign (R288). -/
def Instr.signedLoad (i : Instr) : Bool :=
  match i with
  | .ldBI8 _ => true
  | .ldHI16 _ => true
  | _ => false

/-- The answer given to the word parked under a LOG value, once it can be carried out: the group is resident, and no
handler, save or ending gate call has stopped the warp (R382, R389). -/
def Die.answerDue (d : Die) (log code : Nat) : Option (Group × ParkedWord × List Byte) :=
  match d.parkedAt log with
  | none => none
  | some (g, w) =>
    match w.answer with
    | none => none
    | some (c, block) =>
      let there := w.threads.all fun t => (g.thread t).wait == some (.fault w.entry)
      if d.phase = .up ∧ c = code ∧ g.phase = .resident ∧ !g.stopped w.x.warp ∧ (g.trap.isNone ∨ !w.threads.isEmpty) ∧ there
      then some (g, w, block) else none

/-- The word leaves the operand log and its threads stand at it. -/
def State.unpark (s : State) (d gid : Nat) (w : ParkedWord) : State :=
  s.modGroup d gid fun g => ({ g.unwait w.threads with log := g.log.filter fun x => x.entry != w.entry }).pendClear w.x.dst

/-- The wait of the threads of a parked collective (R437). -/
def ParkedWord.gathering (w : ParkedWord) (x : Wait) : Bool :=
  match w.x.i with
  | .gate _ => x.isGate
  | _ => x.gathersObj

/-- Perform the parked word for some of its threads. -/
def State.runParked (s : State) (d gid : Nat) (w : ParkedWord) (ts : List Nat) : State :=
  match s.group? d gid with
  | none => s
  | some g =>
    match bodyOf w.x.i with
    | some body => if ts.isEmpty then s else body (w.x.again d g ts) s
    | none => s

/-- REPLAY of a parked word: it runs again from the operand log, checked afresh; a fetch is made again, and a collective
is gathered again. -/
def State.replayWord (s : State) (d gid : Nat) (w : ParkedWord) : State :=
  let s := s.unpark d gid w
  if w.threads.isEmpty then s.gather d gid else if w.fetch then s else s.runParked d gid w w.threads

/-! ## COMPLETE (R59, R389) -/

/-- The faulting threads of a parked word. -/
def ParkedWord.faulting (w : ParkedWord) : List Nat := w.threads.filter fun t => w.causes.any fun c => c.1 == t % 32

/-- The word writes one s-register, so one lane's access was its only one (R285). -/
def ParkedWord.uniform (w : ParkedWord) : Bool :=
  match w.x.i.fields.dst with
  | .s _ => true
  | _ => false

/-- Lane l's result in the block. -/
def resultAt (block : List Byte) (lane n : Nat) : List Byte := (block.drop (16 * lane)).take n

/-- The faulting lanes' part of the word is over: a load's or an ATOM's results come from the block. -/
def State.supply (s : State) (d gid : Nat) (w : ParkedWord) (block : List Byte) (ts : List Nat) : State :=
  match s.group? d gid with
  | none => s
  | some g =>
    let j := w.x.again d g ts
    match w.kind with
    | 0 =>
      let got := w.faulting.map fun t => (t, (resultAt block (t % 32) w.size).map fun b => (b, false))
      j.deliverLoads s w.size (Instr.signedLoad w.x.i) got
    | 2 =>
      let width := 8 * w.size
      j.pass (j.mod s fun g => j.x.lanes.foldl (fun g l =>
        let old := ofBytes (resultAt block (l.t % 32) w.size)
        j.atomicResult width l old (j.atomic width l old).isSome g) g)
    | _ => j.pass s

/-- COMPLETE of a parked word: the other lanes' accesses are performed. -/
def State.completeWord (s : State) (d gid : Nat) (w : ParkedWord) (block : List Byte) : State :=
  let s := s.unpark d gid w
  if w.uniform then s.supply d gid w block w.threads
  else
    let rest := w.threads.filter fun t => (w.x.lanes.any fun l => l.t == t) && !w.faulting.contains t
    (s.supply d gid w block (w.threads.filter fun t => !rest.contains t)).runParked d gid w rest

/-! ## DECLINE (R59, R437) -/

/-- The cause of a code of R388. -/
def codeCause (code : Nat) : Nat := if code = 1 then Cause.page else if code = 2 then Cause.remote else Cause.anchored

/-- DECLINE of a parked word: the cause of its lowest faulting lane is delivered. -/
def State.declineWord (s : State) (d gid : Nat) (w : ParkedWord) : State :=
  match leastBy (fun c => c.1) w.causes with
  | none => s.unpark d gid w
  | some (low, code) =>
    let addr := ((w.addrs.find? fun a => a.1 == low).map (·.2)).getD 0
    let s := s.unpark d gid w
    if w.threads.isEmpty then s.collective d gid (codeCause code) w.gathering addr
    else
      s.precise d gid (codeCause code) w.x.warp ((w.causes.filter fun c => c.2 == code).map (·.1)) (BitVec.ofNat 64 w.x.pc) addr
        w.x.len

/-! ## Rows (R343) -/

/-- The answer given to the row parked under a LOG value of a stream engine, unless its group is swapped out. -/
def Die.rowAnswer (d : Die) (log code : Nat) : Option (Nat × StreamLog × Copy) :=
  let core := bits log 13 7
  match (d.core core).slog.find? fun e => e.entry == log % 64 && e.answer == some code with
  | none => none
  | some e =>
    match (d.core core).copy? e.copy with
    | none => none
    | some c =>
      if d.phase = .up ∧ (d.group? c.gid).any fun g => g.phase == .resident || g.phase == .tracked then some (core, e, c) else none

/-- The row leaves the log. -/
def State.unparkRow (s : State) (d core : Nat) (e : StreamLog) : State :=
  s.modDie d fun x => (x.modCore core fun k => { k with slog := k.slog.filter fun y => y.entry != e.entry }).modCopy core e.copy
    fun c => { c with parked := c.parked.filter (· != e.row) }

/-- REPLAY of a row. -/
def State.replayRow (s : State) (d core : Nat) (e : StreamLog) : State :=
  let s := s.unparkRow d core e
  match ((s.die d).core core).copy? e.copy with
  | some c => (s.performRow d core c e.row).pump d core
  | none => s

/-- DECLINE of a row: it is unresolvable. -/
def State.declineRow (s : State) (d core : Nat) (e : StreamLog) : State :=
  let s := s.unparkRow d core e
  match ((s.die d).core core).copy? e.copy with
  | some c => (s.modDie d fun x => x.unresolvable core c e.row e.va).pump d core
  | none => s

/-! ## The steps -/

/-- Carry out an answer. -/
def State.answerStep (s : State) (d : Nat) (strm : Bool) (log code : Nat) (row : State → Nat → StreamLog → State)
    (word : State → Nat → ParkedWord → List Byte → State) : Host.Outcome State Fault Refusal :=
  if strm then
    match (s.die d).rowAnswer log code with
    | some (core, e, _) => (row s core e).finish
    | none => s.finish
  else
    match (s.die d).answerDue log code with
    | some (g, w, block) => (word s g.gid w block).finish
    | none => s.finish

/-- REPLAY (R59). -/
def execReplay (d : Nat) (strm : Bool) (log : Nat) (s : State) : Host.Outcome State Fault Refusal :=
  s.answerStep d strm log 1 (fun s core e => s.replayRow d core e) fun s gid w _ => s.replayWord d gid w

/-- COMPLETE (R59). The register that takes answers keeps it as DECLINE for a row, and for KIND 3 and 4. -/
def execComplete (d : Nat) (strm : Bool) (log : Nat) (s : State) : Host.Outcome State Fault Refusal :=
  s.answerStep d strm log 2 (fun s core e => s.declineRow d core e) fun s gid w block => s.completeWord d gid w block

/-- DECLINE (R59). -/
def execDecline (d : Nat) (strm : Bool) (log : Nat) (s : State) : Host.Outcome State Fault Refusal :=
  s.answerStep d strm log 3 (fun s core e => s.declineRow d core e) fun s gid w _ => s.declineWord d gid w

/-- PRESENCE_RESUME (R72): a warp parked on absent lines performs its word; the word parks again where a line that it
touches is still absent. -/
def execPresenceResume (d gid warp : Nat) (s : State) : Host.Outcome State Fault Refusal :=
  match s.group? d gid with
  | none => s.finish
  | some g =>
    if g.phase ≠ .resident ∨ g.dead ∨ g.stopped warp then s.finish
    else
      (s.performSel d gid fun w => match w with
        | .lines x _ _ => x.warp == warp
        | _ => false).finish

end Sys2Proof.Machine
end

