-- ==== Sys2Proof/Machine/Records.lean ====
section
/-! DEFINITION. From a task queue to the ready list: taking a record (R359 to R361), the Check, Cancel, Gate and Signal
stages (R175, R177, R180, R181, R185, R186), the Translate stage (R439, R51 to R53, R362, R363) and the conflict check
(R160 to R162). -/

namespace Sys2Proof.Machine

/-! ## Which record comes next (R359) -/

/-- Pairs in lexicographic order. -/
def earlier (a b : Nat × Nat) : Bool := a.1 < b.1 || (a.1 == b.1 && a.2 < b.2)

/-- The first element of least key. -/
def firstBy {α : Type} (key : α → Nat × Nat) (l : List α) : Option α :=
  l.foldl (fun best x => match best with
    | none => some x
    | some b => if earlier (key x) (key b) then some x else best) none

/-- Picoseconds in a millisecond. -/
def msec : Nat := 1000000000

/-- The effective class of something of class `cls` that has waited since `since` (R359). -/
def effClass (now cls since : Nat) : Nat := cls - (now - since) / msec

/-- The next record of each class that was put back, and the next one of each task queue that the port may serve in this clock,
with its queue and ticket; a record put back is ahead of every record of its class (R359, R376, R402). -/
def Die.heads (d : Die) : List (TaskRec × Option (Nat × Nat)) :=
  let back := (List.range 4).filterMap fun c => d.sched.again.find? fun r => r.cls == c
  let queued := (d.port.queues.filter fun q => q.isTask && q.ready d.clock).filterMap fun q =>
    q.eligible.head?.map fun t => (q.record t, some (q.index, t.num))
  back.map (fun r => (r, none)) ++ queued.filter fun h => !back.any fun r => r.cls == h.1.cls

/-- The record that the scheduler takes next. -/
def Die.headRecord (d : Die) : Option (TaskRec × Option (Nat × Nat)) :=
  firstBy (fun h => (effClass d.ps h.1.cls h.1.at_, h.1.at_)) d.heads

/-! ## The Check stage (R180, R181, R185, R186) -/

/-- A counter's address is 32-byte aligned with bits 63:60 zero (R179). -/
def counterField (x : Nat) : Bool := x % 32 == 0 && x < 2 ^ 60

/-- The group shape is in range with no reserved bit set (R179, R180). -/
def shapeOk (x : Nat) : Bool :=
  bits x 63 31 == 0 && bits x 26 25 != 3 && bits x 24 20 ≤ 16 && 1 ≤ bits x 11 4 && bits x 11 4 ≤ 128
    && 1 ≤ bits x 3 0 && bits x 3 0 ≤ 8

/-- GX, GY and GZ of a record. -/
def TaskRec.grid (r : TaskRec) : Nat × Nat × Nat := (bits (r.word 1) 15 0, bits (r.word 1) 31 16, bits (r.word 1) 47 32)
/-- GX × GY × GZ. -/
def TaskRec.groups (r : TaskRec) : Nat := r.grid.1 * r.grid.2.1 * r.grid.2.2
/-- PIPE of a record. -/
def TaskRec.isPipe (r : TaskRec) : Bool := bit (r.word 0) 41
/-- LEVEL of a record. -/
def TaskRec.level (r : TaskRec) : Nat := bits (r.word 1) 52 50

/-- An open access of the process reaches the page: its leaf is not kept for service domains (R37, R300). -/
def Die.svcOk (d : Die) (pn va : Nat) : Bool :=
  match d.walk pn va with
  | .leaf _ e _ => !bit e 3 || d.service pn
  | _ => false

/-- LEVEL agrees with the completion counter, which is there when DONECC is not 0, and GATECC names a counter, as R300 tests it,
or is 0 (R180). -/
def Die.countersOk (d : Die) (r : TaskRec) : Bool :=
  counterField r.gate && counterField r.done && counterField r.pchain
    && (r.done == 0 || (d.counterAddr r.pn r.done).any fun pa => cLevel (d.object pa) == r.level)
    && (r.gate == 0 || (d.namesCounter r.pn r.gate && d.svcOk r.pn r.gate))

/-- A node record is well formed (R180); a signal record has an EXT of 0 and a DONECC (R181). -/
def Die.nodeRecordOk (d : Die) (r : TaskRec) : Bool :=
  let (x, y, z) := r.grid
  let none_ := x == 0 && y == 0 && z == 0
  bits (r.word 0) 47 42 == 0 && !r.isPipe && bits (r.word 1) 63 53 == 0 && shapeOk (r.word 2)
    && (!bit (r.word 2) 27 || bits (r.word 0) 63 48 != 0)
    && (none_ || (x != 0 && y != 0 && z != 0 && r.level == 1)) && r.groups ≤ 0xFFFFFFFF
    && bits (r.word 5) 3 0 == 0 && r.word 6 % 64 == 0 && r.word 6 < 2 ^ 60 && d.countersOk r

/-- A pipeline record is well formed (R185). -/
def Die.pipeRecordOk (d : Die) (r : TaskRec) : Bool :=
  let ns := bits (r.word 0) 3 0
  r.word 0 == 2 ^ 41 + ns && 1 ≤ ns && ns ≤ 8 && bits (r.word 1) 63 53 == 0 && bits (r.word 1) 47 0 == 0 && r.level == 1
    && r.word 2 == 0 && r.word 6 == 0 && r.done != 0 && r.word 5 % 32 == 0 && r.word 5 < 2 ^ 60
    && ((List.range 8).all fun k => r.word (8 + k) == 0) && d.countersOk r

/-- What reading the stages of a pipeline record gives. -/
inductive Expanded where
  | ok (stages : List (TaskRec × Stage))
  | fail (status : Nat)
  | hole (a : Nat)

/-- A queue that a stage names is live and homed on the die (R186); none for 0xFFFF_FFFF, and an error for one that is
not. -/
def Die.stageQueue (d : Die) (pn vqn : Nat) : Except Unit (Option (Nat × Nat)) :=
  if vqn = 0xFFFFFFFF then .ok none
  else
    match d.nameLookup pn vqn false false with
    | .error _ => .error ()
    | .ok n =>
      let q := n.qid.toNat
      let i := bits q 44 29
      let gen := bits q 28 16
      if bits q 63 48 = d.pkgNo ∧ bits q 47 45 = d.dieNo ∧ (d.queue? i).any (fun x => x.gen == gen) then .ok (some (i, gen))
      else .error ()

/-- A worker record obeys R179, with an extent count of 16 at the most, R180 and R185's rules on its grid, GATECC, DONECC and
RST. -/
def Die.workerOk (d : Die) (r : TaskRec) : Bool :=
  bits (r.word 5) 63 59 ≤ 16 && bits (r.word 1) 47 0 == 0 && r.gate == 0 && r.done == 0 && !bit (r.word 0) 40 && d.nodeRecordOk r

/-- One stage of a pipeline from its entry (R185, R186). -/
def Die.expandStage (d : Die) (r : TaskRec) (pipe k : Nat) (entry : Nat) : Except Expanded (TaskRec × Stage) × Die :=
  let worker := bits entry 63 0
  let minGrp := bits entry 143 128
  let maxGrp := bits entry 159 144
  match d.stageQueue r.pn (bits entry 95 64), d.stageQueue r.pn (bits entry 127 96) with
  | .ok inq, .ok outq =>
    if worker % 128 ≠ 0 ∨ 2 ^ 60 ≤ worker ∨ minGrp = 0 ∨ maxGrp < minGrp ∨ entry / 2 ^ 160 ≠ 0 then
      (.error (.fail St.malformed), d)
    else
      match d.procRead r.pn worker 128 with
      | (.hole a, d) => (.error (.hole a), d)
      | (.ok _ true, d) => (.error (.fail St.poison), d)
      | (.ok bs false, d) =>
        let words := (List.range 16).map fun i => BitVec.ofNat 64 (ofBytes ((bs.drop (8 * i)).take 8))
        let w := { r with words := words }
        if !d.workerOk w then (.error (.fail St.malformed), d)
        else if 131072 < shapeFootprint (w.word 2) then (.error (.fail St.tooLarge), d)
        else
          let own := (words.set 4 (BitVec.ofNat 64 r.done)).set 7 (BitVec.ofNat 64 r.pchain)
          (.ok ({ w with words := own }, ⟨pipe, k, inq, outq, minGrp, maxGrp, true⟩), d)
      | (_, d) => (.error (.fail St.malformed), d)
  | _, _ => (.error (.fail St.malformed), d)

/-- The stages from index k on. -/
def Die.expandStages (d : Die) (r : TaskRec) (pipe : Nat) (entries : List Nat) (k : Nat) : Expanded × Die :=
  match entries with
  | [] => (.ok [], d)
  | e :: rest =>
    match d.expandStage r pipe k e with
    | (.error x, d) => (x, d)
    | (.ok st, d) =>
      match d.expandStages r pipe rest (k + 1) with
      | (.ok more, d) => (.ok (st :: more), d)
      | other => other

/-- Read and check the stages of a pipeline record (R186). -/
def Die.expand (d : Die) (r : TaskRec) : Expanded × Die :=
  let ns := bits (r.word 0) 3 0
  match d.procRead r.pn (r.word 5) (32 * ns) with
  | (.hole a, d) => (.hole a, d)
  | (.ok _ true, d) => (.fail St.poison, d)
  | (.ok bs false, d) =>
    d.expandStages r r.rid ((List.range ns).map fun i => ofBytes ((bs.drop (32 * i)).take 32)) 0
  | (_, d) => (.fail St.malformed, d)

/-- The scheduler reaches for a record's gate counter. -/
def Die.reachGate (d : Die) (r : TaskRec) : Die := if r.gate = 0 then d else d.reachSync r.pn r.gate

/-- The Check stage: the status that ends the record, if one does. The scheduler reaches for the record's counters and those
above them first, with the zeroing of their pages (R93). -/
def Die.checkRecord (d : Die) (r : TaskRec) : Expanded × Die :=
  if r.poison then (.fail St.poison, d)
  else
  let d := (d.reachRecord r).reachGate r
  if r.isPipe then (if d.pipeRecordOk r then d.expand r else (.fail St.malformed, d))
  else if d.nodeRecordOk r && (!r.isSignal || (r.word 5 == 0 && r.done != 0)) then (.ok [], d)
  else (.fail St.malformed, d)

/-! ## Cancel, Gate and Signal -/

/-- A counter of the chain from `va` has CANC = 1 (R177). -/
def Die.chainCancelled (d : Die) (fuel pn va : Nat) : Bool :=
  match fuel with
  | 0 => false
  | fuel + 1 =>
    if va = 0 then false
    else
      match d.counterAddr pn va with
      | none => false
      | some p => cCanc (d.object p) || d.chainCancelled fuel pn (cParent (d.object p))

/-- The record's chain reaches a cancelled counter. -/
def Die.recordCancelled (d : Die) (r : TaskRec) : Bool :=
  d.chainCancelled 8 r.pn r.done || d.chainCancelled 8 r.pn r.pchain

/-- The object of the record's gate counter. -/
def Die.gateObject (d : Die) (r : TaskRec) : Nat := ((d.counterAddr r.pn r.gate).map d.object).getD 0

/-- The record is not to be held: it has no gate, or its gate is decided (R175). -/
def Die.gateDecided (d : Die) (r : TaskRec) : Bool :=
  r.gate == 0 || cDone (d.gateObject r) || cStatus (d.gateObject r) != 0

/-- The lowest free translation entry (R361). -/
def Sched.freeTrans (x : Sched) : Option Nat := (List.range 4096).find? fun k => !x.trans.any fun t => t.txid == k

/-- A record takes a translation entry. -/
def Die.addTrans (d : Die) (r : TaskRec) (stage : Option Stage) : Die :=
  d.modSched fun x =>
    match x.freeTrans with
    | some k => { x with trans := x.trans ++ [⟨k, r, false, none, [], stage⟩] }
    | none => x

/-- The record that has passed its gate earliest takes its translation entries, when they are free (R361); a pipeline's
stages are read as they then are (R186). -/
def State.promoteOne (s : State) (d : Nat) : State :=
  let x := s.die d
  match x.sched.ready with
  | [] => s
  | r :: rest =>
    let need := if r.isPipe then bits (r.word 0) 3 0 else 1
    if 4096 < x.sched.trans.length + need then s
    else
      let s := s.modDie d fun x => x.modSched fun y => { y with ready := rest }
      if !r.isPipe then s.modDie d fun x => x.addTrans r none
      else
        let (e, x) := (s.die d).expand r
        let s := s.modDie d fun _ => x
        match e with
        | .hole a => { s with hole := some a }
        | .fail st => s.modDie d fun x => x.discardRecord r st
        | .ok stages => s.modDie d fun x => stages.foldl (fun x st => x.addTrans st.1 (some st.2)) x

/-- Every record that can takes its entries. -/
def State.promote (s : State) (d : Nat) : State :=
  (List.range (s.die d).sched.ready.length).foldl (fun s _ => s.promoteOne d) s

/-- The Cancel, Gate and Signal stages of a checked record (R360). A signal's arrival is registered from its check
until it is made or dropped (R176). -/
def Die.passStages (d : Die) (r : TaskRec) : Die :=
  let d := if r.isSignal then d.register r.pn r.done true else d
  let settle := fun (d : Die) => if r.isSignal then d.register r.pn r.done false else d
  if d.recordCancelled r then (settle d).discardRecord r St.cancelled
  else if r.gate ≠ 0 ∧ !cDone (d.gateObject r) then
    if cStatus (d.gateObject r) ≠ 0 then (settle d).discardRecord r St.gatefail
    else d.modSched fun y => { y with hold := y.hold ++ [r] }
  else if r.isSignal then (d.arriveOwed r.pn r.done).recordOver r.rid
  else d.modSched fun y => { y with ready := y.ready ++ [r] }

/-- The record leaves its queue, or the list of records put back, and gets its name. -/
def State.takeRecord (s : State) (d : Nat) (h : TaskRec × Option (Nat × Nat)) : TaskRec × State :=
  match h.2 with
  | some (i, n) =>
    let (rid, s) := s.newId
    let r := { h.1 with rid := rid }
    (r, s.modDie d fun x => (x.take i n none true).belayLog (.took i n r))
  | none => (h.1, s.modDie d fun x => x.modSched fun y => { y with again := y.again.erase h.1 })

/-- RECORD_TAKE (R360): the scheduler takes a record and runs its first stages. It takes none while a record waits for a
translation entry, nor one that would have to be held while the hold table is full (R361). -/
def execRecordTake (d : Nat) (s : State) : Host.Outcome State Fault Refusal :=
  if (s.die d).phase ≠ .up then s.finish
  else
    let s := s.promote d
    let x := s.die d
    if !x.sched.ready.isEmpty then s.finish
    else
      match x.headRecord with
      | none => s.finish
      | some h =>
        let s := s.modDie d fun x => x.reachGate h.1
        if 16384 ≤ x.sched.hold.length && !(s.die d).gateDecided h.1 then s.finish
        else
          let (r, s) := s.takeRecord d h
          let (e, x) := (s.die d).checkRecord r
          let s := s.modDie d fun _ => x
          match e with
          | .hole a => { s with hole := some a }.finish
          | .fail st => (s.modDie d fun x => x.discardRecord r st).finish
          | .ok _ => ((s.modDie d fun x => x.passStages r).promote d).finish

/-! ## The Translate stage -/

/-- A translation entry. -/
def Die.trans? (d : Die) (txid : Nat) : Option TransEntry := d.sched.trans.find? fun t => t.txid == txid

/-- Change a translation entry. -/
def Die.modTrans (d : Die) (txid : Nat) (f : TransEntry → TransEntry) : Die :=
  d.modSched fun y => { y with trans := modWhere (fun u => u.txid == txid) f y.trans }

/-- The entry is free, and the next record that waits takes it. -/
def State.freeTrans (s : State) (d txid : Nat) : State :=
  (s.modDie d fun x => x.modSched fun y => { y with trans := y.trans.filter fun t => t.txid != txid }).promote d

/-- The record ends in the Translate or Conflict stage with a status. -/
def State.endTrans (s : State) (d : Nat) (t : TransEntry) (st : Nat) : State :=
  let s := s.freeTrans d t.txid
  s.modDie d fun x => x.discardRecord t.rec_ st

/-- The body of a translation notice (R362). -/
def TransEntry.body (t : TransEntry) (va xidx type : Nat) : List Byte :=
  toBytes 8 va ++ toBytes 8 t.rec_.done ++ toBytes 2 (t.rec_.pn % 4096) ++ toBytes 1 xidx ++ toBytes 1 type
    ++ toBytes 2 (t.txid % 4096) ++ List.replicate 10 0

/-- A translation notice is sent, and the record is held with its pins (R362). -/
def State.holdTrans (s : State) (d : Nat) (t : TransEntry) (va xidx type : Nat) (pins : List Run) : State :=
  s.modDie d fun x =>
    (x.modTrans t.txid fun u => { u with waiting := true, pins := pins }).notice
      ⟨transCell t.txid, 0x0102, t.body va xidx type⟩

/-- The node joins the ready list, in every later node's comparison set from now on (R364). -/
def State.dispatchNode (s : State) (d : Nat) (t : TransEntry) (ext : ExtTable) (fs : List DWord) : State :=
  let (nid, s) := s.newId
  let r := t.rec_
  let rst := bit (r.word 0) 40
  let now := (s.die d).ps
  let n : Node :=
    { nid := nid, rec_ := r, ext := ext, fs := fs, order := nid, at_ := now, candAt := now, nextIdx := 0
      total := if t.stage.isSome then 2 ^ 32 else r.groups, live := 0, owed := 0, revocable := rst, turning := false
      committing := false, tent := [], cancelled := false, killed := none, stage := t.stage }
  let s := s.modDie d fun x => x.modSched fun y => { y with nodes := y.nodes ++ [n] }
  let s := s.modDie d fun x => if t.stage.isSome then x.register r.pn r.done true else x
  let s := s.modDie d fun x => if rst then x else x.belayLog (.irrevocable r.rid)
  s.freeTrans d t.txid

/-- The conflict check and the dispatch (R160 to R162). -/
def State.compareNode (s : State) (d : Nat) (t : TransEntry) (ext : ExtTable) (fs : List DWord) : State :=
  let r := t.rec_
  let s := s.modDie d fun x => x.modSched fun y => { y with checked := some (x.clock, r.at_) }
  match findConflict ext.exts ((s.die d).members r.pn none) with
  | some c => (s.modDie d fun x => x.sysEvent 0x0005 (c.body r.done r.pn)).endTrans d t St.model
  | none => s.dispatchNode d t ext fs

/-- Extents after the list and the format block have been read. -/
def State.translateExts (s : State) (d : Nat) (t : TransEntry) (list fmt : List Byte) (count : Nat) : State :=
  match parseExtents (s.die d).numClusters count list with
  | none => s.endTrans d t St.malformed
  | some es =>
    let (no, s) := s.draw
    let (r, x) := (s.die d).translateAll no t.rec_.pn es
    let s := s.modDie d fun _ => x
    match r with
    | .hole a => { s with hole := some a }
    | .fail => s.endTrans d t St.extent
    | .notice va i type pins => s.holdTrans d t va i type pins
    | .done ext =>
      let fs := (List.range 8).map fun k => BitVec.ofNat 64 (ofBytes ((fmt.drop (8 * k)).take 8))
      s.compareNode d t ext fs

/-- Read `n` bytes through the node's page table (R439) and go on with them; reading none always succeeds. -/
def State.transRead (s : State) (d : Nat) (t : TransEntry) (va n xidx : Nat) (k : List Byte → State → State) : State :=
  if n = 0 then k [] s
  else
    let (r, x) := (s.die d).procRead t.rec_.pn va n
    let s := s.modDie d fun _ => x
    match r with
    | .ok bs false => k bs s
    | .ok _ true => s.endTrans d t St.poison
    | .absent va type => s.holdTrans d t va xidx type []
    | .refused => s.endTrans d t St.malformed
    | .hole a => { s with hole := some a }

/-- A record that was enqueued later has been checked in this clock, so this one is not ready in it: of two nodes that become
ready in one clock, the one enqueued earlier is checked first (R160). -/
def Die.checkPassed (d : Die) (r : TaskRec) : Bool := d.sched.checked.any fun c => c.1 == d.clock && r.at_ < c.2

/-- TRANSLATE (R360, R439): the extent list and the format block are read, the extents translated and compared. A count
above 16 is malformed (R49). -/
def execTranslate (d txid : Nat) (s : State) : Host.Outcome State Fault Refusal :=
  match (s.die d).trans? txid with
  | none => s.finish
  | some t =>
    if t.waiting || (s.die d).phase != .up || (s.die d).checkPassed t.rec_ then s.finish
    else
      let e := t.rec_.word 5
      let count := bits e 63 59
      if 16 < count then (s.endTrans d t St.malformed).finish
      else
        (s.transRead d t (bits e 58 4 * 16) (16 * count) 0xFF fun list s =>
          s.transRead d t (t.rec_.word 6) (if t.rec_.word 6 = 0 then 0 else 64) 0xFE fun fmt s =>
            s.translateExts d t list fmt count).finish

/-- Carry out the answer to a translation notice. -/
def State.transAnswer (s : State) (d txid code : Nat) (f : State → TransEntry → State) : Host.Outcome State Fault Refusal :=
  match (s.die d).trans? txid with
  | none => s.finish
  | some t => if t.waiting ∧ t.answer = some code then (f s t).finish else s.finish

/-- TRANSLATION_RETRY (R363): the pins are released and the node is translated again from its first extent. -/
def execTranslationRetry (d txid : Nat) (s : State) : Host.Outcome State Fault Refusal :=
  s.transAnswer d txid 1 fun s _ => s.modDie d fun x =>
    x.modTrans txid fun u => { u with waiting := false, answer := none, pins := [] }

/-- TRANSLATION_FAIL (R363). -/
def execTranslationFail (d txid : Nat) (s : State) : Host.Outcome State Fault Refusal :=
  s.transAnswer d txid 2 fun s t => s.endTrans d t St.extent

end Sys2Proof.Machine
end

