-- ==== Sys2Proof/Machine/Place.lean ====
section
/-! DEFINITION. Placement of new and restored groups (R182 to R184, R364 to R366), retirement (R196), the commit of a
node (R168, R170), swap-out (R367 to R369), rebalancing (R188) and pre-emption (R377, R391). -/

namespace Sys2Proof.Machine

/-! ## Free slots and tiles (R184, R366) -/

/-- The group's matrix requests are not complete. -/
def Die.matrixLeft (d : Die) (gid : Nat) : Bool := d.clusters.any fun (_, k) => k.table.any fun e => e.gid == gid

/-- The tiles of a core that groups hold; a retired group's are released when its matrix requests are complete (R196). -/
def Die.tilesTaken (d : Die) (core : Nat) : List Nat :=
  d.groups.flatMap fun g =>
    if g.core == core && (g.phase != .tracked || d.matrixLeft g.gid) then g.tiles.map Tile.phys else []

/-- The free tiles of a core. -/
def Die.freeTiles (d : Die) (core : Nat) : List Nat := [0, 1].filter fun k => !(d.tilesTaken core).contains k

/-- The free slots of a core. -/
def Die.freeSlots (d : Die) (core : Nat) : List Nat := (List.range 8).filter fun k => (d.groupAt core k).isNone

/-- The instance number that a slot gives its next new group, none while groups hold all of them (R115). -/
def Die.nextInst (d : Die) (core slot : Nat) : Option Nat :=
  let next := tgetD (d.core core).inst slot 0
  ((List.range 512).map fun k => (next + k) % 512).find? fun i =>
    !d.groups.any fun g => g.phase != .tracked && g.pcore == core && g.pslot == slot && g.pinst == i

/-! ## Candidates (R364, R365) -/

/-- A candidate for a slot: the next group of a node, or a restorable group. -/
inductive Cand where
  | fresh (nid : Nat)
  | back (gid : Nat)
deriving DecidableEq, Repr, Inhabited

/-- A candidate with its node and the time at which it became one. -/
structure CandAt where
  cand : Cand
  node : Node
  at_ : Nat
deriving DecidableEq, Repr, Inhabited

/-- A worker that a rebalancing move has saved (R188). -/
def Group.movedOut (g : Group) : Bool :=
  g.moved && match g.phase with
    | .swapped .. => true
    | _ => false

/-- The group is saved. -/
def Group.isSwapped (g : Group) : Bool :=
  match g.phase with
  | .swapped .. => true
  | _ => false

/-- The groups of a node that hold a slot. -/
def Die.residents (d : Die) (nid : Nat) : List Group := d.groups.filter fun g => g.node == nid && g.phase == .resident

/-- The worker of a stage that a move saved earliest. -/
def Die.movedOf (d : Die) (nid : Nat) : Option Group :=
  leastBy Group.swapAt (d.groups.filter fun g => g.node == nid && g.movedOut)

/-- The node places further groups (R177, R187). -/
def Node.open_ (n : Node) : Bool :=
  !n.cancelled && n.killed.isNone && n.nextIdx < n.total && n.stage.all fun s => s.opened

/-- A stage has fewer than MINGRP workers, other than those that a move saved (R186). -/
def Die.underMin (d : Die) (n : Node) (s : Stage) : Bool :=
  d.workers n.nid < s.minGrp

/-- The next group of a ready node. A stage gains a slot up to MINGRP, and its saved worker comes first (R186, R188). -/
def Die.freshCand (d : Die) (n : Node) : Option CandAt :=
  match n.stage with
  | none => if n.open_ then some ⟨.fresh n.nid, n, n.candAt⟩ else none
  | some s =>
    if !d.underMin n s then none
    else
      match d.movedOf n.nid with
      | some g => some ⟨.back g.gid, n, g.candAt⟩
      | none => if n.open_ then some ⟨.fresh n.nid, n, n.candAt⟩ else none

/-- Every candidate. DESIGN CHOICE (log entry 119): a swapped-out worker is one even where its stage has MAXGRP resident groups,
as R369 restores it and R185 bounds what the stage is given. -/
def Die.candidates (d : Die) : List CandAt :=
  (d.groups.filterMap fun g =>
    if g.isSwapped && g.restorable && !g.moved then (d.nodeOf g).map fun n => ⟨.back g.gid, n, g.candAt⟩ else none)
    ++ d.sched.nodes.filterMap d.freshCand

/-- The key of R365: effective class, restorable before new, earlier first. -/
def Die.candKey (d : Die) (c : CandAt) : Nat × Nat :=
  (2 * effClass d.ps c.node.rec_.cls c.node.at_ + (match c.cand with | .fresh _ => 1 | .back _ => 0), c.at_)

/-! ## The place of a candidate (R366) -/

/-- The group that a candidate brings back. -/
def Die.candGroup (d : Die) (c : CandAt) : Option Group :=
  match c.cand with
  | .fresh _ => none
  | .back gid => d.group? gid

/-- The copy records of a restored group's open streams can be taken over in a core under their numbers. -/
def Die.streamsFit (d : Die) (g : Group) (core : Nat) : Bool :=
  core == g.core || ((d.core g.core).copies.filter fun c => c.gid == g.gid).all fun c =>
    !(d.core core).copies.any fun x => x.id == c.id

/-- A core can take the candidate, but for a slot: it is live and not offline, and has the tiles (R20, R366). -/
def Die.coreTakes (d : Die) (c : CandAt) (core : Nat) : Bool :=
  !d.coreOffline core && match d.candGroup c with
    | some g => (g.tiles.isEmpty || core == g.core) && d.streamsFit g core
    | none => bits (c.node.rec_.word 2) 26 25 ≤ (d.freeTiles core).length

/-- A slot can take the candidate, when it is free. -/
def Die.slotTakes (d : Die) (c : CandAt) (core slot : Nat) : Bool :=
  match c.cand with
  | .fresh _ => (d.nextInst core slot).isSome
  | .back _ => true

/-- The slot of a core that the candidate would get. -/
def Die.slotFor (d : Die) (c : CandAt) (core : Nat) : Option Nat := (d.freeSlots core).find? (d.slotTakes c core)

/-- The core and slot that a candidate gets. -/
def Die.placeOf (d : Die) (c : CandAt) : Option (Nat × Nat) :=
  let cores := (List.range d.numCores).filter fun k => d.coreTakes c k && (d.slotFor c k).isSome
  let near := match c.node.ext.exts.find? Extent.che with
    | some e => cores.filter fun k => d.clusterOf k == e.ch
    | none => []
  let cores := if near.isEmpty then cores else near
  let key := fun (k : Nat) =>
    (8 - (d.freeSlots k).length, ((d.residents c.node.nid).filter fun g => g.core == k).length)
  (firstBy key cores).bind fun k => (d.slotFor c k).map fun slot => (k, slot)

/-! ## A new group (R183) -/

/-- A thread at dispatch. -/
def freshThread (pc row : Nat) : Thread :=
  { pc := BitVec.ofNat 64 pc, depth := 0, y := false, m := false, exited := false, preds := 0, warp := some row
    wait := none, since := 0, began := 0, susp := none, suspEnd := none }

/-- GROUPID of the group of index i (R182, R183, R186). -/
def Node.groupId (n : Node) (i : Nat) : Nat :=
  if n.stage.isSome then i % 65536
  else
    let (x, y, _) := n.rec_.grid
    i % x + i / x % y * 65536 + i / (x * y) * 2 ^ 32

/-- The context at dispatch (R183). DESIGN CHOICE (log entry 83): ENTRY × 8 + HOFF × 8 wraps at 2^43, as HANDLER and a PC always
lie below it (R199, R208). -/
def Node.context (n : Node) : Ctx where
  pn := n.rec_.pn
  frame := ⟨0, bits (n.rec_.word 2) 11 4, bits (n.rec_.word 2) 19 12, bits (n.rec_.word 2) 24 20⟩
  ext := n.ext
  handles := noHandles
  handler := if bit (n.rec_.word 2) 27 then
      BitVec.ofNat 64 ((bits (n.rec_.word 0) 39 0 * 8 + bits (n.rec_.word 0) 63 48 * 8) % 2 ^ 43) else 0
  tbase := 0
  tlen := 0
  trapcause := 0
  trappc := 0
  trapaddr := 0
  fs := n.fs
  tilesOk := true

/-- The next group of a node as it is dispatched into a slot. -/
def Node.newGroup (n : Node) (gid core slot inst : Nat) (phys : List Nat) : Group where
  gid := gid
  node := n.nid
  core := core
  slot := slot
  pcore := core
  pslot := slot
  pinst := inst
  phase := .resident
  warps := bits (n.rec_.word 2) 3 0
  groupid := BitVec.ofNat 64 (n.groupId n.nextIdx)
  griddim := BitVec.ofNat 64 (bits (n.rec_.word 1) 47 0)
  nodeid := BitVec.ofNat 64 n.rec_.done
  cls := n.rec_.cls
  age := bits (n.rec_.word 2) 30 28
  threads := (List.range (32 * bits (n.rec_.word 2) 3 0)).map fun t => freshThread (bits (n.rec_.word 0) 39 0 * 8) (t / 32)
  part := []
  absent := []
  sregs := ((List.range (bits (n.rec_.word 2) 3 0)).flatMap fun w => (List.range 8).map fun k =>
      (w * 64 + k, (⟨BitVec.ofNat 64 (n.rec_.word (8 + k)), false⟩ : SReg))).filter fun r => r.2 != ⟨0, false⟩
  ctx := n.context
  gates := []
  wdlimit := 26
  wdcount := []
  wdowed := []
  trap := none
  held := []
  preemptDue := none
  saveRec := none
  saving := none
  saveNo := 0
  dead := false
  yielded := false
  poisonDue := none
  barriers := List.replicate 4 ⟨false, none, 0⟩
  cairns := []
  log := []
  pend := []
  tiles := phys.map fun k => ⟨k, [], false, 0, 0⟩
  sticky := 0
  resClk := 0
  resPs := 0
  now := 0
  swapAt := 0
  candAt := 0
  moved := false
  restorable := false

/-- Dispatch the next group of a node into a slot (R176, R183). -/
def State.placeNew (s : State) (d : Nat) (n : Node) (core slot : Nat) : State :=
  let (gid, s) := s.newId
  s.modDie d fun x =>
    let inst := (x.nextInst core slot).getD 0
    let g := n.newGroup gid core slot inst ((x.freeTiles core).take (bits (n.rec_.word 2) 26 25))
    let x := if n.stage.isSome then x else x.register n.rec_.pn n.rec_.done true
    let x := x.modCore core fun c => { c with inst := tput c.inst slot ((inst + 1) % 512) }
    let x := x.modNode n.nid fun n => { n with nextIdx := n.nextIdx + 1, live := n.live + 1, candAt := x.ps }
    { x with groups := x.groups ++ [{ g with now := x.ps }] }

/-! ## A restored group (R366, R369, R390, R391) -/

/-- Long waits that would end now: a counter's condition holds, or the phase has passed (R369). -/
def Die.endDueWaits (d : Die) (gid : Nat) : Die :=
  match d.group? gid with
  | none => d
  | some g =>
    (distinct (g.threads.flatMap fun t => t.wait.toList ++ t.susp.toList)).foldl (fun d w =>
      match w with
      | .cwait _ pa _ _ =>
        if cWakes (d.object pa) then d.modGroup gid fun g => g.endWaits (· == w) ⟨false, cwaitWord (d.object pa) false⟩ else d
      | .barObj _ _ (some (pa, ph)) =>
        if bPhase (d.object pa) = ph.toNat then d else d.modGroup gid fun g => g.endWaits (· == w) ⟨false, ph.setWidth 64⟩
      | _ => d) d

/-- The copy records of a group go with it to another core, and those not yet started enter its fill queue. -/
def Die.moveStreams (d : Die) (g : Group) (core : Nat) : Die :=
  if core = g.core then d
  else
    let mine := (d.core g.core).copies.filter fun c => c.gid == g.gid
    let waiting := (d.core g.core).fillQ.filter fun e => mine.any fun c => e == .op c.id
    let d := d.modCore g.core fun k =>
      { k with copies := k.copies.filter fun c => c.gid != g.gid, fillQ := k.fillQ.filter fun e => !waiting.contains e }
    (d.clearFences g.core).modCore core fun k => { k with copies := k.copies ++ mine, fillQ := k.fillQ ++ waiting }

/-- The group as it comes back into a slot. After YIELD, FLAGS bit 1 of its trap frame is set (R390). -/
def Group.restored (g : Group) (core slot : Nat) : Group :=
  let g := if g.yielded then
      let flags := (g.window (g.b3 + 3) 1).1.headD 0
      g.putWindow (g.b3 + 3) [flags ||| 2] false
    else g
  { g with core := core, slot := slot, phase := .resident, moved := false, restorable := false, preemptDue := none }

/-- Restore a saved group into a slot, and evaluate its WAITs again (R281); one whose record fails its check is killed
(R392). -/
def State.placeBack (s : State) (d : Nat) (g : Group) (core slot : Nat) : State :=
  match g.phase with
  | .swapped k forced =>
    if !(s.die d).recordIntact g k forced then s.killWith d g.gid St.killed
    else
      let s := s.modDie d fun x =>
        let x := x.modSched fun y => { y with saveUsed := y.saveUsed.filter (· != k) }
        ((x.moveStreams g core).modGroup g.gid fun g => (g.restored core slot).recheckWaits [(0, 2 ^ 17)]).endDueWaits g.gid
      (s.resendWaits d g.gid).gather d g.gid
  | _ => s

/-- Place a candidate. -/
def State.place (s : State) (d : Nat) (c : CandAt) (core slot : Nat) : State :=
  match (s.die d).candGroup c with
  | some g => s.placeBack d g core slot
  | none => s.placeNew d c.node core slot

/-! ## GROUP_PLACE -/

/-- The group that a rebalancing move brings into its slot: the taker's saved worker, else a new one (R188). -/
def Die.moveCand (d : Die) (m : SlotMove) : Option CandAt :=
  match d.node? m.taker with
  | none => none
  | some n =>
    let room := n.stage.any fun s => (d.residents n.nid).length < s.maxGrp
    let c : Option CandAt := match d.movedOf n.nid with
      | some g => some ⟨.back g.gid, n, g.candAt⟩
      | none => if n.open_ then some ⟨.fresh n.nid, n, n.candAt⟩ else none
    c.filter fun c => room && d.coreTakes c m.core && d.slotTakes c m.core m.slot

/-- The first rebalancing move whose slot is free takes place, or lapses when the taker has no use for the slot. -/
def State.runMove (s : State) (d : Nat) : Option State :=
  let x := s.die d
  (x.sched.moves.find? fun m => (x.groupAt m.core m.slot).isNone).map fun m =>
    let s := s.modDie d fun x => x.modSched fun y => { y with moves := y.moves.erase m }
    match x.moveCand m with
    | some c => s.place d c m.core m.slot
    | none => s

/-- GROUP_PLACE (R365, R366): a rebalancing move comes first; else the first candidate that can be placed. -/
def execGroupPlace (d : Nat) (s : State) : Host.Outcome State Fault Refusal :=
  let x := s.die d
  if x.phase ≠ .up then s.finish
  else
    match s.runMove d with
    | some s => s.finish
    | none =>
      match firstBy x.candKey (x.candidates.filter fun c => (x.placeOf c).isSome) with
      | none => s.finish
      | some c =>
        match x.placeOf c with
        | some (core, slot) => (s.place d c core slot).finish
        | none => s.finish

/-! ## Retirement (R187, R196) -/

/-- A group is complete: its arrival is made, or owed until the node's commit (R168, R196). -/
def Die.completeGroup (d : Die) (g : Group) : Die :=
  let workers := d.workers g.node
  let d := d.removeGroup g.gid
  match d.node? g.node with
  | none => d
  | some n =>
    let rst := n.restartable
    let d := d.modNode n.nid fun n => { n.groupEnded d.ps workers with owed := if rst then n.owed + 1 else n.owed }
    let d := if rst || n.stage.isSome then d else d.arriveOwed n.rec_.pn n.rec_.done
    d.checkSettled n.nid

/-- A save record that was reserved for a group is free again. -/
def Die.freeSaveRec (d : Die) (g : Group) : Die :=
  match g.saveRec with
  | some k => d.modSched fun y => { y with saveUsed := y.saveUsed.filter (· != k) }
  | none => d

/-- A worker has retired, so its stage is closed (R187). -/
def Node.close (n : Node) : Node := { n with stage := n.stage.map fun s => { s with opened := false } }

/-- SLOT_FREE (R196): the slot of a group whose threads have all EXITED is free once nothing reads or writes it; what
remains goes to the retirement tracker, which has eight entries. -/
def execSlotFree (d gid : Nat) (s : State) : Host.Outcome State Fault Refusal :=
  let x := s.die d
  match x.group? gid with
  | none => s.finish
  | some g =>
    let busy := x.workLeft g
    if g.phase ≠ .resident ∨ !g.living.isEmpty ∨ x.slotBusy gid ∨ (busy ∧ 8 ≤ (x.core g.core).tracker.length) then s.finish
    else
      let x := ((x.freeSlot g.core g.slot).freeSaveRec g).modNode g.node Node.close
      let x := if !busy then x.completeGroup g
        else (x.modGroup gid fun g => { g with phase := .tracked, saveRec := none, preemptDue := none, saving := none }).modCore
          g.core fun c => { c with tracker := c.tracker ++ [gid] }
      (s.modDie d fun _ => x).finish

/-- TRACKER_DRAIN (R196): a tracker entry has drained; the group is complete. A killed group makes no arrival (R178). -/
def execTrackerDrain (d gid : Nat) (s : State) : Host.Outcome State Fault Refusal :=
  let x := s.die d
  match x.group? gid with
  | none => s.finish
  | some g =>
    if g.phase ≠ .tracked ∨ x.workLeft g then s.finish
    else
      (s.modDie d fun _ => if g.dead then (x.removeGroup gid).checkSettled g.node else x.completeGroup g).finish

/-! ## Commits (R168, R170) -/

/-- STAGED_COMMIT (R168): the node's tentative lines become committed. -/
def execStagedCommit (d node : Nat) (s : State) : Host.Outcome State Fault Refusal :=
  (s.modDie d fun x => if (x.node? node).any Node.committing then x.commitNode node else x).finish

/-- COMMIT_COMPLETE (R168): the arrivals of a restartable node's groups are made together, and it is settled. -/
def execCommitComplete (d node : Nat) (s : State) : Host.Outcome State Fault Refusal :=
  (s.modDie d fun x =>
    match x.node? node with
    | none => x
    | some n =>
      if !n.committing || x.hasTent node then x
      else
        let x := (if n.owed = 0 then x else x.arrive n.rec_.pn n.rec_.done n.owed 0).dropOwed n
        x.dropNode node).finish

/-- IRREVOCABLE_RESUME (R170): what the node has staged is committed; then the effects that waited for it take place. -/
def execIrrevocableResume (d node : Nat) (s : State) : Host.Outcome State Fault Refusal :=
  match (s.die d).node? node with
  | none => s.finish
  | some n =>
    if !n.turning then s.finish
    else
      let s := s.modDie d fun x => (x.commitNode node).turnIrrevocable node
      let gids := ((s.die d).groups.filter fun g => g.node == node && !g.dead).map Group.gid
      let s := gids.foldl (fun s gid =>
        (s.performSel d gid fun w => match w with | .commit _ => true | _ => false).gather d gid) s
      (s.modDie d fun x => x.checkSettled node).finish

/-! ## Pre-emption (R188, R368, R377, R391) -/

/-- Order a pre-emption of a group into a free record (R377). -/
def State.preempt (s : State) (d gid k : Nat) (moved : Bool) : State :=
  let s := s.modDie d fun x => (x.modSched fun y => { y with saveUsed := k :: y.saveUsed }).modGroup gid fun g =>
    { g with saveRec := some k, moved := moved }
  s.asynchronous d gid Cause.preempt 0

/-- Picoseconds for which every living thread has been in a long wait, none when the group is not swappable (R367). -/
def Group.waitedFor (g : Group) : Option Nat :=
  if g.living.isEmpty || !(g.living.all fun t => (g.thread t).wait.any Wait.long) then none
  else some (g.resPs - maxOf (g.living.map fun t => (g.thread t).since))

/-- The swappable groups of the die. -/
def Die.swappable (d : Die) : List Group :=
  d.groups.filter fun g =>
    g.phase == .resident && g.saveRec.isNone && g.waitedFor.any fun w => d.sched.swapth * usec ≤ w

/-- The victims that would let a candidate be placed: it lacks only a slot (R368). -/
def Die.victims (d : Die) (c : CandAt) : List Group :=
  if (d.placeOf c).isSome then []
  else d.swappable.filter fun g => d.coreTakes c g.core && d.slotTakes c g.core g.slot

/-- Die picoseconds at which the group's latest wait began. -/
def Group.latestWait (g : Group) : Nat := maxOf (g.living.map fun t => (g.thread t).began)

/-- The group whose latest wait began earliest; ties by core and slot (R368). -/
def pickVictim (l : List Group) : Option Group := firstBy (fun g => (g.latestWait, g.core * 8 + g.slot)) l

/-- SWAP_OUT (R368): one victim is pre-empted for a candidate that lacks only a slot. -/
def execSwapOut (d : Nat) (s : State) : Host.Outcome State Fault Refusal :=
  let x := s.die d
  let inProgress := x.groups.any fun g => g.phase == .resident && g.saveRec.isSome && !g.moved
  if x.phase ≠ .up ∨ x.sched.swapth = 0 ∨ inProgress then s.finish
  else
    match x.sched.freeRecord, firstBy x.candKey (x.candidates.filter fun c => !(x.victims c).isEmpty) with
    | some k, some c =>
      match pickVictim (x.victims c) with
      | some g => (s.preempt d g.gid k false).finish
      | none => s.finish
    | _, _ => s.finish

/-- SWAP_RESTORABLE (R369): SWAPTH after its swap-out, a group with a QWAIT or a held LAUNCH is restorable. -/
def execSwapRestorable (d gid : Nat) (s : State) : Host.Outcome State Fault Refusal :=
  let x := s.die d
  (s.modGroup d gid fun g =>
    let waits := g.hasWait fun w => match w with
      | .qwait _ | .launchFull _ => true
      | _ => false
    if g.isSwapped && !g.moved && !g.restorable && waits && g.swapAt + x.sched.swapth * usec ≤ x.ps then
      { g with restorable := true, candAt := x.ps }
    else g).finish

/-- PREEMPT_FORCED_SAVE (R377, R391): the group has not yielded in time, or is saved at once. -/
def execPreemptForcedSave (d gid : Nat) (s : State) : Host.Outcome State Fault Refusal :=
  let x := s.die d
  match x.group? gid with
  | none => s.finish
  | some g =>
    if g.phase = .resident ∧ g.saving.isNone ∧ g.saveRec.isSome ∧ g.preemptDue.any (· ≤ x.ps) then
      (s.stopAndSave d gid true).finish
    else s.finish

/-! ## Rebalancing (R188) -/

/-- Occupancy and capacity of a stage's queue; a queue that is gone counts as empty. -/
def Die.stageLoad (d : Die) (q : Option (Nat × Nat)) (absent : Nat) : Nat × Nat :=
  match q with
  | none => (absent, 1)
  | some (i, gen) =>
    match (d.queue? i).filter fun x => x.gen == gen with
    | some x => (x.occupancy, max x.cap 1)
    | none => (0, 1)

/-- A stage's node with its stage. -/
def Die.openStages (d : Die) (pipe : Nat) : List (Node × Stage) :=
  d.sched.nodes.filterMap fun n => (n.stage.filter fun s => s.pipe == pipe && n.open_).map fun s => (n, s)

/-- need(s) as a pair numerator, denominator. -/
def Die.need (d : Die) (s : Stage) : Nat × Nat := d.stageLoad s.inq 1

/-- blocked(s). -/
def Die.blocked (d : Die) (s : Stage) : Bool :=
  let (o, cap) := d.stageLoad s.outq 0
  s.outq.isSome && 7 * cap ≤ 8 * o

/-- a > b, as fractions. -/
def fracGt (a b : Nat × Nat) : Bool := b.1 * a.2 < a.1 * b.2

/-- Groups(s), with the workers that a move is bringing and without those it is taking away. -/
def Die.groupsOf (d : Die) (nid : Nat) : Nat :=
  ((d.residents nid).filter fun g => g.saveRec.isNone).length + (d.sched.moves.filter fun m => m.taker == nid).length

/-- The stage of greatest need that can take a slot; ties: the lowest stage. -/
def Die.taker (d : Die) (l : List (Node × Stage)) : Option (Node × Stage) :=
  (l.filter fun (n, s) => d.groupsOf n.nid < s.maxGrp && !d.blocked s).foldl (fun best x => match best with
    | none => some x
    | some b =>
      if fracGt (d.need x.2) (d.need b.2) || (!fracGt (d.need b.2) (d.need x.2) && x.2.index < b.2.index) then some x
      else best) none

/-- The stage of least need that can give a slot; ties: the highest stage. -/
def Die.donor (d : Die) (l : List (Node × Stage)) : Option (Node × Stage) :=
  (l.filter fun (n, s) => s.minGrp < d.groupsOf n.nid).foldl (fun best x => match best with
    | none => some x
    | some b =>
      if fracGt (d.need b.2) (d.need x.2) || (!fracGt (d.need x.2) (d.need b.2) && b.2.index < x.2.index) then some x
      else best) none

/-- The move that one pipeline makes: the donor's most recently dispatched resident group and the taker. -/
def Die.rebalance (d : Die) (pipe : Nat) : Option (Group × Node) :=
  let l := d.openStages pipe
  match d.taker l, d.donor l with
  | some (t, ts), some (n, ns) =>
    let a := d.need ts
    let b := d.need ns
    if t.nid ≠ n.nid ∧ 8 * b.1 * a.2 + a.2 * b.2 < 8 * a.1 * b.2 then
      (((d.residents n.nid).filter fun g => g.saveRec.isNone).getLast?).map fun g => (g, t)
    else none
  | _, _ => none

/-- REBALANCE (R188): every 10 µs, one slot of a pipeline moves while a save record is free (R377). -/
def execRebalance (d : Nat) (s : State) : Host.Outcome State Fault Refusal :=
  let x := s.die d
  if x.phase ≠ .up ∨ x.ps < x.sched.balanceAt + 10 * usec then s.finish
  else
    let s := s.modDie d fun x => x.modSched fun y => { y with balanceAt := x.ps }
    let pipes := distinct (x.sched.nodes.filterMap fun n => n.stage.map Stage.pipe)
    match x.sched.freeRecord, pipes.findSome? x.rebalance with
    | some k, some (g, t) =>
      let s := s.modDie d fun x => x.modSched fun y => { y with moves := y.moves ++ [⟨g.core, g.slot, g.gid, t.nid⟩] }
      (s.preempt d g.gid k true).finish
    | _, _ => s.finish

end Sys2Proof.Machine
end

