-- ==== Sys2Proof/Machine/Limits.lean ====
section
/-! DEFINITION. Limits that pass (R193, R281, R282, R304, R355, R400), the end of a gate call (R355) and the cairn
former (R195). -/

namespace Sys2Proof.Machine

/-- A resident group, other than one that is being saved. -/
def Die.running (d : Die) (gid : Nat) : Option Group :=
  (d.group? gid).filter fun g => g.phase == .resident && g.saving.isNone

/-! ## The watchdog (R193) -/

/-- WATCHDOG (R193): a warp's counter reaches its limit; it counts from 0 again. A warp that a trap has stopped waits (R382). -/
def execWatchdog (d gid warp : Nat) (s : State) : Host.Outcome State Fault Refusal :=
  match (s.die d).running gid with
  | none => s.finish
  | some g =>
    if tgetD g.wdcount warp 0 < 2 ^ g.wdlimit || g.stopped warp then s.finish
    else ((s.modGroup d gid fun g => { g with wdcount := tdel g.wdcount warp }).asynchronous d gid Cause.watchdog warp).finish

/-- WATCHDOG_KILL (R193): the handler has executed neither TRET nor EXIT within 100 µs, on a clock that does not stop while the
group is saved or the frequency changes (R13). -/
def execWatchdogKill (d gid : Nat) (s : State) : Host.Outcome State Fault Refusal :=
  match s.group? d gid with
  | none => s.finish
  | some g =>
    if g.trap.any fun t => t.cause == Cause.watchdog && !t.exited && t.at_ + 100 * usec ≤ (s.die d).ps then
      (s.killWith d gid St.watchdog).finish
    else s.finish

/-- POISON_HANDLER_TIMEOUT (R400): 100 µs after a consumption its group ends, and the node with it. -/
def execPoisonHandlerTimeout (d gid : Nat) (s : State) : Host.Outcome State Fault Refusal :=
  match s.group? d gid with
  | none => s.finish
  | some g =>
    if g.poisonDue.any (· ≤ (s.die d).ps) then (s.killNode d g.node St.poison).finish else s.finish

/-! ## Waits with a limit -/

/-- A thread's wait ends, or the end of its suspended wait is recorded (R382). -/
def Group.endOne (g : Group) (t : Nat) (sel : Wait → Bool) (e : WaitEnd) : Group :=
  let h := g.thread t
  if h.wait.any sel then g.endWait t e
  else if h.susp.any sel && h.suspEnd.isNone then g.modThread t fun h => { h with suspEnd := some e }
  else g

/-- WAIT_LIMIT (R281): LIM passes and the thread goes on with pd 0. -/
def execWaitLimit (d gid thread : Nat) (s : State) : Host.Outcome State Fault Refusal :=
  match (s.die d).running gid with
  | none => s.finish
  | some g =>
    let due : Wait → Bool := fun w => match w with
      | .wait _ _ _ (some t) false => t ≤ g.resClk
      | _ => false
    (s.modGroup d gid fun g => g.endOne thread due ⟨false, 0⟩).finish

/-- SLEEP_END (R282). -/
def execSleepEnd (d gid thread : Nat) (s : State) : Host.Outcome State Fault Refusal :=
  match (s.die d).running gid with
  | none => s.finish
  | some g =>
    let due : Wait → Bool := fun w => match w with
      | .sleep _ t => t ≤ g.resClk
      | _ => false
    (s.modGroup d gid fun g => g.endOne thread due ⟨false, 0⟩).finish

/-- CWAIT_TIMEOUT (R304): the limit of a warp's CWAIT passes. -/
def execCwaitTimeout (d gid warp : Nat) (s : State) : Host.Outcome State Fault Refusal :=
  match (s.die d).running gid with
  | none => s.finish
  | some g =>
    let due : Wait → Bool := fun w => match w with
      | .cwait x _ _ (some t) => x.warp == warp && t ≤ g.resClk
      | _ => false
    match (g.threads.flatMap fun t => t.wait.toList ++ t.susp.toList).find? due with
    | some (.cwait x pa va t) =>
      let word := cwaitWord ((s.die d).object pa) true
      (s.modGroup d gid fun g => g.endWaits (· == .cwait x pa va t) ⟨false, word⟩).finish
    | _ => s.finish

/-! ## Gate calls (R355) -/

/-- GRET_COMPLETE (R355): the callee's engine operations are complete and the caller is restored; a cause held during
the call is then delivered (R356). -/
def execGretComplete (d gid : Nat) (s : State) : Host.Outcome State Fault Refusal :=
  match (s.die d).running gid with
  | none => s.finish
  | some g =>
    match g.gates with
    | [] => s.finish
    | f :: rest =>
      match f.ending with
      | none => s.finish
      | some w =>
        if (s.die d).calleeBusy g then s.finish
        else ((s.modGroup d gid fun g => g.leaveGate f rest w).deliverHeld d gid).finish

/-- A gate call ends with TIMEOUT, unless it is ending abnormally already. -/
def GateFrame.timeOut (f : GateFrame) : GateFrame :=
  if f.ending.any (· != 0) then f else { f with ending := some St.timeout }

/-- GATE_TIMEOUT (R355): the LIMIT of the call at a gate depth passes, and every call from the innermost to it ends. -/
def execGateTimeout (d gid level : Nat) (s : State) : Host.Outcome State Fault Refusal :=
  match (s.die d).running gid with
  | none => s.finish
  | some g =>
    if level = 0 ∨ g.gateDepth < level then s.finish
    else
      let i := g.gateDepth - level
      if (g.gates[i]?).any fun f => f.deadline.any (· ≤ g.resPs) then
        let s := (s.withdrawWaits d gid level).closeStreams d gid level
        (s.modGroup d gid fun g =>
          { g with trap := none, gates := (g.gates.take (i + 1)).map GateFrame.timeOut ++ g.gates.drop (i + 1) }).finish
      else s.finish

/-! ## The cairn former (R195) -/

/-- The lanes that a cairn has a thread for. -/
def Cairn.lanes (c : Cairn) : List Nat := distinct (c.filed.map fun f => f.t % 32)

/-- When the cairn's oldest thread was filed. -/
def Cairn.oldest (c : Cairn) : Nat := (c.filed.map Filed.at_).headD 0

/-- The head of each lane list. -/
def Cairn.heads (c : Cairn) : List Filed := (List.range 32).filterMap fun l => c.filed.find? fun f => f.t % 32 == l

/-- The cairn that the former takes: the full one of lowest target, else the oldest aged one, else, when no member can
issue, the oldest. -/
def Group.chooseCairn (g : Group) : Option Cairn :=
  let some_ := g.cairns.filter fun c => !c.filed.isEmpty
  let full := some_.filter fun c => c.lanes.length == 32
  let aged := some_.filter fun c => c.oldest + 512 * 2 ^ g.age ≤ g.resClk
  let stuck := (List.range g.warps).all fun w => (g.members w).all fun t => (g.thread t).wait.isSome
  match leastBy Cairn.key full, leastBy Cairn.oldest aged with
  | some c, _ => some c
  | none, some c => some c
  | none, none => if stuck then leastBy Cairn.oldest some_ else none

/-- A warp is formed from a cairn. -/
def Group.formWarp (g : Group) (c : Cairn) (w : Nat) : Group :=
  let moved := c.heads
  let src := (leastBy id (moved.map Filed.warp)).getD w
  let rest := { c with filed := c.filed.filter fun f => !moved.contains f }
  let g := { g with cairns := (modWhere (fun x => x.key == c.key) (fun _ => rest) g.cairns).filter fun x => !x.filed.isEmpty }
  let g := moved.foldl (fun g f => g.modThread f.t fun h =>
    { h with pc := BitVec.ofNat 64 c.key, wait := none, y := false, m := false, warp := some w }) g
  (List.range 64).foldl (fun g n => g.setSreg w n (g.sreg src n)) g

/-- CAIRN_FORM (R195): the former makes at most one warp; a trap has stopped it (R382). -/
def execCairnForm (d gid : Nat) (s : State) : Host.Outcome State Fault Refusal :=
  match (s.die d).running gid with
  | none => s.finish
  | some g =>
    match (List.range g.warps).find? fun w => (g.members w).isEmpty, g.chooseCairn with
    | some w, some c => if g.trap.isSome then s.finish else (s.modGroup d gid fun g => g.formWarp c w).finish
    | _, _ => s.finish

end Sys2Proof.Machine
end

