-- ==== Sys2Proof/Machine/Failures.lean ====
section
/-! DEFINITION. Units that fail while running (R20 to R23, R28, R410), widths of links (R407, R408, R426), frequency
points and heat (R409, R435), and the security alarm (R431 to R434). -/

namespace Sys2Proof.Machine

/-! ## The configuration record, the retirement table and the error log -/

/-- The width of a link, 0 when the die has none. -/
def Die.width (d : Die) (code : Nat) : Nat := ((d.link? code).map Link.width).getD 0

/-- One update of the configuration record: LIVECLASS is recomputed, GEN is incremented and a CONFIG event is enqueued
(R28). -/
def Die.publish (d : Die) (f : ConfRec → ConfRec) : Die :=
  let c := f d.conf
  let c := { c with liveClass := c.liveCode (d.width 17) (d.width 16), gen := c.gen + 1
                    retired := BitVec.ofNat 32 d.flash.table.entries.length }
  { d with conf := c }.sysEvent 0x0003 []

/-- Of two failures detected in the same clock, the entry of one comes before the other's (R23). -/
def RetEntry.before (a b : RetEntry) : Bool := a.kind < b.kind || (a.kind == b.kind && a.unit < b.unit)

/-- A table with an entry added to those that follow the first `base`, in the order of R23, with its SEQ numbers. -/
def addEntry (es : List RetEntry) (base : Nat) (e : RetEntry) : List RetEntry :=
  let now := es.drop base
  let all := es.take base ++ (now.takeWhile fun x => !e.before x) ++ e :: now.dropWhile fun x => !e.before x
  (List.range all.length).zipWith (fun i e => { e with seq := i + 1 }) all

/-- Append an entry to the signed retirement table, after those of earlier clocks; the mirror is due (R21 to R24). -/
def Die.retire (d : Die) (kind unit width cause : Nat) : Die :=
  let es := d.flash.table.entries
  let base := match d.retiredAt with
    | some (c, n) => if c = d.clock then n else es.length
    | none => es.length
  let flash := { d.flash with
    table := { d.flash.table with entries := addEntry es base ⟨0, d.flash.boots, cause, width, unit, kind⟩ }
    mirrorDue := true }
  { d with flash := flash, retiredAt := some (d.clock, base) }

/-- Write an error-log entry: a ring of 4,096 (R434). -/
def Die.logError (d : Die) (code unit : Nat) (data : List Byte) : Die :=
  let l := d.flash.errlog ++ [⟨d.clock, d.flash.boots, code, unit, data ++ List.replicate (16 - data.length) 0⟩]
  { d with flash := { d.flash with errlog := l.drop (l.length - 4096) } }

/-! ## Units that go offline (R20, R410) -/

/-- A swapped-out group that holds tiles on one of these cores is killed (R410). -/
def State.killStranded (s : State) (d : Nat) (cores : List Nat) : State :=
  ((s.die d).groups.filter fun g => g.isSwapped && !g.tiles.isEmpty && cores.contains g.core).foldl
    (fun s g => s.killWith d g.gid St.killed) s

/-- The slice of a cluster writes its dirty lines back (R83). -/
def Die.emptySlice (d : Die) (slice : Nat) : Die :=
  (d.l2.filter fun l => l.slice == slice).foldl (fun d l => d.evict l) d

/-- The bits of CLOFF of a physical cluster. -/
def ConfRec.setOff (c : ConfRec) (k mask : Nat) : ConfRec :=
  { c with cloff := c.cloff.modify k fun b => b ||| BitVec.ofNat 8 mask }

/-- The bits of CHOFF of a stack. -/
def ConfRec.setChOff (c : ConfRec) (st ch : Nat) : ConfRec :=
  { c with choff := c.choff.modify st fun w => w ||| BitVec.ofNat 32 (2 ^ ch) }

/-- The ALU lanes that a roped repeat can name when lanes differ: the first pass computes lane l on ALU lane l, the second on
l + 1, and the third tells which of the two disagrees (R393). -/
def aluLanes (lanes : List Nat) : List Nat := lanes.flatMap fun l => [l % 32, (l + 1) % 32]

/-- A core goes offline; after a roped repeat the error log names the ALU lane (R393, R410), one of those listed. -/
def State.coreOff (s : State) (d core phys cause : Nat) (alu : List Nat) : State :=
  let (n, s) := s.draw
  let s := s.modDie d fun x =>
    let x := if cause = 1 then x.logError 1 (core + alu.getD ((Config.freeLane n).toNat % alu.length) 0 * 2048) [] else x
    (x.retire 1 phys 0 cause).publish fun c => c.setOff (phys / 4) (2 ^ (phys % 4))
  s.killStranded d [core]

/-- A cluster goes offline: its slice as R83 states, its cores as offline cores, the tiles on its engine poisoned
(R410); it is offline from here on, so that what its lines leave goes to live slices (R83). `lost` when the slice cannot identify
its dirty lines. Bit 7 of its byte of CLOFF is set and its core bits are as they
were (DESIGN CHOICE: R25 does not say whether they follow it; log entry 90). Its cores get no KIND 1 entries of their own (DESIGN
CHOICE: R21 does not say whether what a cluster takes with it does; log entry 122). -/
def State.clusterOff (s : State) (d cl phys cause : Nat) (lost : Bool) : State :=
  let cores := (s.die d).coresOf cl
  let s := s.modDie d fun x =>
    let x := (x.retire 2 phys 0 cause).publish fun c => c.setOff phys 128
    let x := if lost then { x with l2 := x.l2.filter fun l => l.slice != cl } else x.emptySlice cl
    { x with groups := x.groups.map fun g =>
        if cores.contains g.core then { g with tiles := g.tiles.map fun t => { t with poison := true } } else g }
  s.killStranded d cores

/-! ## Widths (R407 to R409, R426) -/

/-- The ends of a link: both dies of a seam, the die of a ridge port. -/
def linkDies (d code : Nat) : List Nat := if code < 10 then [(seamEnds code).1, (seamEnds code).2] else [d]

/-- A width change of a link starts; a frequency change that runs on one of its dies is abandoned (R407, R409). -/
def State.startWidth (s : State) (d code : Nat) : State :=
  (linkDies d code).foldl (fun s e => s.modDie e fun x =>
    { x.modLink code fun l => { l with changing := some (l.width - 1) } with freqRunning := false }) s

/-- The link can change its width: its ends are up and it is not down and not changing. -/
def State.canNarrow (s : State) (d code : Nat) : Bool :=
  (linkDies d code).contains d && (s.die d).phase == .up
    && ((s.die d).link? code).any fun l => l.width != 0 && l.changing.isNone

/-- SEAM_WIDTH_CHANGE (R407): a seam, or a ridge port (16, 17), starts halving its width. -/
def execSeamWidthChange (d link : Nat) (s : State) : Host.Outcome State Fault Refusal :=
  if s.canNarrow d link then (s.startWidth d link).finish else s.finish

/-- The width code of a seam in SEAMS (R25). -/
def ConfRec.setSeam (c : ConfRec) (code w : Nat) : ConfRec :=
  { c with seams := BitVec.ofNat 32 (setBits c.seams.toNat (2 * code + 1) (2 * code) w) }

/-- One end's part of a completed width change: the retirement entry, the record, the BANDWIDTH event (R23, R28,
R408). -/
def Die.narrowed (d : Die) (code old w : Nat) : Die :=
  let unit := if code < 10 then code else code - 16
  let d := d.modLink code fun l => { l with width := w, changing := none }
  let d := (d.retire (if code < 10 then 5 else 6) unit w 4).publish fun c => if code < 10 then c.setSeam code w else c
  d.sysEvent 0x0004 (toBytes 1 code ++ toBytes 1 old ++ toBytes 1 w ++ toBytes 1 4)

/-- Every die's record gives every seam's width code (R25): the dies that the change does not touch follow it. -/
def State.seamCode (s : State) (code w : Nat) (touched : List Nat) : State :=
  (List.range 8).foldl (fun s e =>
    let c := (s.die e).conf
    if (s.die e).phase = .up ∧ !touched.contains e ∧ c.setSeam code w ≠ c then
      s.modDie e fun x => x.publish fun c => c.setSeam code w
    else s) s

/-- A die is retired whole: its seams are down (R18), as the other dies' records say, and its belay partner runs without one
(R15). Each neighbour's BANDWIDTH event names the lost die as the cause (DEDUCED from R22 and R408; log entry 103). The neighbours
append no KIND 5 entry of their own for the seam (DESIGN CHOICE: R21 does not say whether a seam that goes down with a die is
retired; log entry 122). -/
def State.dieRetired (s : State) (d : Nat) : State :=
  let seams := (List.range 10).filter fun c => (seamEnds c).1 == d || (seamEnds c).2 == d
  let s := seams.foldl (fun s c =>
    let e := seamPeer d c
    let old := (s.die e).width c
    let s := if (s.die e).phase ≠ .up ∨ old = 0 then s
      else s.modDie e fun x =>
        ((x.modLink c fun l => { l with width := 0, changing := none }).publish fun r => r.setSeam c 0).sysEvent 0x0004
          (toBytes 1 c ++ toBytes 1 old ++ toBytes 1 0 ++ toBytes 1 5)
    s.seamCode c 0 [d]) s
  let s := s.modDie (belay d) fun x =>
    if x.phase = .up ∧ !bit x.conf.ident.toNat 4 then x.publish fun c => { c with ident := c.ident ||| 16 } else x
  s.reroute seams

/-- SEAM_WIDTH_CHANGE_DONE (R407, R408): the new width comes into use; a link that is down changes the routes (R130). -/
def execSeamWidthChangeDone (d link : Nat) (s : State) : Host.Outcome State Fault Refusal :=
  match (s.die d).link? link with
  | none => s.finish
  | some l =>
    match l.changing with
    | none => s.finish
    | some w =>
      let s := (linkDies d link).foldl (fun s e =>
        if (s.die e).phase = .up then s.modDie e fun x => x.narrowed link l.width w else s) s
      let s := if link < 10 then s.seamCode link w (linkDies d link) else s
      if w ≠ 0 then s.finish
      else if link < 10 then (s.reroute [link]).finish
      else ((s.reroute []).emptyLink d link).finish

/-- RIDGE_RETRAIN (R426): a port whose training succeeds goes on as it is; one whose training fails halves its lanes. -/
def execRidgeRetrain (d port : Nat) (trained : Bool) (s : State) : Host.Outcome State Fault Refusal :=
  if !trained && (port == 16 || port == 17) && s.canNarrow d port then (s.startWidth d port).finish else s.finish

/-! ## Frequency points (R409) -/

/-- A frequency point is asked for. -/
def Die.askFreq (d : Die) (p : BitVec 2) : Die := { d with freqTo := if p = d.freqPoint then none else some p }

/-- FREQ_CHANGE (R409): the change that was asked for starts, unless a width change of the die is in progress. -/
def execFreqChange (d point : Nat) (s : State) : Host.Outcome State Fault Refusal :=
  let x := s.die d
  if x.phase = .up ∧ !x.freqRunning ∧ (x.freqTo.any fun p => p.toNat == point)
      ∧ !(x.links.any fun l => l.changing.isSome) then
    (s.modDie d fun x => { x with freqRunning := true }).finish
  else s.finish

/-- FREQ_CHANGE_DONE (R409): the new point is in force. -/
def execFreqChangeDone (d : Nat) (s : State) : Host.Outcome State Fault Refusal :=
  (s.modDie d fun x =>
    if !x.freqRunning then x
    else { x with freqPoint := x.freqTo.getD x.freqPoint, freqTo := none, freqRunning := false }).finish

/-! ## Heat (R435) -/

/-- The point that the die is at, or going to. -/
def Die.nextPoint (d : Die) : BitVec 2 := d.freqTo.getD d.freqPoint

/-- A thermal step to a point, with its error-log entry (R434, R435). -/
def Die.stepTo (d : Die) (p : BitVec 2) : Die :=
  (d.logError 3 0 (toBytes 1 d.nextPoint.toNat ++ toBytes 1 p.toNat)).askFreq p

/-- The die stops: what runs on it ends, and its seams with it. -/
def Die.stop (d : Die) : Die := { d with phase := .down, groups := [] }

/-- A check's readings of one die. -/
def State.reading (s : State) (r : Thermal) : State :=
  s.modDie r.die fun x =>
    if x.phase ≠ .up then x else { x with tj := BitVec.ofNat 8 (sat 8 r.tj), power := BitVec.ofNat 8 (sat 8 r.power) }

/-- The dies that are up. -/
def State.upDies (s : State) : List Nat := (List.range 8).filter fun d => (s.die d).phase == .up

/-- The die that steps down: the hottest over 95 °C, else the one of highest POWER; the lowest number on a tie. -/
def State.stepsDown (s : State) : Option Nat :=
  let hot := s.upDies.filter fun d => 95 < (s.die d).tj.toNat
  if hot.isEmpty then leastBy (fun d => 255 - (s.die d).power.toNat) s.upDies
  else leastBy (fun d => 255 - (s.die d).tj.toNat) hot

/-- One die's step up, after 100 ms in which every check has found that it may; POINT never rises above REQ. -/
def Die.coolDown (d : Die) (package : Nat) : Die :=
  if ¬(package ≤ 680 ∧ d.tj.toNat ≤ 88) then { d with coolFrom := none }
  else
    let since := d.coolFrom.getD d.ps
    if since + 100000 * usec ≤ d.ps ∧ d.freqReq < d.nextPoint then { d.stepTo (d.nextPoint - 1) with coolFrom := some d.ps }
    else { d with coolFrom := some since }

/-- THERMAL_CHECK (R435): the management cores measure every die. At 0.80 GHz, 115 °C retires a die. -/
def execThermalCheck (readings : List Thermal) (s : State) : Host.Outcome State Fault Refusal :=
  let s := readings.foldl State.reading s
  let total := (s.upDies.map fun d => (s.die d).power.toNat).foldl (· + ·) 0
  let s := { s with power := total }
  let s := s.upDies.foldl (fun s d =>
    if 115 ≤ (s.die d).tj.toNat ∧ (s.die d).freqPoint = 2 then (s.modDie d fun x => (x.retire 7 0 0 6).stop).dieRetired d
    else s.modDie d fun x => x.coolDown total) s
  let down := 720 < total || s.upDies.any fun d => 95 ≤ (s.die d).tj.toNat
  match (if down then s.stepsDown else none) with
  | none => s.finish
  | some d => (s.modDie d fun x => if x.nextPoint = 2 then x else x.stepTo (x.nextPoint + 1)).finish

/-! ## The security alarm (R431 to R434) -/

/-- At level 3 the identity key store is zeroised, every group is killed, and the die's seams stop with it (R431). -/
def Die.alarmed (d : Die) : Die :=
  if d.alarm < 3 then d
  else { d with flash := { d.flash with identity := false }, groups := [], phase := if d.phase = .off then .off else .down }

/-- A die raises the alarm to a level, which only rises (R431, R432): `src` is the row of R432. A single signature
failure has an error-log code of its own. -/
def Die.raiseAlarm (d : Die) (level src : Nat) : Die :=
  let now := max d.alarm level
  let d := { d with alarm := now, alarmSrc := d.alarmSrc ||| BitVec.ofNat 6 (2 ^ src) }
  (if src = 5 then d.logError 4 0 [] else d.logError 2 src (toBytes 1 now)).alarmed

/-- The session key lies at die 0 and is erased from its level 2 on (R431). -/
def State.keyErased (s : State) : State :=
  if 2 ≤ (s.die 0).alarm then { s with host := { s.host with sessionKey := none } } else s

/-- The alarm of a die. -/
def State.raiseAlarm (s : State) (d level src : Nat) : State := (s.modDie d fun x => x.raiseAlarm level src).keyErased

/-- TAMPER (R432): level 3 on every die. -/
def execTamper (s : State) : Host.Outcome State Fault Refusal :=
  ((List.range 8).foldl (fun s d => s.raiseAlarm d 3 0) s).finish

/-- GLITCH (R432): level 2, or 3 on the third of one cold boot. -/
def execGlitch (d : Nat) (s : State) : Host.Outcome State Fault Refusal :=
  let s := s.modDie d fun x => { x with glitch := x.glitch + 1 }
  (s.raiseAlarm d (if 3 ≤ (s.die d).glitch then 3 else 2) 1).finish

/-- TEMPERATURE_ALARM (R432): a sensor above 125 °C or below −20 °C. -/
def execTemperatureAlarm (d : Nat) (celsius : Int) (s : State) : Host.Outcome State Fault Refusal :=
  (if 125 < celsius ∨ celsius < -20 then s.raiseAlarm d 2 2 else s).finish

/-- UNSIGNED_PERSISTENT_WRITE (R432). -/
def execUnsignedPersistentWrite (d : Nat) (s : State) : Host.Outcome State Fault Refusal := (s.raiseAlarm d 2 4).finish

end Sys2Proof.Machine
end

