-- ==== Sys2Proof/Machine/Reset.lean ====
section
/-! DEFINITION. Cold boot (R16 to R19, R24 to R26, R134, R429, R431), checkpoints (R404) and the warm reset (R136, R403 to
R406). -/

namespace Sys2Proof.Machine

/-! ## What a retirement table says (R16 to R19, R22) -/

/-- The table names a unit of a KIND. -/
def hasRetired (es : List RetEntry) (kind unit : Nat) : Bool := es.any fun e => e.kind == kind && e.unit == unit

/-- CLMAP of a physical cluster: the mask of its working cores, none when it is retired (R16). -/
def clusterByte (es : List RetEntry) (k : Nat) : Nat :=
  let mask := ((List.range 4).filter fun c => !hasRetired es 1 (4 * k + c)).foldl (fun m c => m + 2 ^ c) 0
  if hasRetired es 2 k ∨ mask = 0 then 0 else 128 + mask

/-- The mask of a stack's live channels, 0 when the stack is retired (R17). -/
def stackMask (es : List RetEntry) (st : Nat) : Nat :=
  let live := (List.range 32).filter fun c => !hasRetired es 3 (32 * st + c)
  if hasRetired es 4 st ∨ live.length < 24 then 0 else live.foldl (fun m c => m + 2 ^ c) 0

/-- The narrowest width code of a lane unit, 3 where nothing was retired. -/
def laneWidth (es : List RetEntry) (kind unit : Nat) : Nat :=
  (es.filter fun e => e.kind == kind && e.unit == unit).foldl (fun w e => min w e.width) 3

/-- A link's width at cold boot; both ends' entries count for a seam (R23). -/
def State.bootWidth (s : State) (d code : Nat) : Nat :=
  let own := (s.die d).flash.table.entries
  if code < 10 then min (laneWidth own 5 code) (laneWidth (s.die (seamPeer d code)).flash.table.entries 5 code)
  else laneWidth own 6 (code - 16)

/-- The configuration record at cold boot (R19, R25, R26); the seams of a die that is down are down. GEN starts again at 0
(DESIGN CHOICE: R25 says only that it is incremented after every change; log entry 89). -/
def State.bootConf (s : State) (d : Nat) (noBelay : Bool) : ConfRec :=
  let es := (s.die d).flash.table.entries
  let down := fun (e : Nat) => e != d && (s.die e).phase == .down
  let seam := fun (c : Nat) => if down (seamEnds c).1 || down (seamEnds c).2 then 0 else s.bootWidth (seamEnds c).1 c
  let c : ConfRec :=
    { bootClass := 0, liveClass := 0, gen := 0, ident := identWord s.pkg d (s.die d).flash.table.incarnation noBelay
      clmap := (List.range 32).map fun k => BitVec.ofNat 8 (clusterByte es k), cloff := List.replicate 32 0
      ch := [BitVec.ofNat 32 (stackMask es 0), BitVec.ofNat 32 (stackMask es 1)], choff := [0, 0]
      seams := (List.range 10).foldl (fun w c => w ||| BitVec.ofNat 32 (seam c * 4 ^ c)) 0
      retired := BitVec.ofNat 32 es.length }
  let code := c.bootCode (s.bootWidth d 17) (s.bootWidth d 16)
  { c with bootClass := code, liveClass := code }

/-- The die is live: a cluster and a stack are, and the die is not retired (R18). -/
def ConfRec.live (c : ConfRec) (es : List RetEntry) : Bool :=
  !hasRetired es 7 0 && !c.clusters.isEmpty && !c.channels.isEmpty

/-! ## Boot images (R428) -/

/-- A field of an image's header (R428). -/
def Image.field (m : Image) (o n : Nat) : Nat := ofBytes ((m.bytes.drop o).take n)

/-- SVN (R428). -/
def Image.svn (m : Image) : Nat := m.field 4 4

/-- Bytes of an image's header. -/
def imageHeader : Nat := 0x400

/-- The body of an image. -/
def Image.body (m : Image) : List Byte := m.bytes.drop imageHeader

/-- The header is that of an image of its slot's KIND, and SIG verifies over bytes 0x000 to 0x1FF and the body (R428). -/
def Image.verifies (m : Image) (key : List Byte) : Bool :=
  imageHeader ≤ m.bytes.length && m.field 0 4 == m.kind && m.field 8 8 == m.body.length && m.field 0x10 496 == 0
    && Config.imageSigOk key (m.bytes.take 0x200 ++ m.body) ((m.bytes.drop 0x200).take 0x200)

/-! ## Self-test (R16 to R18, R21 to R23) -/

/-- A KIND and UNIT that self-test can retire. -/
def testable (kind unit : Nat) : Bool :=
  match kind with
  | 1 => unit < 128
  | 2 => unit < 32
  | 3 => unit < 64
  | 4 => unit < 2
  | 7 => unit == 0
  | _ => false

/-- Retire a unit that is not yet retired, with the cause of the self-test (R22). -/
def Die.failTest (d : Die) (kind unit : Nat) : Die :=
  if testable kind unit && !hasRetired d.flash.table.entries kind unit then d.retire kind unit 0 7 else d

/-- What self-test finds is retired, with the clusters without a working core, the stacks with more than 8 dead channels and,
if it is not live, the die (R16 to R18). An entry for a unit that others take with it has CAUSE 7 too (DESIGN CHOICE, log
entry 104). -/
def State.selfTest (s : State) (d : Nat) : State :=
  let (n, s) := s.draw
  s.modDie d fun x =>
    let x := (Config.selfTest n).foldl (fun x u => x.failTest u.1 u.2) x
    let es := fun (x : Die) => x.flash.table.entries
    let x := (List.range 32).foldl (fun x k => if clusterByte (es x) k = 0 then x.failTest 2 k else x) x
    let x := [0, 1].foldl (fun x st => if stackMask (es x) st = 0 then x.failTest 4 st else x) x
    if (List.range 32).all (fun k => clusterByte (es x) k = 0) || [0, 1].all (fun st => stackMask (es x) st = 0) then x.failTest 7 0
    else x

/-! ## Coming up -/

/-- The port knows every die's incarnation, and the dies that are not up are lost from the start (R134, R135). -/
def State.bootPort (s : State) (d : Nat) (spill : Nat) : Port :=
  let away := (List.range 8).filter fun e => e != d && ((s.die e).phase == .down || (s.die e).phase == .scrapped)
  { Port.boot s.pkg 0 spill with
    known := (List.range 8).map fun e => (s.pkg * 8 + e, (s.die e).flash.table.incarnation)
    lost := away.map fun e => dieKey s.pkg e }

/-- A link's width as the die comes up: the seams of a die that is down are down (R18). -/
def State.upWidth (s : State) (d code : Nat) : Nat :=
  if code < 10 ∧ (s.die (seamPeer d code)).phase = .down then 0 else s.bootWidth d code

/-- The die's links come up at their widths, the other end of each seam starts afresh with it, and every die's record gives the
seam's width (R25). -/
def State.resetSeams (s : State) (d : Nat) : State :=
  let links := (s.die d).links.map fun l => { l with width := s.upWidth d l.code }
  (seamsOf d).foldl (fun s c =>
    let w := s.upWidth d c
    (s.modDie (seamPeer d c) fun x => x.modLink c fun _ => { Link.boot c with width := w, heard := x.ps, sent := x.ps }).seamCode c w
      [d]) (s.modDie d fun x => { x with links := links })

/-- The other ports of the package hold the die to be lost (R135). -/
def State.tellLost (s : State) (d : Nat) : State :=
  (s.upDies.filter (· != d)).foldl (fun s e => s.declareLost e d ((s.die e).port.knows s.pkg d)) s

/-- EPOCH of a live die of the package, which the die takes over (R43). -/
def State.liveEpoch (s : State) (d : Nat) : Word :=
  ((s.upDies.filter (· != d)).head?.map fun e => (s.die e).space.epoch).getD 0

/-- After its retirement table is settled: the die comes up, or does not (R18, R19, R429, R431). -/
def State.comeUp (s : State) (d : Nat) (noBelay : Bool) : State :=
  let s := s.selfTest d
  let x := s.die d
  let conf := s.bootConf d noBelay
  if !x.flash.identity then
    let port := s.bootPort d x.spillBase
    ((s.modDie d fun x => { x with phase := .scrapped, conf := conf, port := port }).resetSeams d).tellLost d
  else if !conf.live x.flash.table.entries then
    ((s.modDie d fun x => { x with phase := .down, conf := { conf with bootClass := 0, liveClass := 0 } }).tellLost d).dieRetired d
  else
    let s := s.modDie d fun x => { x with conf := conf, space := { Space.boot x.flash.table.qspill with epoch := s.liveEpoch d } }
    let port := s.bootPort d (s.die d).spillBase
    let s := s.modDie d fun x =>
      let t := x.flash.table
      let floors := (List.range 3).map fun i =>
        max (t.floors.getD i 0) (((x.used.find? fun m => m.kind == i + 1).map Image.svn).getD 0)
      { x with
        phase := .up, port := port
        flash := { x.flash with table := { t with floors := floors }, mirrorDue := x.flash.mirrorDue || noBelay || floors != t.floors } }
    let s := (s.resetSeams d).reroute []
    s.broadcast d Kind.incarn (s.die d).flash.table.incarnation 0

/-! ## The persistent tables and their mirror (R24, R429) -/

/-- The dies that a booting die reaches over the seams, as far as `fuel` hops (R15). -/
def State.reach (s : State) (fuel : Nat) (have_ : List Nat) : List Nat :=
  match fuel with
  | 0 => have_
  | fuel + 1 =>
    let more := (List.range 8).filter fun e => !have_.contains e && (List.range 10).any fun c =>
      let (a, b) := seamEnds c
      s.bootWidth a c != 0 && ((a == e && have_.contains b) || (b == e && have_.contains a))
    s.reach fuel (have_ ++ more.filter fun e => (s.die e).phase == .up)

/-- A die beside one that is reached. -/
def State.besideReached (s : State) (d e : Nat) : Bool :=
  (List.range 10).any fun c =>
    let (a, b) := seamEnds c
    s.bootWidth a c != 0 && ((a == e && (s.reach 7 [d]).contains b) || (b == e && (s.reach 7 [d]).contains a))

/-- The partner's management core answers a read of the mirror, over some route (R15, R24). -/
def State.mirrorReadable (s : State) (d : Nat) : Bool :=
  let p := s.die (belay d)
  (p.phase == .up || p.phase == .mirror) && s.besideReached d (belay d)

/-- The partner is retired or down, so it will not answer. -/
def State.mirrorGone (s : State) (d : Nat) : Bool :=
  (s.die (belay d)).phase == .down || (s.die (belay d)).phase == .scrapped

/-- The entries of a table with those of its mirror. -/
def unionTables (a b : List RetEntry) : List RetEntry := a ++ b.filter fun e => !a.contains e

/-- Valid tables with their valid mirror: the union of the entries, and the higher of two Floors, which only rise; the incarnation
and QSPILL are the die's own (DESIGN CHOICE: R24 speaks of entries; log entry 10). -/
def RetTable.union (a b : RetTable) : RetTable :=
  { a with entries := unionTables a.entries b.entries, floors := a.floors.zipWith max b.floors }

/-- The mirror's tables become the die's; this cold boot counts (R134). -/
def RetTable.adopted (t : RetTable) : RetTable := { t with incarnation := (t.incarnation + 1) % 256, valid := true }

/-- The tables are checked against the mirror; `late` when the bound for the mirror has run out. -/
def State.settleRetTable (s : State) (d : Nat) (late : Bool) : State :=
  let own := (s.die d).flash.table
  let mir := (s.die (belay d)).flash.mirror
  let use := fun (t : RetTable) (s : State) => s.modDie d fun x => { x with flash := { x.flash with table := t, mirrorDue := t != mir } }
  if s.mirrorReadable d then
    match own.valid, mir.valid with
    | true, true => (use (own.union mir) s).comeUp d false
    | true, false => ((use own s).raiseAlarm d 1 5).comeUp d false
    | false, true => ((use mir.adopted s).raiseAlarm d 1 5).comeUp d false
    | false, false => (s.modDie d fun x => { x with phase := .down }).raiseAlarm d 2 3
  else if own.valid && (late || s.mirrorGone d) then s.comeUp d true
  else s.modDie d fun x => { x with phase := .mirror }

/-- A partner that waits for its mirror is answered once this die's management core runs. -/
def State.answerPartner (s : State) (d : Nat) : State :=
  if (s.die (belay d)).phase = .mirror ∧ s.mirrorReadable (belay d) then s.settleRetTable (belay d) false else s

/-! ## COLD_BOOT (R429) -/

/-- The slots of an image, A before B. -/
def Flash.slots (f : Flash) (kind : Nat) : List Image :=
  (f.images.filter fun m => m.kind == kind && !m.slotB) ++ f.images.filter fun m => m.kind == kind && m.slotB

/-- The image of a KIND that is used. -/
def Flash.pick (f : Flash) (kind : Nat) : Option Image :=
  (f.slots kind).find? fun m => m.verifies f.calgalKey && f.table.floors.getD (kind - 1) 0 ≤ m.svn

/-- Some slot that is looked at before the image used has a signature that does not verify. -/
def Flash.badSlot (f : Flash) (kind : Nat) : Bool :=
  ((f.slots kind).takeWhile fun m => some m != f.pick kind).any fun m => !m.verifies f.calgalKey

/-- The slots are checked KIND by KIND: one that does not verify raises the alarm to level 1 (R432), and the first KIND of which
neither slot will do ends the boot. Whether every KIND had an image. -/
def State.checkImages (s : State) (d : Nat) (kinds : List Nat) : Bool × State :=
  match kinds with
  | [] => (true, s)
  | k :: rest =>
    let f := (s.die d).flash
    let s := if f.badSlot k then s.raiseAlarm d 1 5 else s
    if (f.pick k).isNone then (false, s) else s.checkImages d rest

/-- The host port takes the operator's key, its addresses, its tag and the management port from the operator configuration image
(R420, R423, R428). -/
def HostPort.configured (h : HostPort) (body : List Byte) : HostPort :=
  let c := Config.operatorConf body
  { h with operatorKey := c.key, unicast := c.unicast, linkLocal := c.linkLocal, tag := c.tag, mgmtPort := c.mgmtPort }

/-- The die is off, with its flash; its count of cold boots and its incarnation rise (R134). -/
def Die.powered (d : Die) (pkg i : Nat) : Die :=
  { Die.boot pkg i with
    phase := .off
    flash := { d.flash with
      boots := d.flash.boots + 1, table := { d.flash.table with incarnation := (d.flash.table.incarnation + 1) % 256 }, mirrorDue := true }
    used := [] }

/-- A cold boot of a die. What the die kept for its partner is gone with its memory, and what its partner keeps is of the
die as it was. -/
def State.coldBoot (s : State) (d : Nat) : State :=
  let s := s.modDie d fun x => x.powered s.pkg d
  let s := s.modDie (belay d) fun x => { x with kept := [], keptLog := [] }
  let s := if d = 0 then
      { s with host := { s.host with sessionKey := none, seq := 0, failures := 0, conns := [], relays := [], awaiting := [] } }
    else s
  let f := (s.die d).flash
  let kinds := [1, 2, 3]
  if sha512 f.calgalKey ≠ Config.romDigest then (s.modDie d fun x => { x with phase := .down }).tellLost d
  else
  let (ok, s) := s.checkImages d kinds
  if !ok then ((s.modDie d fun x => { x with phase := .down }).raiseAlarm d 2 3).tellLost d
  else
    let s := s.modDie d fun x => { x with used := kinds.filterMap f.pick }
    let s := match f.pick 3 with
      | some m => if d = 0 then { s with host := s.host.configured m.body } else s
      | none => s
    (s.settleRetTable d false).answerPartner d

/-- COLD_BOOT (R429): the images, the retirement tables, the numbering and the configuration record. -/
def execColdBoot (d : Nat) (s : State) : Host.Outcome State Fault Refusal :=
  if d < 8 then (s.coldBoot d).finish else s.finish

/-- BELAY_MIRROR_TIMEOUT (R24): the bound of 1 s runs out; the die goes on with its own valid table, or tries again. -/
def execBelayMirrorTimeout (d : Nat) (s : State) : Host.Outcome State Fault Refusal :=
  if (s.die d).phase = .mirror ∧ 1000000 * usec ≤ (s.die d).ps then (s.settleRetTable d true).finish else s.finish

/-! ## Checkpoints (R403, R404) -/

/-- The state that a checkpoint holds. -/
def State.checkpoint (s : State) (d : Nat) : Checkpoint :=
  let x := s.die d
  ⟨x.port, x.sched, x.space, if d = 0 then s.host.conns else []⟩

/-- A checkpoint is due (R404): 100 ms after the last, at a phase boundary, or when the log has passed half of its 1 GiB; and no
image is on its way. -/
def Die.checkpointDue (d : Die) : Bool :=
  (d.cpAt + 100000 * usec ≤ d.ps || d.cpDue || gib / 2 < d.logPos) && d.belayQ.all fun b => match b.item with
    | .image .. => false
    | .entry _ => true

/-- The state of the die at this instant is on its way to the partner, in as many SAVEs as its image takes (R404). -/
def State.sendCheckpoint (s : State) (d : Nat) : State :=
  let cp := s.checkpoint d
  let (n, s) := s.draw
  s.modDie d fun x => { x with
    belayQ := x.belayQ ++ [⟨.image cp 0 (Config.imageParts n % 131072 + 1), []⟩], cpAt := x.ps, cpDue := false }

/-- CHECKPOINT (R404). -/
def execCheckpoint (d : Nat) (s : State) : Host.Outcome State Fault Refusal :=
  if (s.die d).phase = .up ∧ (s.die d).stopped = none ∧ s.hasBelay d ∧ (s.die d).checkpointDue then (s.sendCheckpoint d).finish
  else s.finish

/-! ## Replaying the log (R406 steps 4 to 6) -/

/-- Ticket a comes before b, as serial numbers modulo 2^48 (R115). -/
def ticketBefore (a b : Nat) : Bool := a != b && (b + 2 ^ 48 - a) % 2 ^ 48 < 2 ^ 47

/-- Insert a ticket in ticket order. -/
def insertTicket (t : Ticket) (l : List Ticket) : List Ticket :=
  (l.takeWhile fun u => ticketBefore u.num t.num) ++ t :: l.dropWhile fun u => ticketBefore u.num t.num

/-- A logged PUT or RPUT commits its element, unless the ticket has it already (R116). Reservations are not logged, so
the ticket may be newer than the checkpoint. -/
def Queue.replayPut (q : Queue) (m : Msg) (now : Nat) : Queue :=
  let t : Ticket := ⟨m.ticket, m.ticket, .committed, m.producer, 0, m.bytes, m.bad, m.dom, m.pn, m.mseq, false, now, none⟩
  match q.tickets.find? fun u => u.num == m.ticket with
  | some u => if u.st = .granted then q.modTicket m.ticket fun u => { t with grant := u.grant, prod := u.prod } else q
  | none => { q with tickets := insertTicket t q.tickets, next := if ticketBefore m.ticket q.next then q.next else (m.ticket + 1) % 2 ^ 48 }

/-- An element becomes TAKEN. -/
def Queue.replayTaken (q : Queue) (ticket : Nat) : Queue :=
  q.modTicket ticket fun t => { t with st := .taken, taker := none, delivered := true }

/-- One log entry. -/
def Die.replayEntry (d : Die) (e : LogEntry) : Die :=
  match e with
  | .message m =>
    if m.kind = Kind.put ∨ m.kind = Kind.rput then
      d.modQueue m.qidx fun q => if q.gen = m.qgen then q.replayPut m d.ps else q
    else d.cancelGrant m.qidx m.ticket m.producer
  | .assigned i t => d.modQueue i fun q => q.replayTaken t
  | .took i t _ => d.modQueue i fun q => q.replayTaken t
  | .irrevocable _ => d
  | .settled _ => d

/-- Every ticket still GRANTED becomes a HOLE, and no waiter record is left (R136); a TAKEN element whose bytes a connection has
still to have acknowledged keeps its capacity (R148). -/
def Queue.afterReset (q : Queue) (unacked : Nat → Nat → Bool) : Queue :=
  { q with waiters := []
           tickets := q.tickets.map fun t =>
             if t.st = .granted then { t with st := .hole }
             else if t.st = .taken then { t with delivered := !unacked q.index t.num, taker := none } else t }

/-- The ticket of a queue stands unacknowledged on an OPEN connection. -/
def unackedOn (conns : List Conn) (index ticket : Nat) : Bool :=
  conns.any fun c => c.state == 0 && bits c.outq.toNat 44 29 == index && c.unacked.any fun u => u.ticket == ticket

/-- The port as the checkpoint has it; what was on its way is gone. The counters of QERR and the MSEQs go on. -/
def Port.afterReset (p old : Port) (conns : List Conn) : Port :=
  { p with
    queues := p.queues.map (·.afterReset (unackedOn conns)), inbox := [], riding := [], requests := [], cmds := [], names := []
    reassembly := [], doneRecs := [], transit := [], moves := [], waiting := [], arrivals := []
    registrations := p.registrations.map fun r => { r with admitted := 0 }
    bad := old.bad, evlost := old.evlost, stale := old.stale, incomplete := old.incomplete, dropped := old.dropped
    mseq := old.mseq, known := old.known, lost := old.lost }

/-! ## Settling the records (R406 step 7) -/

/-- A record that was taken and is not settled, and whether it is past running again. -/
structure Unsettled where
  rec_ : TaskRec
  final : Bool
deriving DecidableEq, Repr, Inhabited

/-- The records that the scheduler had taken, from the restored state and the log, one for each name. -/
def Sched.unsettled (x : Sched) (log : List LogEntry) : List Unsettled :=
  let irr := log.filterMap fun e => match e with
    | .irrevocable r => some r
    | _ => none
  let done := log.filterMap fun e => match e with
    | .settled r => some r
    | _ => none
  let took := log.filterMap fun e => match e with
    | .took _ _ r => some r
    | _ => none
  let all := (x.nodes.map fun n => ⟨n.rec_, !n.revocable⟩)
    ++ (x.trans.map fun t => ⟨t.rec_, t.stage.isSome⟩) ++ (x.hold ++ x.ready ++ took).map fun r => ⟨r, false⟩
  let all := all.foldl (fun (l : List Unsettled) u => if l.any fun v => v.rec_.rid == u.rec_.rid then l else l ++ [u]) []
  (all.filter fun u => !done.contains u.rec_.rid).map fun u =>
    { u with final := u.final || irr.contains u.rec_.rid || 2 ≤ u.rec_.retries }

/-- A record is put back ahead of its class, or its counter gets KILLED. -/
def Die.settleOne (d : Die) (u : Unsettled) : Die :=
  if u.final then d.discardRecord u.rec_ St.killed
  else d.modSched fun y => { y with again := { u.rec_ with retries := u.rec_.retries + 1 } :: y.again }

/-- The registered arrivals that the die's groups, nodes, bulk prefetches and held signals will not make are dropped
(R176). -/
def Die.dropRegistered (d : Die) (nodes : List Node) : Die :=
  let d := nodes.foldl (fun d n =>
    let left := (d.groups.filter fun g => g.node == n.nid && g.phase == .tracked && !g.dead).length
    let d := d.dropOwed n
    let k := if n.stage.isSome then 1 else left
    (List.range k).foldl (fun d _ => d.register n.rec_.pn n.rec_.done false) d) d
  let fetches := d.cores.flatMap fun (_, c) => c.prefetches.filter fun p => p.cc != 0
  let d := fetches.foldl (fun d p => d.register p.pn p.cc.toNat false) d
  (d.sched.hold.filter TaskRec.isSignal).foldl (fun d r => d.register r.pn r.done false) d

/-! ## WARM_RESET (R406) -/

/-- Dirty committed lines are written back, or all of general memory becomes poison-pending; tentative lines and the
staging reserve are discarded (step 1). -/
def State.flushSlices (s : State) (d : Nat) (lost : Bool) : State :=
  s.modDie d fun x =>
    let x := { x with l2 := x.l2.filter fun l => l.node.isNone }
    let x := x.modSched fun y => { y with nodes := y.nodes.map fun n => { n with tent := [] } }
    if lost then { x with l2 := [], poisonPending := [(0, x.spillBase / 32)] } else x.l2.foldl (fun x l => x.evict l) x

/-- The memory controllers after a warm reset: their registers at reset, but for the counters, the scrub position and
the hardware's marks (R101, R103). -/
def MemCtl.afterReset (m : MemCtl) : MemCtl := { m with mchot := 0, hot := [] }

/-- What is left of the die when every unit is reset; saved groups lose their open streams, and their tiles read
poisoned (step 3). -/
def Die.resetUnits (d : Die) : Die :=
  { d with
    l2 := [], cores := [], clusters := [], memctl := d.memctl.afterReset, freqTo := none, freqRunning := false
    groups := d.groups.map fun g => { g with tiles := g.tiles.map fun t => { t with poison := true } } }

/-- Routes around a die that is resetting, and its links started afresh at their widths. -/
def State.resetLinks (s : State) (d : Nat) : State :=
  let fresh := fun (x : Die) (c : Nat) => x.modLink c fun l => { Link.boot c with width := l.width, heard := x.ps, sent := x.ps }
  let s := (s.modDie d fun x => { x with phase := .down }).reroute (seamsOf d)
  let s := (seamsOf d).foldl (fun s c => (s.modDie d fun x => fresh x c).modDie (seamPeer d c) fun x => fresh x c) s
  let s := s.modDie d fun x => { (fresh (fresh x 16) 17) with phase := .up }
  s.reroute []

/-- The checkpoint that a reset starts from: the newest one, else the state at cold boot. -/
def State.newest (s : State) (d : Nat) : Checkpoint :=
  let x := s.die d
  (s.die (belay d)).kept.headD ⟨s.bootPort d x.spillBase, Sched.boot, Space.boot x.space.qspill, []⟩

/-- Steps 4 to 7 of R406. `groups` are the saved groups that survive, `keep` the nodes that lost none. -/
def Die.restart (d : Die) (cp : Checkpoint) (log : List LogEntry) (planned : Bool) (keep : List Nat) : Die :=
  let broken := cp.sched.nodes.filter fun n => !keep.contains n.nid
  let lost := if planned then { cp.sched with nodes := broken, trans := [], hold := [], ready := [] } else cp.sched
  let held := fun (x : Sched) => if planned then x else { x with trans := [], hold := [], ready := [] }
  let us := lost.unsettled log
  let d := { d with port := cp.port, space := { cp.space with epoch := d.space.epoch, xinv := none, xinvHeld := [] } }
  let d := log.foldl Die.replayEntry d
  let d := { d with sched := held { cp.sched with
    nodes := cp.sched.nodes.filter fun n => keep.contains n.nid, discard := d.sched.discard, notices := [], moves := []
    balanceAt := d.ps
    saveUsed := d.groups.filterMap fun g => match g.phase with
      | .swapped k _ => some k
      | _ => none } }
  us.reverse.foldl Die.settleOne d

/-- The groups that a warm reset kills (step 2): all but those that a planned one has saved. A saved group's node goes on, and
has KILLED of the groups it loses (DEDUCED, log entry 105). -/
def State.endGroups (s : State) (d : Nat) (saved : List Nat) (keep : List Nat) : State :=
  let gone := (s.die d).groups.filter fun g => !g.dead && g.phase != .tracked && !saved.contains g.gid
  let s := gone.foldl (fun s g => if keep.contains g.node then s.killWith d g.gid St.killed else s.killGroup d g.gid) s
  s.modDie d fun x => { x with groups := x.groups.filter fun g => saved.contains g.gid }

/-- The connections of die 0 as the checkpoint and the log have them: an element that the log says was sent stands unacknowledged,
and is sent again (R147, R148, R405). -/
def State.restoreConns (s : State) (conns : List Conn) (log : List LogEntry) : List Conn × State :=
  log.foldl (fun (r : List Conn × State) e =>
    match e with
    | .assigned i t =>
      let mine := fun (c : Conn) => c.state == 0 && bits c.outq.toNat 44 29 == i
      match ((r.2.die 0).queue? i).bind fun q => (q.tickets.find? fun u => u.num == t).filter fun _ => r.1.any mine with
      | some u =>
        let (bs, s) := r.2.openBytes u
        (modWhere mine (fun c => c.sentOne t bs (s.die 0).ps true) r.1, s)
      | none => r
    | _ => r) (conns.map fun c => { c with data := none }, s)

/-- Steps 1 and 2 of R406: the nodes that lost no group, and the state. `lost` when a slice cannot write its dirty lines back. What
a planned reset's checkpoint holds stays registered. -/
def State.stopDie (s : State) (d : Nat) (planned lost : Bool) : List Nat × State :=
  let s := s.flushSlices d lost
  let x := s.die d
  let saved := if planned then (x.groups.filter fun g => g.isSwapped && !g.dead).map Group.gid else []
  let lostOne := fun (n : Node) => x.groups.any fun g => g.node == n.nid && !saved.contains g.gid
  let hasSaved := fun (n : Node) => x.groups.any fun g => g.node == n.nid && saved.contains g.gid
  let keep := if planned then (x.sched.nodes.filter fun n => hasSaved n || !lostOne n).map Node.nid else []
  let s := s.endGroups d saved keep
  (keep, s.modDie d fun x =>
    let held := if planned then x.sched.hold else []
    let y := (x.modSched fun y => { y with hold := if planned then [] else y.hold }).dropRegistered
      (x.sched.nodes.filter fun n => !keep.contains n.nid)
    if planned then y.modSched fun z => { z with hold := held } else y)

/-- Steps 3 to 8 of R406. The management core is a unit that is reset: its session, and what it has taken and not performed or not
replied to, are gone (DESIGN CHOICE, log entry 111). -/
def State.restartDie (s : State) (d : Nat) (planned : Bool) (keep : List Nat) : State :=
  let cp := s.newest d
  let log := (s.die (belay d)).keptLog
  let old := (s.die d).port
  let s := (s.modDie d Die.resetUnits).resetLinks d
  let s := s.modDie d fun x => x.restart cp log planned keep
  let (conns, s) := if d = 0 then s.restoreConns cp.conns log else ([], s)
  let s := s.modDie d fun x =>
    let x := { x with port := x.port.afterReset old conns }
    (x.port.registrations.filter fun r => r.state == 2).foldl (fun x r => x.freeRevoked r.index) x
  -- step 8
  let s := s.modDie d fun x =>
    let inc := (x.flash.table.incarnation + 1) % 256
    let x := { x with
      flash := { x.flash with table := { x.flash.table with incarnation := inc }, mirrorDue := true }
      conf := { x.conf with ident := identWord s.pkg d inc (bit x.conf.ident.toNat 4), gen := x.conf.gen + 1 } }
    let x := (x.modPort fun p => { p with known := tput p.known (dieKey s.pkg d) inc }).logError 5 0 []
    { x with resetDue := false, stopped := none, belayQ := [], belayBusy := false, gather := [], mgmtIn := [], mgmtOut := [] }
  let s := if d = 0 then
      { s with host := { s.host with sessionKey := none, seq := 0, conns := conns, relays := [], awaiting := [] } }
    else s
  s.broadcast d Kind.incarn (s.die d).flash.table.incarnation 0

/-- An unplanned warm reset; `lost` when a slice cannot write its dirty lines back. -/
def State.warmReset (s : State) (d : Nat) (lost : Bool) : State :=
  let (keep, s) := s.stopDie d false lost
  s.restartDie d false keep

/-- A planned reset stops the die and takes its checkpoint, which goes to the partner in SAVEs (R2, R128, R404, R406). -/
def State.beginReset (s : State) (d : Nat) (lost : Bool) : State :=
  let (keep, s) := s.stopDie d true lost
  (s.sendCheckpoint d).modDie d fun x => { x with stopped := some keep }

/-- A reset of a die with whether a slice fails to write its lines back; a die without a belay partner takes a cold one
(R403). -/
def State.resetDie (s : State) (d : Nat) (lost : Bool) : State :=
  if !s.hasBelay d then s.coldBoot d else s.warmReset d lost

/-- The pre-emptions of a planned reset: as many resident groups as there are free records, lowest place first (R377). -/
def State.preemptAll (s : State) (d : Nat) : State :=
  let todo := (s.die d).groups.filter fun g => g.phase == .resident && g.saveRec.isNone
  todo.foldl (fun s g =>
    match (s.die d).sched.freeRecord with
    | some k => s.preempt d g.gid k false
    | none => s) s

/-- Groups that hold a record are still being saved, or the tracker still drains. -/
def Die.saving (d : Die) : Bool :=
  d.groups.any fun g => (g.phase == .resident && g.saveRec.isSome) || (g.phase == .tracked && !g.dead)

/-- What a planned reset does next: it pre-empts every resident group for which a record is free, and waits until they are saved
and the replies that the management core owes are sent; then it stops the die and takes its checkpoint; and once that is with the
partner the die restarts. -/
def State.plannedReset (s : State) (d : Nat) : State :=
  match (s.die d).stopped with
  | some keep => if (s.die d).belayQ.isEmpty then s.restartDie d true keep else s
  | none =>
    let s := s.preemptAll d
    if (s.die d).saving || !(s.die d).mgmtOut.isEmpty then s
    else
      let (n, s) := s.draw
      s.beginReset d (Config.freeLost n)

/-- WARM_RESET (R403, R406). A die without a belay partner takes a cold reset. A planned reset is one that MGMT_RESET has
ordered. -/
def execWarmReset (d : Nat) (planned : Bool) (s : State) : Host.Outcome State Fault Refusal :=
  if (s.die d).phase ≠ .up ∨ (planned ∧ !(s.die d).resetDue) then s.finish
  else if !s.hasBelay d then (s.coldBoot d).finish
  else if planned then (s.plannedReset d).finish
  else
    let (n, s) := s.draw
    (s.warmReset d (Config.freeLost n)).finish

/-! ## Units that go offline (R20, R83, R410) -/

/-- UNIT_OFFLINE (R20, R410): a core (KIND 1) after a roped repeat or an error in its issue state; a cluster (2) after
two checker repeats in one epoch or a failure of its L2 tags; a channel (3) after 64 uncorrectable sectors. Where the failed
tags leave the slice unable to name its dirty lines, the die resets (R83). -/
def execUnitOffline (d kind unit cause : Nat) (s : State) : Host.Outcome State Fault Refusal :=
  let x := s.die d
  if x.phase ≠ .up then s.finish
  else
    match kind with
    | 1 =>
      match (List.range x.numCores).find? fun l => x.conf.cores.getD l (0, 0) == (unit / 4, unit % 4) with
      | some l => if x.coreOffline l ∨ !(cause == 1 || cause == 2) then s.finish else (s.coreOff d l unit cause (List.range 32)).finish
      | none => s.finish
    | 2 =>
      match (List.range x.numClusters).find? fun l => x.physCluster l == unit with
      | some l =>
        if x.clusterOffline l ∨ !(cause == 2 || (cause == 3 && 2 ≤ (x.cluster l).repeats)) then s.finish
        else
          let (n, s) := s.draw
          let lost := cause == 2 && Config.freeLost n
          let s := s.clusterOff d l unit cause lost
          (if lost then s.resetDie d true else s).finish
      | none => s.finish
    | 3 =>
      match (List.range x.numChannels).find? fun k => x.conf.channels.getD k (0, 0) == (unit / 32, unit % 32) with
      | some k =>
        if x.channelOffline k ∨ cause ≠ 2 ∨ tgetD x.memctl.chUncorr k 0 < 64 then s.finish
        else (s.modDie d fun x => (x.retire 3 unit 0 cause).publish fun c => c.setChOff (unit / 32) (unit % 32)).finish
      | none => s.finish
    | _ => s.finish

end Sys2Proof.Machine
end

