-- ==== Sys2Proof/Machine/HostLink.lean ====
section
/-! DEFINITION. The host port's connections (R145 to R148) and neighbour discovery (R420). -/

namespace Sys2Proof.Machine

/-! ## Frames (R420) -/

/-- Bytes in network order as a number. -/
def netNat (bs : List Byte) : Nat := ofBytes bs.reverse

/-- A one's complement sum of 16-bit words in network order, on from a sum. -/
def onesSum (t : Nat) : List Byte → Nat
  | a :: b :: rest =>
    let x := t + a.toNat * 256 + b.toNat
    onesSum (x % 65536 + x / 65536) rest
  | [a] =>
    let x := t + a.toNat * 256
    x % 65536 + x / 65536
  | [] => t

/-- The longest frames that the port takes, from the destination address through the FCS. -/
def frameLimit (tagged : Bool) : Nat := if tagged then 9014 else 9010

/-- The datagram that a frame brings: an IPv6 frame without extension headers that carries UDP with a valid checksum, untagged
or with the operator's one 802.1Q tag. Every other frame is discarded. A frame whose FCS fails is no frame of the standard's
(R419). -/
def readHostFrame (tag : Option (BitVec 12)) (fr : List Byte) : Option Packet :=
  let f := fun (o n : Nat) => netNat ((fr.drop o).take n)
  let n := fr.length
  let tagged := f 12 2 == 0x8100
  let o := if tagged then 18 else 14
  let len := f (o + 4) 2
  let udp := ((fr.drop (o + 40)).take len)
  let sum := onesSum 0 (((fr.drop (o + 8)).take 32) ++ [0, 0] ++ (toBytes 2 len).reverse ++ [0, 0, 0, 17] ++ udp)
  if frameLimit tagged < n ∨ n < o + 52 ∨ n < o + 40 + len + 4 ∨ ofBytes (fr.drop (n - 4)) ≠ crc32 (fr.take (n - 4))
      ∨ (tagged ∧ tag ≠ some (BitVec.ofNat 12 (f 14 2 % 4096))) ∨ f (o - 2) 2 ≠ 0x86DD ∨ f o 1 / 16 ≠ 6 ∨ f (o + 6) 1 ≠ 17
      ∨ len < 8 ∨ netNat ((udp.drop 4).take 2) ≠ len ∨ netNat ((udp.drop 6).take 2) = 0 ∨ sum ≠ 0xFFFF then none
  else
    some ⟨BitVec.ofNat 128 (f (o + 8) 16), BitVec.ofNat 128 (f (o + 24) 16), BitVec.ofNat 16 (netNat (udp.take 2)),
      BitVec.ofNat 16 (netNat ((udp.drop 2).take 2)), BitVec.ofNat 2 (f o 2 / 16 % 4), udp.drop 8⟩

/-- The datagram that a frame brings to the port. -/
def State.hostFrame (s : State) (fr : List Byte) : Option Packet := readHostFrame s.host.tag fr

/-! ## Datagrams (R145) -/

/-- The address is one of the port's own (R420). -/
def HostPort.owns (h : HostPort) (a : BitVec 128) : Bool := a == h.unicast || a == h.linkLocal

/-- The header that a payload starts with, none when a reserved bit is set or TYPE is not listed. -/
def readTransport (bs : List Byte) : Option Transport :=
  let x := ofBytes (bs.take 32)
  let ty := bits x 255 248
  if bs.length < 32 ∨ bits x 247 241 ≠ 0 ∨ bits x 79 0 ≠ 0 ∨ !(ty == 1 || ty == 2) then none
  else some ⟨ty, bit x 240, bits x 239 224, bits x 223 176, bits x 175 128, bits x 127 96, bits x 95 80⟩

/-- Largest datagram. -/
def datagramLimit : Nat := 8944

/-- ESIZE of a connection's queues: of its outbound queue, or of its inbound queue where that one is gone. -/
def State.connEsize (s : State) (c : Conn) : Option Nat :=
  ((s.queueOfQid c.outq).orElse fun _ => s.queueOfQid c.inq).map Queue.esize

/-- The datagram belongs to an OPEN connection, keeps R145, and no alarm holds back queue traffic (R431): its header and
element size. -/
def State.inbound (s : State) (type : Nat) (p : Packet) : Option (Transport × Conn × Nat) :=
  if !s.hostUp || 2 ≤ (s.die 0).alarm || !s.host.owns p.dst then none
  else
    match readTransport p.bytes with
    | none => none
    | some t =>
      match s.host.conns.find? fun c => c.index == t.conn && c.state == 0 && c.peer == p.src && c.pport == p.sport
          && c.lport == p.dport with
      | none => none
      | some c =>
        match s.connEsize c with
        | none => none
        | some e =>
          if t.type = type ∧ p.bytes.length = 32 + t.nelem * 2 ^ e ∧ p.bytes.length ≤ datagramLimit then some (t, c, e) else none

/-! ## HOST_DATA (R148) -/

/-- One element is put into a ticket that the connection holds on a queue of die 0. -/
def State.putFrom (s : State) (c : Conn) (ticket : Nat) (bs : List Byte) : State :=
  let (pn, s) := s.freePn
  let m := { c.msg Kind.put c.inq pn with
    spkg := s.pkg, ticket := ticket, bytes := bs, mlen := bs.length, inc := (s.die 0).incarnation }
  match (s.die 0).queue? m.qidx with
  | none => s
  | some q =>
    let (st, x) := (s.die 0).commit q ticket (s.connProducer c) false false bs bs.length [] c.dom 0
    s.modDie 0 fun _ =>
      (if st = St.ok then x.belayLog (.message m) else x).modQueue q.index fun q => q.modTicket ticket fun t => { t with pn := pn }

/-- The elements of a datagram go to an INQ of die 0, all or none: the state when they were taken. -/
def State.putHere (s : State) (c : Conn) (q : Queue) (i : Incoming) : Option State :=
  let ((st, first), x) := (s.die 0).reserve q.index q.gen c.dom i.els.length (s.connProducer c) 0
  if st ≠ St.ok then none
  else
    ((s.modDie 0 fun _ => x).withReplies c (q.ckind == 3) i.els).map fun (els, s) =>
      (els.zipIdx.foldl (fun s (b, k) => s.putFrom c ((first + k) % 2 ^ 48) b) s).acceptData c i

/-- The elements of a datagram go to INQ (R148). On another die they go as every transfer between ports (R126): its tickets are
reserved by a message, and the datagram waits for the answer; one that comes meanwhile is dropped. -/
def State.takeData (s : State) (c : Conn) (i : Incoming) : State :=
  let d := bits c.inq.toNat 47 45
  match s.queueOfQid c.inq with
  | none => s
  | some q =>
    if d = 0 then (s.putHere c q i).getD s
    else if c.data.isSome ∨ (s.die 0).port.holdsLost s.pkg d then s
    else
      (s.modConn c.index fun c => { c with data := some i }).request 0 (.host c.index)
        { c.msg Kind.resv c.inq 0 with arg0 := BitVec.ofNat 64 i.els.length }

/-- Payload elements of a size. -/
def elementsOf (size n : Nat) (bs : List Byte) : List (List Byte) :=
  (List.range n).map fun i => (bs.drop (32 + i * size)).take size

/-- HOST_DATA (R145, R148). Every second accepted datagram is acknowledged at once. -/
def execHostData (fr : List Byte) (s : State) : Host.Outcome State Fault Refusal :=
  match s.hostFrame fr with
  | none => s.finish
  | some p =>
    match s.inbound 1 p with
    | none => s.finish
    | some (t, c, e) =>
      if t.seq ≠ c.rcvNxt then s.finish
      else (s.takeData c ⟨elementsOf (2 ^ e) t.nelem p.bytes, t.rwin, p.ecn == 3⟩).finish

/-- HOST_ACK_SEND (R148). -/
def execHostAckSend (conn : Nat) (s : State) : Host.Outcome State Fault Refusal :=
  match s.host.conns.find? fun c => c.index == conn && c.state == 0 && 0 < c.ackDue with
  | none => s.finish
  | some c => if s.hostUp && (s.die 0).alarm < 2 then (s.sendAck c).finish else s.finish

/-! ## The congestion window (R147) -/

/-- The distance from one byte sequence to another, mod 2^48. -/
def seqDist (a b : Nat) : Nat := (b + 2 ^ 48 - a) % 2 ^ 48

/-- CWND is halved, unless it was within the last SRTT, or RTO while SRTT is unset. -/
def Conn.halve (c : Conn) (now : Nat) : Conn :=
  if c.halvedAt.any fun h => now < h + c.srtt.getD c.rto then c
  else { c with cwnd := max 4096 (c.cwnd / 2), halvedAt := some now }

/-- A sample of data that was not retransmitted. -/
def Conn.sample (c : Conn) (x : Nat) : Conn :=
  let srtt := match c.srtt with
    | none => x
    | some v => (7 * v + x) / 8
  { c with srtt := some srtt, rto := max (100 * usec) (2 * srtt), timeouts := 0 }

/-- What a connection does with an acknowledgement at a time: the elements that are wholly acknowledged leave it; the
newest of them gives the sample. An element acknowledged in part stays whole, and is sent again from its start (DESIGN CHOICE,
log entry 101). -/
def Conn.acknowledge (c : Conn) (t : Transport) (now : Nat) : Conn :=
  let a := seqDist c.sndUna t.ackn
  let fresh := 0 < a && a ≤ seqDist c.sndUna c.sndNxt
  let c := { c with rwin := t.rwin }
  let c := if t.ece then c.halve now
    else if fresh then { c with cwnd := min 16777216 (c.cwnd + 4096 * a / c.cwnd) } else c
  if !fresh then c
  else
    let done := fun (u : Unacked) => seqDist (u.seq + u.bytes.length) t.ackn < 2 ^ 47
    let c' := match (c.unacked.filter fun u => done u && !u.again).getLast? with
      | some u => c.sample (now - u.sentAt)
      | none => c
    { c' with sndUna := t.ackn, unacked := c.unacked.filter fun u => !done u }

/-- HOST_ACK (R147). An element that is acknowledged gives its capacity back (R148). -/
def execHostAck (fr : List Byte) (s : State) : Host.Outcome State Fault Refusal :=
  match s.hostFrame fr with
  | none => s.finish
  | some p =>
    match s.inbound 2 p with
    | none => s.finish
    | some (t, c, _) =>
      let c' := c.acknowledge t (s.die 0).ps
      let gone := c.unacked.filter fun u => !c'.unacked.contains u
      ((s.dropUnacked { c with unacked := gone }).modConn c.index fun _ => c').finish

/-! ## Sending (R147, R148) -/

/-- Elements that one datagram holds. -/
def perDatagram (e : Nat) : Nat := (datagramLimit - 32) / 2 ^ e

/-- Bytes sent and not acknowledged. -/
def Conn.inFlight (c : Conn) : Nat := seqDist c.sndUna c.sndNxt

/-- One outbound element becomes TAKEN and stands unacknowledged. -/
def State.sendElement (s : State) (c : Conn) (t : Ticket) : (List Byte × Conn) × State :=
  let idx := bits c.outq.toNat 44 29
  let (bs, s) := s.openBytes t
  let s := s.modDie 0 fun x => (x.take idx t.num none false).belayLog (.assigned idx t.num)
  let c := c.sentOne t.num bs (s.die 0).ps false
  ((bs, c), s)

/-- The connection can send an element of its outbound queue now (R147). -/
def State.canSend (s : State) (c : Conn) (q : Queue) : Bool :=
  c.state == 0 && c.outq == qid s.pkg 0 q.index q.gen && s.hostUp && (s.die 0).alarm < 2
    && c.inFlight + 2 ^ q.esize ≤ min c.cwnd c.rwin

/-- The outbound queue that the port serves next, of those whose connection can send (R118, R376). -/
def State.nextOutbound (s : State) : Option Queue :=
  if (s.die 0).phase ≠ .up ∨ (s.die 0).stopped.isSome then none
  else (s.die 0).nextServed fun q => q.ckind == 4 && s.host.conns.any fun c => s.canSend c q

/-- HOST_DATA_SEND (R147, R148, R376): the next element of the queue goes out, in a datagram of its own (DESIGN CHOICE: the
spec does not say how many new elements a datagram takes; log entry 107). -/
def execHostDataSend (conn : Nat) (s : State) : Host.Outcome State Fault Refusal :=
  match s.host.conns.find? fun c => c.index == conn && c.state == 0 with
  | none => s.finish
  | some c =>
    match s.nextOutbound.filter fun q => s.canSend c q with
    | none => s.finish
    | some q =>
      match q.eligible.head? with
      | none => s.finish
      | some t =>
        let ((b, c'), s) := s.sendElement c t
        ((s.sendOn c 1 c.sndNxt [b]).modConn conn fun _ => c').finish

/-- Retransmit everything from SNDUNA. -/
def State.resendAll (s : State) (c : Conn) (e fuel : Nat) (us : List Unacked) : State :=
  match fuel, us with
  | fuel + 1, u :: _ =>
    let now := us.take (max 1 (perDatagram e))
    (s.sendOn c 1 u.seq (now.map Unacked.bytes)).resendAll c e fuel (us.drop now.length)
  | _, _ => s

/-- RTO_TIMEOUT (R147): the oldest unacknowledged element was last sent RTO ago (DESIGN CHOICE: the rule gives RTO and not the start
of its timer; log entry 123). The eighth in a row ends the connection. -/
def execRtoTimeout (conn : Nat) (s : State) : Host.Outcome State Fault Refusal :=
  let now := (s.die 0).ps
  match s.host.conns.find? fun c => c.index == conn && c.state == 0 with
  | none => s.finish
  | some c =>
    if !s.hostUp || 2 ≤ (s.die 0).alarm || !((c.unacked.head?).any fun u => u.sentAt + c.rto ≤ now) then s.finish
    else if 8 ≤ c.timeouts + 1 then
      ((s.modConn conn fun c => { c with state := 2, timeouts := c.timeouts + 1 }).modDie 0 fun x =>
        x.sysEvent 0x0008 (toBytes 2 conn)).finish
    else
      let e := (s.connEsize c).getD 4
      let c' := { c.halve now with
        timeouts := c.timeouts + 1, rto := min (2 * c.rto) (10000 * usec)
        unacked := c.unacked.map fun u => { u with sentAt := now, again := true } }
      ((s.resendAll c e c.unacked.length c.unacked).modConn conn fun _ => c').finish

/-- NEIGHBOUR_DISCOVERY (R420): the port answers for its two addresses. -/
def execNeighbourDiscovery (target : BitVec 128) (s : State) : Host.Outcome State Fault Refusal :=
  if s.hostUp && s.host.owns target then (s.send (.advertisement target)).finish else s.finish

end Sys2Proof.Machine
end

