-- ==== Sys2Proof/Machine/Lanes.lean ====
section
/-! DEFINITION. Block packing and the lane instructions (R263 to R271). -/

namespace Sys2Proof.Machine

/-! ## Reading other lanes (R269) -/

/-- Source A as the member of the warp at a lane holds it now; a lane with no member reads 0. -/
def Job.laneA (j : Job) (g : Group) (lane : Nat) : Nat :=
  ((g.atLane j.x.warp lane).map fun t => g.readFld j.x.warp t j.f.lit j.sig.sa j.f.sa).getD 0

/-- Source A at a lane is poisoned. -/
def Job.laneBad (j : Job) (g : Group) (lane : Nat) : Bool :=
  (g.atLane j.x.warp lane).any fun t => g.badFld j.x.warp t j.sig.sa j.f.sa

/-- A word in which lane l of the active ones takes source A of lane `from l`, or the value that the second
function gives. Poison is consumed by the lane that it reaches (R395). -/
def crossWord (source : LaneSrc → Option Nat) (other : LaneSrc → Nat) (j : Job) (s : State) : State :=
  let g := j.group s
  let eaters := j.x.lanes.filter fun l => (source l).any (j.laneBad g)
  if !eaters.isEmpty then j.fault s Cause.poison (eaters.map fun l => l.t % 32) 0
  else j.perLane s fun l => match source l with
    | some k => j.laneA g k
    | none => other l

/-- BCAST: every active lane takes lane b mod 32 (R266). -/
def bcastWord (j : Job) (s : State) : State := crossWord (fun l => some (l.b.toNat % 32)) (fun _ => 0) j s

/-- LANE: only lane b mod 32 is written, with its own a, and reads it (R266). -/
def laneWord (j : Job) (s : State) : State :=
  let g := j.group s
  let mine := j.x.lanes.filter fun l => l.t % 32 = l.b.toNat % 32
  if mine.any fun l => j.laneBad g (l.t % 32) then j.fault s Cause.poison (mine.map fun l => l.t % 32) 0
  else j.pass (j.mod s fun h => mine.foldl (fun h l => h.writeDst j.x.warp l.t j.sig.dst.width j.f.dst (j.laneA g (l.t % 32))) h)

/-- The modes of SHFL (R267): the source lane of lane l for amount k in segments of S lanes. -/
def shflSource (mode size l k : Nat) : Option Nat :=
  let base := l - l % size
  match mode with
  | 0 => some (base + k % size)
  | 1 => if k < size ∧ base + k ≤ l then some (l - k) else none
  | 2 => if k < size ∧ l + k < base + size then some (l + k) else none
  | _ => some (base + Nat.xor l k % size)

/-- SHFL's register form: k in each lane, SEG in bits 2:0 (R267). -/
def shflWord (mode : Nat) (w : RegWord) (j : Job) (s : State) : State :=
  crossWord (fun l => shflSource mode (2 ^ bits w.imm.toNat 2 0) (l.t % 32) (l.b.toNat % 32)) (fun l => l.c.toNat) j s

/-- SHFL's short form: k in bits 4:0 and SEG in bits 10:8 of IMM16 (R267). -/
def shflShortWord (mode : Nat) (w : ShortWord) (j : Job) (s : State) : State :=
  crossWord (fun l => shflSource mode (2 ^ bits w.imm.toNat 10 8) (l.t % 32) (bits w.imm.toNat 4 0)) (fun l => l.c.toNat) j s

/-! ## VOTE, REDUX, MATCH (R268, R270, R271) -/

/-- A mask with a bit for each lane of a list. -/
def laneMask (l : List Nat) : Nat := l.foldl (fun m i => Nat.lor m (2 ^ i)) 0

/-- VOTE (R268). -/
def voteWord (w : RegWord) (j : Job) (s : State) : State :=
  let yes := j.x.lanes.filter fun l => (l.a.toNat != 0) != w.imm[3]
  let n := yes.length
  let all := j.x.lanes.length
  let v := match bits w.imm.toNat 2 0 with
    | 0 => laneMask (yes.map fun l => l.t % 32)
    | 1 => n
    | 2 => (n == all).toNat
    | 3 => (n == 0).toNat
    | _ => (n != 0 && n != all).toNat
  j.perLane s fun _ => v

/-- L(l) of R270. -/
def Job.reduxSet (j : Job) (size : Nat) (scan : Bool) (l : Nat) : List LaneSrc :=
  let base := l - l % size
  j.x.lanes.filter fun m => base ≤ m.t % 32 && m.t % 32 < base + size && (!scan || m.t % 32 ≤ l)

/-- REDUX over integers (R270). -/
def reduxInt (n : Nat) (uns : Bool) (op : Nat) (xs : List Nat) : Nat :=
  match op with
  | 0 => xs.foldl (fun a b => (a + b) % 2 ^ n) 0
  | 1 => xs.foldl (fun a b => iminmax n uns false a b) (xs.headD 0)
  | 2 => xs.foldl (fun a b => iminmax n uns true a b) (xs.headD 0)
  | 3 => xs.foldl Nat.land (2 ^ n - 1)
  | 4 => xs.foldl Nat.lor 0
  | _ => xs.foldl Nat.xor 0

/-- REDUX over floats of type t (R270): the exact sum rounded once, or the extreme of the values that are no NaN. -/
def reduxFloat (t rnd op : Nat) (xs : List Nat) : Nat :=
  if op = 0 then fround t rnd (sumTerms rnd (xs.map (fval t)))
  else
    match xs.filter fun x => !(fval t x).isNan with
    | [] => (fmtOf t).nanCode
    | x :: rest => rest.foldl (fun a b => fminmax t (op == 2) a b) x

/-- A REDUX word: bits 6:4 SEG, bit 7 SCAN (R270). -/
def reduxWord (w : RegWord) (f : List Nat → Nat) (j : Job) (s : State) : State :=
  j.perLane s fun l =>
    f ((j.reduxSet (2 ^ bits w.imm.toNat 6 4) w.imm[7] (l.t % 32)).map fun m => m.a.toNat)

/-- MATCH (R271). -/
def matchWord (w : RegWord) (j : Job) (s : State) : State :=
  j.perLane s fun l =>
    let g := (j.x.lanes.filter fun m => m.a == l.a).map fun m => m.t % 32
    let lead := g.foldl min 31
    if w.imm[0] then laneMask g
    else lead + g.length * 256 + (if lead = l.t % 32 then 2 ^ 15 else 0)

/-! ## Blocks (R263, R264) -/

/-- PACK into a block format with a rounding and NANZ (R263). -/
def packWord (w : RegWord) (f : BlockFmt) (rnd : Nat) (nanz : Bool) (j : Job) (s : State) : State :=
  let xs := (List.range 32).map fun l =>
    match j.x.lanes.find? fun m => m.t % 32 == l with
    | some m => valueOf (highType w) m.a.toNat
    | none => .ofInt 0
  let (codes, sc) := f.pack xs rnd nanz
  let n := if f.four then 4 else 8
  let byte := fun (i : Nat) => if f.four then codes.getD (2 * i) 0 + 16 * codes.getD (2 * i + 1) 0 else codes.getD i 0
  j.perLane s fun m =>
    let l := m.t % 32
    if !w.imm[4] then sc * 256 + codes.getD l 0
    else if l < n then byte (4 * l) + 256 * byte (4 * l + 1) + 65536 * byte (4 * l + 2) + 16777216 * byte (4 * l + 3)
    else if l = n then sc
    else 0

/-- UNPK from element type `et` (R264). -/
def unpkWord (w : RegWord) (et rnd : Nat) (sat nanz : Bool) (j : Job) (s : State) : State :=
  let g := j.group s
  let four := et == 0x20 || et == 0x23
  let n := if four then 4 else 8
  let size := if four then 4 else 8
  let code := fun (l : Nat) (a : Nat) =>
    if !w.imm[4] then a % 2 ^ size else j.laneA g (l * size / 32) / 2 ^ (l * size % 32) % 2 ^ size
  let scale := fun (a : Nat) => if !w.imm[4] then bits a 15 8 else j.laneA g n % 256
  let eaters := if !w.imm[4] then [] else j.x.lanes.filter fun m => j.laneBad g (m.t % 32 * size / 32) || j.laneBad g n
  if !eaters.isEmpty then j.fault s Cause.poison (eaters.map fun m => m.t % 32) 0
  else j.perLane s fun m =>
    roundTo (highType w) (elementValue et (code (m.t % 32) m.a.toNat) (scale m.a.toNat)) rnd sat nanz

/-- The block types that a slot may hold here. -/
def blockType (t : Nat) : Bool := 0x20 ≤ t && t ≤ 0x23

/-- One block from the warp: mx4 (R263). -/
def execPackMx4 (w : RegWord) (s : State) : Host.Outcome State Fault Refusal :=
  issueWord (.packMx4 w) s (packWord w ⟨0x20, 0⟩ w.mod.toNat false)

/-- One block from the warp: mx8e4 (R263). -/
def execPackMx8e4 (w : RegWord) (s : State) : Host.Outcome State Fault Refusal :=
  issueWord (.packMx8e4 w) s (packWord w ⟨0x21, 0⟩ w.mod.toNat false)

/-- One block from the warp: mx8e5 (R263). -/
def execPackMx8e5 (w : RegWord) (s : State) : Host.Outcome State Fault Refusal :=
  issueWord (.packMx8e5 w) s (packWord w ⟨0x22, 0⟩ w.mod.toNat false)

/-- One block from the warp: k4 of type KTYPE (R263). -/
def execPackK4 (w : RegWord) (s : State) : Host.Outcome State Fault Refusal :=
  issueWord (.packK4 w) s (packWord w ⟨0x23, bits w.imm.toNat 1 0⟩ w.mod.toNat false)

/-- One block of the slot's format (R263). -/
def execPackSlot (w : RegWord) (s : State) : Host.Outcome State Fault Refusal :=
  issueWord (.packSlot w) s (slotWord w.sc blockType fun t => packWord w ⟨t.etype, t.ktype⟩ t.rnd t.nanz)

/-- A block into the lanes: mx4 (R264). -/
def execUnpkMx4 (w : RegWord) (s : State) : Host.Outcome State Fault Refusal :=
  issueWord (.unpkMx4 w) s (unpkWord w 0x20 0 false false)

/-- A block into the lanes: mx8e4 (R264). -/
def execUnpkMx8e4 (w : RegWord) (s : State) : Host.Outcome State Fault Refusal :=
  issueWord (.unpkMx8e4 w) s (unpkWord w 0x21 0 false false)

/-- A block into the lanes: mx8e5 (R264). -/
def execUnpkMx8e5 (w : RegWord) (s : State) : Host.Outcome State Fault Refusal :=
  issueWord (.unpkMx8e5 w) s (unpkWord w 0x22 0 false false)

/-- A block into the lanes: k4 (R264). -/
def execUnpkK4 (w : RegWord) (s : State) : Host.Outcome State Fault Refusal :=
  issueWord (.unpkK4 w) s (unpkWord w 0x23 0 false false)

/-- A block of the slot's format into the lanes (R264). -/
def execUnpkSlot (w : RegWord) (s : State) : Host.Outcome State Fault Refusal :=
  issueWord (.unpkSlot w) s (slotWord w.sc blockType fun t => unpkWord w t.etype t.rnd t.sat t.nanz)

/-- Every active lane takes one lane (R266). -/
def execBcast (w : RegWord) (s : State) : Host.Outcome State Fault Refusal :=
  issueWord (.bcast w) s bcastWord

/-- One lane is written (R266). -/
def execLane (w : RegWord) (s : State) : Host.Outcome State Fault Refusal :=
  issueWord (.lane w) s laneWord

/-- By index within the segment (R267). -/
def execShflIdx (w : RegWord) (s : State) : Host.Outcome State Fault Refusal :=
  issueWord (.shflIdx w) s (shflWord 0 w)

/-- By index within the segment, constant amount (R267). -/
def execShflIdxShort (w : ShortWord) (s : State) : Host.Outcome State Fault Refusal :=
  issueWord (.shflIdxShort w) s (shflShortWord 0 w)

/-- Towards higher lanes (R267). -/
def execShflRise (w : RegWord) (s : State) : Host.Outcome State Fault Refusal :=
  issueWord (.shflRise w) s (shflWord 1 w)

/-- Towards higher lanes, constant amount (R267). -/
def execShflRiseShort (w : ShortWord) (s : State) : Host.Outcome State Fault Refusal :=
  issueWord (.shflRiseShort w) s (shflShortWord 1 w)

/-- Towards lower lanes (R267). -/
def execShflFall (w : RegWord) (s : State) : Host.Outcome State Fault Refusal :=
  issueWord (.shflFall w) s (shflWord 2 w)

/-- Towards lower lanes, constant amount (R267). -/
def execShflFallShort (w : ShortWord) (s : State) : Host.Outcome State Fault Refusal :=
  issueWord (.shflFallShort w) s (shflShortWord 2 w)

/-- By exclusive or (R267). -/
def execShflXor (w : RegWord) (s : State) : Host.Outcome State Fault Refusal :=
  issueWord (.shflXor w) s (shflWord 3 w)

/-- By exclusive or, constant amount (R267). -/
def execShflXorShort (w : ShortWord) (s : State) : Host.Outcome State Fault Refusal :=
  issueWord (.shflXorShort w) s (shflShortWord 3 w)

/-- A predicate over the active lanes (R268). -/
def execVote (w : RegWord) (s : State) : Host.Outcome State Fault Refusal :=
  issueWord (.vote w) s (voteWord w)

/-- An integer over a segment (R270). -/
def execReduxInt (w : RegWord) (s : State) : Host.Outcome State Fault Refusal :=
  issueWord (.reduxInt w) s (reduxWord w fun xs => reduxInt (opw w.mod) w.mod[1] (bits w.imm.toNat 2 0) xs)

/-- A float over a segment (R270). -/
def execReduxFloat (w : RegWord) (s : State) : Host.Outcome State Fault Refusal :=
  issueWord (.reduxFloat w) s (reduxWord w fun xs => reduxFloat (if w.imm[2] then 0x13 else 0x12) w.mod.toNat (bits w.imm.toNat 1 0) xs)

/-- Lanes of equal value (R271). -/
def execMatchLanes (w : RegWord) (s : State) : Host.Outcome State Fault Refusal :=
  issueWord (.matchLanes w) s (matchWord w)

end Sys2Proof.Machine
end

