-- ==== Sys2Proof/Machine/Mgmt.lean ====
section
/-! DEFINITION. Management commands (R420 to R423) and the attestation report (R428 to R430). -/

namespace Sys2Proof.Machine

/-! ## Datagrams and acceptance (R421, R422) -/

/-- `n` payload bytes from an offset, as a number. -/
def Mgmt.field (m : Mgmt) (o n : Nat) : Nat := ofBytes ((m.payload.drop o).take n)

/-- Largest PLEN. -/
def plenLimit : Nat := 8064

/-- The command that a datagram holds, none where R421 discards it. -/
def readMgmt (bs : List Byte) : Option Mgmt :=
  let f := fun (o n : Nat) => ofBytes ((bs.drop o).take n)
  let plen := f 4 4
  if f 0 1 = 0 ∨ 0x0D < f 0 1 ∨ 7 < f 1 1 ∨ f 2 2 ≠ 0 ∨ f 0x10 16 ≠ 0 ∨ plenLimit < plen ∨ bs.length ≠ 96 + plen then none
  else some ⟨f 0 1, f 1 1, f 8 8, (bs.drop 0x20).take plen, bs.drop (0x20 + plen)⟩

/-- The command that a frame brings, whom to answer, and the state once it is accepted (R422, R431). -/
def State.accept (s : State) (op : Nat) (fr : List Byte) : Option (Mgmt × Reply × State) :=
  match s.hostFrame fr with
  | none => none
  | some p =>
  match readMgmt p.bytes with
  | none => none
  | some m =>
    let back := fun (key : Option (List Byte)) => (⟨p.src, p.dst, p.sport, m.op, m.die, m.seq, key⟩ : Reply)
    let locked := (s.die 0).levelThree
    if m.op ≠ op || !s.host.owns p.dst || p.dport ≠ s.host.mgmtPort || !(locked || s.hostUp) then none
    else if locked then (if op = 9 then some (m, back none, s) else none)
    else if (s.die 0).alarm = 2 && op ≠ 1 && op ≠ 9 then none
    else if op = 1 then some (m, back s.host.sessionKey, s)
    else if op = 9 && (s.die m.die).levelThree then some (m, back none, s)
    else
      match s.host.sessionKey with
      | none => none
      | some k =>
        if m.mac ≠ hmac k (p.bytes.take (32 + m.payload.length)) || m.seq ≤ s.host.seq then none
        else some (m, back (some k), { s with host := { s.host with seq := m.seq } })

/-! ## SESSION and CLOSE -/

/-- MGMT_SESSION (R422, R423, R432): the signature is checked with the operator's key (R428), then the session key is unwrapped;
the fourth failed signature in a row raises the alarm to level 2. The command is die 0's own. -/
def execMgmtSession (fr : List Byte) (s : State) : Host.Outcome State Fault Refusal :=
  match s.accept 1 fr with
  | none => s.finish
  | some (m, r, s) =>
    if m.payload.length ≠ 1024 then (s.reply r St.malformed []).finish
    else if !Config.sessionSigOk s.host.operatorKey (m.payload.take 512 ++ toBytes 8 m.seq) (m.payload.drop 512) then
      let n := s.host.failures + 1
      let s := { s with host := { s.host with failures := n } }.raiseAlarm 0 1 5
      ((if 4 ≤ n then s.raiseAlarm 0 2 3 else s).reply r St.rights []).finish
    else
      let s := { s with host := { s.host with failures := 0 } }
      match Config.unwrapKey (m.payload.take 512) with
      | none => (s.reply r St.rights []).finish
      | some k =>
        ({ s with host := { s.host with sessionKey := some k, seq := m.seq } }.reply { r with key := some k } St.ok []).finish

/-- MGMT_CLOSE (R423). -/
def State.mgmtClose (s : State) (m : Mgmt) : (Nat × List Byte) × State :=
  if m.payload ≠ [] then ((St.malformed, []), s)
  else ((St.ok, []), { s with host := { s.host with sessionKey := none } })

/-! ## Processes and pages -/

/-- A management core writes a device register: SETTLE.INTERVAL on every live die (R43), and a level that ALARMST.LEVEL rises to
has its effects (R431). DESIGN CHOICE: the level's error-log entry, which no source of R432 caused, has UNIT 0 (log entry 128). -/
def State.coreWrite (s : State) (d a width v : Nat) : State :=
  let before := (s.die d).alarm
  let dies := if a = devBase + 0x10008 then s.upDies else [d]
  let s := dies.foldl (fun s e => s.modDie e fun x => x.writeReg true a width v) s
  if before < (s.die d).alarm then (s.modDie d fun x => (x.logError 2 0 (toBytes 1 x.alarm)).alarmed).keyErased else s

/-- Write 8-byte words at a die-local address as system software: memory, or device registers (R40, R41). Between the two there is
nothing. -/
def State.softWrite (s : State) (d a : Nat) (bs : List Byte) : State :=
  if isDevice a then
    (List.range (bs.length / 8)).foldl (fun s i => s.coreWrite d (a + 8 * i) 8 (ofBytes ((bs.drop (8 * i)).take 8))) s
  else if (s.die d).memTop < a + bs.length then { s with hole := some a }
  else s.modDie d fun x => x.engineWrite a bs

/-- XINV and NAMEINV for a process. -/
def Die.forgetAllOf (d : Die) (pn : Nat) : Die :=
  (d.forgetProcess pn).modPort fun p => { p with names := p.names.filter fun n => n.pn != pn }

/-- MGMT_PROC (R39, R107, R423). -/
def State.mgmtProc (s : State) (m : Mgmt) : (Nat × List Byte) × State :=
  let (pn, dom, root, v, base, len) := (m.field 0 2, m.field 2 4, m.field 6 8, m.field 14 1, m.field 15 8, m.field 23 4)
  let x := s.die m.die
  let (pb, qb) := (x.space.procbase.toNat, x.port.qntroot.toNat)
  if m.payload.length ≠ 27 ∨ 4096 ≤ pn ∨ root % 16384 ≠ 0 ∨ 2 ^ 52 ≤ root ∨ 1 < v ∨ base % 16 ≠ 0 ∨ 2 ^ 52 ≤ base
      ∨ 2 ^ 24 ≤ len ∨ pb % 2 = 0 ∨ qb % 2 = 0 then
    ((St.malformed, []), s)
  else
    let s := s.softWrite m.die (bits pb 51 15 * 32768 + 8 * pn) (toBytes 8 (v * 2 ^ 63 + root))
    let s := s.softWrite m.die (bits qb 51 16 * 65536 + 16 * pn) (toBytes 16 (dom * 2 ^ 96 + len * 2 ^ 64 + v * 2 ^ 63 + base))
    ((St.ok, []), s.modDie m.die fun x => x.forgetAllOf pn)

/-- MGMT_MAP (R34, R423): nothing is written when a table is missing for one of the pages. n takes two bytes. -/
def State.mgmtMap (s : State) (m : Mgmt) : (Nat × List Byte) × State :=
  let (pn, va, n) := (m.field 0 2, m.field 2 8, m.field 10 2)
  if 4096 ≤ pn ∨ va % 65536 ≠ 0 ∨ n = 0 ∨ 512 < n ∨ m.payload.length ≠ 12 + 8 * n then ((St.malformed, []), s)
  else
    let x := s.die m.die
    let places := (List.range n).map fun i => if 2 ^ 60 ≤ va + 65536 * i then none else x.entryOf pn (va + 65536 * i)
    if places.any Option.isNone then ((St.fault, []), s)
    else
      let s := (places.zipIdx).foldl (fun (s : State) ((a, i) : Option Nat × Nat) =>
        (s.softWrite m.die (a.getD 0) ((m.payload.drop (12 + 8 * i)).take 8)).modDie m.die fun x =>
          x.forgetPage pn (va + 65536 * i)) s
      ((St.ok, []), s)

/-- The places of a range under a process's table with domain-0 rights, CODE pages included; none where a page refuses the
bytes. Frames still to be zeroed are zeroed on the way (R93). -/
def State.loadSpots (s : State) (d pn : Nat) (vas : List Nat) : Option (List Spot) × State :=
  (distinct (vas.map (· / 65536))).foldl (fun (r : Option (List Spot) × State) page =>
    match r with
    | (none, s) => (none, s)
    | (some sp, s) =>
      let (f, x) := (s.die d).translate pn (page * 65536)
      let s := s.modDie d fun _ => x
      match f with
      | .hole a => (none, { s with hole := some a })
      | .none => (none, s)
      | .malformed => (none, s)
      | .leaf level e _ =>
        if leafType e = 6 || x.leafCause true .store e = 0 then
          (some (sp ++ (vas.filter fun a => a / 65536 == page).map fun a => leafSpot level e a), s)
        else (none, s)) (some [], s)

/-- MGMT_LOAD (R423). -/
def State.mgmtLoad (s : State) (m : Mgmt) : (Nat × List Byte) × State :=
  let (pn, va, bs) := (m.field 0 2, m.field 2 8, m.payload.drop 10)
  if m.payload.length < 10 ∨ 4096 ≤ pn ∨ 8000 < bs.length then ((St.malformed, []), s)
  else if 2 ^ 60 < va + bs.length then ((St.fault, []), s)
  else
    let (sp, s) := s.loadSpots m.die pn ((List.range bs.length).map (va + ·))
    match sp.filter devOk with
    | none => ((St.fault, []), s)
    | some sp =>
      let s := s.writeSpots (agentAsks m.die) sp bs
      let pages := distinct ((List.range bs.length).map fun i => (va + i) / 65536)
      ((St.ok, []), s.modDie m.die fun x => pages.foldl (fun x v => x.forgetPage pn (v * 65536)) x)

/-- MGMT_PWRITE (R40, R423). -/
def State.mgmtPwrite (s : State) (m : Mgmt) : (Nat × List Byte) × State :=
  let (a, bs) := (m.field 0 8, m.payload.drop 8)
  if m.payload.length < 8 ∨ 8000 < bs.length then ((St.malformed, []), s)
  else if (s.die m.die).spillBase < a + bs.length then ((St.fault, []), s)
  else ((St.ok, []), s.modDie m.die fun x => x.engineWrite a bs)

/-! ## Queues and registers -/

/-- The status of a record that the management core puts in a task queue, and the state (R109, R116, R117, R127). -/
def State.enqueueRecord (s : State) (d cls : Nat) (bs : List Byte) : Nat × State :=
  let (n, s) := s.draw
  let pn := (Config.enqueuePn n).toNat
  let me : Producer := ⟨s.pkg, d, 3 * 2 ^ 22 + 1⟩
  match (s.die d).queue? (3 + cls) with
  | none => (St.noqueue, s)
  | some q =>
    let ((st, t), x) := (s.die d).reserve q.index q.gen 0 1 me pn
    if st ≠ St.ok then (st, s)
    else
      match x.queue? q.index with
      | none => (St.noqueue, s)
      | some q =>
        let (st, x) := x.commit q t me false false bs bs.length [] 0 0
        let m := { requestMsg Kind.put (qid s.pkg d q.index q.gen).toNat 0 me.pid pn with
          spkg := s.pkg, sdie := d, ticket := t, bytes := bs, mlen := bs.length }
        (st, s.modDie d fun _ => if st = St.ok then x.belayLog (.message m) else x)

/-- MGMT_ENQUEUE (R423). -/
def State.mgmtEnqueue (s : State) (m : Mgmt) : (Nat × List Byte) × State :=
  if m.payload.length ≠ 129 ∨ 3 < m.field 0 1 then ((St.malformed, []), s)
  else
    let (st, s) := s.enqueueRecord m.die (m.field 0 1) (m.payload.drop 1)
    ((st, []), s)

/-- MGMT_REG (R41, R43, R423). -/
def State.mgmtReg (s : State) (m : Mgmt) : (Nat × List Byte) × State :=
  let (mode, width, a, v) := (m.field 0 1, m.field 1 1, m.field 2 8, m.field 10 8)
  if m.payload.length ≠ 18 ∨ 1 < mode then ((St.malformed, []), s)
  else if a < devBase ∨ 2 ^ 52 ≤ a ∨ !(width == 4 || width == 8) ∨ a % width ≠ 0
      ∨ (width = 8 ∧ isReg32 (a % 2 ^ 48 / 65536) (a % 65536)) then ((St.fault, []), s)
  else if mode = 1 then ((St.ok, toBytes 8 ((s.die m.die).readReg a width)), s)
  else ((St.ok, []), s.coreWrite m.die a width (v % 2 ^ (8 * width)))

/-! ## RESET and FREQ -/

/-- MGMT_RESET (R403, R423): a planned warm reset is ordered. -/
def State.mgmtReset (s : State) (m : Mgmt) : (Nat × List Byte) × State :=
  if m.payload ≠ [] then ((St.malformed, []), s) else ((St.ok, []), s.modDie m.die fun x => { x with resetDue := true })

/-- MGMT_FREQ (R423, R435): REQ is set, and POINT comes down to it; it goes up only as R435 lets a die step up. -/
def State.mgmtFreq (s : State) (m : Mgmt) : (Nat × List Byte) × State :=
  let pt := BitVec.ofNat 2 (m.field 0 1)
  if m.payload.length ≠ 1 ∨ 2 < m.field 0 1 then ((St.malformed, []), s)
  else ((St.ok, []), s.modDie m.die fun x =>
    let x := { x with freqReq := pt }
    if x.nextPoint < pt then x.askFreq pt else x)

/-! ## READ and ATTEST -/

/-- An error-log entry as its 32 bytes (R434). -/
def ErrEntry.bytes (e : ErrEntry) : List Byte :=
  toBytes 8 e.clock ++ toBytes 4 e.boots ++ toBytes 2 e.code ++ toBytes 2 e.unit ++ (e.data ++ List.replicate 16 0).take 16

/-- Error-log entries that one reply holds. -/
def errPerReply : Nat := 252

/-- MGMT_READ (R21, R25, R423, R430, R434): the selector's bytes. The entry number k takes the bytes that follow it. -/
def State.mgmtRead (s : State) (m : Mgmt) : (Nat × List Byte) × State :=
  let x := s.die m.die
  match m.field 0 1, m.payload.length with
  | 0, 1 => ((St.ok, x.conf.bytes), s)
  | 1, 1 =>
    let t := x.flash.table.entries.flatMap RetEntry.bytes
    ((St.ok, t ++ Config.identitySign m.die t), s)
  | 2, n =>
    if n < 2 ∨ 9 < n then ((St.malformed, []), s)
    else ((St.ok, ((x.flash.errlog.drop (m.field 1 8)).take errPerReply).flatMap ErrEntry.bytes), s)
  | 3, 1 => ((St.ok, Config.certificate m.die), s)
  | _, _ => ((St.malformed, []), s)

/-- The digests D(1) to D(3) and the measurement M of a cold boot (R429). -/
def Die.measure (d : Die) : List (List Byte) × List Byte :=
  d.used.foldl (fun (r : List (List Byte) × List Byte) m =>
    let dg := sha512 m.bytes
    (r.1 ++ [dg], sha512 (r.2 ++ dg))) ([], List.replicate 64 0)

/-- The attestation report before its signature (R430). -/
def Die.report (d : Die) (nonce : List Byte) : List Byte :=
  let (ds, m) := d.measure
  toBytes 4 d.conf.ident.toNat ++ toBytes 4 d.flash.boots ++ toBytes 4 d.conf.retired.toNat ++ toBytes 4 0 ++ nonce
    ++ ds.flatten ++ m ++ d.conf.bytes ++ d.flash.table.entries.flatMap RetEntry.bytes

/-- MGMT_ATTEST (R430). -/
def State.mgmtAttest (s : State) (m : Mgmt) : (Nat × List Byte) × State :=
  let x := s.die m.die
  if m.payload.length ≠ 64 then ((St.malformed, []), s)
  else if !x.flash.identity then ((St.fault, []), s)
  else
    let r := x.report m.payload
    ((St.ok, r ++ Config.identitySign m.die r), s)

/-! ## Performing commands (R422) -/

/-- The effect of a command of an OP that answers at once. -/
def State.mgmtResult (s : State) (m : Mgmt) : (Nat × List Byte) × State :=
  match m.op with
  | 0x02 => s.mgmtProc m
  | 0x03 => s.mgmtMap m
  | 0x05 => s.mgmtLoad m
  | 0x06 => s.mgmtEnqueue m
  | 0x07 => s.mgmtReset m
  | 0x08 => s.mgmtAttest m
  | 0x09 => s.mgmtRead m
  | 0x0A => s.mgmtFreq m
  | 0x0B => s.mgmtClose m
  | 0x0C => s.mgmtReg m
  | 0x0D => s.mgmtPwrite m
  | _ => ((St.malformed, []), s)

/-- What a command's reply says of it. -/
def Mgmt.ref (m : Mgmt) : CmdRef := ⟨m.op, m.die, m.seq⟩

/-- MGMT_QUEUE (R113, R423): the command stands behind those that the target port holds; its reply is sent when it
completes. One that breaks the layout is answered at once. -/
def State.mgmtQueue (s : State) (m : Mgmt) : State :=
  if m.payload.length ≠ 72 then s.replyVia m.die m.ref St.malformed []
  else s.modDie m.die fun x => x.modPort fun q =>
    q.addCmd ⟨BitVec.ofNat 64 (m.field 0 8), some (m.payload.drop 8), some m.ref⟩

/-- A die's management core performs the command that stands first there (R422). At alarm level 3 it answers READ, and ATTEST
with FAULT (R430, R431); and no report is signed for a host whose port takes no traffic (R435). -/
def State.performMgmt (s : State) (m : Mgmt) : State :=
  let s := s.modDie m.die fun x => { x with mgmtIn := x.mgmtIn.drop 1 }
  if (s.die m.die).levelThree ∧ m.op ≠ 8 ∧ m.op ≠ 9 then s
  else if m.op = 4 then s.mgmtQueue m
  else
    let ((st, out), s) := s.mgmtResult m
    if m.op = 8 ∧ 2 ≤ (s.die 0).alarm then s else s.replyVia m.die m.ref st out

/-- A QCMD of the management core is under way at the die: the commands behind it wait (R422). -/
def Die.mgmtBusy (d : Die) : Bool := d.port.cmds.any fun c => c.back.isSome

/-- A QCMD of the management core whose OP is none of R113's completes with MALFORMED when its turn comes. -/
def State.endUnknown (s : State) (d : Nat) : State :=
  match (s.die d).port.cmds.head? with
  | some c => if c.back.isSome && !(1 ≤ cmdOp c.word && cmdOp c.word ≤ 7) then s.endCommand d St.malformed 0 else s
  | none => s

/-- The command of a datagram stands first in its die's management core, which is free to perform it (R422: commands to one die
are performed in SEQ order, as queue 7 has brought them). -/
def State.mgmtTurn (s : State) (op : Nat) (fr : List Byte) : Option Mgmt :=
  match (s.hostFrame fr).bind fun p => readMgmt p.bytes with
  | none => none
  | some m =>
    let m := { m with mac := [] }
    let x := s.die m.die
    if m.op == op && x.mgmtIn.head? == some m && !x.mgmtBusy && x.mgmtUp then some m else none

/-- A management command's step, twice in its life: its datagram is accepted and stands to be relayed to queue 7 of its die; and
once its elements have been taken there, the die's management core performs it. -/
def State.mgmt (s : State) (op : Nat) (fr : List Byte) : Host.Outcome State Fault Refusal :=
  match s.mgmtTurn op fr with
  | some m => (s.performMgmt m).finish
  | none =>
    match s.accept op fr with
    | none => s.finish
    | some (m, r, s) => (s.modRelays (· ++ [⟨m, r, false⟩])).finish

/-- MGMT_PROC (R422, R423). -/
def execMgmtProc (fr : List Byte) (s : State) : Host.Outcome State Fault Refusal := s.mgmt 0x02 fr
/-- MGMT_MAP (R422, R423). -/
def execMgmtMap (fr : List Byte) (s : State) : Host.Outcome State Fault Refusal := s.mgmt 0x03 fr
/-- MGMT_QUEUE (R422, R423). -/
def execMgmtQueue (fr : List Byte) (s : State) : Host.Outcome State Fault Refusal := s.mgmt 0x04 fr
/-- MGMT_LOAD (R422, R423). -/
def execMgmtLoad (fr : List Byte) (s : State) : Host.Outcome State Fault Refusal := s.mgmt 0x05 fr
/-- MGMT_ENQUEUE (R422, R423). -/
def execMgmtEnqueue (fr : List Byte) (s : State) : Host.Outcome State Fault Refusal := s.mgmt 0x06 fr
/-- MGMT_RESET (R422, R423). -/
def execMgmtReset (fr : List Byte) (s : State) : Host.Outcome State Fault Refusal := s.mgmt 0x07 fr
/-- MGMT_ATTEST (R422, R423). -/
def execMgmtAttest (fr : List Byte) (s : State) : Host.Outcome State Fault Refusal := s.mgmt 0x08 fr
/-- MGMT_READ (R422, R423). -/
def execMgmtRead (fr : List Byte) (s : State) : Host.Outcome State Fault Refusal := s.mgmt 0x09 fr
/-- MGMT_FREQ (R422, R423). -/
def execMgmtFreq (fr : List Byte) (s : State) : Host.Outcome State Fault Refusal := s.mgmt 0x0A fr
/-- MGMT_CLOSE (R422, R423). -/
def execMgmtClose (fr : List Byte) (s : State) : Host.Outcome State Fault Refusal := s.mgmt 0x0B fr
/-- MGMT_REG (R422, R423). -/
def execMgmtReg (fr : List Byte) (s : State) : Host.Outcome State Fault Refusal := s.mgmt 0x0C fr
/-- MGMT_PWRITE (R422, R423). -/
def execMgmtPwrite (fr : List Byte) (s : State) : Host.Outcome State Fault Refusal := s.mgmt 0x0D fr

end Sys2Proof.Machine
end

