-- ==== Sys2Proof/Machine/Scalar.lean ====
section
/-! DEFINITION. The pair format: a scalar slot beside a vector slot (R205, R207). -/

namespace Sys2Proof.Machine

/-- The vector slot's value: that of the full word with MOD 0 (R205). -/
def vopValue (o : VOp) (a b : Nat) : Nat :=
  match o with
  | .iadd => iadd 32 a b
  | .isub => isub 32 a b
  | .imul => imul 32 a b
  | .imin => iminmax 32 false false a b
  | .imax => iminmax 32 false true a b
  | .and => Nat.land a b
  | .or => Nat.lor a b
  | .xor => Nat.xor a b
  | .andn => iandn 32 a b
  | .orn => iorn 32 a b
  | .not => inot 32 a
  | .shl => ishl 32 a b
  | .shr => ishr 32 a b
  | .sar => isar 32 a b
  | .rol => irol 32 a b
  | .popc => popc 32 a
  | .clz => clz 32 a
  | .fadd => fadd 0x12 0 a b
  | .fsub => fsub 0x12 0 a b
  | .fmul => fmul 0x12 0 a b
  | .fmin => fminmax 0x12 false a b
  | .fmax => fminmax 0x12 true a b
  | .mov => a

/-- The vector slot writes its destination in the active lanes. -/
def Job.vector (j : Job) (p : PairWord) (g : Group) : Group :=
  j.x.lanes.foldl (fun g l => g.writeDst j.x.warp l.t 32 p.vdst (vopValue p.vop l.a.toNat l.b.toNat)) g

/-- b of the scalar slot (R207). -/
def pairB (g : Group) (warp sop : Nat) (ssb : Byte) : Nat :=
  match scalarForm sop with
  | .register => (g.sreg warp (ssb.toNat % 64)).val.toNat
  | _ => scalarImm sop ssb

/-- Both slots read before either writes; the vector slot executes first (R205, R207). -/
def pairWord (sop : Nat) (p : PairWord) (j : Job) (s : State) : State :=
  let g := j.group s
  let a := (g.sreg j.x.warp p.ssa.toNat).val.toNat
  let b := pairB g j.x.warp sop p.ssb
  match scalarForm sop with
  | .branch =>
    let target := (BitVec.ofNat 64 (j.x.pc + 8 * b)).toNat
    if (a != 0) = (sop == 0x2C) then j.goto s (fun _ => target) (j.vector p) else j.pass (j.mod s (j.vector p))
  | _ =>
    j.pass (j.mod s fun g => (j.vector p g).setSreg j.x.warp p.sdst.toNat ⟨BitVec.ofNat 64 (scalarResult sop a b), false⟩)

/-- Scalar opcode 0x00 beside a vector slot (R207). -/
def execScalarIadd (w : PairWord) (s : State) : Host.Outcome State Fault Refusal :=
  issuePair 0x00 w s (pairWord 0x00 w)

/-- Scalar opcode 0x01 beside a vector slot (R207). -/
def execScalarIaddImm (w : PairWord) (s : State) : Host.Outcome State Fault Refusal :=
  issuePair 0x01 w s (pairWord 0x01 w)

/-- Scalar opcode 0x02 beside a vector slot (R207). -/
def execScalarIsub (w : PairWord) (s : State) : Host.Outcome State Fault Refusal :=
  issuePair 0x02 w s (pairWord 0x02 w)

/-- Scalar opcode 0x03 beside a vector slot (R207). -/
def execScalarIsubImm (w : PairWord) (s : State) : Host.Outcome State Fault Refusal :=
  issuePair 0x03 w s (pairWord 0x03 w)

/-- Scalar opcode 0x04 beside a vector slot (R207). -/
def execScalarImul (w : PairWord) (s : State) : Host.Outcome State Fault Refusal :=
  issuePair 0x04 w s (pairWord 0x04 w)

/-- Scalar opcode 0x05 beside a vector slot (R207). -/
def execScalarImulImm (w : PairWord) (s : State) : Host.Outcome State Fault Refusal :=
  issuePair 0x05 w s (pairWord 0x05 w)

/-- Scalar opcode 0x06 beside a vector slot (R207). -/
def execScalarImulh (w : PairWord) (s : State) : Host.Outcome State Fault Refusal :=
  issuePair 0x06 w s (pairWord 0x06 w)

/-- Scalar opcode 0x07 beside a vector slot (R207). -/
def execScalarImulhN64 (w : PairWord) (s : State) : Host.Outcome State Fault Refusal :=
  issuePair 0x07 w s (pairWord 0x07 w)

/-- Scalar opcode 0x08 beside a vector slot (R207). -/
def execScalarImin (w : PairWord) (s : State) : Host.Outcome State Fault Refusal :=
  issuePair 0x08 w s (pairWord 0x08 w)

/-- Scalar opcode 0x09 beside a vector slot (R207). -/
def execScalarIminImm (w : PairWord) (s : State) : Host.Outcome State Fault Refusal :=
  issuePair 0x09 w s (pairWord 0x09 w)

/-- Scalar opcode 0x0A beside a vector slot (R207). -/
def execScalarImax (w : PairWord) (s : State) : Host.Outcome State Fault Refusal :=
  issuePair 0x0A w s (pairWord 0x0A w)

/-- Scalar opcode 0x0B beside a vector slot (R207). -/
def execScalarImaxImm (w : PairWord) (s : State) : Host.Outcome State Fault Refusal :=
  issuePair 0x0B w s (pairWord 0x0B w)

/-- Scalar opcode 0x0C beside a vector slot (R207). -/
def execScalarIminN64 (w : PairWord) (s : State) : Host.Outcome State Fault Refusal :=
  issuePair 0x0C w s (pairWord 0x0C w)

/-- Scalar opcode 0x0D beside a vector slot (R207). -/
def execScalarImaxN64 (w : PairWord) (s : State) : Host.Outcome State Fault Refusal :=
  issuePair 0x0D w s (pairWord 0x0D w)

/-- Scalar opcode 0x0E beside a vector slot (R207). -/
def execScalarIabs (w : PairWord) (s : State) : Host.Outcome State Fault Refusal :=
  issuePair 0x0E w s (pairWord 0x0E w)

/-- Scalar opcode 0x0F beside a vector slot (R207). -/
def execScalarIneg (w : PairWord) (s : State) : Host.Outcome State Fault Refusal :=
  issuePair 0x0F w s (pairWord 0x0F w)

/-- Scalar opcode 0x10 beside a vector slot (R207). -/
def execScalarAnd (w : PairWord) (s : State) : Host.Outcome State Fault Refusal :=
  issuePair 0x10 w s (pairWord 0x10 w)

/-- Scalar opcode 0x11 beside a vector slot (R207). -/
def execScalarAndImm (w : PairWord) (s : State) : Host.Outcome State Fault Refusal :=
  issuePair 0x11 w s (pairWord 0x11 w)

/-- Scalar opcode 0x12 beside a vector slot (R207). -/
def execScalarOr (w : PairWord) (s : State) : Host.Outcome State Fault Refusal :=
  issuePair 0x12 w s (pairWord 0x12 w)

/-- Scalar opcode 0x13 beside a vector slot (R207). -/
def execScalarOrImm (w : PairWord) (s : State) : Host.Outcome State Fault Refusal :=
  issuePair 0x13 w s (pairWord 0x13 w)

/-- Scalar opcode 0x14 beside a vector slot (R207). -/
def execScalarXor (w : PairWord) (s : State) : Host.Outcome State Fault Refusal :=
  issuePair 0x14 w s (pairWord 0x14 w)

/-- Scalar opcode 0x15 beside a vector slot (R207). -/
def execScalarXorImm (w : PairWord) (s : State) : Host.Outcome State Fault Refusal :=
  issuePair 0x15 w s (pairWord 0x15 w)

/-- Scalar opcode 0x16 beside a vector slot (R207). -/
def execScalarAndn (w : PairWord) (s : State) : Host.Outcome State Fault Refusal :=
  issuePair 0x16 w s (pairWord 0x16 w)

/-- Scalar opcode 0x17 beside a vector slot (R207). -/
def execScalarNot (w : PairWord) (s : State) : Host.Outcome State Fault Refusal :=
  issuePair 0x17 w s (pairWord 0x17 w)

/-- Scalar opcode 0x18 beside a vector slot (R207). -/
def execScalarShl (w : PairWord) (s : State) : Host.Outcome State Fault Refusal :=
  issuePair 0x18 w s (pairWord 0x18 w)

/-- Scalar opcode 0x19 beside a vector slot (R207). -/
def execScalarShlImm (w : PairWord) (s : State) : Host.Outcome State Fault Refusal :=
  issuePair 0x19 w s (pairWord 0x19 w)

/-- Scalar opcode 0x1A beside a vector slot (R207). -/
def execScalarShr (w : PairWord) (s : State) : Host.Outcome State Fault Refusal :=
  issuePair 0x1A w s (pairWord 0x1A w)

/-- Scalar opcode 0x1B beside a vector slot (R207). -/
def execScalarShrImm (w : PairWord) (s : State) : Host.Outcome State Fault Refusal :=
  issuePair 0x1B w s (pairWord 0x1B w)

/-- Scalar opcode 0x1C beside a vector slot (R207). -/
def execScalarSar (w : PairWord) (s : State) : Host.Outcome State Fault Refusal :=
  issuePair 0x1C w s (pairWord 0x1C w)

/-- Scalar opcode 0x1D beside a vector slot (R207). -/
def execScalarSarImm (w : PairWord) (s : State) : Host.Outcome State Fault Refusal :=
  issuePair 0x1D w s (pairWord 0x1D w)

/-- Scalar opcode 0x1E beside a vector slot (R207). -/
def execScalarRol (w : PairWord) (s : State) : Host.Outcome State Fault Refusal :=
  issuePair 0x1E w s (pairWord 0x1E w)

/-- Scalar opcode 0x1F beside a vector slot (R207). -/
def execScalarRolImm (w : PairWord) (s : State) : Host.Outcome State Fault Refusal :=
  issuePair 0x1F w s (pairWord 0x1F w)

/-- Scalar opcode 0x20 beside a vector slot (R207). -/
def execScalarPopc (w : PairWord) (s : State) : Host.Outcome State Fault Refusal :=
  issuePair 0x20 w s (pairWord 0x20 w)

/-- Scalar opcode 0x21 beside a vector slot (R207). -/
def execScalarClz (w : PairWord) (s : State) : Host.Outcome State Fault Refusal :=
  issuePair 0x21 w s (pairWord 0x21 w)

/-- Scalar opcode 0x22 beside a vector slot (R207). -/
def execScalarCtz (w : PairWord) (s : State) : Host.Outcome State Fault Refusal :=
  issuePair 0x22 w s (pairWord 0x22 w)

/-- Scalar opcode 0x23 beside a vector slot (R207). -/
def execScalarBrev (w : PairWord) (s : State) : Host.Outcome State Fault Refusal :=
  issuePair 0x23 w s (pairWord 0x23 w)

/-- Scalar opcode 0x24 beside a vector slot (R207). -/
def execScalarMov (w : PairWord) (s : State) : Host.Outcome State Fault Refusal :=
  issuePair 0x24 w s (pairWord 0x24 w)

/-- Scalar opcode 0x25 beside a vector slot (R207). -/
def execScalarMovi (w : PairWord) (s : State) : Host.Outcome State Fault Refusal :=
  issuePair 0x25 w s (pairWord 0x25 w)

/-- Scalar opcode 0x26 beside a vector slot (R207). -/
def execScalarIcmpEq (w : PairWord) (s : State) : Host.Outcome State Fault Refusal :=
  issuePair 0x26 w s (pairWord 0x26 w)

/-- Scalar opcode 0x29 beside a vector slot (R207). -/
def execScalarIcmpEqImm (w : PairWord) (s : State) : Host.Outcome State Fault Refusal :=
  issuePair 0x29 w s (pairWord 0x29 w)

/-- Scalar opcode 0x27 beside a vector slot (R207). -/
def execScalarIcmpLt (w : PairWord) (s : State) : Host.Outcome State Fault Refusal :=
  issuePair 0x27 w s (pairWord 0x27 w)

/-- Scalar opcode 0x2A beside a vector slot (R207). -/
def execScalarIcmpLtImm (w : PairWord) (s : State) : Host.Outcome State Fault Refusal :=
  issuePair 0x2A w s (pairWord 0x2A w)

/-- Scalar opcode 0x28 beside a vector slot (R207). -/
def execScalarIcmpLtN64 (w : PairWord) (s : State) : Host.Outcome State Fault Refusal :=
  issuePair 0x28 w s (pairWord 0x28 w)

/-- Scalar opcode 0x2B beside a vector slot (R207). -/
def execScalarIcmpLtN64Imm (w : PairWord) (s : State) : Host.Outcome State Fault Refusal :=
  issuePair 0x2B w s (pairWord 0x2B w)

/-- Scalar opcode 0x2E beside a vector slot (R207). -/
def execScalarIcmpNe (w : PairWord) (s : State) : Host.Outcome State Fault Refusal :=
  issuePair 0x2E w s (pairWord 0x2E w)

/-- Scalar opcode 0x2F beside a vector slot (R207). -/
def execScalarIcmpNeImm (w : PairWord) (s : State) : Host.Outcome State Fault Refusal :=
  issuePair 0x2F w s (pairWord 0x2F w)

/-- Scalar opcode 0x2C beside a vector slot (R207). -/
def execScalarBruNz (w : PairWord) (s : State) : Host.Outcome State Fault Refusal :=
  issuePair 0x2C w s (pairWord 0x2C w)

/-- Scalar opcode 0x2D beside a vector slot (R207). -/
def execScalarBruZ (w : PairWord) (s : State) : Host.Outcome State Fault Refusal :=
  issuePair 0x2D w s (pairWord 0x2D w)

end Sys2Proof.Machine
end

