-- ==== Sys2Proof/Machine/Sched.lean ====
section
/-! DEFINITION. The warp scheduler: which warp's word a core issues next (R58, R190, R210, R211, R372, R373). -/

namespace Sys2Proof

/-- Words that a warp with a parked instruction does not issue: memory, atomic, fence, queue, stream and matrix
words, and those that read tables or objects in memory (R58). -/
def View.heldByPark (v : View) : Bool :=
  match v with
  | .reg op _ | .wide op _ | .short op _ =>
    (0x80 ≤ op && op < 0xC0 && op != 0xA0 && op != 0xA1) || (0xD0 ≤ op && op ≤ 0xE8) || op == 0xC6 || op == 0xC9 || op == 0xCB
  | _ => false

end Sys2Proof

namespace Sys2Proof.Machine

/-- What an issue turn of a core comes to. -/
inductive Picked where
  /-- The word of the warp that `cur` names issues. -/
  | word (i : Instr) (s : State)
  /-- The turn is over. -/
  | over (s : State)
  /-- Nothing of this warp can issue. -/
  | skip (s : State)

/-- The registers that a word of a group reads or writes (R211). -/
def Instr.touches (i : Instr) (g : Group) (warp : Nat) (ts : List Nat) : List Res :=
  (i.sig (g.slot64 i i.fields)).touched i.fields warp ts ++
    (match i.view with
     | .pair sop p => p.scalarRegs sop warp
     | _ => [])

/-- The word waits for registers (R211), or for a held window load to read what it is to write (R47). -/
def Instr.blocked (i : Instr) (g : Group) (warp : Nat) (ts : List Nat) : Bool :=
  (Instr.touches i g warp ts).any g.isPending
    || ((i.sig (g.slot64 i i.fields)).writes i.fields warp ts).any g.heldReads.contains

/-- The word may issue beside the other word of this cycle (R210, R372). -/
def Core.portFree (c : Core) (place mask : Nat) (mem : Bool) : Bool :=
  match c.port with
  | none => true
  | some (p, m, r) => p != place && Nat.land m mask == 0 && !(r && mem)

/-- The port's record after a word issues: the second word ends the cycle (R372). -/
def Core.takePort (c : Core) (place mask : Nat) (mem : Bool) : Core :=
  { c with ptr := (place + 1) % 64, port := if c.port.isNone then some (place, mask, mem) else none }

/-- A word acts per lane when an operand other than its guard is of a per-lane kind (R372). -/
def View.actsPerLane (v : View) (sig : Sig) : Bool :=
  (match v with
   | .pair .. => true
   | _ => false) || ((sig.dst.used v.fields.dst).toList ++ sig.sources v.fields).any Operand.perLane

/-- The words of the core store that a destination names for a thread. -/
def Group.dstWords (g : Group) (f : Fld) (o : Operand) (t : Nat) : List Nat :=
  match f, o with
  | .operand _ _ k _, .v n => (List.range k).map fun i => g.vWord t (n.toNat + i)
  | _, _ => []

/-- What a disagreement of roped issue would poison when the word issues (R393). -/
def Group.lastWord (g : Group) (i : Instr) (ts : List Nat) : Option LastWord :=
  let f := i.view.fields
  let sig := i.sig (g.slot64 i f)
  let act := ts.filter fun t => (g.thread t).guard f.guard
  if !View.actsPerLane i.view sig || sig.unallocated f g.ctx.frame.regs g.tiles.length then none
  else some ⟨g.gid, act.map fun t => (t % 32, g.dstWords sig.dst f.dst t)⟩

/-- The job of a word whose bytes did not fetch or decode: no field is known, and it writes nothing. -/
def Group.rawJob (g : Group) (d warp : Nat) (ts : List Nat) (len : Nat) : Job :=
  ⟨d, g.gid, ⟨default, warp, (g.thread (ts.headD 0)).pc.toNat, len, ts.map fun t => ⟨t, 0, 0, 0⟩, 0, 0, 0, [], 0⟩, ts, {}, default⟩

/-- Try to issue a word of one warp place. -/
noncomputable def State.tryPlace (s : State) (d core place : Nat) : Picked :=
  let warp := place % 8
  match (s.die d).groupAt core (place / 8) with
  | none => .skip s
  | some g0 =>
    let g := g0.clearY warp
    match g.select warp with
    | [] => .skip s
    | ts =>
      let (f, s) := s.fetchWord d core g.ctx.pn (g.thread (ts.headD 0)).pc.toNat
      let all := ts.map (· % 32)
      match f with
      | .hole a => .over { s with hole := some a }
      | .bad cause at_ len =>
        let raw := g.rawJob d warp ts len
        if parks cause then
          if g.parked warp && !g.trap.isSome then .skip s
          else .over (s.park d g.gid raw.x ts 3 8 (all.map fun l => (l, BitVec.ofNat 64 at_)) (all.map fun l => (l, cause)) true)
        else .over (raw.fault s cause all (if cause = Cause.poison then 0 else at_))
      | .ok x =>
        match decodeWords (BitVec.ofNat 64 x) (some (BitVec.ofNat 64 (x / 2 ^ 64))) with
        | .error _ => .over ((g.rawJob d warp ts (wordLength (BitVec.ofNat 64 x))).fault s Cause.illegal all 0)
        | .ok i =>
          let sig := i.sig (g.slot64 i i.fields)
          let mask := sig.bankMask i.fields
          let mem := i.view.memRow
          if Instr.blocked i g warp ts then .skip s
          else if g.parked warp && !g.trap.isSome && i.view.heldByPark then .skip s
          else if !((s.die d).core core).portFree place mask mem then .skip s
          else .word i ({ s with cur := ⟨d, core, place / 8, warp⟩ }.modDie d fun y =>
                 y.modCore core fun c => { c.takePort place mask mem with last := g.lastWord i ts })

/-- The first place that issues, in the order of the rotating pointer (R373). -/
noncomputable def State.tryPlaces (s : State) (d core : Nat) (places : List Nat) : Picked :=
  match places with
  | [] => .over (s.modDie d fun y => y.modCore core fun c => { c with port := none })
  | p :: rest => match s.tryPlace d core p with
    | .skip s => s.tryPlaces d core rest
    | other => other

/-- The 64 warp places from the pointer on. -/
def Core.places (c : Core) : List Nat := (List.range 64).map fun k => (c.ptr + k) % 64

/-- An issue turn of a core. Issue pauses while the frequency changes (R409). -/
noncomputable def State.pickWord (s : State) (d core : Nat) : Picked :=
  if (s.die d).phase ≠ .up ∨ (s.die d).paused then .over s
  else
    let s := s.resumeCore d core
    s.tryPlaces d core ((s.die d).core core).places

end Sys2Proof.Machine
end

