-- ==== Sys2Proof/Machine/Dispatch.lean ====
section
/-! DEFINITION. One arm for each constructor of `Instr`: a direct call of its meaning. -/

namespace Sys2Proof.Machine

/-- The meaning of an instruction or of one of the device's own steps. -/
def exec (i : Instr) (s : State) : Host.Outcome State Fault Refusal :=
  match i with
  | .iadd w => Sys2Proof.Machine.execIadd w s
  | .isub w => Sys2Proof.Machine.execIsub w s
  | .iaddc w => Sys2Proof.Machine.execIaddc w s
  | .imul w => Sys2Proof.Machine.execImul w s
  | .imulh w => Sys2Proof.Machine.execImulh w s
  | .imad w => Sys2Proof.Machine.execImad w s
  | .imadw w => Sys2Proof.Machine.execImadw w s
  | .imin w => Sys2Proof.Machine.execImin w s
  | .imax w => Sys2Proof.Machine.execImax w s
  | .iabs w => Sys2Proof.Machine.execIabs w s
  | .ineg w => Sys2Proof.Machine.execIneg w s
  | .isad w => Sys2Proof.Machine.execIsad w s
  | .lea w => Sys2Proof.Machine.execLea w s
  | .and w => Sys2Proof.Machine.execAnd w s
  | .or w => Sys2Proof.Machine.execOr w s
  | .xor w => Sys2Proof.Machine.execXor w s
  | .andn w => Sys2Proof.Machine.execAndn w s
  | .orn w => Sys2Proof.Machine.execOrn w s
  | .not w => Sys2Proof.Machine.execNot w s
  | .lop3 w => Sys2Proof.Machine.execLop3 w s
  | .shl w => Sys2Proof.Machine.execShl w s
  | .shr w => Sys2Proof.Machine.execShr w s
  | .sar w => Sys2Proof.Machine.execSar w s
  | .rol w => Sys2Proof.Machine.execRol w s
  | .shf w => Sys2Proof.Machine.execShf w s
  | .popc w => Sys2Proof.Machine.execPopc w s
  | .clz w => Sys2Proof.Machine.execClz w s
  | .ctz w => Sys2Proof.Machine.execCtz w s
  | .brev w => Sys2Proof.Machine.execBrev w s
  | .bfx w => Sys2Proof.Machine.execBfx w s
  | .bfi w => Sys2Proof.Machine.execBfi w s
  | .prmt w => Sys2Proof.Machine.execPrmt w s
  | .iaddWide w => Sys2Proof.Machine.execIaddWide w s
  | .isubWide w => Sys2Proof.Machine.execIsubWide w s
  | .iaddcWide w => Sys2Proof.Machine.execIaddcWide w s
  | .imulWide w => Sys2Proof.Machine.execImulWide w s
  | .imadShort w => Sys2Proof.Machine.execImadShort w s
  | .imadwShort w => Sys2Proof.Machine.execImadwShort w s
  | .iminWide w => Sys2Proof.Machine.execIminWide w s
  | .imaxWide w => Sys2Proof.Machine.execImaxWide w s
  | .isadShort w => Sys2Proof.Machine.execIsadShort w s
  | .leaWide w => Sys2Proof.Machine.execLeaWide w s
  | .andWide w => Sys2Proof.Machine.execAndWide w s
  | .orWide w => Sys2Proof.Machine.execOrWide w s
  | .xorWide w => Sys2Proof.Machine.execXorWide w s
  | .andnWide w => Sys2Proof.Machine.execAndnWide w s
  | .ornWide w => Sys2Proof.Machine.execOrnWide w s
  | .icmp w => Sys2Proof.Machine.execIcmp w s
  | .sel w => Sys2Proof.Machine.execSel w s
  | .shlWide w => Sys2Proof.Machine.execShlWide w s
  | .shrWide w => Sys2Proof.Machine.execShrWide w s
  | .sarWide w => Sys2Proof.Machine.execSarWide w s
  | .rolWide w => Sys2Proof.Machine.execRolWide w s
  | .shfShort w => Sys2Proof.Machine.execShfShort w s
  | .pset w => Sys2Proof.Machine.execPset w s
  | .pmov w => Sys2Proof.Machine.execPmov w s
  | .selShort w => Sys2Proof.Machine.execSelShort w s
  | .bfxWide w => Sys2Proof.Machine.execBfxWide w s
  | .bfiShort w => Sys2Proof.Machine.execBfiShort w s
  | .prmtShort w => Sys2Proof.Machine.execPrmtShort w s
  | .faddF32 w => Sys2Proof.Machine.execFaddF32 w s
  | .fsubF32 w => Sys2Proof.Machine.execFsubF32 w s
  | .fmulF32 w => Sys2Proof.Machine.execFmulF32 w s
  | .ffmaF32 w => Sys2Proof.Machine.execFfmaF32 w s
  | .fminF32 w => Sys2Proof.Machine.execFminF32 w s
  | .fmaxF32 w => Sys2Proof.Machine.execFmaxF32 w s
  | .fcmpF32 w => Sys2Proof.Machine.execFcmpF32 w s
  | .fclassF32 w => Sys2Proof.Machine.execFclassF32 w s
  | .frcpF32 w => Sys2Proof.Machine.execFrcpF32 w s
  | .frsqF32 w => Sys2Proof.Machine.execFrsqF32 w s
  | .fsqrtF32 w => Sys2Proof.Machine.execFsqrtF32 w s
  | .fexp2F32 w => Sys2Proof.Machine.execFexp2F32 w s
  | .flog2F32 w => Sys2Proof.Machine.execFlog2F32 w s
  | .frndF32 w => Sys2Proof.Machine.execFrndF32 w s
  | .fscaleF32 w => Sys2Proof.Machine.execFscaleF32 w s
  | .ffmaF16x2 w => Sys2Proof.Machine.execFfmaF16x2 w s
  | .faddF64 w => Sys2Proof.Machine.execFaddF64 w s
  | .fsubF64 w => Sys2Proof.Machine.execFsubF64 w s
  | .fmulF64 w => Sys2Proof.Machine.execFmulF64 w s
  | .ffmaF64 w => Sys2Proof.Machine.execFfmaF64 w s
  | .fminF64 w => Sys2Proof.Machine.execFminF64 w s
  | .fmaxF64 w => Sys2Proof.Machine.execFmaxF64 w s
  | .fcmpF64 w => Sys2Proof.Machine.execFcmpF64 w s
  | .fclassF64 w => Sys2Proof.Machine.execFclassF64 w s
  | .frcpF64 w => Sys2Proof.Machine.execFrcpF64 w s
  | .frsqF64 w => Sys2Proof.Machine.execFrsqF64 w s
  | .fsqrtF64 w => Sys2Proof.Machine.execFsqrtF64 w s
  | .fexp2F64 w => Sys2Proof.Machine.execFexp2F64 w s
  | .flog2F64 w => Sys2Proof.Machine.execFlog2F64 w s
  | .frndF64 w => Sys2Proof.Machine.execFrndF64 w s
  | .fscaleF64 w => Sys2Proof.Machine.execFscaleF64 w s
  | .ffmaBf16x2 w => Sys2Proof.Machine.execFfmaBf16x2 w s
  | .cvtFF w => Sys2Proof.Machine.execCvtFF w s
  | .cvtIF w => Sys2Proof.Machine.execCvtIF w s
  | .cvtFI w => Sys2Proof.Machine.execCvtFI w s
  | .cvtII w => Sys2Proof.Machine.execCvtII w s
  | .cvtsTo w => Sys2Proof.Machine.execCvtsTo w s
  | .cvtsFrom w => Sys2Proof.Machine.execCvtsFrom w s
  | .packMx4 w => Sys2Proof.Machine.execPackMx4 w s
  | .packMx8e4 w => Sys2Proof.Machine.execPackMx8e4 w s
  | .packMx8e5 w => Sys2Proof.Machine.execPackMx8e5 w s
  | .packK4 w => Sys2Proof.Machine.execPackK4 w s
  | .packSlot w => Sys2Proof.Machine.execPackSlot w s
  | .unpkMx4 w => Sys2Proof.Machine.execUnpkMx4 w s
  | .unpkMx8e4 w => Sys2Proof.Machine.execUnpkMx8e4 w s
  | .unpkMx8e5 w => Sys2Proof.Machine.execUnpkMx8e5 w s
  | .unpkK4 w => Sys2Proof.Machine.execUnpkK4 w s
  | .unpkSlot w => Sys2Proof.Machine.execUnpkSlot w s
  | .mov w => Sys2Proof.Machine.execMov w s
  | .movi w => Sys2Proof.Machine.execMovi w s
  | .bcast w => Sys2Proof.Machine.execBcast w s
  | .lane w => Sys2Proof.Machine.execLane w s
  | .shflIdx w => Sys2Proof.Machine.execShflIdx w s
  | .shflRise w => Sys2Proof.Machine.execShflRise w s
  | .shflFall w => Sys2Proof.Machine.execShflFall w s
  | .shflXor w => Sys2Proof.Machine.execShflXor w s
  | .shflIdxShort w => Sys2Proof.Machine.execShflIdxShort w s
  | .shflRiseShort w => Sys2Proof.Machine.execShflRiseShort w s
  | .shflFallShort w => Sys2Proof.Machine.execShflFallShort w s
  | .shflXorShort w => Sys2Proof.Machine.execShflXorShort w s
  | .vote w => Sys2Proof.Machine.execVote w s
  | .reduxInt w => Sys2Proof.Machine.execReduxInt w s
  | .reduxFloat w => Sys2Proof.Machine.execReduxFloat w s
  | .matchLanes w => Sys2Proof.Machine.execMatchLanes w s
  | .ldB w => Sys2Proof.Machine.execLdB w s
  | .ldBI8 w => Sys2Proof.Machine.execLdBI8 w s
  | .ldH w => Sys2Proof.Machine.execLdH w s
  | .ldHI16 w => Sys2Proof.Machine.execLdHI16 w s
  | .ldW w => Sys2Proof.Machine.execLdW w s
  | .ldD w => Sys2Proof.Machine.execLdD w s
  | .ldQ w => Sys2Proof.Machine.execLdQ w s
  | .stB w => Sys2Proof.Machine.execStB w s
  | .stH w => Sys2Proof.Machine.execStH w s
  | .stW w => Sys2Proof.Machine.execStW w s
  | .stD w => Sys2Proof.Machine.execStD w s
  | .stQ w => Sys2Proof.Machine.execStQ w s
  | .atomW w => Sys2Proof.Machine.execAtomW w s
  | .atomD w => Sys2Proof.Machine.execAtomD w s
  | .fence w => Sys2Proof.Machine.execFence w s
  | .pref w => Sys2Proof.Machine.execPref w s
  | .ldBWin w => Sys2Proof.Machine.execLdBWin w s
  | .ldBI8Win w => Sys2Proof.Machine.execLdBI8Win w s
  | .ldHWin w => Sys2Proof.Machine.execLdHWin w s
  | .ldHI16Win w => Sys2Proof.Machine.execLdHI16Win w s
  | .ldWWin w => Sys2Proof.Machine.execLdWWin w s
  | .ldDWin w => Sys2Proof.Machine.execLdDWin w s
  | .ldQWin w => Sys2Proof.Machine.execLdQWin w s
  | .stBWin w => Sys2Proof.Machine.execStBWin w s
  | .stHWin w => Sys2Proof.Machine.execStHWin w s
  | .stWWin w => Sys2Proof.Machine.execStWWin w s
  | .stDWin w => Sys2Proof.Machine.execStDWin w s
  | .stQWin w => Sys2Proof.Machine.execStQWin w s
  | .atomWWin w => Sys2Proof.Machine.execAtomWWin w s
  | .atomDWin w => Sys2Proof.Machine.execAtomDWin w s
  | .prefRange w => Sys2Proof.Machine.execPrefRange w s
  | .bar w => Sys2Proof.Machine.execBar w s
  | .barCount w => Sys2Proof.Machine.execBarCount w s
  | .barObject w => Sys2Proof.Machine.execBarObject w s
  | .barObjectArrive w => Sys2Proof.Machine.execBarObjectArrive w s
  | .cinit w => Sys2Proof.Machine.execCinit w s
  | .cadd w => Sys2Proof.Machine.execCadd w s
  | .caddWide w => Sys2Proof.Machine.execCaddWide w s
  | .cwait w => Sys2Proof.Machine.execCwait w s
  | .cwaitLimit w => Sys2Proof.Machine.execCwaitLimit w s
  | .cancel w => Sys2Proof.Machine.execCancel w s
  | .launch w => Sys2Proof.Machine.execLaunch w s
  | .launchQueue w => Sys2Proof.Machine.execLaunchQueue w s
  | .qbind w => Sys2Proof.Machine.execQbind w s
  | .qres w => Sys2Proof.Machine.execQres w s
  | .qresWide w => Sys2Proof.Machine.execQresWide w s
  | .qput w => Sys2Proof.Machine.execQput w s
  | .qget w => Sys2Proof.Machine.execQget w s
  | .qwait w => Sys2Proof.Machine.execQwait w s
  | .qstat w => Sys2Proof.Machine.execQstat w s
  | .qcancelGrant w => Sys2Proof.Machine.execQcancelGrant w s
  | .qcancelWait w => Sys2Proof.Machine.execQcancelWait w s
  | .bra w => Sys2Proof.Machine.execBra w s
  | .braU w => Sys2Proof.Machine.execBraU w s
  | .bray w => Sys2Proof.Machine.execBray w s
  | .bruNz w => Sys2Proof.Machine.execBruNz w s
  | .bruZ w => Sys2Proof.Machine.execBruZ w s
  | .jmp w => Sys2Proof.Machine.execJmp w s
  | .jtab w => Sys2Proof.Machine.execJtab w s
  | .call w => Sys2Proof.Machine.execCall w s
  | .callRegister w => Sys2Proof.Machine.execCallRegister w s
  | .callt w => Sys2Proof.Machine.execCallt w s
  | .ret w => Sys2Proof.Machine.execRet w s
  | .reform w => Sys2Proof.Machine.execReform w s
  | .exit w => Sys2Proof.Machine.execExit w s
  | .wait w => Sys2Proof.Machine.execWait w s
  | .sleep w => Sys2Proof.Machine.execSleep w s
  | .nop w => Sys2Proof.Machine.execNop w s
  | .mloopB16 w => Sys2Proof.Machine.execMloopB16 w s
  | .mloopB8 w => Sys2Proof.Machine.execMloopB8 w s
  | .mloopB4 w => Sys2Proof.Machine.execMloopB4 w s
  | .mloopB16Short w => Sys2Proof.Machine.execMloopB16Short w s
  | .mloopB8Short w => Sys2Proof.Machine.execMloopB8Short w s
  | .mloopB4Short w => Sys2Proof.Machine.execMloopB4Short w s
  | .mzero w => Sys2Proof.Machine.execMzero w s
  | .mldt w => Sys2Proof.Machine.execMldt w s
  | .mldtWin w => Sys2Proof.Machine.execMldtWin w s
  | .mst w => Sys2Proof.Machine.execMst w s
  | .mstSlot w => Sys2Proof.Machine.execMstSlot w s
  | .mstWinSlot w => Sys2Proof.Machine.execMstWinSlot w s
  | .mrdF32 w => Sys2Proof.Machine.execMrdF32 w s
  | .mrdSlot w => Sys2Proof.Machine.execMrdSlot w s
  | .mrdA80 w => Sys2Proof.Machine.execMrdA80 w s
  | .mver w => Sys2Proof.Machine.execMver w s
  | .sfill w => Sys2Proof.Machine.execSfill w s
  | .sfillQueue w => Sys2Proof.Machine.execSfillQueue w s
  | .sdrain w => Sys2Proof.Machine.execSdrain w s
  | .sdrainQueue w => Sys2Proof.Machine.execSdrainQueue w s
  | .srel w => Sys2Proof.Machine.execSrel w s
  | .sjoin w => Sys2Proof.Machine.execSjoin w s
  | .swait w => Sys2Proof.Machine.execSwait w s
  | .swaitCount w => Sys2Proof.Machine.execSwaitCount w s
  | .gate w => Sys2Proof.Machine.execGate w s
  | .gret w => Sys2Proof.Machine.execGret w s
  | .trap w => Sys2Proof.Machine.execTrap w s
  | .tret w => Sys2Proof.Machine.execTret w s
  | .yield w => Sys2Proof.Machine.execYield w s
  | .rdsr w => Sys2Proof.Machine.execRdsr w s
  | .wrsr w => Sys2Proof.Machine.execWrsr w s
  | .brk w => Sys2Proof.Machine.execBrk w s
  | .scalarIadd w => Sys2Proof.Machine.execScalarIadd w s
  | .scalarIaddImm w => Sys2Proof.Machine.execScalarIaddImm w s
  | .scalarIsub w => Sys2Proof.Machine.execScalarIsub w s
  | .scalarIsubImm w => Sys2Proof.Machine.execScalarIsubImm w s
  | .scalarImul w => Sys2Proof.Machine.execScalarImul w s
  | .scalarImulImm w => Sys2Proof.Machine.execScalarImulImm w s
  | .scalarImulh w => Sys2Proof.Machine.execScalarImulh w s
  | .scalarImulhN64 w => Sys2Proof.Machine.execScalarImulhN64 w s
  | .scalarImin w => Sys2Proof.Machine.execScalarImin w s
  | .scalarIminImm w => Sys2Proof.Machine.execScalarIminImm w s
  | .scalarImax w => Sys2Proof.Machine.execScalarImax w s
  | .scalarImaxImm w => Sys2Proof.Machine.execScalarImaxImm w s
  | .scalarIminN64 w => Sys2Proof.Machine.execScalarIminN64 w s
  | .scalarImaxN64 w => Sys2Proof.Machine.execScalarImaxN64 w s
  | .scalarIabs w => Sys2Proof.Machine.execScalarIabs w s
  | .scalarIneg w => Sys2Proof.Machine.execScalarIneg w s
  | .scalarAnd w => Sys2Proof.Machine.execScalarAnd w s
  | .scalarAndImm w => Sys2Proof.Machine.execScalarAndImm w s
  | .scalarOr w => Sys2Proof.Machine.execScalarOr w s
  | .scalarOrImm w => Sys2Proof.Machine.execScalarOrImm w s
  | .scalarXor w => Sys2Proof.Machine.execScalarXor w s
  | .scalarXorImm w => Sys2Proof.Machine.execScalarXorImm w s
  | .scalarAndn w => Sys2Proof.Machine.execScalarAndn w s
  | .scalarNot w => Sys2Proof.Machine.execScalarNot w s
  | .scalarShl w => Sys2Proof.Machine.execScalarShl w s
  | .scalarShlImm w => Sys2Proof.Machine.execScalarShlImm w s
  | .scalarShr w => Sys2Proof.Machine.execScalarShr w s
  | .scalarShrImm w => Sys2Proof.Machine.execScalarShrImm w s
  | .scalarSar w => Sys2Proof.Machine.execScalarSar w s
  | .scalarSarImm w => Sys2Proof.Machine.execScalarSarImm w s
  | .scalarRol w => Sys2Proof.Machine.execScalarRol w s
  | .scalarRolImm w => Sys2Proof.Machine.execScalarRolImm w s
  | .scalarPopc w => Sys2Proof.Machine.execScalarPopc w s
  | .scalarClz w => Sys2Proof.Machine.execScalarClz w s
  | .scalarCtz w => Sys2Proof.Machine.execScalarCtz w s
  | .scalarBrev w => Sys2Proof.Machine.execScalarBrev w s
  | .scalarMov w => Sys2Proof.Machine.execScalarMov w s
  | .scalarMovi w => Sys2Proof.Machine.execScalarMovi w s
  | .scalarIcmpEq w => Sys2Proof.Machine.execScalarIcmpEq w s
  | .scalarIcmpEqImm w => Sys2Proof.Machine.execScalarIcmpEqImm w s
  | .scalarIcmpLt w => Sys2Proof.Machine.execScalarIcmpLt w s
  | .scalarIcmpLtImm w => Sys2Proof.Machine.execScalarIcmpLtImm w s
  | .scalarIcmpLtN64 w => Sys2Proof.Machine.execScalarIcmpLtN64 w s
  | .scalarIcmpLtN64Imm w => Sys2Proof.Machine.execScalarIcmpLtN64Imm w s
  | .scalarIcmpNe w => Sys2Proof.Machine.execScalarIcmpNe w s
  | .scalarIcmpNeImm w => Sys2Proof.Machine.execScalarIcmpNeImm w s
  | .scalarBruNz w => Sys2Proof.Machine.execScalarBruNz w s
  | .scalarBruZ w => Sys2Proof.Machine.execScalarBruZ w s
  | .coldBoot d => Sys2Proof.Machine.execColdBoot d s
  | .belayMirrorTimeout d => Sys2Proof.Machine.execBelayMirrorTimeout d s
  | .mirrorRewrite d => Sys2Proof.Machine.execMirrorRewrite d s
  | .unitOffline d kind unit cause => Sys2Proof.Machine.execUnitOffline d kind unit cause s
  | .seamWidthChange d link => Sys2Proof.Machine.execSeamWidthChange d link s
  | .seamWidthChangeDone d link => Sys2Proof.Machine.execSeamWidthChangeDone d link s
  | .ridgeRetrain d port trained => Sys2Proof.Machine.execRidgeRetrain d port trained s
  | .epochBoundary => Sys2Proof.Machine.execEpochBoundary s
  | .registerWrite d addr size value => Sys2Proof.Machine.execRegisterWrite d addr size value s
  | .xinvPage d pn vpn => Sys2Proof.Machine.execXinvPage d pn vpn s
  | .xinvProcess d pn => Sys2Proof.Machine.execXinvProcess d pn s
  | .xinvAll d => Sys2Proof.Machine.execXinvAll d s
  | .xinvComplete d => Sys2Proof.Machine.execXinvComplete d s
  | .zpClear d entry => Sys2Proof.Machine.execZpClear d entry s
  | .zeroBackground d line => Sys2Proof.Machine.execZeroBackground d line s
  | .replay d strm log => Sys2Proof.Machine.execReplay d strm log s
  | .complete d strm log => Sys2Proof.Machine.execComplete d strm log s
  | .decline d strm log => Sys2Proof.Machine.execDecline d strm log s
  | .translationRetry d txid => Sys2Proof.Machine.execTranslationRetry d txid s
  | .translationFail d txid => Sys2Proof.Machine.execTranslationFail d txid s
  | .memsvcRead d k => Sys2Proof.Machine.execMemsvcRead d k s
  | .memsvcWrite d k => Sys2Proof.Machine.execMemsvcWrite d k s
  | .memsvcAtom d k => Sys2Proof.Machine.execMemsvcAtom d k s
  | .migrate d k => Sys2Proof.Machine.execMigrate d k s
  | .migratePageSend d k => Sys2Proof.Machine.execMigratePageSend d k s
  | .moveEndResume d k => Sys2Proof.Machine.execMoveEndResume d k s
  | .presenceResume d gid warp => Sys2Proof.Machine.execPresenceResume d gid warp s
  | .tilePinReleaseResume d cluster => Sys2Proof.Machine.execTilePinReleaseResume d cluster s
  | .bulkPrefetch d core => Sys2Proof.Machine.execBulkPrefetch d core s
  | .hbmRead d addr badSymbols => Sys2Proof.Machine.execHbmRead d addr badSymbols s
  | .hbmWrite d addr mask data => Sys2Proof.Machine.execHbmWrite d addr mask data s
  | .hbmZero d addr => Sys2Proof.Machine.execHbmZero d addr s
  | .hbmAread d frame asub afmt blk => Sys2Proof.Machine.execHbmAread d frame asub afmt blk s
  | .hbmAwrite d frame asub afmt blk mask data => Sys2Proof.Machine.execHbmAwrite d frame asub afmt blk mask data s
  | .patrolScrub d stack badSymbols => Sys2Proof.Machine.execPatrolScrub d stack badSymbols s
  | .create d index => Sys2Proof.Machine.execCreate d index s
  | .destroy d index => Sys2Proof.Machine.execDestroy d index s
  | .nameinv d => Sys2Proof.Machine.execNameinv d s
  | .register d => Sys2Proof.Machine.execRegister d s
  | .revoke d index => Sys2Proof.Machine.execRevoke d index s
  | .connect d => Sys2Proof.Machine.execConnect d s
  | .close d index => Sys2Proof.Machine.execClose d index s
  | .resv d k => Sys2Proof.Machine.execResv d k s
  | .grant d k => Sys2Proof.Machine.execGrant d k s
  | .put d k => Sys2Proof.Machine.execPut d k s
  | .stat d k => Sys2Proof.Machine.execStat d k s
  | .deq d k => Sys2Proof.Machine.execDeq d k s
  | .deliver d k => Sys2Proof.Machine.execDeliver d k s
  | .cancelMessage d k => Sys2Proof.Machine.execCancelMessage d k s
  | .retry d k => Sys2Proof.Machine.execRetry d k s
  | .probe d k => Sys2Proof.Machine.execProbe d k s
  | .incarn d k => Sys2Proof.Machine.execIncarn d k s
  | .lostdie d k => Sys2Proof.Machine.execLostdie d k s
  | .page d k => Sys2Proof.Machine.execPage d k s
  | .pageack d k => Sys2Proof.Machine.execPageack d k s
  | .rput d k => Sys2Proof.Machine.execRput d k s
  | .save d k => Sys2Proof.Machine.execSave d k s
  | .saveack d k => Sys2Proof.Machine.execSaveack d k s
  | .elementAssign d index => Sys2Proof.Machine.execElementAssign d index s
  | .ticketExpiry d index ticket => Sys2Proof.Machine.execTicketExpiry d index ticket s
  | .incompleteMessageDiscard d k => Sys2Proof.Machine.execIncompleteMessageDiscard d k s
  | .doneRecordExpiry d k => Sys2Proof.Machine.execDoneRecordExpiry d k s
  | .transitSpillDiscard d k => Sys2Proof.Machine.execTransitSpillDiscard d k s
  | .probeSend d link => Sys2Proof.Machine.execProbeSend d link s
  | .dieLost d lost => Sys2Proof.Machine.execDieLost d lost s
  | .targetLostTimeout d pkg die => Sys2Proof.Machine.execTargetLostTimeout d pkg die s
  | .hostData pkt => Sys2Proof.Machine.execHostData pkt s
  | .hostAck pkt => Sys2Proof.Machine.execHostAck pkt s
  | .hostAckSend conn => Sys2Proof.Machine.execHostAckSend conn s
  | .hostDataSend conn => Sys2Proof.Machine.execHostDataSend conn s
  | .rtoTimeout conn => Sys2Proof.Machine.execRtoTimeout conn s
  | .neighbourDiscovery target => Sys2Proof.Machine.execNeighbourDiscovery target s
  | .stagedCommit d node => Sys2Proof.Machine.execStagedCommit d node s
  | .commitComplete d node => Sys2Proof.Machine.execCommitComplete d node s
  | .irrevocableResume d node => Sys2Proof.Machine.execIrrevocableResume d node s
  | .checkpoint d => Sys2Proof.Machine.execCheckpoint d s
  | .recordTake d => Sys2Proof.Machine.execRecordTake d s
  | .translate d txid => Sys2Proof.Machine.execTranslate d txid s
  | .groupPlace d => Sys2Proof.Machine.execGroupPlace d s
  | .slotFree d gid => Sys2Proof.Machine.execSlotFree d gid s
  | .trackerDrain d gid => Sys2Proof.Machine.execTrackerDrain d gid s
  | .rebalance d => Sys2Proof.Machine.execRebalance d s
  | .watchdog d gid warp => Sys2Proof.Machine.execWatchdog d gid warp s
  | .watchdogKill d gid => Sys2Proof.Machine.execWatchdogKill d gid s
  | .cairnForm d gid => Sys2Proof.Machine.execCairnForm d gid s
  | .waitLimit d gid thread => Sys2Proof.Machine.execWaitLimit d gid thread s
  | .sleepEnd d gid thread => Sys2Proof.Machine.execSleepEnd d gid thread s
  | .cwaitTimeout d gid warp => Sys2Proof.Machine.execCwaitTimeout d gid warp s
  | .pendingLaunchDrain d core => Sys2Proof.Machine.execPendingLaunchDrain d core s
  | .launchReserveRetry d core => Sys2Proof.Machine.execLaunchReserveRetry d core s
  | .matrixPassGrant d cluster => Sys2Proof.Machine.execMatrixPassGrant d cluster s
  | .matrixPassEnd d cluster => Sys2Proof.Machine.execMatrixPassEnd d cluster s
  | .streamFillRow d core copy row => Sys2Proof.Machine.execStreamFillRow d core copy row s
  | .streamDrainRow d core copy row => Sys2Proof.Machine.execStreamDrainRow d core copy row s
  | .streamSlotDeq d core copy => Sys2Proof.Machine.execStreamSlotDeq d core copy s
  | .drainQueuePut d core copy => Sys2Proof.Machine.execDrainQueuePut d core copy s
  | .drainReserveRetry d core copy => Sys2Proof.Machine.execDrainReserveRetry d core copy s
  | .gretComplete d gid => Sys2Proof.Machine.execGretComplete d gid s
  | .gateTimeout d gid level => Sys2Proof.Machine.execGateTimeout d gid level s
  | .swapOut d => Sys2Proof.Machine.execSwapOut d s
  | .swapRestorable d gid => Sys2Proof.Machine.execSwapRestorable d gid s
  | .preemptForcedSave d gid => Sys2Proof.Machine.execPreemptForcedSave d gid s
  | .poisonHandlerTimeout d gid => Sys2Proof.Machine.execPoisonHandlerTimeout d gid s
  | .warmReset d planned => Sys2Proof.Machine.execWarmReset d planned s
  | .freqChange d point => Sys2Proof.Machine.execFreqChange d point s
  | .freqChangeDone d => Sys2Proof.Machine.execFreqChangeDone d s
  | .thermalCheck readings => Sys2Proof.Machine.execThermalCheck readings s
  | .linkFrame d link rx => Sys2Proof.Machine.execLinkFrame d link rx s
  | .linkReplayTimeout d link => Sys2Proof.Machine.execLinkReplayTimeout d link s
  | .mgmtSession pkt => Sys2Proof.Machine.execMgmtSession pkt s
  | .mgmtProc pkt => Sys2Proof.Machine.execMgmtProc pkt s
  | .mgmtMap pkt => Sys2Proof.Machine.execMgmtMap pkt s
  | .mgmtQueue pkt => Sys2Proof.Machine.execMgmtQueue pkt s
  | .mgmtLoad pkt => Sys2Proof.Machine.execMgmtLoad pkt s
  | .mgmtEnqueue pkt => Sys2Proof.Machine.execMgmtEnqueue pkt s
  | .mgmtReset pkt => Sys2Proof.Machine.execMgmtReset pkt s
  | .mgmtAttest pkt => Sys2Proof.Machine.execMgmtAttest pkt s
  | .mgmtRead pkt => Sys2Proof.Machine.execMgmtRead pkt s
  | .mgmtFreq pkt => Sys2Proof.Machine.execMgmtFreq pkt s
  | .mgmtClose pkt => Sys2Proof.Machine.execMgmtClose pkt s
  | .mgmtReg pkt => Sys2Proof.Machine.execMgmtReg pkt s
  | .mgmtPwrite pkt => Sys2Proof.Machine.execMgmtPwrite pkt s
  | .tamper => Sys2Proof.Machine.execTamper s
  | .glitch d => Sys2Proof.Machine.execGlitch d s
  | .temperatureAlarm d celsius => Sys2Proof.Machine.execTemperatureAlarm d celsius s
  | .frameAlignmentFound d link offset => Sys2Proof.Machine.execFrameAlignmentFound d link offset s
  | .unsignedPersistentWrite d => Sys2Proof.Machine.execUnsignedPersistentWrite d s

end Sys2Proof.Machine
end

