-- ==== Sys2Proof/Machine/Strikes.lean ====
section
/-! DEFINITION. Uncorrectable errors that strike a die's storage while it runs, and disagreements of roped issue (R70,
R238, R393 to R395, R436). -/

namespace Sys2Proof.Machine

/-- Words of a group's partition become poisoned where they stand. -/
def Group.poisonWords (g : Group) (ws : List Nat) : Group :=
  ws.foldl (fun g w => g.setWord w { g.word w with poison := true }) g

/-- A core that is still online goes offline (R20, R410). -/
def State.strikeCore (s : State) (d core cause : Nat) (lanes : List Nat) : State :=
  let x := s.die d
  let (cl, c) := x.conf.cores.getD core (0, 0)
  if x.numCores ≤ core ∨ x.coreOffline core then s else s.coreOff d core (4 * cl + c) cause (aluLanes lanes)

/-- The second execution of the last per-lane word of a core disagrees: its destination words of those lanes are written
poisoned, and the core goes offline (R393). -/
def State.strikeRope (s : State) (d core : Nat) (lanes : BitVec 32) : State :=
  match ((s.die d).core core).last with
  | none => s
  | some w =>
    let differ := w.words.filter fun l => lanes.toNat.testBit l.1
    let s := s.modGroup d w.gid fun g => if g.phase = .resident then g.poisonWords (differ.flatMap (·.2)) else g
    (s.modDie d fun x => x.modCore core fun c => { c with last := none }).strikeCore d core 1 (differ.map (·.1))

/-- Some lane of the core's last per-lane word is among these. -/
def Core.roped (c : Core) (lanes : BitVec 32) : Bool := c.last.any fun w => w.words.any fun l => lanes.toNat.testBit l.1

/-- An error in an element's 8 bytes that hold word k: both of their words are delivered poisoned (R394). -/
def Ticket.strike (t : Ticket) (k : Nat) : Ticket := { t with bad := distinct (t.bad ++ [k / 2 * 2, k / 2 * 2 + 1]) }

/-- An element of a queue's window that an error can strike. -/
def Queue.struck (q : Queue) (ticket : Nat) : Bool := q.inWindow.contains ticket

/-- An error in what a group runs by kills it (R394): whether a group died, and the core it ran on. -/
def State.strikeGroup (s : State) (d gid : Nat) : Option Nat × State :=
  match s.group? d gid with
  | none => (none, s)
  | some g => if g.phase = .resident ∧ !g.dead then (some g.core, s.killWith d gid St.killed) else (none, s)

/-- What an uncorrectable error does (R70, R394): a stored copy of clean data is dropped, a word is poisoned, a group or a node
is killed. -/
def State.strike (s : State) (d : Nat) (e : Strike) : State :=
  if (s.die d).phase ≠ .up then s
  else
    match e with
    | .word gid k => s.modGroup d gid fun g => if g.phase = .resident ∧ k < 32768 then g.poisonWords [k] else g
    | .sreg gid warp n =>
      s.modGroup d gid fun g =>
        if g.phase = .resident ∧ warp < g.warps ∧ n < 64 then g.setSreg warp n { g.sreg warp n with poison := true } else g
    | .predicates gid => (s.strikeGroup d gid).2
    | .scoreboard gid => (s.strikeGroup d gid).2
    | .issueState gid =>
      -- of the three, an error in issue state takes the core offline too (R410)
      match s.strikeGroup d gid with
      | (some core, s) => s.strikeCore d core 2 []
      | (none, s) => s
    | .extent node => s.killNode d node St.poison
    | .icache core k => s.modDie d fun x => x.modCore core fun c => { c with icache := c.icache.eraseIdx k }
    | .l1 core k => s.modDie d fun x => x.modCore core fun c => { c with l1 := c.l1.eraseIdx k }
    | .tcache core k => s.modDie d fun x => x.modCore core fun c => { c with tcache := c.tcache.eraseIdx k }
    | .l2 k sector => s.modDie d fun x => { x with l2 := modNth x.l2 k (·.strike (sector % 2)) }
    | .tile gid k =>
      s.modGroup d gid fun g =>
        { g with tiles := (List.range g.tiles.length).zipWith (fun i t => if i = k then { t with poison := true } else t) g.tiles }
    | .element index ticket k =>
      s.modDie d fun x => x.modQueue index fun q => if q.struck ticket then q.modTicket ticket (·.strike k) else q
    | .rope core lanes => if ((s.die d).core core).roped lanes then s.strikeRope d core lanes else s

end Sys2Proof.Machine
end

