-- ==== Sys2Proof/Machine/Turns.lean ====
section
/-! DEFINITION. Who moves next (R12), what may move unasked, what the device does as a step ends, and how the model places a
word where the next step fetches it. -/

namespace Sys2Proof.Machine

/-- The turn that comes next: the head of the agenda, or a free choice (log entry 2). -/
def State.nextTurn (s : State) : Turn × State :=
  match s.agenda with
  | t :: rest => (t, { s with agenda := rest })
  | [] => let (n, s) := s.draw; (Config.freeTurn n, s)

/-- A step that carries a request of another agent: it takes place only for that request, and never by itself. -/
def asked (i : Instr) : Bool :=
  match i with
  | .hbmWrite .. => true
  | .hbmZero .. => true
  | .hbmAwrite .. => true
  | .zpClear .. => true
  | .registerWrite .. => true
  | _ => false

/-- The die whose issue or engines make a step, a parked or held word's performance among them: they pause while the die's
frequency changes (R409). -/
def engineDie (i : Instr) : Option Nat :=
  match i with
  | .matrixPassGrant d _ => some d
  | .matrixPassEnd d _ => some d
  | .tilePinReleaseResume d _ => some d
  | .streamFillRow d _ _ _ => some d
  | .streamDrainRow d _ _ _ => some d
  | .streamSlotDeq d _ _ => some d
  | .drainQueuePut d _ _ => some d
  | .drainReserveRetry d _ _ => some d
  | .bulkPrefetch d _ => some d
  | .pendingLaunchDrain d _ => some d
  | .launchReserveRetry d _ => some d
  | .replay d _ _ => some d
  | .complete d _ _ => some d
  | .decline d _ _ => some d
  | .presenceResume d _ _ => some d
  | .irrevocableResume d _ => some d
  | _ => none

/-- The die whose other units make a step: they stand still, with its engines, while a planned reset has stopped it (R406). -/
def unitDie (i : Instr) : Option Nat :=
  match i with
  | .xinvPage d _ _ => some d
  | .xinvProcess d _ => some d
  | .xinvAll d => some d
  | .xinvComplete d => some d
  | .zeroBackground d _ => some d
  | .patrolScrub d _ _ => some d
  | .translationRetry d _ => some d
  | .translationFail d _ => some d
  | .translate d _ => some d
  | .groupPlace d => some d
  | .slotFree d _ => some d
  | .trackerDrain d _ => some d
  | .rebalance d => some d
  | .watchdog d _ _ => some d
  | .watchdogKill d _ => some d
  | .cairnForm d _ => some d
  | .waitLimit d _ _ => some d
  | .sleepEnd d _ _ => some d
  | .cwaitTimeout d _ _ => some d
  | .gretComplete d _ => some d
  | .gateTimeout d _ _ => some d
  | .swapOut d => some d
  | .swapRestorable d _ => some d
  | .preemptForcedSave d _ => some d
  | .poisonHandlerTimeout d _ => some d
  | .stagedCommit d _ => some d
  | .commitComplete d _ => some d
  | .moveEndResume d _ => some d
  | .migratePageSend d _ => some d
  | .ticketExpiry d _ _ => some d
  | .unitOffline d _ _ _ => some d
  | _ => none

/-- A device step may take place: engines pause while their die's frequency changes (R409), a die that a planned reset has
stopped stands still (R406), and a step that carries a request comes from the agenda alone (`free` is a turn that no agenda
lists). -/
def State.mayStep (s : State) (free : Bool) (i : Instr) : Bool :=
  i.view == .step && !(free && asked i) && !((engineDie i).any fun d => (s.die d).paused)
    && !((unitDie i).any fun d => (s.die d).stopped.isSome)

/-! ## The end of a step -/

/-- The nodes of a die that found the staging reserve full are killed (R82). -/
def State.reapDie (s : State) (d : Nat) : State :=
  let nids := (s.die d).doomed
  nids.foldl (fun s n => s.killNode d n St.staging) (s.modDie d fun x => { x with doomed := [] })

/-- Matrix entries that a step has made eligible take their place in the order of doing so (R375). -/
def State.markAll (s : State) (d : Nat) : State := (s.die d).clusters.foldl (fun s c => s.markEligible d c.1) s

/-- What follows at once from a step on every die: a WAIT whose word was written poisoned consumes the poison (R281), nodes are
killed for STAGING (R82), matrix entries become eligible (R375), engines go on where they can (R409), elements that are eligible
go to the waiters and the management core (R122, R376), management commands and replies go on (R422), and the next SAVE goes to
the belay partner (R405). -/
def State.followUp (s : State) : State :=
  let s := (List.range 8).foldl (fun s d => (((s.consumeAll d).reapDie d).markAll d).pumpDie d) s
  let s := s.serveAll
  let s := (List.range 8).foldl (fun s d => ((s.endUnknown d).pumpRelay d).pumpReply d) s
  (List.range 8).foldl (fun s d => s.pumpBelay d) s

/-- A step ends: it stops where it has touched an Unpopulated address (R40). -/
def State.settle (s : State) : Host.Outcome State Fault Refusal :=
  let s := s.followUp
  match s.hole with
  | some a => .fault (.unpopulated a)
  | none => .next s

/-- An instruction's outcome with the end of the step. -/
def settled (o : Host.Outcome State Fault Refusal) : Host.Outcome State Fault Refusal :=
  match o with
  | .next s => s.settle
  | .fault f => .fault f
  | .refused r => .refused r

/-! ## Placing a word -/

/-- The record of a node of one group with one warp, every register of a lane, a scratchpad and two tiles, at ENTRY 0. -/
def probeRecord : TaskRec where
  words := [0, 0x4000100010001, BitVec.ofNat 64 (1 + 128 * 16 + 8 * 2 ^ 12 + 1 * 2 ^ 20 + 2 * 2 ^ 25), 0, 0, 0, 0, 0,
            0, 0, 0, 0, 0, 0, 0, 0]
  pn := 0
  cls := 0
  at_ := 0
  retries := 0
  poison := false
  rid := 0

/-- A node of that record, dispatched and past its irrevocable point. -/
def probeNode (nid : Nat) : Node where
  nid := nid
  rec_ := probeRecord
  ext := ⟨[], [], []⟩
  fs := List.replicate 8 0
  order := nid
  at_ := 0
  candAt := 0
  nextIdx := 0
  total := 1
  live := 1
  owed := 0
  revocable := false
  turning := false
  committing := false
  tent := []
  cancelled := false
  killed := none
  stage := none

/-- A process table with process 0, its tables, and a CODE page at virtual address 0 that holds the bytes. -/
def probeBytes (code : List Byte) : List (Nat × List Byte) :=
  [(0, toBytes 8 (2 ^ 63 + 0x8000)), (0x8000, toBytes 8 (7 * 2 ^ 60 + 0xC000)), (0xC000, toBytes 8 (7 * 2 ^ 60 + 0x10000)),
   (0x10000, toBytes 8 (7 * 2 ^ 60 + 0x14000)), (0x14000, toBytes 8 (6 * 2 ^ 60 + 0x20000 + 5)), (0x20000, code)]

/-- Bytes stand in memory, clean and in no cache line. -/
def Die.place (d : Die) (a : Nat) (bs : List Byte) : Die :=
  { d with mem := memPut d.mem a (2 ^ bs.length - 1) bs
           l2 := d.l2.filter fun l => l.line + 64 ≤ a || a + bs.length ≤ l.line
           poisonSec := d.poisonSec.filter fun k => 32 * k + 32 ≤ a || a + bs.length ≤ 32 * k
           zpend := d.zpend.filter fun r => 32 * (r.1 + r.2) ≤ a || a + bs.length ≤ 32 * r.1 }

/-- The die with the bytes as process 0's code at address 0, and core 0 with nothing but one group that stands there. -/
def Die.withCode (d : Die) (nid gid : Nat) (code : List Byte) : Die :=
  let d := (probeBytes code).foldl (fun d p => d.place p.1 p.2) d
  let g := (probeNode nid).newGroup gid 0 0 0 [0, 1]
  { d with phase := .up, freqRunning := false, stopped := none, poisonPending := []
           space := { d.space with procbase := 1 }
           cores := tput d.cores 0 Core.empty
           sched := { d.sched with nodes := d.sched.nodes ++ [probeNode nid] }
           groups := (d.groups.filter fun g => !(g.phase == .resident && g.core == 0)) ++ [g] }

end Sys2Proof.Machine
end

