-- ==== Sys2Proof/Machine/Step.lean ====
section
/-! DEFINITION. One step of the machine: the next turn is a core's issue, the passing of time, or one of the
device's own steps (R12, R373). -/

namespace Sys2Proof.Machine

/-- What a turn does before the end of its step: a core's turn issues the word of the warp that its scheduler chooses; a
device step runs only as itself, never as a program's word. -/
noncomputable def State.turn (s : State) (free : Bool) (t : Turn) : Host.Outcome State Fault Refusal :=
  match t with
  | .issue d core =>
    match s.pickWord d core with
    | .word i s => exec i s
    | .over s => s.finish
    | .skip s => s.finish
  | .time d clocks => (s.passTime d clocks).finish
  | .event i => if s.mayStep free i then exec i s else s.finish
  | .strike d e => (s.strike d e).finish

/-- One step: the next turn, and what follows from it at once. -/
noncomputable def step (s : State) : Host.Outcome State Fault Refusal :=
  let (t, s') := s.nextTurn
  settled (s'.turn s.agenda.isEmpty t)

/-- The state with an instruction's words where core 0 of die 0 fetches its next word, and that core's issue as the next
turn (log entry 13). -/
def State.withFetchWord (s : State) (nbits w : Nat) : State :=
  let (nid, s) := s.newId
  let (gid, s) := s.newId
  { s.modDie 0 fun d => d.withCode nid gid (toBytes 16 (w % 2 ^ nbits)) with agenda := [.issue 0 0], hole := none }

end Sys2Proof.Machine
end

