-- ==== Sys2Proof/Safety.lean ====
section
/-! DEFINITION. What counts as a safe step, and the invariants that the statements use. -/

namespace Sys2Proof.Machine

/-- The step goes on: the machine neither stops at a hole of the address map nor refuses the word. -/
def goesOn (o : Host.Outcome State Fault Refusal) : Prop := ∃ s, o = .next s

/-- The package is the one that R1 describes, eight dies, and the bytes of every die's memory are in canonical form. -/
def diesOk (ds : List Die) : Prop := ds.length = 8 ∧ ∀ x ∈ ds, Memory.wf x.mem = true

/-- The invariant of every step: no access to an address that R40 calls Unpopulated stands open (a step that makes one
ends in a fault), and the dies are eight with canonical memories. -/
def State.Inv (s : State) : Prop := s.hole = none ∧ diesOk s.dies

end Sys2Proof.Machine
end

