-- ==== Sys2Proof/Certificates/Slice0/Claims.lean ====
section
/-! DEFINITION. The form of the statements about words, and the tables of what each word does when it completes. A
table has one row for each case of an instruction: when the word completes so, and the next state. -/

namespace Sys2Proof.Claims
open Sys2Proof.Machine

/-! ## The form -/

/-- A row about a word: the instruction, its checks at issue, when the row applies to the job that the checks give, and
the next state. -/
structure Claim where
  i : Instr
  checks : State → Issue
  ok : Job → State → Bool
  next : Job → State → State

/-- What a row says: where the checks of the word at its issue pass with job j and state t (R191, R193, R204, R213,
R241, R397) and the row applies, the instruction answers the row's next state. -/
def Claim.Holds (c : Claim) : Prop :=
  ∀ s j t, c.checks s = .run j t → c.ok j t = true → exec c.i s = .next (c.next j t)

/-- A row about an F word. -/
def word (i : Instr) (ok : Job → State → Bool) (next : Job → State → State) : Claim :=
  ⟨i, fun s => s.prepared i i.view i.sig, ok, next⟩

/-- The row applies whenever the word issues. -/
def always : Job → State → Bool := fun _ _ => true

/-- Each active lane's destination takes a value, and the issued threads pass. -/
def eachLane (i : Instr) (f : LaneSrc → Nat) : Claim := word i always fun j s => j.perLane s f

/-- The same, where the value depends on the job and the state. -/
def eachLaneOf (i : Instr) (ok : Job → State → Bool) (f : Job → State → LaneSrc → Nat) : Claim :=
  word i ok fun j s => j.perLane s (f j s)

/-! ## Operands -/

/-- A source as the unsigned number of the operating width w (R240). -/
def un (m : BitVec 2) (x : BitVec 128) : Nat := x.toNat % 2 ^ opw m
/-- A source as the number that UNS names: unsigned, or two's complement (R240). -/
def num (m : BitVec 2) (x : BitVec 128) : Int :=
  if m[1] then un m x else if 2 ^ (opw m - 1) ≤ un m x then (un m x : Int) - 2 ^ opw m else un m x
/-- A source in two's complement at the operating width. -/
def sgn (m : BitVec 2) (x : BitVec 128) : Int :=
  if 2 ^ (opw m - 1) ≤ un m x then (un m x : Int) - 2 ^ opw m else un m x
/-- A number mod 2^w. -/
def low (m : BitVec 2) (x : Int) : Nat := (x % 2 ^ opw m).toNat

/-! ## Integer arithmetic (R243, R245) -/

/-- The integer words that write one register. -/
def integerTable (w : RegWord) (v : WideWord) (u : ShortWord) : List Claim :=
  [eachLane (.iadd w) fun l => low w.mod (un w.mod l.a + un w.mod l.b),
   eachLane (.iaddWide v) fun l => low v.mod (un v.mod l.a + un v.mod l.b),
   eachLane (.isub w) fun l => low w.mod (un w.mod l.a - un w.mod l.b),
   eachLane (.isubWide v) fun l => low v.mod (un v.mod l.a - un v.mod l.b),
   eachLane (.imul w) fun l => low w.mod (un w.mod l.a * un w.mod l.b),
   eachLane (.imulWide v) fun l => low v.mod (un v.mod l.a * un v.mod l.b),
   eachLane (.imulh w) fun l => low w.mod (num w.mod l.a * num w.mod l.b / 2 ^ opw w.mod),
   eachLane (.imad w) fun l => low w.mod (un w.mod l.a * un w.mod l.b + un w.mod l.c),
   eachLane (.imadShort u) fun l => low u.mod (un u.mod l.a * un u.mod l.b + un u.mod l.c),
   eachLane (.imadw w) fun l => imadw w.mod[1] (l.a.toNat % 2 ^ 32) (l.b.toNat % 2 ^ 32) l.c.toNat,
   eachLane (.imadwShort u) fun l => imadw u.mod[1] (l.a.toNat % 2 ^ 32) (l.b.toNat % 2 ^ 32) l.c.toNat,
   eachLane (.imin w) fun l => low w.mod (min (num w.mod l.a) (num w.mod l.b)),
   eachLane (.iminWide v) fun l => low v.mod (min (num v.mod l.a) (num v.mod l.b)),
   eachLane (.imax w) fun l => low w.mod (max (num w.mod l.a) (num w.mod l.b)),
   eachLane (.imaxWide v) fun l => low v.mod (max (num v.mod l.a) (num v.mod l.b)),
   eachLane (.iabs w) fun l => low w.mod (sgn w.mod l.a).natAbs,
   eachLane (.ineg w) fun l => low w.mod (-(un w.mod l.a : Int)),
   eachLane (.isad w) fun l => low w.mod ((num w.mod l.a - num w.mod l.b).natAbs + un w.mod l.c),
   eachLane (.isadShort u) fun l => low u.mod ((num u.mod l.a - num u.mod l.b).natAbs + un u.mod l.c),
   eachLane (.lea w) fun l =>
     ((l.a.toNat + (if w.mod[0] then (l.b.toNat % 2 ^ 64 : Int) else sgn w.mod l.b) * 2 ^ bits w.imm.toNat 2 0) % 2 ^ 64 : Int).toNat,
   eachLane (.leaWide v) fun l => (l.a.toNat + l.b.toNat) % 2 ^ 64]

/-! ## Logic, shifts, bit fields, bytes (R246 to R249) -/

/-- A number whose bits below w a test gives. -/
def fromBits (w : Nat) (f : Nat → Bool) : Nat := (List.range w).foldl (fun n i => n + (f i).toNat * 2 ^ i) 0

/-- BFX (R248): bits POS of a upwards, at most LEN of them, widened by UNS. -/
def field (m : BitVec 2) (a : Int) (b : Nat) : Nat :=
  let n := min (bits b 15 8) (opw m)
  let x := a / 2 ^ bits b 7 0 % 2 ^ n
  if n = 0 then 0 else if m[1] ∨ x < 2 ^ (n - 1) then x.toNat else low m (x - 2 ^ n)

/-- The logic, shift, bit-field and byte words. -/
def logicTable (w : RegWord) (v : WideWord) (u : ShortWord) : List Claim :=
  let both := fun (f : Bool → Bool → Bool) (m : BitVec 2) (l : LaneSrc) =>
    fromBits (opw m) fun i => f (bit l.a.toNat i) (bit l.b.toNat i)
  [eachLane (.and w) (both (fun a b => a && b) w.mod),
   eachLane (.andWide v) (both (fun a b => a && b) v.mod),
   eachLane (.or w) (both (fun a b => a || b) w.mod),
   eachLane (.orWide v) (both (fun a b => a || b) v.mod),
   eachLane (.xor w) (both (fun a b => a != b) w.mod),
   eachLane (.xorWide v) (both (fun a b => a != b) v.mod),
   eachLane (.andn w) (both (fun a b => a && !b) w.mod),
   eachLane (.andnWide v) (both (fun a b => a && !b) v.mod),
   eachLane (.orn w) (both (fun a b => a || !b) w.mod),
   eachLane (.ornWide v) (both (fun a b => a || !b) v.mod),
   eachLane (.not w) (both (fun a _ => !a) w.mod),
   eachLane (.shl w) fun l => low w.mod (un w.mod l.a * 2 ^ (un w.mod l.b % opw w.mod)),
   eachLane (.shlWide v) fun l => low v.mod (un v.mod l.a * 2 ^ (un v.mod l.b % opw v.mod)),
   eachLane (.shr w) fun l => un w.mod l.a / 2 ^ (un w.mod l.b % opw w.mod),
   eachLane (.shrWide v) fun l => un v.mod l.a / 2 ^ (un v.mod l.b % opw v.mod),
   eachLane (.sar w) fun l => low w.mod (sgn w.mod l.a / 2 ^ (un w.mod l.b % opw w.mod)),
   eachLane (.sarWide v) fun l => low v.mod (sgn v.mod l.a / 2 ^ (un v.mod l.b % opw v.mod)),
   eachLane (.rol w) fun l => fromBits (opw w.mod) fun i => bit l.a.toNat ((i + opw w.mod - un w.mod l.b % opw w.mod) % opw w.mod),
   eachLane (.rolWide v) fun l => fromBits (opw v.mod) fun i => bit l.a.toNat ((i + opw v.mod - un v.mod l.b % opw v.mod) % opw v.mod),
   eachLane (.shf w) fun l => low w.mod ((un w.mod l.c * 2 ^ opw w.mod + un w.mod l.a) / 2 ^ (un w.mod l.b % (2 * opw w.mod))),
   eachLane (.shfShort u) fun l => low u.mod ((un u.mod l.c * 2 ^ opw u.mod + un u.mod l.a) / 2 ^ (un u.mod l.b % (2 * opw u.mod))),
   eachLane (.popc w) fun l => (List.range (opw w.mod)).countP (bit l.a.toNat),
   eachLane (.clz w) fun l => opw w.mod - bitLen (un w.mod l.a),
   eachLane (.ctz w) fun l => ((List.range (opw w.mod)).find? (bit l.a.toNat)).getD (opw w.mod),
   eachLane (.brev w) fun l => fromBits (opw w.mod) fun i => bit l.a.toNat (opw w.mod - 1 - i),
   eachLane (.lop3 w) fun l => fromBits (opw w.mod) fun i =>
     bit w.imm.toNat ((bit l.c.toNat i).toNat * 4 + (bit l.b.toNat i).toNat * 2 + (bit l.a.toNat i).toNat) != w.imm[8],
   eachLane (.bfx w) fun l => field w.mod (num w.mod l.a) (un w.mod l.b),
   eachLane (.bfxWide v) fun l => field v.mod (num v.mod l.a) (un v.mod l.b),
   eachLane (.bfi w) fun l => fromBits (opw w.mod) fun i =>
     if bits l.b.toNat 7 0 ≤ i ∧ i < bits l.b.toNat 7 0 + bits l.b.toNat 15 8 then bit l.a.toNat (i - bits l.b.toNat 7 0) else bit l.c.toNat i,
   eachLane (.bfiShort u) fun l => fromBits (opw u.mod) fun i =>
     if bits l.b.toNat 7 0 ≤ i ∧ i < bits l.b.toNat 7 0 + bits l.b.toNat 15 8 then bit l.a.toNat (i - bits l.b.toNat 7 0) else bit l.c.toNat i,
   eachLane (.prmt w) fun l => prmt l.a.toNat l.b.toNat l.c.toNat,
   eachLane (.prmtShort u) fun l => prmt l.a.toNat u.imm.toNat l.c.toNat]

/-! ## Predicates, carries, selection, moves (R244, R250 to R253, R265) -/

/-- R250's conditions on two numbers. -/
def holdsFor (cond : Nat) (x y : Int) : Bool :=
  match cond with
  | 0 => x = y
  | 1 => x ≠ y
  | 2 => x < y
  | 3 => x ≤ y
  | 4 => x > y
  | _ => x ≥ y

/-- R250's COMB. -/
def withComb (comb : Nat) (r q : Bool) : Bool := if comb = 1 then r && q else if comb = 2 then r || q else r

/-- IADDC in one lane: the sum mod 2^w to the destination, the carry to p6 (R244). -/
def carryLane (m : BitVec 2) (j : Job) (g : Group) (l : LaneSrc) : Group :=
  let x := un m l.a + un m l.b + ((g.thread l.t).pred 6).toNat
  (g.writeDst j.x.warp l.t (opw m) j.f.dst (x % 2 ^ opw m)).modThread l.t fun h => h.setPred 6 (2 ^ opw m ≤ x)

/-- PMOV DIR 1 in one lane: predicates 0 to 6 whose MASK bit is set (R253). -/
def predsLane (mask : Nat) (g : Group) (l : LaneSrc) : Group :=
  ([0, 1, 2, 3, 4, 5, 6].filter fun i => bit mask i).foldl (fun g i =>
    g.modThread l.t fun h => h.setPred i (bit l.a.toNat i)) g

/-- Every active lane changes the group in turn, and the issued threads pass. -/
def inTurn (j : Job) (s : State) (f : Group → LaneSrc → Group) : State := j.pass (j.mod s fun g => j.x.lanes.foldl f g)

/-- The compare, select and move words. -/
def compareTable (w : RegWord) (v : WideWord) (u : ShortWord) : List Claim :=
  [eachLane (.icmp w) fun l => (withComb (bits w.imm.toNat 4 3)
     (holdsFor (bits w.imm.toNat 2 0) (num w.mod l.a) (num w.mod l.b)) (un w.mod l.c ≠ 0)).toNat,
   eachLane (.sel w) fun l => if un w.mod l.c ≠ 0 then un w.mod l.a else un w.mod l.b,
   eachLane (.selShort u) fun l => if un u.mod l.c ≠ 0 then un u.mod l.a else un u.mod l.b,
   eachLane (.pset w) fun l =>
     (bit (bits w.imm.toNat 3 0) (2 * (if l.a.toNat ≠ 0 then 1 else 0) + if l.b.toNat ≠ 0 then 1 else 0)).toNat,
   eachLane (.mov w) fun l => un w.mod l.a,
   eachLane (.movi v) fun l => un v.mod l.b]

/-- IADDC. -/
def carryTable (w : RegWord) (v : WideWord) : List Claim :=
  [word (.iaddc w) always fun j s => inTurn j s (carryLane w.mod j),
   word (.iaddcWide v) always fun j s => inTurn j s (carryLane v.mod j)]

/-- PMOV, to predicates and from them. -/
def pmovTable (w : RegWord) : List Claim :=
  [word (.pmov w) (fun _ _ => w.imm[0]) fun j s => inTurn j s (predsLane (bits w.imm.toNat 14 8)),
   eachLaneOf (.pmov w) (fun _ _ => !w.imm[0]) fun j s l => ((j.group s).thread l.t).preds.toNat + 2 ^ 7]

/-- The compare, predicate, carry, select and move words. -/
def predicateTable (w : RegWord) (v : WideWord) (u : ShortWord) : List Claim := compareTable w v u ++ carryTable w v ++ pmovTable w

/-! ## Floating point (R250, R254 to R262) -/

/-- The words of one row: type t of R227. -/
def floatRow (t : Nat) (w : RegWord) (add sub mul fma mn mx cmp cls rcp rsq sqrt exp log rnd scale : RegWord → Instr) : List Claim :=
  let r := w.mod.toNat
  let x := fun (y : BitVec 128) => fval t y.toNat
  [eachLane (add w) fun l => fround t r (sumTerms r [x l.a, x l.b]),
   eachLane (sub w) fun l => fround t r (sumTerms r [x l.a, (x l.b).negate]),
   eachLane (mul w) fun l => fround t r ((x l.a).mul (x l.b)),
   eachLane (fma w) fun l => fround t r (sumTerms r [(x l.a).mul (x l.b), x l.c]),
   eachLane (mn w) fun l => fminmax t false l.a.toNat l.b.toNat,
   eachLane (mx w) fun l => fminmax t true l.a.toNat l.b.toNat,
   eachLane (cmp w) fun l => (withComb (bits w.imm.toNat 4 3)
     (fcompare t (bits w.imm.toNat 2 0) l.a.toNat l.b.toNat) (l.c.toNat ≠ 0)).toNat,
   eachLane (cls w) fun l => (bit w.imm.toNat (fclass t l.a.toNat)).toNat,
   eachLane (rcp w) fun l => fround t r (x l.a).recip,
   eachLane (rsq w) fun l => fround t r (x l.a).rsqrt,
   eachLane (sqrt w) fun l => fround t r (x l.a).sqrt,
   eachLane (exp w) fun l => fround t r (x l.a).exp2,
   eachLane (log w) fun l => fround t r (x l.a).log2,
   eachLane (rnd w) fun l => fround t r ((x l.a).integral r),
   eachLane (scale w) fun l => fscale t r l.a.toNat l.b.toNat]

/-- Rows 0x4_ (f32) and 0x5_ (f64). -/
def floatTable (w : RegWord) : List Claim :=
  floatRow 0x12 w .faddF32 .fsubF32 .fmulF32 .ffmaF32 .fminF32 .fmaxF32 .fcmpF32 .fclassF32 .frcpF32 .frsqF32 .fsqrtF32
      .fexp2F32 .flog2F32 .frndF32 .fscaleF32
    ++ floatRow 0x13 w .faddF64 .fsubF64 .fmulF64 .ffmaF64 .fminF64 .fmaxF64 .fcmpF64 .fclassF64 .frcpF64 .frsqF64 .fsqrtF64
      .fexp2F64 .flog2F64 .frndF64 .fscaleF64

/-- The format that a named slot holds, where it is legal and of a listed type (R226, R262, R263, R333). -/
def slotHolds (j : Job) (s : State) (o : Operand) (ok : Nat → Bool) : Bool :=
  match o with
  | .fs n => (slotFmt ((j.group s).formatSlot n.toNat).toNat).any fun t => ok t.etype
  | _ => (slotFmt 0).any fun t => ok t.etype

/-- The format itself. -/
def slotOf (j : Job) (s : State) (o : Operand) : SlotFmt :=
  match o with
  | .fs n => (slotFmt ((j.group s).formatSlot n.toNat).toNat).getD default
  | _ => (slotFmt 0).getD default

/-- FFMA of two halves, and the conversions of single values: a value of the source type is rounded once to the
destination type (R259, R261, R262). -/
def convertTable (w : RegWord) : List Claim :=
  let half := fun (t k : Nat) (l : LaneSrc) =>
    ffma t w.mod.toNat (bits l.a.toNat (16 * k + 15) (16 * k)) (bits l.b.toNat (16 * k + 15) (16 * k)) (bits l.c.toNat (16 * k + 15) (16 * k))
  let cvt := fun (r : Nat) (l : LaneSrc) => widen (lowType w) (roundTo (lowType w) (valueOf (highType w) l.a.toNat) r false false)
  [eachLane (.ffmaF16x2 w) fun l => half 0x10 0 l + 2 ^ 16 * half 0x10 1 l,
   eachLane (.ffmaBf16x2 w) fun l => half 0x11 0 l + 2 ^ 16 * half 0x11 1 l,
   eachLane (.cvtFF w) (cvt w.mod.toNat),
   eachLane (.cvtIF w) (cvt w.mod.toNat),
   eachLane (.cvtFI w) (cvt w.mod.toNat),
   eachLane (.cvtII w) (cvt 0),
   eachLaneOf (.cvtsTo w) (fun j s => slotHolds j s w.sc scalarType) fun j s l =>
     let t := slotOf j s w.sc
     widen t.etype (roundTo t.etype (valueOf (lowType w) l.a.toNat) t.rnd t.sat t.nanz),
   eachLaneOf (.cvtsFrom w) (fun j s => slotHolds j s w.sc scalarType) fun j s l =>
     let t := slotOf j s w.sc
     widen (lowType w) (roundTo (lowType w) (valueOf t.etype l.a.toNat) t.rnd t.sat t.nanz)]

/-! ## Lanes (R266 to R271) -/

/-- No active lane reads a poisoned source in the lane that it names (R395). -/
def cleanFrom (source : LaneSrc → Option Nat) (j : Job) (s : State) : Bool :=
  j.x.lanes.all fun l => !(source l).any (j.laneBad (j.group s))

/-- Each active lane takes source A of the lane it names, or a fill (R266, R267, R269). -/
def fromLane (i : Instr) (source : LaneSrc → Option Nat) (fill : LaneSrc → Nat) : Claim :=
  eachLaneOf i (cleanFrom source) fun j s l =>
    match source l with
    | some k => j.laneA (j.group s) k
    | none => fill l

/-- SHFL's source lane for amount k in segments of S lanes (R267). -/
def shflTo (mode : Nat) (S k l : Nat) : Option Nat :=
  match mode with
  | 0 => some (l / S * S + k % S)
  | 1 => if k < S ∧ l / S * S + k ≤ l then some (l - k) else none
  | 2 => if k < S ∧ (l + k) / S = l / S then some (l + k) else none
  | _ => some (l / S * S + (l ^^^ k) % S)

/-- The active lanes of lane l's segment, with SCAN those not above it (R270). -/
def segment (j : Job) (S : Nat) (scan : Bool) (l : Nat) : List LaneSrc :=
  j.x.lanes.filter fun m => m.t % 32 / S == l / S && (!scan || m.t % 32 ≤ l)

/-- A mask of lanes. -/
def maskOf (ls : List Nat) : Nat := fromBits 32 ls.contains

/-- The lane words. -/
def laneTable (w : RegWord) (u : ShortWord) : List Claim :=
  let S := 2 ^ bits w.imm.toNat 2 0
  let T := 2 ^ bits u.imm.toNat 10 8
  let reg := fun (mode : Nat) (l : LaneSrc) => shflTo mode S (l.b.toNat % 32) (l.t % 32)
  let short := fun (mode : Nat) (l : LaneSrc) => shflTo mode T (bits u.imm.toNat 4 0) (l.t % 32)
  let fill := fun (l : LaneSrc) => l.c.toNat
  [fromLane (.bcast w) (fun l => some (l.b.toNat % 32)) fill,
   word (.lane w) (fun j s => j.x.lanes.all fun l => l.t % 32 ≠ l.b.toNat % 32 || !j.laneBad (j.group s) (l.t % 32)) fun j s =>
     inTurn j s fun g l =>
       if l.t % 32 = l.b.toNat % 32 then g.writeDst j.x.warp l.t j.sig.dst.width j.f.dst (j.laneA (j.group s) (l.t % 32)) else g,
   fromLane (.shflIdx w) (reg 0) fill, fromLane (.shflIdxShort u) (short 0) fill,
   fromLane (.shflRise w) (reg 1) fill, fromLane (.shflRiseShort u) (short 1) fill,
   fromLane (.shflFall w) (reg 2) fill, fromLane (.shflFallShort u) (short 2) fill,
   fromLane (.shflXor w) (reg 3) fill, fromLane (.shflXorShort u) (short 3) fill,
   eachLaneOf (.vote w) always fun j _ _ =>
     let yes := j.x.lanes.filter fun l => w.imm[3] != (l.a.toNat != 0)
     match bits w.imm.toNat 2 0 with
     | 0 => maskOf (yes.map fun l => l.t % 32)
     | 1 => yes.length
     | 2 => (yes.length = j.x.lanes.length : Bool).toNat
     | 3 => (yes.length = 0 : Bool).toNat
     | _ => (yes.length ≠ 0 ∧ yes.length ≠ j.x.lanes.length : Bool).toNat,
   eachLaneOf (.reduxInt w) always fun j _ l =>
     reduxInt (opw w.mod) w.mod[1] (bits w.imm.toNat 2 0)
       ((segment j (2 ^ bits w.imm.toNat 6 4) w.imm[7] (l.t % 32)).map fun m => m.a.toNat),
   eachLaneOf (.reduxFloat w) always fun j _ l =>
     reduxFloat (if w.imm[2] then 0x13 else 0x12) w.mod.toNat (bits w.imm.toNat 1 0)
       ((segment j (2 ^ bits w.imm.toNat 6 4) w.imm[7] (l.t % 32)).map fun m => m.a.toNat),
   eachLaneOf (.matchLanes w) always fun j _ l =>
     let same := (j.x.lanes.filter fun m => m.a == l.a).map fun m => m.t % 32
     let lead := same.foldl min 31
     if w.imm[0] then maskOf same else lead + 2 ^ 8 * same.length + if lead = l.t % 32 then 2 ^ 15 else 0]

/-! ## Blocks (R263, R264) -/

/-- Element l of the warp's vector as PACK reads it: 0 where no active lane stands (R263). -/
def packElement (w : RegWord) (j : Job) (l : Nat) : Val :=
  match j.x.lanes.find? fun m => m.t % 32 == l with
  | some m => valueOf (highType w) m.a.toNat
  | none => .ofInt 0

/-- PACK (R263): layout 0 gives each lane its code and the scale byte; layout 1 the block's words in the low lanes. -/
def packed (w : RegWord) (f : BlockFmt) (rnd : Nat) (nanz : Bool) (j : Job) (l : LaneSrc) : Nat :=
  let p := f.pack ((List.range 32).map (packElement w j)) rnd nanz
  let lane := l.t % 32
  let byte := fun (i : Nat) => if f.four then p.1.getD (2 * i) 0 + 16 * p.1.getD (2 * i + 1) 0 else p.1.getD i 0
  let n := if f.four then 4 else 8
  if !w.imm[4] then 2 ^ 8 * p.2 + p.1.getD lane 0
  else if lane < n then byte (4 * lane) + 2 ^ 8 * byte (4 * lane + 1) + 2 ^ 16 * byte (4 * lane + 2) + 2 ^ 24 * byte (4 * lane + 3)
  else if lane = n then p.2 else 0

/-- UNPK's element type et has four-bit codes. -/
def fourBit (et : Nat) : Bool := et = 0x20 || et = 0x23

/-- No poisoned word of the block is read (R264, R395). -/
def blockClean (w : RegWord) (et : Nat) (j : Job) (s : State) : Bool :=
  let z := if fourBit et then 4 else 8
  !w.imm[4] || j.x.lanes.all fun m => !j.laneBad (j.group s) (m.t % 32 * z / 32) && !j.laneBad (j.group s) z

/-- UNPK (R264): the element from its code and scale, rounded to the named type. -/
def unpacked (w : RegWord) (et rnd : Nat) (sat nanz : Bool) (j : Job) (s : State) (m : LaneSrc) : Nat :=
  let z := if fourBit et then 4 else 8
  let lane := m.t % 32
  let code := if !w.imm[4] then m.a.toNat % 2 ^ z else j.laneA (j.group s) (lane * z / 32) / 2 ^ (lane * z % 32) % 2 ^ z
  let scale := if !w.imm[4] then bits m.a.toNat 15 8 else j.laneA (j.group s) z % 256
  roundTo (highType w) (elementValue et code scale) rnd sat nanz

/-- The block words. -/
def blockTable (w : RegWord) : List Claim :=
  let pack := fun (i : Instr) (f : BlockFmt) => eachLaneOf i always fun j _ => packed w f w.mod.toNat false j
  let unpk := fun (i : Instr) (et : Nat) => eachLaneOf i (blockClean w et) (unpacked w et 0 false false)
  [pack (.packMx4 w) ⟨0x20, 0⟩, pack (.packMx8e4 w) ⟨0x21, 0⟩, pack (.packMx8e5 w) ⟨0x22, 0⟩,
   pack (.packK4 w) ⟨0x23, bits w.imm.toNat 1 0⟩,
   eachLaneOf (.packSlot w) (fun j s => slotHolds j s w.sc blockType) fun j s =>
     packed w ⟨(slotOf j s w.sc).etype, (slotOf j s w.sc).ktype⟩ (slotOf j s w.sc).rnd (slotOf j s w.sc).nanz j,
   unpk (.unpkMx4 w) 0x20, unpk (.unpkMx8e4 w) 0x21, unpk (.unpkMx8e5 w) 0x22, unpk (.unpkK4 w) 0x23,
   eachLaneOf (.unpkSlot w) (fun j s => slotHolds j s w.sc blockType && blockClean w (slotOf j s w.sc).etype j s) fun j s =>
     unpacked w (slotOf j s w.sc).etype (slotOf j s w.sc).rnd (slotOf j s w.sc).sat (slotOf j s w.sc).nanz j s]

/-! ## Pairs (R205, R207) -/

/-- A 64-bit number in two's complement. -/
def s64 (x : Nat) : Int := if 2 ^ 63 ≤ x then (x : Int) - 2 ^ 64 else x
/-- A number mod 2^64. -/
def m64 (x : Int) : Nat := (x % 2 ^ 64).toNat

/-- Source B of a scalar slot: the s-register, or IMM8 sign-extended or zero-extended (R207). -/
inductive ScalarB where
  | register | signed | unsigned
deriving DecidableEq, Repr

/-- The value of source B, read before either slot writes. -/
def ScalarB.value (k : ScalarB) (g : Group) (warp : Nat) (p : PairWord) : Nat :=
  match k with
  | .register => (g.sreg warp (p.ssb.toNat % 64)).val.toNat
  | .signed => (p.ssb.signExtend 64).toNat
  | .unsigned => p.ssb.toNat

/-- A row about a P word: its vector slot takes effect in the active lanes, then its scalar slot writes f a b to the
s-register; both have read before. -/
noncomputable def pairRow (p : PairWord) (i : Instr) (sop : Nat) (k : ScalarB) (f : Nat → Nat → Nat) : Claim :=
  ⟨i, fun s => s.prepared default (.pair sop p) fun _ => p.vop.sig p.vector, always, fun j s =>
    let g := j.group s
    let v := f (g.sreg j.x.warp p.ssa.toNat).val.toNat (k.value g j.x.warp p)
    j.pass (j.mod s fun g => (j.vector p g).setSreg j.x.warp p.sdst.toNat ⟨BitVec.ofNat 64 v, false⟩)⟩

/-- The scalar slots that write an s-register. -/
noncomputable def pairTable (p : PairWord) : List Claim :=
  let n := fun (f : Nat → Bool) => fromBits 64 f
  [pairRow p (.scalarIadd p) 0x00 .register fun a b => m64 (a + b),
   pairRow p (.scalarIaddImm p) 0x01 .signed fun a b => m64 (a + b),
   pairRow p (.scalarIsub p) 0x02 .register fun a b => m64 (a - b),
   pairRow p (.scalarIsubImm p) 0x03 .signed fun a b => m64 (a - b),
   pairRow p (.scalarImul p) 0x04 .register fun a b => m64 (a * b),
   pairRow p (.scalarImulImm p) 0x05 .signed fun a b => m64 (a * b),
   pairRow p (.scalarImulh p) 0x06 .register fun a b => m64 (s64 a * s64 b / 2 ^ 64),
   pairRow p (.scalarImulhN64 p) 0x07 .register fun a b => a * b / 2 ^ 64,
   pairRow p (.scalarImin p) 0x08 .register fun a b => m64 (min (s64 a) (s64 b)),
   pairRow p (.scalarIminImm p) 0x09 .signed fun a b => m64 (min (s64 a) (s64 b)),
   pairRow p (.scalarImax p) 0x0A .register fun a b => m64 (max (s64 a) (s64 b)),
   pairRow p (.scalarImaxImm p) 0x0B .signed fun a b => m64 (max (s64 a) (s64 b)),
   pairRow p (.scalarIminN64 p) 0x0C .register fun a b => min a b,
   pairRow p (.scalarImaxN64 p) 0x0D .register fun a b => max a b,
   pairRow p (.scalarIabs p) 0x0E .register fun a _ => m64 (s64 a).natAbs,
   pairRow p (.scalarIneg p) 0x0F .register fun a _ => m64 (-a),
   pairRow p (.scalarAnd p) 0x10 .register fun a b => n fun i => bit a i && bit b i,
   pairRow p (.scalarAndImm p) 0x11 .unsigned fun a b => n fun i => bit a i && bit b i,
   pairRow p (.scalarOr p) 0x12 .register fun a b => n fun i => bit a i || bit b i,
   pairRow p (.scalarOrImm p) 0x13 .unsigned fun a b => n fun i => bit a i || bit b i,
   pairRow p (.scalarXor p) 0x14 .register fun a b => n fun i => bit a i != bit b i,
   pairRow p (.scalarXorImm p) 0x15 .unsigned fun a b => n fun i => bit a i != bit b i,
   pairRow p (.scalarAndn p) 0x16 .register fun a b => n fun i => bit a i && !bit b i,
   pairRow p (.scalarNot p) 0x17 .register fun a _ => n fun i => !bit a i,
   pairRow p (.scalarShl p) 0x18 .register fun a b => m64 (a * 2 ^ (b % 64)),
   pairRow p (.scalarShlImm p) 0x19 .unsigned fun a b => m64 (a * 2 ^ (b % 64)),
   pairRow p (.scalarShr p) 0x1A .register fun a b => a / 2 ^ (b % 64),
   pairRow p (.scalarShrImm p) 0x1B .unsigned fun a b => a / 2 ^ (b % 64),
   pairRow p (.scalarSar p) 0x1C .register fun a b => m64 (s64 a / 2 ^ (b % 64)),
   pairRow p (.scalarSarImm p) 0x1D .unsigned fun a b => m64 (s64 a / 2 ^ (b % 64)),
   pairRow p (.scalarRol p) 0x1E .register fun a b => n fun i => bit a ((i + 64 - b % 64) % 64),
   pairRow p (.scalarRolImm p) 0x1F .unsigned fun a b => n fun i => bit a ((i + 64 - b % 64) % 64),
   pairRow p (.scalarPopc p) 0x20 .register fun a _ => (List.range 64).countP (bit a),
   pairRow p (.scalarClz p) 0x21 .register fun a _ => 64 - bitLen a,
   pairRow p (.scalarCtz p) 0x22 .register fun a _ => ((List.range 64).find? (bit a)).getD 64,
   pairRow p (.scalarBrev p) 0x23 .register fun a _ => n fun i => bit a (63 - i),
   pairRow p (.scalarMov p) 0x24 .register fun a _ => a,
   pairRow p (.scalarMovi p) 0x25 .signed fun _ b => b,
   pairRow p (.scalarIcmpEq p) 0x26 .register fun a b => (a = b : Bool).toNat,
   pairRow p (.scalarIcmpEqImm p) 0x29 .signed fun a b => (a = b : Bool).toNat,
   pairRow p (.scalarIcmpLt p) 0x27 .register fun a b => (s64 a < s64 b : Bool).toNat,
   pairRow p (.scalarIcmpLtImm p) 0x2A .signed fun a b => (s64 a < s64 b : Bool).toNat,
   pairRow p (.scalarIcmpLtN64 p) 0x28 .register fun a b => (a < b : Bool).toNat,
   pairRow p (.scalarIcmpLtN64Imm p) 0x2B .unsigned fun a b => (a < b : Bool).toNat,
   pairRow p (.scalarIcmpNe p) 0x2E .register fun a b => (a ≠ b : Bool).toNat,
   pairRow p (.scalarIcmpNeImm p) 0x2F .signed fun a b => (a ≠ b : Bool).toNat]

/-- The active lanes go to their targets and the others pass (R191, R272); then the group changes as given. -/
def sent (j : Job) (s : State) (target : LaneSrc → Nat) (after : Group → Group) : State :=
  j.mod s fun g => after (j.x.lanes.foldl (fun g l => g.modThread l.t fun h => { h with pc := BitVec.ofNat 64 (target l) })
    (g.advance j.ts j.x.len))

/-- The scalar slots that branch: on s-register ≠ 0 (0x2C) or = 0 (0x2D), to PC + 8 × SignExtend(IMM8) (R207). -/
noncomputable def pairBranchTable (p : PairWord) : List Claim :=
  let ready := fun (sop : Nat) (s : State) => s.prepared default (.pair sop p) fun _ => p.vop.sig p.vector
  let zero := fun (j : Job) (s : State) => ((j.group s).sreg j.x.warp p.ssa.toNat).val = 0
  let target := fun (j : Job) => (BitVec.ofNat 64 j.x.pc + 8 * p.ssb.signExtend 64).toNat
  let go := fun (j : Job) (s : State) => sent j s (fun _ => target j) (j.vector p)
  let stay := fun (j : Job) (s : State) => j.pass (j.mod s (j.vector p))
  [⟨.scalarBruNz p, ready 0x2C, fun j s => !zero j s && validPc (target j), go⟩,
   ⟨.scalarBruNz p, ready 0x2C, fun j s => zero j s, stay⟩,
   ⟨.scalarBruZ p, ready 0x2D, fun j s => zero j s && validPc (target j), go⟩,
   ⟨.scalarBruZ p, ready 0x2D, fun j s => !zero j s, stay⟩]

/-! ## Branches, tables and calls (R272 to R279) -/

/-- Every active lane's target is a multiple of 8 below 2^43 (R272). -/
def validAll (j : Job) (target : LaneSrc → Nat) : Bool := j.x.lanes.all fun l => target l % 8 = 0 ∧ target l < 2 ^ 43

/-- T of a relative branch (R272). -/
def branchT (w : WideWord) (j : Job) : Nat := (BitVec.ofNat 64 j.x.pc + 8 * w.imm.signExtend 64).toNat

/-- The branch words. -/
def branchTable (w : RegWord) (v : WideWord) : List Claim :=
  let ok := fun (j : Job) => validAll j fun _ => branchT v j
  let go := fun (j : Job) (s : State) => sent j s (fun _ => branchT v j) id
  let stay := fun (j : Job) (s : State) => j.pass s
  [word (.bra v) (fun j _ => ok j) go,
   word (.braU v) (fun j _ => j.act.length = j.ts.length ∧ ok j) go,
   word (.bray v) (fun j _ => ok j) fun j s => sent j s (fun _ => branchT v j) (·.yieldTaken j.x.warp j.act),
   word (.bruNz v) (fun j _ => j.a ≠ 0 ∧ ok j) go,
   word (.bruNz v) (fun j _ => j.a = 0) stay,
   word (.bruZ v) (fun j _ => j.a = 0 ∧ ok j) go,
   word (.bruZ v) (fun j _ => j.a ≠ 0) stay,
   word (.jmp w) (fun j _ => validAll j fun l => l.a.toNat) fun j s => sent j s (fun l => l.a.toNat) id]

/-- Window accesses that nothing holds back: their lines are present (R72), and no earlier write of an overlapped register
and no earlier access of the same bytes, one of the two a store, is still to come (R47). -/
def windowFree (j : Job) (s : State) (accs : List WinAcc) : Bool := accs.all fun a => !(j.group s).accBusy j.x a

/-- Push the addresses that follow the word in the active threads and go (R277). -/
def called (j : Job) (s : State) (target : LaneSrc → Nat) : State :=
  sent j s target fun g => j.act.foldl (fun g t =>
    (g.storeWindow (g.returnSlot t (g.thread t).depth.toNat) (toBytes 8 (j.x.pc + j.x.len)) false).modThread t fun h =>
      { h with depth := h.depth + 1 }) g

/-- There is a return stack, DEPTH is below its limit in every active thread (R277), and nothing holds the push back. -/
def roomToCall (j : Job) (s : State) : Bool :=
  (j.group s).ctx.frame.rse ≠ 0 && (j.act.all fun t => ((j.group s).thread t).depth ≠ 65535)
    && windowFree j s (j.stackAccs (j.group s) 0 true)

/-- The return address of an active thread: its 8 bytes of the return stack, and whether one is poisoned (R278). -/
def returnTo (j : Job) (s : State) (t : Nat) : List Byte × Bool :=
  let g := j.group s
  g.window (g.returnSlot t ((g.thread t).depth.toNat - 1)) 8

/-- The addresses of the dispatch-table entries, and what reading them as code gives (R276); TBASE is that of the word's
issue (R209). -/
def entries (j : Job) (s : State) : List LaneRead × State :=
  let g := j.group s
  s.readLanes j.d g.core g.ctx.pn 8 (j.x.lanes.map fun l =>
    (l.t, (j.x.tbase.toNat + 8 * (l.a.toNat % 2 ^ 32)) % 2 ^ 64))

/-- Every index is below TLEN, and every entry reads, unpoisoned, as a valid target (R276). -/
def entriesOk (j : Job) (s : State) : Bool :=
  (j.x.lanes.all fun l => l.a.toNat % 2 ^ 32 < j.x.tlen.toNat)
    && (entries j s).1.all fun r => match r.got with
      | .ok x bad => !bad && bits x 63 43 == 0 && bits x 2 0 == 0
      | _ => false

/-- The target of a lane: its entry. -/
def entryOf (j : Job) (s : State) (l : LaneSrc) : Nat :=
  (((entries j s).1.find? fun r => r.t == l.t).map LaneRead.value).getD 0

/-- The cairns that the filed threads make: the keys held, and the new ones (R194, R279). -/
def cairnKeys (j : Job) (s : State) : List Nat :=
  distinct ((j.group (entries j s).2).cairns.map Cairn.key ++ j.x.lanes.map (entryOf j s))

/-- The words that go through a table or the return stack. -/
def callTable (w : RegWord) (v : WideWord) : List Claim :=
  [word (.jtab w) (fun j s => entriesOk j s && validAll j (entryOf j s)) fun j s => sent j (entries j s).2 (entryOf j s) id,
   word (.call v) (fun j s => roomToCall j s && validAll j fun _ => branchT v j) fun j s => called j s fun _ => branchT v j,
   word (.callRegister w) (fun j s => roomToCall j s && validAll j fun l => l.a.toNat) fun j s => called j s fun l => l.a.toNat,
   word (.callt w) (fun j s => roomToCall j (entries j s).2 && entriesOk j s && validAll j (entryOf j s)) fun j s =>
     called j (entries j s).2 (entryOf j s),
   word (.ret w)
     (fun j s => (j.act.all fun t => ((j.group s).thread t).depth ≠ 0 && !(returnTo j s t).2)
       && windowFree j s (j.stackAccs (j.group s) 1 false) && validAll j fun l => ofBytes (returnTo j s l.t).1)
     (fun j s => sent j s (fun l => ofBytes (returnTo j s l.t).1) fun g => g.modThreads j.act fun h => { h with depth := h.depth - 1 }),
   word (.reform w)
     (fun j s => entriesOk j s && (j.act.all fun t => (j.group s).gateDepth = 0 ∧ ((j.group s).thread t).depth = 0)
       && (cairnKeys j s).length ≤ 16)
     (fun j s => j.mod (j.passOthers (entries j s).2) fun g => j.x.lanes.foldl (fun g l =>
       { (g.await [l.t] .cairn).modThread l.t fun h => { h with warp := none } with
         cairns := fileInCairn g.cairns (entryOf j s l) ⟨l.t, j.x.warp, g.resClk⟩ }) g)]

/-! ## Waits and ends of threads (R196, R280 to R282, R297, R357) -/

/-- Window accesses of n bytes in every active lane, reads or stores: aligned and inside the frame, and nothing holds them
back (R46, R47, R72). -/
def windowOpen (j : Job) (s : State) (n : Nat) (stores : Bool) (off : LaneSrc → Nat) : Bool :=
  (j.x.lanes.all fun l => (j.group s).windowOk (off l) n) && windowFree j s (j.x.lanes.map fun l => ⟨off l, n, stores⟩)

/-- No active lane's n bytes of the window hold poison. -/
def windowClean (j : Job) (s : State) (n : Nat) (off : LaneSrc → Nat) : Bool :=
  j.x.lanes.all fun l => !((j.group s).window (off l) n).2

/-- WAIT in one lane (R281): the thread waits, and passes at once where the four bytes differ from the compare value. -/
def waitLane (w : RegWord) (j : Job) (g : Group) (l : LaneSrc) : Group :=
  let off := l.a.toNat % 2 ^ 32
  let h := g.await [l.t] (.wait j.x (g.ctx.frame.base + off) (BitVec.ofNat 32 l.b.toNat)
    (if w.imm = 0 then none else some (j.x.clk + 256 * w.imm.toNat)) false)
  if ofBytes (g.window off 4).1 ≠ l.b.toNat % 2 ^ 32 then h.endWait l.t ⟨true, 0⟩ else h

/-- SLEEP in one lane (R282): at most 2^24 clocks. -/
def sleepLane (j : Job) (g : Group) (l : LaneSrc) : Group :=
  let n := min (l.a.toNat % 2 ^ 32) (2 ^ 24)
  if n = 0 then g.advance [l.t] j.x.len else g.await [l.t] (.sleep j.x (g.resClk + n))

/-- The active threads become EXITED, and what waited for them goes on (R196, R280). -/
def exited (j : Job) (s : State) : State :=
  ((j.mod (j.passOthers s) fun g => (g.modThreads j.act fun t => { t with exited := true, m := false }).handlerExits).gather
    j.d j.gid).lastExit j.d j.gid

/-- YIELD stops a group whose PREEMPT handler it ends (R390). -/
def yieldsNow (j : Job) (s : State) : Bool :=
  ((j.group s).trap.any fun tr => tr.cause == Cause.preempt) && (j.group s).preemptDue.isSome

/-- The words that pass, wait or end threads. -/
def waitTable (w : RegWord) : List Claim :=
  let off := fun (l : LaneSrc) => l.a.toNat % 2 ^ 32
  [word (.nop w) always fun j s => j.pass s,
   word (.fence w) always fun j s => j.pass s,
   word (.sleep w) always fun j s => j.mod (j.passOthers s) fun g => j.x.lanes.foldl (sleepLane j) g,
   word (.wait w) (fun j s => windowOpen j s 4 false off && windowClean j s 4 off) fun j s =>
     j.mod (j.passOthers s) fun g => j.x.lanes.foldl (waitLane w j) g,
   word (.exit w) (fun j s => (j.group s).gateDepth = 0 && (j.group s).poisonDue.isNone) exited,
   word (.yield w) (fun j s => (j.group s).poisonDue.isNone && !yieldsNow j s) fun j s => j.pass s,
   word (.yield w) (fun j s => (j.group s).poisonDue.isNone && yieldsNow j s) fun j s => (j.pass s).stopAndSave j.d j.gid false]

/-! ## The window (R46, R288 to R296) -/

/-- The offset of a window form: a + b + OFF16, where a and b have 32 bits (R284). -/
def windowOff (j : Job) (l : LaneSrc) : Nat :=
  (l.a.toNat % 2 ^ 32 + l.b.toNat % 2 ^ 32 + ((BitVec.ofNat 16 j.f.imm).signExtend 64).toNat) % 2 ^ 64

/-- The register value of n loaded bytes: sign-extended to 32 bits, or zero-extended (R288). -/
def widened (n : Nat) (signed : Bool) (x : Nat) : Nat :=
  if signed ∧ 2 ^ (8 * n - 1) ≤ x then 2 ^ 32 - 2 ^ (8 * n) + x else x

/-- LD.win of n bytes: each active lane's destination takes the bytes at its offset (R288). -/
def loadWin (i : Instr) (n : Nat) (signed : Bool) : Claim :=
  word i (fun j s => windowOpen j s n false (windowOff j) && windowClean j s n (windowOff j)) fun j s =>
    j.pass (j.mod s fun g => (j.x.lanes.foldl (fun h l => h.writeDst j.x.warp l.t (8 * max n 4) j.f.dst
      (widened n signed (ofBytes (g.window (windowOff j l) n).1))) g).pendClear j.x.dst)

/-- ST.win of n bytes: each active lane's value goes to its offset, in ascending lane order (R288, R290), and the WAITs
on those bytes are evaluated (R281). -/
def storeWin (i : Instr) (n : Nat) : Claim :=
  word i (fun j s => windowOpen j s n true (windowOff j)) fun j s =>
    j.pass (j.mod s fun g => (j.x.lanes.foldl (fun g l => g.putWindow (windowOff j l) (toBytes n l.c.toNat) false) g).recheckWindow
      (j.x.lanes.map fun l => (windowOff j l, n)))

/-- A number of w bits as AOP reads it (R294). -/
def atomNum (w : Nat) (uns : Bool) (x : Nat) : Int := if uns ∨ x < 2 ^ (w - 1) then x else (x : Int) - 2 ^ w

/-- The new value of an atomic of width w, none where it fails (R294). -/
def atomNew (w aop : Nat) (uns : Bool) (old b c : Nat) : Option Nat :=
  let n := atomNum w uns
  match aop with
  | 0 => some ((old + b) % 2 ^ w)
  | 1 => some (if n b < n old then b else old)
  | 2 => some (if n old < n b then b else old)
  | 3 => some (old &&& b)
  | 4 => some (old ||| b)
  | 5 => some (old ^^^ b)
  | 6 => some b
  | 7 => if old = c then some b else none
  | 8 =>
    let t := n old + n b
    if t ≤ n c ∧ (if uns then t < 2 ^ w else -(2 ^ (w - 1)) ≤ t ∧ t < 2 ^ (w - 1)) then some (t % 2 ^ w).toNat else none
  | _ => some (fadd (if w = 32 then 0x12 else 0x13) 0 old b)

/-- The registers that an atomic writes: the old value, and with PD the predicate that says whether it succeeded. -/
def atomRegs (w : Nat) (j : Job) (l : LaneSrc) (old : Nat) (done : Bool) (g : Group) : Group :=
  let g := g.writeDst j.x.warp l.t w j.f.dst old
  if bit j.f.imm 11 then g.modThread l.t fun h => h.setPred (bits j.f.imm 10 8) done else g

/-- ATOM.win in one lane. -/
def atomWinLane (w : Nat) (j : Job) (g : Group) (l : LaneSrc) : Group :=
  let off := l.a.toNat % 2 ^ 32
  let old := ofBytes (g.window off (w / 8)).1
  let new := atomNew w (bits j.f.imm 3 0) (bit j.f.imm 7) old (l.b.toNat % 2 ^ w) (l.c.toNat % 2 ^ w)
  atomRegs w j l old new.isSome (match new with
    | some x => g.putWindow off (toBytes (w / 8) x) false
    | none => g)

/-- ATOM.win of width w: one lane after another. -/
def atomWin (i : Instr) (w : Nat) : Claim :=
  let off := fun (l : LaneSrc) => l.a.toNat % 2 ^ 32
  word i (fun j s => windowOpen j s (w / 8) true off && windowClean j s (w / 8) off) fun j s =>
    j.pass (j.mod s fun g => (j.x.lanes.foldl (atomWinLane w j) g).recheckWindow (j.x.lanes.map fun l => (off l, w / 8)))

/-- The words that read the window. -/
def windowLoads (w : RegWord) : List Claim :=
  [loadWin (.ldBWin w) 1 false, loadWin (.ldBI8Win w) 1 true, loadWin (.ldHWin w) 2 false, loadWin (.ldHI16Win w) 2 true,
   loadWin (.ldWWin w) 4 false, loadWin (.ldDWin w) 8 false, loadWin (.ldQWin w) 16 false]

/-- The words that write it. -/
def windowStores (w : RegWord) : List Claim :=
  [storeWin (.stBWin w) 1, storeWin (.stHWin w) 2, storeWin (.stWWin w) 4, storeWin (.stDWin w) 8, storeWin (.stQWin w) 16]

/-- The words that read or write the window. -/
def windowTable (w : RegWord) : List Claim :=
  windowLoads w ++ windowStores w ++ [atomWin (.atomWWin w) 32, atomWin (.atomDWin w) 64]

/-! ## Memory (R56 to R60, R284 to R298) -/

/-- The address of a non-window form: a + b + OFF16, where b is sign-extended from 32 bits (R284). -/
def address (j : Job) (l : LaneSrc) : Nat :=
  (l.a.toNat + ((BitVec.ofNat 32 l.b.toNat).signExtend 64).toNat + ((BitVec.ofNat 16 j.f.imm).signExtend 64).toNat) % 2 ^ 64

/-- What the checks of n bytes for each lane give, in order, and the state after them (R56, R57). -/
def checked (j : Job) (s : State) (acc : Acc) (n align : Nat) (lanes : List LaneSrc) (va : LaneSrc → Nat) : List LaneCheck × State :=
  s.checkLanes j.d (j.group s) acc n align (lanes.map fun l => (l.t, va l))

/-- Every lane's access may be performed. -/
def granted (p : List LaneCheck × State) : Bool := p.1.all fun c => c.ready.isSome

/-- Where the lanes' bytes are. -/
def places (p : List LaneCheck × State) : List LaneSpots := p.1.filterMap LaneCheck.ready

/-- An irrevocable effect takes place at once: the node is irrevocable already, or has staged nothing (R169, R170). -/
def mayTurn (j : Job) (s : State) : Bool :=
  match (s.die j.d).nodeOf (j.group s) with
  | none => true
  | some n => !n.revocable || !(s.die j.d).hasTent n.nid

/-- The state in which an irrevocable effect takes place: the node has turned irrevocable. -/
def turned (j : Job) (s : State) : State :=
  match (s.die j.d).nodeOf (j.group s) with
  | none => s
  | some n => if n.revocable then s.modDie j.d fun x => x.turnIrrevocable n.nid else s

/-- The lanes that load: the lowest alone for an s-register (R285). -/
def loaders (j : Job) : List LaneSrc :=
  match j.f.dst with
  | .s _ => j.x.lanes.take 1
  | _ => j.x.lanes

/-- LD of n bytes (R288): every access passes its checks, no byte is poisoned, and each lane's destination takes its
value. -/
def loadMem (i : Instr) (w : RegWord) (n : Nat) (signed : Bool) : Claim :=
  let checks := fun (j : Job) (s : State) => checked j s .load n 1 (loaders j) (address j)
  let got := fun (j : Job) (s : State) => (checks j s).2.readAll (j.asking (checks j s).2 w.mod.toNat) (places (checks j s))
  word i (fun j s => granted (checks j s) && (got j s).1.all fun r => r.2.all fun b => !b.2) fun j s =>
    j.pass (j.mod (got j s).2 fun g => ((got j s).1.foldl (fun g r => g.writeDst j.x.warp r.1 (8 * max n 4) j.f.dst
      (widened n signed (ofBytes (r.2.map (·.1))))) g).pendClear j.x.dst)

/-- Some lane's bytes lie in a registration (R169). -/
def hostSees (j : Job) (s : State) (n : Nat) (ls : List LaneSpots) : Bool :=
  ls.any fun l => (s.die j.d).hostVisible (j.group s).ctx.pn l.va n

/-- ST of n bytes (R288): every access passes its checks, and the lanes store in ascending order (R290) at the places
that the checks of their addresses give. -/
def storeMem (i : Instr) (w : RegWord) (n : Nat) : Claim :=
  let checks := fun (j : Job) (s : State) => checked j s .store n 1 j.x.lanes (address j)
  let seen := fun (j : Job) (s : State) => hostSees j (checks j s).2 n (places (checks j s))
  word i (fun j s => granted (checks j s) && (!seen j s || mayTurn j (checks j s).2)) fun j s =>
    let t := if seen j s then turned j (checks j s).2 else (checks j s).2
    j.storeAll t (j.asking t w.mod.toNat) ((places (checks j s)).zip (j.x.lanes.map fun l => toBytes n l.c.toNat))

/-- Some lane's bytes lie in an A or SH extent (R295). -/
def sharedExt (j : Job) (s : State) (n : Nat) (ls : List LaneSpots) : Bool :=
  ls.any fun l => ((j.group s).ctx.ext.holding l.va n).any fun e => e.2.mode == 3 || e.2.mode == 4

/-- ATOM of width w (R293 to R295): every access passes its checks, no byte is poisoned, and the lanes' atomics are
performed in ascending order. -/
def atomMem (i : Instr) (w : RegWord) (width : Nat) : Claim :=
  let n := width / 8
  let checks := fun (j : Job) (s : State) => checked j s .atom n n j.x.lanes fun l => l.a.toNat % 2 ^ 64
  let got := fun (j : Job) (s : State) => (checks j s).2.readAll (j.asking (checks j s).2 w.mod.toNat) (places (checks j s))
  let turns := fun (j : Job) (s : State) => sharedExt j (checks j s).2 n (places (checks j s)) || hostSees j (got j s).2 n (places (checks j s))
  word i
    (fun j s => granted (checks j s) && ((got j s).1.all fun r => r.2.all fun b => !b.2) && (!turns j s || mayTurn j (got j s).2))
    fun j s => j.atomAll (if turns j s then turned j (got j s).2 else (got j s).2) width (j.asking (checks j s).2 w.mod.toNat)
      (j.x.lanes.zip (places (checks j s)))

/-- PREF: each active lane's line is brought in, unless its access would fault (R298). -/
def prefetched (w : RegWord) (j : Job) (s : State) : State :=
  j.pass (j.x.lanes.foldl (fun t l => t.prefetch j.d (j.group s).core (j.group s).ctx.pn (j.group s).ctx.ext (address j l) w.mod.toNat) s)

/-- The words that load. -/
def memoryLoads (w : RegWord) : List Claim :=
  [loadMem (.ldB w) w 1 false, loadMem (.ldBI8 w) w 1 true, loadMem (.ldH w) w 2 false, loadMem (.ldHI16 w) w 2 true,
   loadMem (.ldW w) w 4 false, loadMem (.ldD w) w 8 false, loadMem (.ldQ w) w 16 false]

/-- The words that load, store and prefetch. -/
def memoryTable (w : RegWord) : List Claim :=
  memoryLoads w ++
  [storeMem (.stB w) w 1, storeMem (.stH w) w 2, storeMem (.stW w) w 4, storeMem (.stD w) w 8, storeMem (.stQ w) w 16,
   atomMem (.atomW w) w 32, atomMem (.atomD w) w 64,
   word (.pref w) (fun j _ => j.x.lanes.all fun l => address j l < 2 ^ 60) (prefetched w)]

/-! ## Counters, barrier objects, PREF range (R299 to R307) -/

/-- The checks of the 32 bytes of an object, and the state after them (R300). -/
def objectChecks (j : Job) (s : State) (va : Nat) : List LaneCheck × State := checked j s .object 32 1 j.x.lanes fun _ => va

/-- The object, where its checks find it. -/
def objectFound (j : Job) (s : State) (va : Nat) : Option ObjRef :=
  match (places (objectChecks j s va)).map LaneSpots.spots with
  | (.line r off :: _) :: _ => some ⟨r.attr, r.addr + off⟩
  | _ => none

/-- The object itself. -/
def objectOf (j : Job) (s : State) (va : Nat) : ObjRef := (objectFound j s va).getD default

/-- The state after the checks of an object: its line is in its slice (R78). -/
def objectState (j : Job) (s : State) (va : Nat) : State :=
  (objectChecks j s va).2.modDie j.d fun x => (x.fetchAt (objectOf j s va).attr (objectOf j s va).pa 32).2

/-- The 32 bytes of the object. -/
def objectNow (j : Job) (s : State) (va : Nat) : Nat := ((objectState j s va).die j.d).object (objectOf j s va)

/-- A word may work on the object at va: a multiple of 32 below 2^60 that passes its checks, unpoisoned, of a LEVEL that
the word takes (R300). -/
def objectReady (level : Nat → Bool) (j : Job) (s : State) (va : Nat) : Bool :=
  va < 2 ^ 60 && va % 32 == 0 && granted (objectChecks j s va) && (objectFound j s va).isSome
    && !((objectState j s va).die j.d).objectBad (objectOf j s va) && level (bits (objectNow j s va) 138 136)

/-- A counter has LEVEL 1 to 4. -/
def counterLevel (l : Nat) : Bool := 1 ≤ l && l ≤ 4

/-- The word may work on it, and its irrevocable effect takes place at once. -/
def objectTurn (level : Nat → Bool) (j : Job) (s : State) (va : Nat) : Bool :=
  objectReady level j s va && mayTurn j (objectState j s va)

/-- The state in which that effect takes place. -/
def objectTurned (j : Job) (s : State) (va : Nat) : State := turned j (objectState j s va)

/-- CINIT finds the object in use (R302). -/
def inUse (j : Job) (s : State) : Bool :=
  let k := objectNow j s j.a
  let l := bits k 138 136
  (counterLevel l && bits k 159 144 != 0)
    || (l == 0 && (bits k 31 0 != 0 || ((objectTurned j s j.a).die j.d).objWaited (objectOf j s j.a)))

/-- CINIT's operands are well formed (R302). -/
def initOk (j : Job) : Bool :=
  if j.f.imm % 8 = 0 then j.b % 2 ^ 32 != 0 else j.c < 2 ^ 60 && j.c % 32 == 0

/-- The object that CINIT writes: TARGET, PARENT, LEVEL and DONE; all else 0 (R301, R302). -/
def newObject (j : Job) : Nat :=
  let t := j.b % 2 ^ 32
  let level := j.f.imm % 8
  if level = 0 then t * 2 ^ 32 else t * 2 ^ 32 + j.c * 2 ^ 64 + level * 2 ^ 136 + (if t = 0 then 2 ^ 139 else 0)

/-- CWAIT ends at once: DONE, a STATUS or CANC (R304). -/
def waitEnds (k : Nat) : Bool := bit k 139 || bits k 135 128 != 0 || bit k 140

/-- CWAIT's result word (R304). -/
def waitResult (k : Nat) : Nat := bits k 135 128 + (bit k 139).toNat * 2 ^ 8 + (bit k 140).toNat * 2 ^ 9

/-- The waiting form of CWAIT, with its limit in units of 256 clocks from its issue (R304). -/
def waitsCounter (limit : Nat) (j : Job) (s : State) : State :=
  let t := objectState j s j.a
  j.wait t (.cwait j.x (objectOf j s j.a) j.a (if limit = 0 then none else some (j.x.clk + 256 * limit)))

/-- Fewer than 16 bulk prefetches are in the core (R299). -/
def prefetchRoom (j : Job) (s : State) : Bool := ((s.die j.d).core (j.group s).core).prefetches.length < 16

/-- PREF range's span is in the address space. -/
def rangeOk (j : Job) : Bool := j.a < 2 ^ 60 && j.a + j.b ≤ 2 ^ 60

/-- The arrival that PREF range registers at its counter. -/
def prefetchDue (j : Job) (s : State) : State :=
  (objectState j s j.c).modDie j.d fun x => x.register (j.group (objectState j s j.c)).ctx.pn j.c true

/-- The active threads wait at a collective of the group, and the group's collectives are checked (R197, R306, R307). -/
def gathers (w : Job → Wait) (also : Job → State → State) (j : Job) (s : State) : State :=
  (also j (j.wait s (w j))).gather j.d j.gid

/-- Arrivals at barrier b (R306): the first names the count. -/
def arrivals (count : Job → Option Nat) (j : Job) (s : State) : State :=
  j.mod s fun g => { g with barriers := g.barriers.modify (j.f.imm % 4) fun r =>
    if r.busy then { r with arrived := r.arrived + j.act.length } else ⟨true, count j, j.act.length⟩ }

/-- The words on counters, barriers and PREF range. -/
def counterTable (w : RegWord) (v : WideWord) : List Claim :=
  let initReady := fun (j : Job) (s : State) => objectTurn (fun _ => true) j s j.a
  let passed := fun (j : Job) (s : State) => waitEnds (objectNow j s j.a)
  let result := fun (j : Job) (s : State) => j.result (objectState j s j.a) (waitResult (objectNow j s j.a))
  let add := fun (i : Instr) (n : Job → Nat) => word i (fun j s => objectTurn counterLevel j s j.a) fun j s =>
    j.pass ((objectTurned j s j.a).modDie j.d fun x => x.arrive (j.group (objectTurned j s j.a)).ctx.pn j.a (n j) 0)
  let bar := fun (i : Instr) (b : Job → Wait) (also : Job → State → State) => word i always (gathers b also)
  [word (.cinit w) (fun j s => initReady j s && inUse j s) fun j s => j.result (objectTurned j s j.a) St.busy,
   word (.cinit w) (fun j s => initReady j s && !inUse j s && !initOk j) fun j s => j.result (objectTurned j s j.a) St.malformed,
   word (.cinit w) (fun j s => initReady j s && !inUse j s && initOk j) fun j s =>
     j.result ((objectTurned j s j.a).modDie j.d fun x =>
       (x.putObject (objectOf j s j.a) (newObject j)).wakeDone (objectOf j s j.a)) St.ok,
   add (.cadd w) fun j => j.b % 2 ^ 32,
   add (.caddWide v) fun _ => v.imm.toNat,
   word (.cwait w) (fun j s => objectReady counterLevel j s j.a && passed j s) result,
   word (.cwait w) (fun j s => objectReady counterLevel j s j.a && !passed j s) (waitsCounter 0),
   word (.cwaitLimit w) (fun j s => objectReady counterLevel j s j.a && passed j s) result,
   word (.cwaitLimit w) (fun j s => objectReady counterLevel j s j.a && !passed j s) fun j s => waitsCounter (j.b % 2 ^ 32) j s,
   word (.cancel w) (fun j s => objectTurn counterLevel j s j.a) fun j s =>
     (j.pass (objectTurned j s j.a)).cancelCounter j.d (j.group (objectTurned j s j.a)).ctx.pn (objectOf j s j.a) j.a,
   word (.prefRange w) (fun j s => rangeOk j && j.c = 0 && prefetchRoom j s) fun j s => j.enterPrefetch s,
   word (.prefRange w) (fun j s => rangeOk j && j.c ≠ 0 && objectReady counterLevel j s j.c && prefetchRoom j (prefetchDue j s))
     fun j s => j.enterPrefetch (prefetchDue j s),
   bar (.bar w) (fun j => .bar j.x (j.f.imm % 4)) (arrivals fun _ => none),
   bar (.barCount w) (fun j => .bar j.x (j.f.imm % 4)) (arrivals fun j => some (j.a % 2 ^ 32)),
   bar (.barObject w) (fun j => .barObj j.x (BitVec.ofNat 64 j.a) none) fun _ s => s,
   bar (.barObjectArrive w) (fun j => .barArrive j.x (BitVec.ofNat 64 j.a)) fun _ s => s]

/-! ## Queues and LAUNCH (R309 to R319) -/

/-- The handle that an operand names. -/
def handleOf (j : Job) (s : State) (o : Operand) : Handle := (j.group s).handle (handleNo o)

/-- The word's status, where it completes at once and sends nothing (R313). -/
def statusNow (st : Nat) (j : Job) (s : State) : State := j.result s (st * 2 ^ 48)

/-- A word on a handle: NAME where the handle is unbound, else its operation enters the outbound queue (R313 to R319). -/
def sendRows (i : Instr) (kind : Job → OutKind) : List Claim :=
  [word i (fun j s => !(handleOf j s j.f.sa).bound) (statusNow St.name),
   word i (fun j s => (handleOf j s j.f.sa).bound) fun j s => j.outbound s (handleNo j.f.sa) (kind j)]

/-- QPUT's element: 2^ESIZE bytes at an aligned offset below the end of the window (R316). -/
def putAligned (j : Job) (s : State) : Bool :=
  let n := 2 ^ (handleOf j s j.f.sa).esize
  j.c % 2 ^ 32 % min n 64 == 0 && j.c % 2 ^ 32 + n ≤ (j.group s).top

/-- QGET and QWAIT name a range of 2^E bytes of the scratchpad, at a multiple of 64 (R317). -/
def dequeueRange (j : Job) (s : State) : Bool :=
  let a := j.x.deqOff
  a % 64 == 0 && (j.group s).b1 ≤ a && a + 2 ^ (j.x.i.fields.imm % 16) ≤ (j.group s).b2

/-- LAUNCH's record is 128 bytes of the scratchpad, at a multiple of 64 (R309). -/
def recordRange (j : Job) (s : State) : Bool :=
  let a := j.a % 2 ^ 32
  a % 64 == 0 && (j.group s).b1 ≤ a && a + 128 ≤ (j.group s).b2

/-- LAUNCH: the record may be read, and the pending-launch queue of the core has room (R309). -/
def launchReady (j : Job) (s : State) : Bool :=
  recordRange j s && ((s.die j.d).core (j.group s).core).launches.length < 4 && mayTurn j s
    && windowFree j (turned j s) [readAcc (j.a % 2 ^ 32) 128]

/-- What QSTAT reports of a handle (R318). -/
def handleStatus (j : Job) (s : State) : Nat :=
  let h := handleOf j s j.f.sa
  (if h.bound then h.vqn.toNat else 0) + (if h.bound then 2 ^ 34 else 0)
    + (if (j.group s).waitsThrough (handleNo j.f.sa) then 2 ^ 35 else 0) + h.esize * 2 ^ 36 + min h.out 255 * 2 ^ 40

/-- The queue words and LAUNCH. -/
def queueTable (w : RegWord) (v : WideWord) : List Claim :=
  [word (.qbind w) always fun j s => j.pass (j.mod s.newId.2 fun g => g.modHandle (handleNo j.f.dst) fun h =>
     { h with bound := true, vqn := BitVec.ofNat 32 j.a, esize := 0, binding := s.newId.1 }),
   word (.qput w) (fun j s => !(handleOf j s j.f.sa).bound) (statusNow St.name),
   word (.qput w) (fun j s => (handleOf j s j.f.sa).bound && (handleOf j s j.f.sa).esize == 0) (statusNow St.rights),
   word (.qput w)
     (fun j s => (handleOf j s j.f.sa).bound && (handleOf j s j.f.sa).esize != 0 && putAligned j s && mayTurn j s
       && windowFree j (turned j s) [readAcc (j.c % 2 ^ 32) (2 ^ (handleOf j s j.f.sa).esize)])
     (fun j s =>
       let g := j.group (turned j s)
       let at_ := g.ctx.frame.base + j.c % 2 ^ 32
       let n := 2 ^ (handleOf j s j.f.sa).esize
       j.outbound (turned j s) (handleNo j.f.sa) (.put (j.b % 2 ^ 48) (g.partBytes at_ n) (g.badWords at_ n))),
   word (.qget w) (fun j s => !(handleOf j s j.f.sa).bound) (statusNow St.name),
   word (.qget w) (fun j s => (handleOf j s j.f.sa).bound && dequeueRange j s) fun j s => j.dequeue s false,
   word (.qwait w) (fun j s => !(handleOf j s j.f.sa).bound) (statusNow St.name),
   word (.qwait w)
     (fun j s => (handleOf j s j.f.sa).bound && dequeueRange j s && !(s.die j.d).waitOut j.gid j.x.warp && mayTurn j s)
     fun j s => j.dequeue (turned j s) true,
   word (.qstat w) always fun j s => j.result s (handleStatus j s),
   word (.launch w) launchReady fun j s => j.appendLaunch (turned j s) false,
   word (.launchQueue w) launchReady fun j s => j.appendLaunch (turned j s) true]
    ++ sendRows (.qres w) (fun j => .res (j.b % 2 ^ 32))
    ++ sendRows (.qresWide v) (fun _ => .res v.imm.toNat)
    ++ sendRows (.qcancelGrant w) (fun j => .cancelGrant (j.b % 2 ^ 48))
    ++ sendRows (.qcancelWait w) (fun j => .cancelWait (j.b % 8))

/-! ## Tiles (R321 to R336) -/

/-- The tile that a word names. -/
def tileOf (j : Job) (s : State) : Tile := (j.group s).tile (tileNo j.f.sa)

/-- The reservation table of the cluster has room (R323). -/
def tableRoom (j : Job) (s : State) : Bool := ((s.die j.d).cluster ((s.die j.d).clusterOf (j.group s).core)).table.length < 16

/-- A matrix operation is posted (R321, R323): it takes the tile's next version, its entry joins the table, and the word's
result is that version with the status OK. -/
def posted (j : Job) (s : State) (op : MatOp) : State :=
  let g := j.group s
  let c := (s.die j.d).clusterOf g.core
  let n := tileNo j.f.sa
  let v := ((g.tile n).issued + 1) % 65535
  let e : MatEntry := { id := s.newId.1, gid := j.gid, tile := n, version := v, op := op, done := 0, cls := g.cls, age := 0,
                        since := none, ext := g.ctx.ext, frame := g.ctx.frame }
  let t := s.newId.2.modDie j.d fun x => x.modCluster c fun k => { k with table := k.table ++ [e] }
  (j.result (j.mod t fun g => g.modTile n fun t => { t with issued := v }) v).settleTable j.d c

/-- MLOOP's descriptor: 64 bytes of the window at a multiple of 64, present and unpoisoned (R325). -/
def descReady (j : Job) (s : State) : Bool :=
  let a := j.c % 2 ^ 32
  let g := j.group s
  a % 64 == 0 && a + 64 ≤ g.top && windowFree j s [readAcc a 64] && !(g.window a 64).2

/-- Its bytes. -/
def descOf (j : Job) (s : State) : List Byte := ((j.group s).window (j.c % 2 ^ 32) 64).1

/-- Every span of the two operands lies in the address space and in an extent that is not demoted (R327). -/
def spansOk (k n : Nat) (j : Job) (s : State) : Bool :=
  let x := ofBytes (descOf j s)
  ((j.group s).ctx.ext.spanFault .load ((descA x).spans k (n % 2 ^ 20) ++ (descB x).spans k (n % 2 ^ 20))).isNone

/-- MLOOP of K-step width k with n steps: it posts; with a malformed descriptor, or n out of range, its result is
MALFORMED with the version last issued (R326, R328). -/
def mloopRows (i : Instr) (k : Nat) (n : Job → Nat) : List Claim :=
  let ready := fun (j : Job) (s : State) => descReady j s && spansOk k (n j) j s
  let wellFormed := fun (j : Job) (s : State) => descOk (ofBytes (descOf j s)) k && n j < 2 ^ 20
  [word i (fun j s => ready j s && wellFormed j s && tableRoom j s) fun j s => posted j s (.mloop (n j) (descOf j s)),
   word i (fun j s => ready j s && !wellFormed j s) fun j s => j.result s (St.malformed * 2 ^ 16 + (tileOf j s).issued)]

/-- The address that a tile transfer names. -/
def rowsAt (win : Bool) (j : Job) : Nat := if win then j.c % 2 ^ 32 else j.c

/-- The rows of a tile transfer with elements of z bytes pass its checks: in the window; aligned; in one extent that
permits the access (R330). -/
def rowsOk (acc : Acc) (win : Bool) (z : Nat) (j : Job) (s : State) : Bool :=
  let r := rowSpec j.b
  let a := rowsAt win j
  a % min z 8 == 0 && r.pitch % min z 8 == 0
    && if win then (List.range r.rows).all fun t => a + t * r.pitch + 128 * z ≤ (j.group s).top
       else ((j.group s).ctx.ext.spanFault acc [r.span a z]).isNone

/-- MLDT of elements of a type. -/
def mldtRow (i : Instr) (win : Bool) (type : Nat) : Claim :=
  word i (fun j s => rowsOk .load win (elBytes type) j s && tableRoom j s) fun j s =>
    posted j s (.mldt type (BitVec.ofNat 64 j.b) (BitVec.ofNat 64 (rowsAt win j)) win)

/-- The bytes that MST stores, where they are in memory, lie in a registration (R169). -/
def rowsSeen (win : Bool) (z : Nat) (j : Job) (s : State) : Bool :=
  let r := rowSpec j.b
  !win && (s.die j.d).hostVisible (j.group s).ctx.pn j.c ((r.rows - 1) * r.pitch + 128 * z)

/-- MST of elements of z bytes, with the format slot that it names. -/
def mstRow (i : Instr) (win : Bool) (ok : Job → State → Bool) (slot : Job → State → Option DWord) (z : Job → State → Nat) : Claim :=
  let from_ := fun (j : Job) (s : State) => if rowsSeen win (z j s) j s then turned j s else s
  word i
    (fun j s => ok j s && rowsOk .store win (z j s) j s && (!rowsSeen win (z j s) j s || mayTurn j s) && tableRoom j (from_ j s))
    fun j s => posted j (from_ j s) (.mst (slot j s) (BitVec.ofNat 64 j.b) (BitVec.ofNat 64 (rowsAt win j)) win)

/-- The raw word of the format slot that some bits of the word number. -/
def slotWord' (j : Job) (s : State) (n : Nat) : DWord := (j.group s).formatSlot n

/-- Its format. -/
def slotFormat (j : Job) (s : State) (n : Nat) : SlotFmt := (slotFmt (slotWord' j s n).toNat).getD default

/-- It is legal and of a listed type. -/
def slotIs (j : Job) (s : State) (n : Nat) (ok : Nat → Bool) : Bool := (slotFmt (slotWord' j s n).toNat).any fun t => ok t.etype

/-- The version that MRD and MVER name is reached (R322). -/
def versionDone (j : Job) (s : State) : Bool := (tileOf j s).reached (j.b % 2 ^ 16)

/-- Row r of what lane l of the warp reads: element (SEL + r mod 128, 32 SEL[8:7] + lane) (R333). -/
def readElement (j : Job) (s : State) (r : Nat) (l : LaneSrc) : Nat :=
  (tileOf j s).el s.draw.1 ((j.c % 128 + r) % 128) (32 * bits j.c 8 7 + l.t % 32)

/-- MRD: ROWS + 1 rows, c registers each, in every active lane; a poisoned tile gives poisoned registers (R333, R396). -/
def mrdNext (c : Nat) (f : Nat → Nat) (j : Job) (s : State) : State :=
  let v := match j.f.dst with
    | .v n => n.toNat
    | _ => 0
  j.pass (j.mod s.draw.2 fun g => j.x.lanes.foldl (fun g l =>
    (List.range (j.f.imm % 16 + 1)).foldl (fun g r =>
      g.writeV l.t (v + c * r) c (f (readElement j s r l)) (tileOf j s).poison) g) g)

/-- The tile words. -/
def tileTable (w : RegWord) (u : ShortWord) : List Claim :=
  let steps := fun (j : Job) => j.b % 2 ^ 32
  let slot := fun (j : Job) (_ : State) => j.f.imm % 8
  let scalar := fun (j : Job) (s : State) => slotIs j s (slot j s) scalarType
  let z := fun (j : Job) (s : State) => elBytes (slotFormat j s (slot j s)).etype
  let readType := fun (t : Nat) => (1 ≤ t && t ≤ 8) || (0x10 ≤ t && t ≤ 0x13)
  mloopRows (.mloopB16 w) 4 steps ++ mloopRows (.mloopB8 w) 8 steps ++ mloopRows (.mloopB4 w) 32 steps
    ++ mloopRows (.mloopB16Short u) 4 (fun _ => u.imm.toNat) ++ mloopRows (.mloopB8Short u) 8 (fun _ => u.imm.toNat)
    ++ mloopRows (.mloopB4Short u) 32 (fun _ => u.imm.toNat)
    ++ [word (.mzero w) tableRoom fun j s => posted j s .mzero,
        mldtRow (.mldt w) false (lowType w), mldtRow (.mldtWin w) true (lowType w),
        mstRow (.mst w) false always (fun _ _ => none) fun _ _ => 16,
        mstRow (.mstSlot w) false scalar (fun j s => some (slotWord' j s (slot j s))) z,
        mstRow (.mstWinSlot w) true scalar (fun j s => some (slotWord' j s (slot j s))) z,
        word (.mrdF32 w) versionDone (mrdNext 1 fun x => roundTo 0x12 (valueOf 0x30 x) 0 false false),
        word (.mrdSlot w) (fun j s => slotIs j s (bits j.f.imm 6 4) readType && versionDone j s) fun j s =>
          let t := slotFormat j s (bits j.f.imm 6 4)
          mrdNext (if typeWidth t.etype = 64 then 2 else 1) (fun x => widen t.etype (roundTo t.etype (valueOf 0x30 x) t.rnd t.sat t.nanz)) j s,
        word (.mrdA80 w) versionDone (mrdNext 4 fun x => x),
        word (.mver w) versionDone fun j s =>
          j.result s ((tileOf j s).ver + (tileOf j s).issued * 2 ^ 16 + if (tileOf j s).poison then 2 ^ 32 else 0)]

/-! ## Streams (R337 to R348) -/

/-- The bytes of the layout record, as a number. -/
def layoutBytes (j : Job) (s : State) : Nat := ofBytes ((j.group s).window (j.a % 2 ^ 32) 64).1

/-- The layout record. -/
def layoutAt (j : Job) (s : State) : Layout := layoutOf (layoutBytes j s)

/-- The record: 64 bytes of the window at a multiple of 64, present, unpoisoned, with its ring in the scratchpad (R338,
R339). -/
def layoutReady (j : Job) (s : State) : Bool :=
  let a := j.a % 2 ^ 32
  let g := j.group s
  a % 64 == 0 && a + 64 ≤ g.top && windowFree j s [readAcc a 64] && !(g.window a 64).2 && (layoutAt j s).ringFits g

/-- A copy record of the core is free (R337). -/
def recordFree (j : Job) (s : State) : Bool := ((s.die j.d).core (j.group s).core).freeCopy.isSome

/-- The rows in memory: the lowest address and the number of bytes (R341). -/
def copySpan (j : Job) (s : State) : Int × Int := (layoutAt j s).span (BitVec.ofNat 64 j.b)

/-- They lie in the address space, and in an extent that permits the access (R341). -/
def copySpanOk (acc : Acc) (j : Job) (s : State) : Bool :=
  let sp := copySpan j s
  !spanWild sp && (j.group s).ctx.ext.spanOk acc sp.1.toNat (sp.2 - sp.1 + 1).toNat

/-- Nothing holds back the lines that a drain reads. -/
def drainLines (j : Job) (s : State) : Bool :=
  windowFree j s (lineAccs (j.group s) ((j.newCopy s 0 .drain (layoutAt j s)).allLines (j.group s)))

/-- The rows that a drain writes lie in a registration (R169). -/
def drainSeen (j : Job) (s : State) : Bool :=
  let sp := copySpan j s
  (s.die j.d).hostVisible (j.group s).ctx.pn sp.1.toNat (sp.2 - sp.1 + 1).toNat

/-- Nothing holds back the lines of the slot that a drain into a queue reads. -/
def slotPresent (j : Job) (s : State) : Bool :=
  windowFree j s (lineAccs (j.group s)
    ((layoutAt j s).slotLines (j.group s).ctx.frame.base (j.c % 2 ^ 32) (layoutAt j s).slotb))

/-- A record whose fields break R339 gives MALFORMED. -/
def malformedRow (i : Instr) (queue : Bool) : Claim :=
  word i (fun j s => layoutReady j s && !(if queue then (layoutAt j s).queueOk (layoutBytes j s) else (layoutAt j s).ok (layoutBytes j s)))
    fun j s => j.result s St.malformed

/-- SREL names an open stream of the group (R345). -/
def streamOf (j : Job) (s : State) : Option Copy :=
  (((s.die j.d).core (j.group s).core).copy? (j.a % 2 ^ 32)).filter fun c => c.gid == j.gid && c.kind == .fillQueue

/-- The slot of the ring that SREL names. -/
def slotNo (j : Job) (c : Copy) : Nat := j.b % 2 ^ 32 % c.lay.nslot

/-- SREL releases a slot that holds an element. -/
def releases (j : Job) (s : State) : Bool := (streamOf j s).any fun c => c.delivered.contains (slotNo j c)

/-- The copies of the group that are outstanding, open streams apart (R348). -/
def copiesNow (j : Job) (s : State) : Nat :=
  ((s.die j.d).cores.flatMap fun c => c.2.copies).countP fun c => c.gid == (j.group s).gid && c.kind != .fillQueue

/-- SWAIT passes once at most n copies are outstanding: STATUS, and the number outstanding (R348). -/
def swaitRows (i : Instr) (n : Job → Nat) : List Claim :=
  [word i (fun j s => copiesNow j s ≤ n j) fun j s =>
     j.result (j.mod s fun g => { g with sticky := 0 }) ((j.group s).sticky % 2 ^ 8 + min (copiesNow j s) 255 * 2 ^ 8),
   word i (fun j s => n j < copiesNow j s) fun j s => j.wait s (.copies j.x (n j))]

/-- SJOIN: a fence joins the tail of each named queue, and of the matrix unit's, and those that stand first end (R166,
R347). -/
def fenced (j : Job) (s : State) : State :=
  let set := j.f.imm % 32
  let core := (j.group s).core
  let id := s.newId.1
  let add := fun (b : Nat) (q : List EngEntry) => if bit set b then q ++ [.fence id] else q
  (j.pass (s.newId.2.modDie j.d fun x =>
    let y := x.modCore core fun c =>
      { c with fillQ := add 0 c.fillQ, drainQ := add 1 c.drainQ, prefetchQ := add 2 c.prefetchQ, outQ := add 3 c.outQ }
    (if bit set 4 then y.modCluster (y.clusterOf core) fun k => { k with fences := k.fences ++ [(j.gid, id, id)] } else y).clearFences
      core)).pump j.d core

/-- The stream words. -/
def streamTable (w : RegWord) : List Claim :=
  let fillOk := fun (j : Job) (s : State) =>
    layoutReady j s && (layoutAt j s).ok (layoutBytes j s) && copySpanOk .load j s && recordFree j s
  let drainOk := fun (j : Job) (s : State) =>
    layoutReady j s && (layoutAt j s).ok (layoutBytes j s) && copySpanOk .store j s && recordFree j s && drainLines j s
  let queueOk := fun (j : Job) (s : State) =>
    layoutReady j s && (layoutAt j s).queueOk (layoutBytes j s) && recordFree j s && mayTurn j s
  [word (.sfill w) fillOk fun j s => j.startCopy s .fill (layoutAt j s), malformedRow (.sfill w) false,
   word (.sdrain w) (fun j s => drainOk j s && (!drainSeen j s || mayTurn j s)) fun j s =>
     j.startCopy (if drainSeen j s then turned j s else s) .drain (layoutAt j s),
   malformedRow (.sdrain w) false,
   word (.sfillQueue w) queueOk fun j s => j.startCopy (turned j s) .fillQueue (layoutAt j s), malformedRow (.sfillQueue w) true,
   word (.sdrainQueue w) (fun j s => queueOk j s && slotPresent j s) fun j s => j.startCopy (turned j s) .drainQueue (layoutAt j s),
   malformedRow (.sdrainQueue w) true,
   word (.srel w) (fun j s => (streamOf j s).isNone) fun j s => j.pass s,
   word (.srel w) (fun j s => (streamOf j s).isSome && bit j.f.imm 0) fun j s =>
     (j.pass s).closeStream j.d (j.group s).core ((streamOf j s).getD default) 0,
   word (.srel w) (fun j s => releases j s && !bit j.f.imm 0) fun j s =>
     (j.pass s).modDie j.d fun x => x.modCopy (j.group s).core (j.a % 2 ^ 32) fun c =>
       { c with delivered := c.delivered.filter (· != slotNo j ((streamOf j s).getD default))
                free := slotNo j ((streamOf j s).getD default) :: c.free },
   word (.srel w) (fun j s => (streamOf j s).isSome && !releases j s && !bit j.f.imm 0) fun j s => j.pass s,
   word (.sjoin w) (fun j _ => j.f.imm % 32 ≠ 0) fenced]
    ++ swaitRows (.swait w) (fun _ => 0) ++ swaitRows (.swaitCount w) (fun j => j.a % 2 ^ 32)

/-! ## Gates, traps and special registers (R197, R208, R351, R355, R357, R358, R384) -/

/-- RDSR: the value of special register n (R208). -/
def rdsrRow (w : RegWord) (n : Nat) (f : Job → State → LaneSrc → Nat) : Claim :=
  eachLaneOf (.rdsr w) (fun j _ => j.f.imm % 256 = n) f

/-- A special register of the group. -/
def ofGroup (f : Group → Nat) (j : Job) (s : State) (_ : LaneSrc) : Nat := f (j.group s)

/-- WRSR in range: the register takes the value (R208, R209). -/
def wrsrRow (w : RegWord) (n : Nat) (ok : Nat → Bool) (f : Nat → Group → Group) : Claim :=
  word (.wrsr w) (fun j _ => j.f.imm % 256 = n ∧ ok j.a) fun j s => j.pass (j.mod s fun _ => f j.a (j.group s))

/-- TRET takes the registers and the threads from the trap frame (R384): there is a handler, the frame may be read and
is unpoisoned, and every thread resumes at a valid address. -/
def tretOk (j : Job) (s : State) : Bool :=
  let g := j.group s
  let fr := g.window g.b3 1024
  g.poisonDue.isNone && !bit j.f.imm 1 && windowFree j s [readAcc g.b3 1024] && !fr.2 && g.trap.any fun tr =>
    (g.members tr.warp).all fun t =>
      let pc := frameField fr.1 (0x40 + 8 * (t % 32)) 8 + if bit j.f.imm 0 && tr.precise && tr.lanes.contains (t % 32) then tr.len else 0
      pc % 8 = 0 ∧ pc < 2 ^ 43

/-- The state after that return. -/
def tretNext (j : Job) (s : State) : State :=
  let g := j.group s
  s.leaveHandler j.d j.gid (g.trap.getD default) (g.window g.b3 1024).1 (bit j.f.imm 0)

/-- RDSR, register by register. -/
def rdsrTable (w : RegWord) : List Claim :=
  [rdsrRow w 0x00 fun _ _ l => l.t % 32,
   rdsrRow w 0x01 fun j _ _ => j.x.warp,
   rdsrRow w 0x02 (ofGroup fun g => g.groupid.toNat),
   rdsrRow w 0x03 (ofGroup fun g => g.griddim.toNat),
   rdsrRow w 0x04 (ofGroup fun g => g.nodeid.toNat),
   rdsrRow w 0x05 fun j s _ => (s.die j.d).conf.ident.toNat,
   rdsrRow w 0x06 fun j s _ => (s.die j.d).clusterOf (j.group s).core,
   rdsrRow w 0x07 (ofGroup fun g => g.core),
   rdsrRow w 0x08 (ofGroup fun g => g.slot),
   rdsrRow w 0x09 fun j s _ => (s.die j.d).clock,
   rdsrRow w 0x0A fun j s l => ((j.group s).thread l.t).depth.toNat,
   rdsrRow w 0x0B (ofGroup fun g => g.ctx.handler.toNat),
   rdsrRow w 0x0C (ofGroup fun g => g.ctx.trapcause.toNat),
   rdsrRow w 0x0D (ofGroup fun g => g.ctx.trappc.toNat),
   rdsrRow w 0x0E (ofGroup fun g => g.ctx.trapaddr.toNat),
   rdsrRow w 0x0F (ofGroup fun g => g.ctx.tbase.toNat),
   rdsrRow w 0x10 (ofGroup fun g => g.ctx.tlen.toNat),
   rdsrRow w 0x11 (ofGroup fun g => g.gateDepth),
   rdsrRow w 0x12 (ofGroup fun g => g.wdlimit)]

/-- WRSR, register by register. -/
def wrsrTable (w : RegWord) : List Claim :=
  [wrsrRow w 0x0B (fun v => v % 8 = 0 ∧ v < 2 ^ 43) fun v g => g.modCtx fun c => { c with handler := BitVec.ofNat 64 v },
   wrsrRow w 0x0F (fun v => v % 8 = 0 ∧ v < 2 ^ 60) fun v g => g.modCtx fun c => { c with tbase := BitVec.ofNat 64 v },
   wrsrRow w 0x10 (fun v => v < 2 ^ 16) fun v g => g.modCtx fun c => { c with tlen := BitVec.ofNat 64 v },
   wrsrRow w 0x12 (fun v => 16 ≤ v ∧ v ≤ 40) fun v g => { g with wdlimit := v },
   wrsrRow w 0x12 (fun v => v < 16 ∨ 40 < v) fun _ g => g]

/-- The words of gates, traps and special registers. -/
def systemTable (w : RegWord) : List Claim :=
  let gate := gathers (fun j => .gate j.x (j.f.imm % 256)) fun _ s => s
  let gret := gathers (fun j => .gret j.x) fun _ s => s
  [word (.gate w) always gate,
   word (.gret w) always gret,
   word (.trap w) always fun j s => j.fault s Cause.trap j.lanes (j.f.imm % 2 ^ 16),
   word (.brk w) always fun j s => j.fault s Cause.trap j.lanes (2 ^ 16 + j.f.imm % 2 ^ 16),
   word (.tret w) tretOk tretNext,
   word (.tret w) (fun j s => (j.group s).trap.isSome && (j.group s).poisonDue.isNone && bit j.f.imm 1 && (j.group s).gateDepth != 0)
     fun j s => s.endGate j.d j.gid (St.fault + (j.group s).ctx.trapcause.toNat % 256 * 2 ^ 8)]
    ++ rdsrTable w ++ wrsrTable w

end Sys2Proof.Claims
end

