-- ==== Sys2Proof/Certificates/Slice0/Events.lean ====
section
/-! DEFINITION. The tables of what each step of the device itself does when it takes place. -/

namespace Sys2Proof.Claims
open Sys2Proof.Machine

/-! ## The form -/

/-- A row about a device step: when it takes place, and the next state. -/
structure EventClaim where
  i : Instr
  ok : State → Bool
  next : State → State

/-- What a row says: in a state in which the row applies, the step answers the row's next state. -/
def EventClaim.Holds (c : EventClaim) : Prop := ∀ s, c.ok s = true → exec c.i s = .next (c.next s)

/-- The die is up. -/
def up (d : Nat) (s : State) : Bool := (s.die d).phase == .up

/-- The die with a change. -/
def onDie (d : Nat) (f : Die → Die) (s : State) : State := s.modDie d f

/-! ## Boot, checkpoints and resets (R24, R403 to R406, R429) -/

/-- A cold or a warm boot. The model's choices: a planned reset pre-empts every group, waits, stops the die and takes the
checkpoint, and restarts it once the partner has the checkpoint (log entries 105, 110 and 114). -/
noncomputable def bootTable (d : Nat) : List EventClaim :=
  let belayed := fun (s : State) => up d s && s.hasBelay d
  let partnerUp := fun (s : State) => up d s && (s.die d).flash.mirrorDue && up (belay d) s && !(s.die d).port.holdsLost s.pkg (belay d)
  let tables := fun (s : State) => (s.die d).flash.table.bytes
  let ordered := fun (s : State) => belayed s && (s.die d).resetDue
  let begun := fun (s : State) => (s.die d).stopped.isSome
  -- a group is still being saved, or the management core owes a reply, once the reset has pre-empted what it can
  let working := fun (s : State) => ((s.preemptAll d).die d).saving || !((s.preemptAll d).die d).mgmtOut.isEmpty
  [⟨.coldBoot d, fun _ => d < 8, fun s => s.coldBoot d⟩,
   ⟨.belayMirrorTimeout d, fun s => (s.die d).phase == .mirror && 1000000 * usec ≤ (s.die d).ps, fun s => s.settleRetTable d true⟩,
   ⟨.mirrorRewrite d, partnerUp, fun s =>
     (onDie d (fun x => { x with flash := { x.flash with mirrorDue := false } }) s).request d .save
       { requestMsg Kind.save (qid s.pkg (belay d) 0 0).toNat 0 (3 * 2 ^ 22 + 1) 0 with
         arg1 := 1, bytes := tables s, mlen := (tables s).length }⟩,
   ⟨.checkpoint d, fun s => belayed s && !begun s && (s.die d).checkpointDue, fun s =>
     (s.draw.2).modDie d fun x => { x with
       belayQ := x.belayQ ++ [⟨.image (s.checkpoint d) 0 (Config.imageParts s.draw.1 % 131072 + 1), []⟩]
       cpAt := x.ps
       cpDue := false }⟩,
   ⟨.warmReset d false, fun s => up d s && !s.hasBelay d, fun s => s.coldBoot d⟩,
   ⟨.warmReset d true, fun s => up d s && !s.hasBelay d && (s.die d).resetDue, fun s => s.coldBoot d⟩,
   ⟨.warmReset d false, belayed, fun s => (s.draw.2).warmReset d (Config.freeLost s.draw.1)⟩,
   ⟨.warmReset d true, fun s => ordered s && !begun s && working s, fun s => s.preemptAll d⟩,
   ⟨.warmReset d true, fun s => ordered s && !begun s && !working s, fun s =>
     ((s.preemptAll d).draw.2).beginReset d (Config.freeLost (s.preemptAll d).draw.1)⟩,
   ⟨.warmReset d true, fun s => ordered s && begun s && !(s.die d).belayQ.isEmpty, fun s => s⟩,
   ⟨.warmReset d true, fun s => ordered s && begun s && (s.die d).belayQ.isEmpty, fun s =>
     s.restartDie d true ((s.die d).stopped.getD [])⟩]

/-! ## Failures, widths, frequency, heat and the alarm (R20, R407 to R410, R426, R432, R435) -/

/-- The logical core that a physical unit is. -/
def coreNamed (d unit : Nat) (s : State) : Option Nat :=
  (List.range (s.die d).numCores).find? fun l => (s.die d).conf.cores.getD l (0, 0) == (unit / 4, unit % 4)

/-- The logical cluster that a physical unit is. -/
def clusterNamed (d unit : Nat) (s : State) : Option Nat :=
  (List.range (s.die d).numClusters).find? fun l => (s.die d).physCluster l == unit

/-- The logical channel that a physical unit is. -/
def channelNamed (d unit : Nat) (s : State) : Option Nat :=
  (List.range (s.die d).numChannels).find? fun k => (s.die d).conf.channels.getD k (0, 0) == (unit / 32, unit % 32)

/-- The width that a link's change goes to. -/
def widthDue (d link : Nat) (s : State) : Option Nat := ((s.die d).link? link).bind Link.changing

/-- Both ends of a link change to a width, and every die's record follows a seam's (R25, R407, R408). -/
def narrowedTo (d link w : Nat) (s : State) : State :=
  let t := (linkDies d link).foldl (fun t e =>
    if (t.die e).phase = .up then t.modDie e fun x => x.narrowed link (((s.die d).link? link).map Link.width |>.getD 0) w else t) s
  if link < 10 then t.seamCode link w (linkDies d link) else t

/-- What the sensors of the dies read, and the package's power. -/
def measured (readings : List Thermal) (s : State) : State :=
  let t := readings.foldl State.reading s
  { t with power := (t.upDies.map fun d => (t.die d).power.toNat).foldl (· + ·) 0 }

/-- Each live die is retired at 115 °C and 0.80 GHz, or counts towards a step up (R435). -/
def checkedDies (s : State) : State :=
  s.upDies.foldl (fun t d =>
    if 115 ≤ (t.die d).tj.toNat ∧ (t.die d).freqPoint = 2 then (t.modDie d fun x => (x.retire 7 0 0 6).stop).dieRetired d
    else t.modDie d fun x => x.coolDown s.power) s

/-- The die that steps down, when the package's power, in units of 10 W, is over 720 (7.2 kW) or a die is at 95 °C (R435). -/
def tooHot (power : Nat) (s : State) : Option Nat :=
  if 720 < power || s.upDies.any fun d => 95 ≤ (s.die d).tj.toNat then s.stepsDown else none

/-- Units that fail, links that narrow, frequency changes, heat and alarms. -/
noncomputable def failureTable (d unit cause link point : Nat) (celsius : Int) (readings : List Thermal) : List EventClaim :=
  let clusterFails := fun (s : State) => up d s && (clusterNamed d unit s).any fun l =>
    !(s.die d).clusterOffline l && (cause == 2 || (cause == 3 && 2 ≤ ((s.die d).cluster l).repeats))
  let tagsLost := fun (s : State) => cause == 2 && Config.freeLost s.draw.1
  let hot := fun (s : State) => tooHot (measured readings s).power (checkedDies (measured readings s))
  let slicedOff := fun (s : State) (lost : Bool) => (s.draw.2).clusterOff d ((clusterNamed d unit s).getD 0) unit cause lost
  [⟨.unitOffline d 1 unit cause,
     fun s => up d s && (coreNamed d unit s).any (fun l => !(s.die d).coreOffline l) && (cause == 1 || cause == 2),
     fun s => s.coreOff d ((coreNamed d unit s).getD 0) unit cause (List.range 32)⟩,
   ⟨.unitOffline d 2 unit cause, fun s => clusterFails s && !tagsLost s, fun s => slicedOff s false⟩,
   ⟨.unitOffline d 2 unit cause, fun s => clusterFails s && tagsLost s, fun s => (slicedOff s true).resetDie d true⟩,
   ⟨.unitOffline d 3 unit cause,
     fun s => up d s && cause == 2 && (channelNamed d unit s).any fun k =>
       !(s.die d).channelOffline k && 64 ≤ tgetD (s.die d).memctl.chUncorr k 0,
     onDie d fun x => (x.retire 3 unit 0 cause).publish fun c => c.setChOff (unit / 32) (unit % 32)⟩,
   ⟨.seamWidthChange d link, fun s => s.canNarrow d link, fun s => s.startWidth d link⟩,
   ⟨.seamWidthChangeDone d link, fun s => (widthDue d link s).any (· ≠ 0), fun s => narrowedTo d link ((widthDue d link s).getD 0) s⟩,
   ⟨.seamWidthChangeDone d link, fun s => link < 10 && widthDue d link s == some 0, fun s => (narrowedTo d link 0 s).reroute [link]⟩,
   ⟨.seamWidthChangeDone d link, fun s => 10 ≤ link && widthDue d link s == some 0,
     fun s => ((narrowedTo d link 0 s).reroute []).emptyLink d link⟩,
   ⟨.ridgeRetrain d link false, fun s => (link == 16 || link == 17) && s.canNarrow d link, fun s => s.startWidth d link⟩,
   ⟨.ridgeRetrain d link true, fun _ => true, fun s => s⟩,
   ⟨.freqChange d point,
     fun s => up d s && !(s.die d).freqRunning && (s.die d).freqTo.any (fun p => p.toNat == point)
       && !(s.die d).links.any fun l => l.changing.isSome,
     onDie d fun x => { x with freqRunning := true }⟩,
   ⟨.freqChangeDone d, fun _ => true, onDie d fun x =>
     if x.freqRunning then { x with freqPoint := x.freqTo.getD x.freqPoint, freqTo := none, freqRunning := false } else x⟩,
   ⟨.thermalCheck readings, fun s => (hot s).isNone, fun s => checkedDies (measured readings s)⟩,
   ⟨.thermalCheck readings, fun s => (hot s).isSome, fun s =>
     (checkedDies (measured readings s)).modDie ((hot s).getD 0) fun x => if x.nextPoint = 2 then x else x.stepTo (x.nextPoint + 1)⟩,
   ⟨.tamper, fun _ => true, fun s => [0, 1, 2, 3, 4, 5, 6, 7].foldl (fun s d => s.raiseAlarm d 3 0) s⟩,
   ⟨.glitch d, fun _ => true, fun s =>
     let t := onDie d (fun x => { x with glitch := x.glitch + 1 }) s
     t.raiseAlarm d (if 3 ≤ (t.die d).glitch then 3 else 2) 1⟩,
   ⟨.temperatureAlarm d celsius, fun _ => 125 < celsius || celsius < -20, fun s => s.raiseAlarm d 2 2⟩,
   ⟨.unsignedPersistentWrite d, fun _ => true, fun s => s.raiseAlarm d 2 4⟩]

/-! ## Memory controllers and device registers (R41 to R43, R61, R84, R88 to R97, R101, R176) -/

/-- The address is in the die's memory. -/
def inMemory (d a : Nat) (s : State) : Bool := up d s && a < (s.die d).memTop

/-- The leaf that an address holds is of a type that ZP belongs to, and its ZP is set (R93). -/
def zeroPendingLeaf (d a : Nat) (s : State) : Bool :=
  let e := ((s.die d).engineRead a 8).1
  inMemory d a s && bit e 11 && [1, 4, 5, 6].contains (leafType e)

/-- The oldest bulk prefetch of a core, at the head of the prefetch queue. -/
def prefetchHead (d core : Nat) (s : State) : Option Prefetch :=
  match ((s.die d).core core).prefetchQ with
  | .op id :: _ => ((s.die d).core core).prefetches.find? fun p => p.id == id
  | _ => none

/-- The invalidation that the register XINV asks for. -/
def xinvNow (d : Nat) (s : State) : Option DWord := if up d s then (s.die d).space.xinv else none

/-- One step of an invalidation: it drops what its write named (R61). -/
def xinvRow (i : Instr) (d : Nat) (is : DWord → Bool) : EventClaim :=
  ⟨i, fun s => (xinvNow d s).any is, fun s => onDie d (fun x => x.invalidate ((xinvNow d s).getD 0)) s⟩

/-- The memory controllers' steps. -/
noncomputable def controllerTable (d a bad : Nat) (m32 : BitVec 32) (data32 : BitVec 256) (m64 : DWord) (data64 : BitVec 512)
    (asub afmt blk core : Nat) : List EventClaim :=
  [⟨.hbmRead d a bad, up d, fun s => s.checkSector d (a / 32) bad⟩,
   ⟨.hbmWrite d a m32 data32, inMemory d a, onDie d fun x => x.writeSector (a / 32) m32.toNat (toBytes 32 data32.toNat)⟩,
   ⟨.hbmZero d a, inMemory d (a - a % 65536), onDie d fun x => x.zeroFrame (a - a % 65536) 65536 none⟩,
   ⟨.hbmAread d a asub afmt blk, inMemory d a, fun s => s⟩,
   ⟨.hbmAwrite d a asub afmt blk m64 data64, inMemory d a, onDie d fun x => x.awrite a asub afmt blk m64 data64⟩,
   ⟨.zpClear d a, zeroPendingLeaf d a, onDie d fun x => x.engineWrite a (toBytes 8 ((x.engineRead a 8).1 - 2 ^ 11))⟩,
   ⟨.zeroBackground d a, up d, onDie d fun x => x.zeroLine a⟩,
   ⟨.patrolScrub d 0 bad, fun s => up d s && (s.die d).stackLines 0 ≠ 0, fun s =>
     (s.checkSector d ((s.die d).scrubSectorAt 0 ((s.die d).memctl.scrubSector.getD 0 0)) bad).modDie d fun x => x.scrubNext 0⟩,
   ⟨.patrolScrub d 1 bad, fun s => up d s && (s.die d).stackLines 1 ≠ 0, fun s =>
     (s.checkSector d ((s.die d).scrubSectorAt 1 ((s.die d).memctl.scrubSector.getD 1 0)) bad).modDie d fun x => x.scrubNext 1⟩,
   ⟨.bulkPrefetch d core, fun s => (prefetchHead d core s).isSome, fun s =>
     s.performPrefetch d core ((prefetchHead d core s).getD default)⟩]

/-- Writes of device registers, invalidations and the epoch. -/
noncomputable def spaceTable (d a size : Nat) (value : DWord) (pn vpn : Nat) : List EventClaim :=
  [⟨.registerWrite d a size value, fun s => up d s && isDevice a && (size == 4 || size == 8) && a % size == 0,
     onDie d fun x => x.writeReg false a size (value.toNat % 2 ^ (8 * size))⟩,
   xinvRow (.xinvPage d pn vpn) d fun v => xinvScope v == 0 && xinvPn v == pn && xinvVpn v == vpn,
   xinvRow (.xinvProcess d pn) d fun v => xinvScope v == 1 && xinvPn v == pn,
   xinvRow (.xinvAll d) d fun v => xinvScope v == 2,
   ⟨.xinvComplete d, fun s => (xinvNow d s).any fun v => (s.die d).unmapWaits v, fun s => s⟩,
   ⟨.xinvComplete d, fun s => (xinvNow d s).any fun v => !(s.die d).unmapWaits v, fun s => onDie d (fun x =>
     let y := x.invalidate ((xinvNow d s).getD 0)
     { y with space := { y.space with xinv := y.space.xinvHeld.head?, xinvHeld := y.space.xinvHeld.drop 1 } }) s⟩,
   ⟨.epochBoundary, fun s => (s.dies.filter fun x => x.phase == .up).all fun x => x.epochPs + x.space.interval * usec ≤ x.ps,
     fun s => { s with dies := s.dies.map fun x => if x.phase == .up then x.nextEpoch else x }⟩]

/-! ## Answers to faults, and presence (R59, R72, R343) -/

/-- The answer due to a parked word. -/
def wordAnswer (d log code : Nat) (s : State) : Option (Group × ParkedWord × List Byte) := (s.die d).answerDue log code

/-- The answer due to a parked row. -/
def rowAnswerDue (d log code : Nat) (s : State) : Option (Nat × StreamLog × Copy) := (s.die d).rowAnswer log code

/-- An answer to a word is carried out. -/
def wordAnswered (i : Instr) (d log code : Nat) (f : State → Nat → ParkedWord → List Byte → State) : EventClaim :=
  ⟨i, fun s => (wordAnswer d log code s).isSome, fun s =>
    match wordAnswer d log code s with
    | some (g, w, block) => f s g.gid w block
    | none => s⟩

/-- An answer to a row of a stream is carried out. -/
def rowAnswered (i : Instr) (d log code : Nat) (f : State → Nat → StreamLog → State) : EventClaim :=
  ⟨i, fun s => (rowAnswerDue d log code s).isSome, fun s =>
    match rowAnswerDue d log code s with
    | some (core, e, _) => f s core e
    | none => s⟩

/-- The answers of system software, and a warp whose lines have come. -/
noncomputable def answerTable (d log gid warp : Nat) : List EventClaim :=
  [wordAnswered (.replay d false log) d log 1 fun s gid w _ => s.replayWord d gid w,
   wordAnswered (.complete d false log) d log 2 fun s gid w block => s.completeWord d gid w block,
   wordAnswered (.decline d false log) d log 3 fun s gid w _ => s.declineWord d gid w,
   rowAnswered (.replay d true log) d log 1 fun s core e => s.replayRow d core e,
   rowAnswered (.complete d true log) d log 2 fun s core e => s.declineRow d core e,
   rowAnswered (.decline d true log) d log 3 fun s core e => s.declineRow d core e,
   ⟨.presenceResume d gid warp, fun s => (s.group? d gid).any fun g => g.phase == .resident && !g.dead && !g.stopped warp,
     fun s => s.performSel d gid fun w => match w with
       | .lines x _ _ => x.warp == warp
       | _ => false⟩]

/-! ## The scheduler (R160 to R188, R360 to R369, R377, R391) -/

/-- The gate of a record notes that the record has reached it (R361). -/
def reached (d : Nat) (r : TaskRec) (s : State) : State := (s.promote d).modDie d fun x => x.reachGate r

/-- The record that the scheduler takes next, when none waits for a translation entry and the hold table has room for it
(R361). -/
def recordNext (d : Nat) (s : State) : Option (TaskRec × Option (Nat × Nat)) :=
  let x := (s.promote d).die d
  if up d s && x.sched.ready.isEmpty then
    x.headRecord.filter fun h => !(16384 ≤ x.sched.hold.length && !((reached d h.1 s).die d).gateDecided h.1)
  else none

/-- The record taken, with what checking it gives. -/
def recordTaken (d : Nat) (s : State) : TaskRec × State :=
  let h := (recordNext d s).getD (default, none)
  (reached d h.1 s).takeRecord d h

/-- The checks of a record pass. -/
def recordOk (d : Nat) (s : State) : Bool :=
  match (((recordTaken d s).2.die d).checkRecord (recordTaken d s).1).1 with
  | .ok _ => true
  | _ => false

/-- A translation that is not held for an answer, of a record that is still ready in this clock (R160). -/
def translating (d txid : Nat) (s : State) : Bool :=
  ((s.die d).trans? txid).any (fun t => !t.waiting && !(s.die d).checkPassed t.rec_) && up d s

/-- A translation as its table has it. -/
def transOf (d txid : Nat) (s : State) : TransEntry := ((s.die d).trans? txid).getD default

/-- The translation holds an answer. -/
def transAnswered (d txid code : Nat) (s : State) : Bool :=
  ((s.die d).trans? txid).any fun t => t.waiting && t.answer == some code

/-- TRANSLATE of a record whose list is not too long. -/
def translated (d txid : Nat) (s : State) : State :=
  let t := transOf d txid s
  let n := bits (t.rec_.word 5) 63 59
  s.transRead d t (bits (t.rec_.word 5) 58 4 * 16) (16 * n) 0xFF fun list s =>
    s.transRead d t (t.rec_.word 6) (if t.rec_.word 6 = 0 then 0 else 64) 0xFE fun fmt s => s.translateExts d t list fmt n

/-- The candidate of R365 that can be placed. -/
def candidateNext (d : Nat) (s : State) : Option CandAt :=
  let x := s.die d
  firstBy x.candKey (x.candidates.filter fun c => (x.placeOf c).isSome)

/-- The core and slot that it gets. -/
def placeNext (d : Nat) (s : State) : Nat × Nat := ((candidateNext d s).bind (s.die d).placeOf).getD (0, 0)

/-- The slot of a group whose threads have all exited can be freed (R196). -/
def slotDone (d gid : Nat) (s : State) : Bool :=
  (s.group? d gid).any fun g => g.phase == .resident && g.living.isEmpty && !(s.die d).slotBusy gid
    && (!(s.die d).workLeft g || ((s.die d).core g.core).tracker.length < 8)

/-- The die once the slot is free (R187). -/
def slotFreed (x : Die) (g : Group) : Die := ((x.freeSlot g.core g.slot).freeSaveRec g).modNode g.node Node.close

/-- A group of a die. -/
def groupOf (d gid : Nat) (s : State) : Group := (s.group? d gid).getD default

/-- The victim of a swap-out (R368). -/
def victimNext (d : Nat) (s : State) : Option Group :=
  let x := s.die d
  (firstBy x.candKey (x.candidates.filter fun c => !(x.victims c).isEmpty)).bind fun c => pickVictim (x.victims c)

/-- A swap-out may take place: no other is in progress, and a save record is free (R368). -/
def swapReady (d : Nat) (s : State) : Bool :=
  let x := s.die d
  up d s && x.sched.swapth ≠ 0 && !(x.groups.any fun g => g.phase == .resident && g.saveRec.isSome && !g.moved)
    && x.sched.freeRecord.isSome

/-- 10 µs have passed since the last rebalancing (R188). -/
def balanceDue (d : Nat) (s : State) : Bool := up d s && (s.die d).sched.balanceAt + 10 * usec ≤ (s.die d).ps

/-- The state with the time of this rebalancing. -/
def balanced (d : Nat) (s : State) : State := onDie d (fun x => x.modSched fun y => { y with balanceAt := (s.die d).ps }) s

/-- The slot that moves from one stage to another, while a save record is free. -/
def moveNext (d : Nat) (s : State) : Option (Group × Node) :=
  let x := s.die d
  if x.sched.freeRecord.isNone then none
  else (distinct (x.sched.nodes.filterMap fun n => n.stage.map Stage.pipe)).findSome? x.rebalance

/-- Records, translation, dispatch and placement. -/
noncomputable def scheduleTable (d txid gid node : Nat) : List EventClaim :=
  let after := fun (s : State) => ((recordTaken d s).2.die d).checkRecord (recordTaken d s).1
  let drained := fun (dead : Bool) (s : State) =>
    (s.group? d gid).any fun g => g.phase == .tracked && !(s.die d).workLeft g && g.dead == dead
  [⟨.recordTake d, fun s => (recordNext d s).isSome && recordOk d s, fun s =>
     (onDie d (fun x => x.passStages (recordTaken d s).1) (onDie d (fun _ => (after s).2) (recordTaken d s).2)).promote d⟩,
   ⟨.translate d txid, fun s => translating d txid s && bits ((transOf d txid s).rec_.word 5) 63 59 ≤ 16, translated d txid⟩,
   ⟨.translate d txid, fun s => translating d txid s && 16 < bits ((transOf d txid s).rec_.word 5) 63 59, fun s =>
     s.endTrans d (transOf d txid s) St.malformed⟩,
   ⟨.translationRetry d txid, transAnswered d txid 1,
     onDie d fun x => x.modTrans txid fun u => { u with waiting := false, answer := none, pins := [] }⟩,
   ⟨.translationFail d txid, transAnswered d txid 2, fun s => s.endTrans d (transOf d txid s) St.extent⟩,
   ⟨.groupPlace d, fun s => up d s && (s.runMove d).isSome, fun s => (s.runMove d).getD s⟩,
   ⟨.groupPlace d, fun s => up d s && (s.runMove d).isNone && (candidateNext d s).isSome, fun s =>
     s.place d ((candidateNext d s).getD default) (placeNext d s).1 (placeNext d s).2⟩,
   ⟨.slotFree d gid, fun s => slotDone d gid s && !(s.die d).workLeft (groupOf d gid s), fun s =>
     onDie d (fun _ => (slotFreed (s.die d) (groupOf d gid s)).completeGroup (groupOf d gid s)) s⟩,
   ⟨.slotFree d gid, fun s => slotDone d gid s && (s.die d).workLeft (groupOf d gid s), fun s =>
     onDie d (fun _ => ((slotFreed (s.die d) (groupOf d gid s)).modGroup gid fun g =>
       { g with phase := .tracked, saveRec := none, preemptDue := none, saving := none }).modCore (groupOf d gid s).core fun c =>
         { c with tracker := c.tracker ++ [gid] }) s⟩,
   ⟨.trackerDrain d gid, drained false, fun s => onDie d (fun _ => (s.die d).completeGroup (groupOf d gid s)) s⟩,
   ⟨.trackerDrain d gid, drained true, fun s =>
     onDie d (fun _ => ((s.die d).removeGroup gid).checkSettled (groupOf d gid s).node) s⟩,
   ⟨.stagedCommit d node, fun s => ((s.die d).node? node).any Node.committing, onDie d fun x => x.commitNode node⟩,
   ⟨.commitComplete d node, fun s => ((s.die d).node? node).any fun n => n.committing && !(s.die d).hasTent node,
     onDie d fun x =>
       let n := (x.node? node).getD default
       ((if n.owed = 0 then x else x.arrive n.rec_.pn n.rec_.done n.owed 0).dropOwed n).dropNode node⟩,
   ⟨.irrevocableResume d node, fun s => ((s.die d).node? node).any Node.turning, fun s =>
     let t := onDie d (fun x => (x.commitNode node).turnIrrevocable node) s
     onDie d (fun x => x.checkSettled node)
       ((((t.die d).groups.filter fun g => g.node == node && !g.dead).map Group.gid).foldl (fun s gid =>
         (s.performSel d gid fun w => match w with | .commit _ => true | _ => false).gather d gid) t)⟩,
   ⟨.swapOut d, fun s => swapReady d s && (victimNext d s).isSome, fun s =>
     s.preempt d ((victimNext d s).getD default).gid ((s.die d).sched.freeRecord.getD 0) false⟩,
   ⟨.swapRestorable d gid,
     fun s => (s.group? d gid).any fun g => g.isSwapped && !g.moved && !g.restorable
       && g.swapAt + (s.die d).sched.swapth * usec ≤ (s.die d).ps
       && g.hasWait fun w => match w with
         | .qwait _ | .launchFull _ => true
         | _ => false,
     fun s => s.modGroup d gid fun g =>
       if g.isSwapped && !g.moved && !g.restorable && (g.hasWait fun w => match w with
           | .qwait _ | .launchFull _ => true
           | _ => false) && g.swapAt + (s.die d).sched.swapth * usec ≤ (s.die d).ps then
         { g with restorable := true, candAt := (s.die d).ps }
       else g⟩,
   ⟨.preemptForcedSave d gid,
     fun s => (s.group? d gid).any fun g => g.phase == .resident && g.saving.isNone && g.saveRec.isSome
       && g.preemptDue.any (· ≤ (s.die d).ps),
     fun s => s.stopAndSave d gid true⟩,
   ⟨.rebalance d, fun s => balanceDue d s && (moveNext d s).isNone, balanced d⟩,
   ⟨.rebalance d, fun s => balanceDue d s && (moveNext d s).isSome, fun s =>
     let m := (moveNext d s).getD (default, default)
     (onDie d (fun x => x.modSched fun y => { y with moves := y.moves ++ [⟨m.1.core, m.1.slot, m.1.gid, m.2.nid⟩] }) (balanced d s)).preempt d
       m.1.gid ((s.die d).sched.freeRecord.getD 0) true⟩]

/-! ## Limits that pass, gate calls that end, cairns (R193 to R195, R281, R282, R304, R355, R400) -/

/-- A group that is resident and not being saved. -/
def runs (d gid : Nat) (s : State) : Option Group := (s.die d).running gid

/-- A wait of WAIT whose limit has passed at clock t. -/
def waitDue (t : Nat) (w : Wait) : Bool :=
  match w with
  | .wait _ _ _ (some n) false => n ≤ t
  | _ => false

/-- A wait of SLEEP whose time has passed. -/
def sleepDue (t : Nat) (w : Wait) : Bool :=
  match w with
  | .sleep _ n => n ≤ t
  | _ => false

/-- A warp's wait of CWAIT whose limit has passed. -/
def cwaitDue (t warp : Nat) (w : Wait) : Bool :=
  match w with
  | .cwait x _ _ (some n) => x.warp == warp && n ≤ t
  | _ => false

/-- The wait of CWAIT of a warp whose limit has passed. -/
def lateCwait (warp : Nat) (g : Group) : Option Wait :=
  (g.threads.flatMap fun t => t.wait.toList ++ t.susp.toList).find? (cwaitDue g.resClk warp)

/-- The counter that a wait of CWAIT names. -/
def waitCounter (w : Wait) : ObjRef :=
  match w with
  | .cwait _ o _ _ => o
  | _ => default

/-- The innermost gate call ends, with its value for s63. -/
def gateEnding (g : Group) : Option Nat := g.gates.head?.bind GateFrame.ending

/-- The limit of the gate call at a depth has passed. -/
def gateLate (level : Nat) (g : Group) : Bool :=
  level ≠ 0 && level ≤ g.gateDepth && (g.gates[g.gateDepth - level]?).any fun f => f.deadline.any (· ≤ g.resPs)

/-- A warp with no member. -/
def freeWarp (g : Group) : Option Nat := (List.range g.warps).find? fun w => (g.members w).isEmpty

/-- Watchdogs, waits with a limit, gate calls and cairns. -/
noncomputable def limitTable (d gid warp thread level : Nat) : List EventClaim :=
  [⟨.watchdog d gid warp, fun s => (runs d gid s).any fun g => 2 ^ g.wdlimit ≤ tgetD g.wdcount warp 0 && !g.stopped warp, fun s =>
     (s.modGroup d gid fun g => { g with wdcount := tdel g.wdcount warp }).asynchronous d gid Cause.watchdog warp⟩,
   ⟨.watchdogKill d gid,
     fun s => (s.group? d gid).any fun g => g.trap.any fun t =>
       t.cause == Cause.watchdog && !t.exited && t.at_ + 100 * usec ≤ (s.die d).ps,
     fun s => s.killWith d gid St.watchdog⟩,
   ⟨.poisonHandlerTimeout d gid, fun s => (s.group? d gid).any fun g => g.poisonDue.any (· ≤ (s.die d).ps),
     fun s => s.killNode d (groupOf d gid s).node St.poison⟩,
   ⟨.waitLimit d gid thread, fun s => (runs d gid s).isSome, fun s =>
     s.modGroup d gid fun g => g.endOne thread (waitDue ((runs d gid s).getD default).resClk) ⟨false, 0⟩⟩,
   ⟨.sleepEnd d gid thread, fun s => (runs d gid s).isSome, fun s =>
     s.modGroup d gid fun g => g.endOne thread (sleepDue ((runs d gid s).getD default).resClk) ⟨false, 0⟩⟩,
   ⟨.cwaitTimeout d gid warp, fun s => (runs d gid s).any fun g => (lateCwait warp g).isSome, fun s =>
     let w := (((runs d gid s).bind (lateCwait warp))).getD (.cwait default default 0 none)
     s.modGroup d gid fun g => g.endWaits (· == w) ⟨false, BitVec.ofNat 64 (waitResult ((s.die d).object (waitCounter w)) + 2 ^ 10)⟩⟩,
   ⟨.gretComplete d gid, fun s => (runs d gid s).any fun g => (gateEnding g).isSome && !(s.die d).calleeBusy g, fun s =>
     let g := (runs d gid s).getD default
     (s.modGroup d gid fun h => h.leaveGate (g.gates.headD default) g.gates.tail ((gateEnding g).getD 0)).deliverHeld d gid⟩,
   ⟨.gateTimeout d gid level, fun s => (runs d gid s).any (gateLate level), fun s =>
     let i := ((runs d gid s).getD default).gateDepth - level
     ((s.withdrawWaits d gid level).closeStreams d gid level).modGroup d gid fun g =>
       { g with trap := none, gates := (g.gates.take (i + 1)).map GateFrame.timeOut ++ g.gates.drop (i + 1) }⟩,
   ⟨.cairnForm d gid, fun s => (runs d gid s).any fun g => (freeWarp g).isSome && g.chooseCairn.isSome && g.trap.isNone, fun s =>
     let g := (runs d gid s).getD default
     s.modGroup d gid fun h => h.formWarp (g.chooseCairn.getD default) ((freeWarp g).getD 0)⟩]

/-! ## The engines of a core and a cluster (R81, R310, R323, R342 to R346, R374, R375) -/

/-- The engine is free, and an entry of the reservation table is eligible: the one that is granted its pass. -/
def passNext (d cluster : Nat) (s : State) : Option MatEntry :=
  let c := ((s.markEligible d cluster).die d).cluster cluster
  if c.running.isSome then none else c.choose

/-- The granted entry's age is 0; every other eligible one is a pass older (R375). -/
def aged (e : MatEntry) (y : MatEntry) : MatEntry :=
  if y.id = e.id then { y with age := 0 } else if y.since.isSome then { y with age := min 15 (y.age + 1) } else y

/-- The running pass of a cluster. -/
def passNow (d cluster : Nat) (s : State) : Option MatEntry := ((s.die d).cluster cluster).current

/-- The K-steps that are done once the running pass ends. -/
def stepsDone (e : MatEntry) : Nat := e.done + e.passSteps.length

/-- What the end of a pass does (R81, R85, R323): the pass takes effect; one that waits for a pin stands where it is, and any other
gives its pins back and leaves its entry as the function says. -/
def passEnded (d cluster : Nat) (e : MatEntry) (f : Die → Die) (s : State) : State :=
  let t := s.runPass d cluster e
  if ((t.die d).cluster cluster).pinWait then t else (onDie d (fun x => f (x.unpin cluster)) t).settleTable d cluster

/-- A copy of a core, with its group. -/
def copyOf (d core copy : Nat) (s : State) : Option (Copy × Group) :=
  (((s.die d).core core).copy? copy).bind fun c => (s.group? d c.gid).map fun g => (c, g)

/-- A row of a fill or a drain may be performed (R342, R344). -/
def rowReady (kind : CopyKind) (d core copy row : Nat) (s : State) : Bool :=
  let k := (s.die d).core core
  (copyOf d core copy s).any fun x => x.1.kind == kind && k.copyTurn x.1 && k.rowTurn x.1 row && !k.rowBlocked x.1 x.2 row

/-- The copy record itself. -/
def theCopy (d core copy : Nat) (s : State) : Copy := (((s.die d).core core).copy? copy).getD default

/-- The stream asks for its next slot (R345). -/
def slotReady (d core copy : Nat) (s : State) : Bool :=
  let k := (s.die d).core core
  (copyOf d core copy s).any fun x => x.1.kind == .fillQueue && x.2.phase == .resident
    && (!k.fillQ.contains (.op copy) || k.copyTurn x.1) && !x.1.busy && x.1.free.contains (x.1.next % x.1.lay.nslot)

/-- The drain may reserve (R346). -/
def drainReady (d core copy : Nat) (s : State) : Bool :=
  let k := (s.die d).core core
  (k.copy? copy).any fun c => c.kind == .drainQueue && k.copyTurn c && !c.busy && !c.retry && c.grant.isNone

/-- The launch that its core's pending-launch queue works at. -/
def launchHead (d core : Nat) (s : State) : Option PendLaunch := ((s.die d).core core).headLaunch

/-- The steps of the engines. -/
noncomputable def engineTable (d cluster core copy row : Nat) : List EventClaim :=
  [⟨.matrixPassGrant d cluster, fun s => (passNext d cluster s).isSome, fun s =>
     let e := (passNext d cluster s).getD default
     (onDie d (fun x => x.modCluster cluster fun k => { k with running := some e.id, ran := 0, table := k.table.map (aged e) })
       (s.markEligible d cluster)).fetchPass d cluster e⟩,
   ⟨.matrixPassEnd d cluster,
     fun s => (passNow d cluster s).any (fun e => e.op.steps ≤ stepsDone e) && !((s.die d).cluster cluster).pinWait, fun s =>
     let e := (passNow d cluster s).getD default
     passEnded d cluster e (fun x => x.completeEntry cluster e) s⟩,
   ⟨.matrixPassEnd d cluster,
     fun s => (passNow d cluster s).any (fun e => stepsDone e < e.op.steps) && !((s.die d).cluster cluster).pinWait, fun s =>
     let e := (passNow d cluster s).getD default
     passEnded d cluster e (fun x => x.modCluster cluster fun k =>
       { k with running := none, table := modWhere (fun y => y.id == e.id) (fun y => { y with done := stepsDone e }) k.table }) s⟩,
   ⟨.tilePinReleaseResume d cluster, fun s => (passNow d cluster s).isSome && ((s.die d).cluster cluster).pinWait, fun s =>
     s.fetchPass d cluster ((passNow d cluster s).getD default)⟩,
   ⟨.streamFillRow d core copy row, rowReady .fill d core copy row, fun s =>
     (s.performRow d core (theCopy d core copy s) row).pump d core⟩,
   ⟨.streamDrainRow d core copy row, rowReady .drain d core copy row, fun s =>
     (s.performRow d core (theCopy d core copy s) row).pump d core⟩,
   ⟨.streamSlotDeq d core copy, slotReady d core copy, fun s =>
     s.streamAsk d core (theCopy d core copy s) (groupOf d (theCopy d core copy s).gid s)⟩,
   ⟨.drainQueuePut d core copy, drainReady d core copy, fun s => s.drainReserve d core (theCopy d core copy s)⟩,
   ⟨.drainReserveRetry d core copy, fun s => (((s.die d).core core).copy? copy).any fun c => c.kind == .drainQueue && c.retry,
     fun s => s.drainReserve d core (theCopy d core copy s)⟩,
   ⟨.pendingLaunchDrain d core, fun s => (launchHead d core s).any fun l => !l.busy && !l.retry && l.grant.isNone, fun s =>
     s.reserveLaunch d core ((launchHead d core s).getD default)⟩,
   ⟨.launchReserveRetry d core, fun s => (launchHead d core s).any PendLaunch.retry, fun s =>
     s.reserveLaunch d core ((launchHead d core s).getD default)⟩]

/-! ## Messages at a queue port (R109, R115 to R128, R133 to R135) -/

/-- The message that a port takes. -/
def messageAt (d k kind : Nat) (s : State) : Msg := ((s.die d).message k kind).getD default

/-- Message k leaves the inbox and has its effect, where it is of the row's case. -/
def taken (i : Instr) (d k kind : Nat) (ok : State → Msg → Bool) (f : State → Msg → State) : EventClaim :=
  ⟨i, fun s => ((s.die d).message k kind).any (ok (s.dropMsg d k)), fun s => f (s.dropMsg d k) (messageAt d k kind s)⟩

/-- Any message of the kind. -/
def anyMsg : State → Msg → Bool := fun _ _ => true

/-- The message names the home die's incarnation (R134). -/
def fresh (d : Nat) (s : State) (m : Msg) : Bool := m.inc == (s.die d).incarnation

/-- What RESV asks for (R115): the status, the first ticket and the die. -/
def reserved (d : Nat) (s : State) (m : Msg) : (Nat × Nat) × Die :=
  (s.die d).reserve m.qidx m.qgen m.dom m.arg0.toNat m.producer m.pn

/-- The queue that a message may use (R109). -/
def queueFor (d : Nat) (enq : Bool) (s : State) (m : Msg) : Except Nat Queue := (s.die d).checkQueue m.qidx m.qgen m.dom enq

/-- A PUT to a queue (R116, R129, R405): it commits, goes to the log when it was granted, and is counted when its data is
discarded. -/
def putInto (d : Nat) (s : State) (m : Msg) (q : Queue) : State :=
  let r := (s.die d).commit q m.ticket m.producer false (s.outqInError d q) m.bytes m.mlen m.bad m.dom m.mseq
  let x := if r.1 = St.ok ∧ q.isGranted m.ticket then r.2.belayLog (.message m) else r.2
  (onDie d (fun _ => if q.discards m.ticket r.1 then x.modPort fun p => p.countStale 1 else x) s).statLogged d m r.1

/-- The request that an answer ends, when it is of those the row is about. -/
def requestEnded (d : Nat) (ok : Request → Bool) (s : State) (m : Msg) : Bool := ((s.die d).port.requestOf m).any ok

/-- The request itself. -/
def theRequest (d : Nat) (s : State) (m : Msg) : Request := ((s.die d).port.requestOf m).getD default

/-- A SAVE of a checkpoint's part or of the log, not of the mirror (R404). -/
def belaySave (r : Request) : Bool := r.asker == .save && !bit r.msg.arg1.toNat 0

/-- The messages. -/
noncomputable def messageTable (d k index ticket : Nat) : List EventClaim :=
  let queueHere := fun (s : State) (m : Msg) => ((s.die d).queue? m.qidx).filter fun q => q.gen == m.qgen
  [taken (.resv d k) d k Kind.resv (fun s m => !fresh d s m) fun s m => s.stat d m St.targetLost,
   taken (.resv d k) d k Kind.resv (fun s m => fresh d s m && (reserved d s m).1.1 ≠ St.ok) fun s m =>
     (onDie d (fun _ => (reserved d s m).2) s).stat d m (reserved d s m).1.1,
   taken (.resv d k) d k Kind.resv (fun s m => fresh d s m && (reserved d s m).1.1 = St.ok) fun s m =>
     let t := onDie d (fun _ => (reserved d s m).2) s
     let q := ((t.die d).queue? m.qidx).getD default
     t.answer d m Kind.grant St.ok fun a =>
       { a with ticket := (reserved d s m).1.2, arg0 := m.arg0, arg1 := BitVec.ofNat 64 q.esize, arg2 := BitVec.ofNat 64 q.life },
   taken (.put d k) d k Kind.put (fun s m => !fresh d s m) fun s m => s.stat d m St.targetLost,
   taken (.put d k) d k Kind.put (fun s m => fresh d s m) fun s m =>
     match queueFor d true s m with
     | .error st => s.stat d m st
     | .ok q => putInto d s m q,
   ⟨.deq d k, fun s => ((s.die d).message k Kind.deq).isSome, fun s => s.takeDeq d k (messageAt d k Kind.deq s)⟩,
   taken (.cancelMessage d k) d k Kind.cancel (fun s m => !fresh d s m) fun s m => s.stat d m St.targetLost,
   taken (.cancelMessage d k) d k Kind.cancel (fun s m => fresh d s m && (queueHere s m).isNone) fun s m => s.stat d m St.noqueue,
   taken (.cancelMessage d k) d k Kind.cancel (fun s m => fresh d s m && (queueHere s m).isSome && bit m.arg0.toNat 0) fun s m =>
     (s.cancelWaiter d m ((queueHere s m).getD default)).stat d m St.ok,
   taken (.cancelMessage d k) d k Kind.cancel (fun s m => fresh d s m && (queueHere s m).isSome && !bit m.arg0.toNat 0) fun s m =>
     (onDie d (fun x => (x.cancelGrant m.qidx m.ticket m.producer).belayLog (.message m)) s).stat d m St.ok,
   taken (.rput d k) d k Kind.rput anyMsg fun s m => s.takeRput d m,
   taken (.grant d k) d k Kind.grant anyMsg fun s m => s.takeAnswer d m,
   taken (.stat d k) d k Kind.stat anyMsg fun s m => s.takeAnswer d m,
   taken (.deliver d k) d k Kind.deliver anyMsg fun s m => s.takeAnswer d m,
   taken (.retry d k) d k Kind.retry anyMsg fun s m => s.takeAnswer d m,
   taken (.probe d k) d k Kind.probe anyMsg fun s _ => s,
   taken (.incarn d k) d k Kind.incarn (fun s m => (s.die d).port.knows m.spkg m.sdie = m.arg0.toNat % 256) fun s m =>
     onDie d (fun x => x.modPort fun p =>
       { p.learn m.spkg m.sdie (m.arg0.toNat % 256) with lost := p.lost.filter (· != dieKey m.spkg m.sdie) }) s,
   taken (.incarn d k) d k Kind.incarn (fun s m => (s.die d).port.knows m.spkg m.sdie ≠ m.arg0.toNat % 256) fun s m =>
     onDie d (fun x => x.modPort fun p =>
       { p.learn m.spkg m.sdie (m.arg0.toNat % 256) with lost := p.lost.filter (· != dieKey m.spkg m.sdie) })
       (s.loseDie d m.spkg m.sdie),
   taken (.lostdie d k) d k Kind.lostdie (fun _ m => m.arg0.toNat % 8 = d) fun s _ => s,
   taken (.lostdie d k) d k Kind.lostdie (fun _ m => m.arg0.toNat % 8 ≠ d) fun s m =>
     s.declareLost d (m.arg0.toNat % 8) m.arg1.toNat,
   taken (.save d k) d k Kind.save anyMsg fun s m => s.takeSave d m,
   taken (.saveack d k) d k Kind.saveack (requestEnded d fun r => !belaySave r) fun s m => s.endRequest d (theRequest d s m),
   taken (.saveack d k) d k Kind.saveack (requestEnded d belaySave) fun s m => (s.endRequest d (theRequest d s m)).belaySaved d,
   taken (.page d k) d k Kind.page anyMsg fun s m => s.takePage d m,
   taken (.pageack d k) d k Kind.pageack anyMsg fun s m => s.takePageack d m,
   ⟨.elementAssign d index, fun s => ((s.die d).nextWaited).any fun q => q.index == index, fun s =>
     s.assign d (((s.die d).nextWaited).getD default)⟩,
   ⟨.ticketExpiry d index ticket, fun _ => true,
     onDie d fun x => x.makeHoles index fun t => t.num == ticket && t.expiry ≤ x.ps⟩]

/-! ## The memory service (R62, R63, R141) -/

/-- The agent's next element and its queue, when it is ticket k of an operation. -/
def svcNext (d k : Nat) (ops : Nat → Bool) (s : State) : Option (Nat × Ticket) :=
  ((s.die d).svcHead k).filter fun h => ops (svcOf h.2.bytes).op

/-- A memory-service operation is served. -/
def served (i : Instr) (d k : Nat) (ops : Nat → Bool) (f : State → Nat → Ticket → State) : EventClaim :=
  ⟨i, fun s => (svcNext d k ops s).isSome, fun s =>
    let h := (svcNext d k ops s).getD default
    f s h.1 h.2⟩

/-- The element's words are intact, and it obeys its layout (R139). -/
def intact (t : Ticket) : Bool := !t.bad.any (· < 16) && !svcMalformed t.bytes

/-- No page move holds the request back, and no earlier one of its producer waits (R63, R141). -/
def mayProceed (d : Nat) (t : Ticket) (s : State) : Bool :=
  let v := svcOf t.bytes
  !(s.die d).port.inMove v.pn (v.va / 65536) && !(s.die d).port.waitsFor t.prod

/-- The domain of the request's process (R142). -/
def homeDomain (d : Nat) (t : Ticket) (s : State) : Option Word := (s.die d).domain (svcOf t.bytes).pn

/-- The request needs no registration: its DOM is its process's own or 0 (R142). -/
def ownDomain (d : Nat) (t : Ticket) (s : State) : Bool := (homeDomain d t s).any fun own => t.dom == own || t.dom == 0

/-- It needs one. -/
def needsRegistration (d : Nat) (t : Ticket) (s : State) : Bool := (homeDomain d t s).any fun own => t.dom != own && t.dom != 0

/-- A registration for the request's process and domain that the request lies wholly inside, with the right that it needs (R142). -/
def around (t : Ticket) (r : Registration) : Bool :=
  let v := svcOf t.bytes
  r.pn == v.pn && r.dom == t.dom && r.base ≤ v.va && v.va + v.size ≤ r.base + r.len && bit r.rights (v.op - 1)

/-- The VALID registration that admits the request (R144). -/
def admitting (d : Nat) (t : Ticket) (s : State) : Option Registration :=
  (s.die d).port.registrations.find? fun r => r.state == 1 && around t r

/-- A REVOKING registration would have admitted it (R144). -/
def revokedHere (d : Nat) (t : Ticket) (s : State) : Bool := (s.die d).port.registrations.any fun r => r.state == 2 && around t r

/-- An operation that the agent takes now, in a case of the state once it is taken. -/
def svcRow (i : Instr) (d k op : Nat) (ok : Ticket → State → Bool) (f : Ticket → Svc → State → State) : EventClaim :=
  ⟨i, fun s => (svcNext d k (· == op) s).any fun h => ok h.2 (s.takeSvc d h.1 h.2), fun s =>
    let h := (svcNext d k (· == op) s).getD default
    f h.2 (svcOf h.2.bytes) (s.takeSvc d h.1 h.2)⟩

/-- It is answered with a STATUS and not performed. -/
def notPerformed (i : Instr) (d k op st : Nat) (ok : Ticket → State → Bool) : EventClaim :=
  svcRow i d k op ok fun _ v s => s.replySvc d v st 0 [] []

/-- The STATUS of every request that is not performed (R139, R141, R142, R144, R398). -/
def refusedRows (i : Instr) (d k op : Nat) : List EventClaim :=
  [notPerformed i d k op St.poison fun t _ => t.bad.any (· < 16),
   notPerformed i d k op St.malformed fun t _ => !t.bad.any (· < 16) && svcMalformed t.bytes,
   notPerformed i d k op St.rights fun t s => intact t && (homeDomain d t s).isNone,
   notPerformed i d k op St.revoked fun t s =>
     intact t && needsRegistration d t s && (admitting d t s).isNone && revokedHere d t s,
   notPerformed i d k op St.rights fun t s =>
     intact t && needsRegistration d t s && (admitting d t s).isNone && !revokedHere d t s]

/-- What the walk for the request's address gives, and the state after it: frames still to be zeroed on the way are zeroed (R93). -/
def walkOf (d : Nat) (v : Svc) (s : State) : Found × State :=
  (((s.die d).translate v.pn v.va).1, onDie d (fun _ => ((s.die d).translate v.pn v.va).2) s)

/-- The leaf that it ends at, of a case. -/
def leafIs (d : Nat) (v : Svc) (s : State) (ok : Nat → Nat → Bool) : Bool :=
  match (walkOf d v s).1 with
  | .leaf level e _ => v.va < 2 ^ 60 && ok level e
  | _ => false

/-- The leaf itself. -/
def leafAt (d : Nat) (v : Svc) (s : State) : Nat × Nat :=
  match (walkOf d v s).1 with
  | .leaf level e _ => (level, e)
  | _ => default

/-- The page permits the request (R37, R141). -/
def permits (d : Nat) (t : Ticket) (v : Svc) (s : State) (level e : Nat) : Bool :=
  !(leafType e == 2 || leafType e == 3) && ((walkOf d v s).2.die d).leafCause (t.dom == 0) v.acc e == 0 && (v.spots level e).isSome

/-- The request counts towards the hotness of its block, when it is another die's or a host's (R100). -/
def counted (d : Nat) (t : Ticket) (v : Svc) (s : State) : State :=
  let e := leafAt d v s
  let block := leafFrame e.2 + if leafType e.2 = 5 then 0 else v.va % 2 ^ levelShift e.1
  match hotClass s.pkg d t.prod with
  | some c => if isDevice block then (walkOf d v s).2 else onDie d (fun x => x.countHot c block) (walkOf d v s).2
  | none => (walkOf d v s).2

/-- The places of its bytes. -/
def svcPlaces (d : Nat) (v : Svc) (s : State) : List Spot := (v.spots (leafAt d v s).1 (leafAt d v s).2).getD []

/-- What a request reads at its places, and the state after it. -/
def svcRead (d : Nat) (t : Ticket) (v : Svc) (s : State) : List (Byte × Bool) × State :=
  (counted d t v s).readSpots (agentAsks d) (svcPlaces d v s) false

/-- The request may be performed at once, in its own domain (R141, R142). -/
def performable (d : Nat) (t : Ticket) (s : State) : Bool := intact t && ownDomain d t s && mayProceed d t s

/-- The STATUS of a request that is performed in its own domain, by its leaf (R141): MOVED with the home that the entry names, FAULT,
or its effect with OK, or POISON where the data read are. -/
def performedRows (i : Instr) (d k op : Nat) (effect : List EventClaim) : List EventClaim :=
  [svcRow i d k op (fun t s => performable d t s && decide (2 ^ 60 ≤ (svcOf t.bytes).va)) fun _ v s => s.endSvc d v none St.fault 0 [] [],
   svcRow i d k op
     (fun t s => performable d t s && decide ((svcOf t.bytes).va < 2 ^ 60) && (match (walkOf d (svcOf t.bytes) s).1 with
       | .none | .malformed => true
       | _ => false))
     fun _ v s => (walkOf d v s).2.endSvc d v none St.fault 0 [] [],
   svcRow i d k op (fun t s => performable d t s && leafIs d (svcOf t.bytes) s fun _ e => leafType e == 2 || leafType e == 3)
     fun _ v s =>
       let e := (leafAt d v s).2
       (walkOf d v s).2.endSvc d v none St.moved (bits e 47 32 * 2 ^ 32 + bits e 18 16 * 2 ^ 16) [] [],
   svcRow i d k op
     (fun t s => performable d t s && leafIs d (svcOf t.bytes) s fun level e =>
       !(leafType e == 2 || leafType e == 3) && !permits d t (svcOf t.bytes) s level e)
     fun _ v s => (walkOf d v s).2.endSvc d v none St.fault 0 [] []] ++ effect

/-- The request is performed on a page that permits it. -/
def onPage (i : Instr) (d k op : Nat) (ok : Ticket → Svc → State → Bool) (f : Ticket → Svc → State → State) : EventClaim :=
  svcRow i d k op
    (fun t s => performable d t s && leafIs d (svcOf t.bytes) s (permits d t (svcOf t.bytes) s) && ok t (svcOf t.bytes) s) f

/-- READ answers the bytes, with OK or POISON. -/
noncomputable def readEffect (d k : Nat) : List EventClaim :=
  [onPage (.memsvcRead d k) d k 1 (fun _ _ _ => true) fun t v s =>
    let r := svcRead d t v s
    r.2.endSvc d v none (if r.1.any (·.2) then St.poison else St.ok) 0 (r.1.map (·.1)) (poisonWords r.1)]

/-- WRITE stores the element's data and answers OK. -/
noncomputable def writeEffect (d k : Nat) : List EventClaim :=
  [onPage (.memsvcWrite d k) d k 2 (fun t _ _ => t.bad.isEmpty) fun t v s =>
    ((counted d t v s).writeSpots (agentAsks d) (svcPlaces d v s) (v.data.take v.size)).endSvc d v none St.ok 0 [] []]

/-- ATOM stores the new value and answers the old one with OK; on poison it stores nothing. -/
noncomputable def atomEffect (d k : Nat) : List EventClaim :=
  [onPage (.memsvcAtom d k) d k 3 (fun t v s => (svcRead d t v s).1.any (·.2)) fun t v s =>
     let r := svcRead d t v s
     r.2.endSvc d v none St.poison (ofBytes (r.1.map (·.1))) [] [],
   onPage (.memsvcAtom d k) d k 3 (fun t v s => !(svcRead d t v s).1.any (·.2)) fun t v s =>
     let r := svcRead d t v s
     let old := ofBytes (r.1.map (·.1))
     (r.2.writeSpots (agentAsks d) (svcPlaces d v s) (toBytes v.size (v.atomNew old))).endSvc d v none St.ok old [] []]

/-- The admitted count of a registration rises (R144). -/
def countRaised (d index : Nat) (s : State) : State :=
  onDie d (fun x => x.modPort fun p => { p with
    registrations := modWhere (fun r => r.index == index) (fun r => { r with admitted := r.admitted + 1 }) p.registrations }) s

/-- A request that waits behind a move or an earlier one of its producer (R63, R141). -/
def keptWaiting (d : Nat) (t : Ticket) (reg : Option Nat) (s : State) : State :=
  onDie d (fun x => x.modPort fun p => { p with waiting := p.waiting ++ [⟨s.newId.1, t.bytes, t.bad, t.dom, t.prod, reg⟩] }) s.newId.2

/-- A request that a registration admits, and one that has to wait (R63, R141, R144). -/
def admittedRows (i : Instr) (d k op : Nat) : List EventClaim :=
  let held := fun (t : Ticket) (s : State) => intact t && !mayProceed d t s
  [svcRow i d k op (fun t s => intact t && needsRegistration d t s && (admitting d t s).isSome && mayProceed d t s) fun t v s =>
     let i := ((admitting d t s).getD default).index
     (countRaised d i s).performSvc d v t.dom t.prod (some i) t.bad,
   svcRow i d k op (fun t s => held t s && ownDomain d t s) fun t _ s => keptWaiting d t none s,
   svcRow i d k op (fun t s => held t s && needsRegistration d t s && (admitting d t s).isSome) fun t _ s =>
     let i := ((admitting d t s).getD default).index
     keptWaiting d t (some i) (countRaised d i s)]

/-- A MIGRATE of another die for a process's own domain, or for domain 0, is decided (R62, R141, R142). -/
noncomputable def decided (d k : Nat) : EventClaim :=
  let taken := fun (s : State) (h : Nat × Ticket) => s.takeSvc d h.1 h.2
  ⟨.migrate d k, fun s => (svcNext d k (· == 4) s).any fun h =>
      intact h.2 && !(h.2.prod.pkg == s.pkg && h.2.prod.die == d) && !((taken s h).die d).port.waitsFor h.2.prod
        && (((taken s h).die d).domain (svcOf h.2.bytes).pn).any fun own => h.2.dom == own || h.2.dom == 0, fun s =>
    let h := (svcNext d k (· == 4) s).getD default
    (taken s h).decideMigrate d (svcOf h.2.bytes) h.2.prod⟩

/-- The page move that is to be sent. -/
def moveToSend (d k : Nat) (s : State) : Option Move := (s.die d).port.moves.find? fun m => m.id == k && !m.sent

/-- A request that waited, and may go on: none of its producer waits before it, and no move holds its page back, unless it is
a MIGRATE (R63, R141). -/
def movedOver (d k : Nat) (migrate : Bool) (s : State) : Option WaitingSvc :=
  let p := (s.die d).port
  (p.waiting.find? fun w => w.id == k).filter fun w =>
    let v := svcOf w.bytes
    (v.op == 4) == migrate && (migrate || !p.inMove v.pn (v.va / 65536)) && (p.waiting.find? fun x => x.prod == w.prod) == some w

/-- The memory service. -/
noncomputable def serviceTable (d k : Nat) : List EventClaim :=
  let done := fun (migrate : Bool) (s : State) => (movedOver d k migrate s).getD default
  let gone := fun (s : State) => onDie d (fun x => x.modPort fun p => { p with waiting := p.waiting.filter fun x => x.id != k }) s
  [served (.memsvcRead d k) d k (fun o => o == 1 || o == 0 || 4 < o) fun s i t => s.serveSvc d i t,
   served (.memsvcWrite d k) d k (· == 2) fun s i t => s.serveSvc d i t,
   served (.memsvcAtom d k) d k (· == 3) fun s i t => s.serveSvc d i t,
   served (.migrate d k) d k (· == 4) fun s i t => s.serveMigrate d i t,
   decided d k,
   ⟨.migratePageSend d k, fun s => (moveToSend d k s).isSome, fun s => s.sendPage d ((moveToSend d k s).getD default)⟩,
   ⟨.moveEndResume d k, fun s => (movedOver d k false s).isSome, fun s =>
     let w := done false s
     (gone s).performSvc d (svcOf w.bytes) w.dom w.prod w.reg w.bad⟩,
   ⟨.moveEndResume d k, fun s => (movedOver d k true s).isSome, fun s =>
     (gone s).decideMigrate d (svcOf (done true s).bytes) (done true s).prod⟩]
    ++ refusedRows (.memsvcRead d k) d k 1 ++ refusedRows (.memsvcWrite d k) d k 2 ++ refusedRows (.memsvcAtom d k) d k 3
    ++ performedRows (.memsvcRead d k) d k 1 (readEffect d k) ++ performedRows (.memsvcWrite d k) d k 2 (writeEffect d k)
    ++ performedRows (.memsvcAtom d k) d k 3 (atomEffect d k)
    ++ admittedRows (.memsvcRead d k) d k 1 ++ admittedRows (.memsvcWrite d k) d k 2 ++ admittedRows (.memsvcAtom d k) d k 3

/-! ## Queue-port commands (R110 to R114, R125, R143, R144, R146) -/

/-- The command in progress has an OP, and its index is the step's (R113). -/
def commanded (d op : Nat) (index : Option Nat) (s : State) : Bool :=
  ((s.die d).command op).any fun c => index.all fun i => cmdIndex c == i

/-- CREATE of a descriptor that passes its checks: the queue exists, with the next generation of its index (R111). -/
def created (d index : Nat) (s : State) : State :=
  let x := (s.argBlock d).1.1
  (onDie d (fun y => y.modPort fun p =>
    let gen := (tgetD p.lastGen index 0 + 1) % 8192
    { p with queues := p.queues ++ [queueOf x index gen], lastGen := tput p.lastGen index gen }) (s.argBlock d).2).endCommand d St.ok 0

/-- CREATE passes its checks. -/
def createOk (d index : Nat) (s : State) : Bool :=
  !(s.argBlock d).1.2 && ((s.argBlock d).2.die d).createStatus (s.argBlock d).1.1 index = St.ok

/-- The command completes with a status that means no effect (R114). -/
def commandFails (i : Instr) (d op : Nat) (index : Option Nat) (st : Nat) (ok : State → Bool) : EventClaim :=
  ⟨i, fun s => commanded d op index s && ok s, fun s => s.endCommand d st 0⟩

/-- The live queue of an index, which no DESTROY is ending. -/
def liveQueue (d index : Nat) (s : State) : Option Queue := ((s.die d).queue? index).filter fun q => q.gen != endingGen

/-- A delivery of the queue has begun and not ended: the element is TAKEN and not with its consumer, which an outbound queue has
while a connection serves it (R125). -/
def begun (d : Nat) (q : Queue) (s : State) (t : Ticket) : Bool :=
  t.st == .taken && !t.delivered && (q.ckind != 4 || s.host.conns.any fun c =>
    c.state == 0 && d == 0 && c.outq == qid s.pkg 0 q.index q.gen)

/-- DESTROY discards every element whose delivery has not begun, and wakes every waiter with NOQUEUE (R125). The queue's old GEN is
no request's any more. -/
def destroyed (d : Nat) (q : Queue) (s : State) : State :=
  q.waiters.foldl (fun s w =>
    s.stat d { requestMsg Kind.deq (qid w.pkg w.die 0 0).toNat 0 w.pid 0 with
      spkg := w.pkg, sdie := w.die, mseq := w.mseq, qidx := q.index, qgen := q.gen } St.noqueue)
    (onDie d (fun x => x.modQueue q.index fun y =>
      { y with gen := endingGen, tickets := y.tickets.filter (begun d q s), waiters := [] }) s)

/-- The queue is removed, its window SRAM and spill ring with it, and the command completes (R125). -/
def removed (d index : Nat) (s : State) : State :=
  (onDie d (fun x => x.modPort fun p => { p with queues := p.queues.filter fun q => q.index != index }) s).endCommand d St.ok 0

/-- DESTROY (R125). -/
noncomputable def destroyRows (d index : Nat) : List EventClaim :=
  let live := fun (s : State) => commanded d 2 (some index) s && 16 ≤ index && (liveQueue d index s).isSome
  let q := fun (s : State) => (liveQueue d index s).getD default
  let open_ := fun (s : State) => (((destroyed d (q s) s).die d).queue? index).any fun q =>
    q.tickets.any fun t => t.st == .taken && !t.delivered
  [commandFails (.destroy d index) d 2 (some index) St.malformed fun _ => index < 16,
   commandFails (.destroy d index) d 2 (some index) St.noqueue fun s => 16 ≤ index && ((s.die d).queue? index).isNone,
   ⟨.destroy d index, fun s => live s && (((destroyed d (q s) s).die d).queue? index).isSome && !open_ s, fun s =>
     removed d index (destroyed d (q s) s)⟩,
   ⟨.destroy d index, fun s => live s && open_ s, fun s => destroyed d (q s) s⟩]

/-- The parameter block of a command: its number, none where a word of it is poisoned (R110). -/
def blockOf (d : Nat) (s : State) : Option Nat := if (s.argBlock d).1.2 then none else some (s.argBlock d).1.1

/-- The state after the block is read. -/
def afterBlock (d : Nat) (s : State) : State := (s.argBlock d).2

/-- NAMEINV drops the translations of a process, or the one of a VQN, at the port (R113). -/
def namesDropped (d : Nat) (hit : NameEntry → Bool) (s : State) : State :=
  (onDie d (fun x => x.modPort fun p => { p with names := p.names.filter fun n => !hit n }) (afterBlock d s)).endCommand d St.ok 0

/-- The lowest registration index that is FREE. -/
def freeEntry (d : Nat) (s : State) : Option Nat :=
  (List.range 4096).find? fun i => !((afterBlock d s).die d).port.registrations.any fun r => r.index == i

/-- REGISTER's record is well formed (R114, R143). -/
def recordGood (x : Nat) : Bool :=
  bits x 31 12 == 0 && bits x 127 64 % 64 == 0 && bits x 191 128 != 0 && bits x 191 128 % 64 == 0 && bits x 511 195 == 0

/-- NAMEINV and REGISTER. -/
noncomputable def nameRows (d : Nat) : List EventClaim :=
  let registers := fun (s : State) => commanded d 4 none s && (blockOf d s).any recordGood
  [⟨.nameinv d, fun s => commanded d 3 none s && (blockOf d s).isSome, fun s =>
     let x := (blockOf d s).getD 0
     namesDropped d (fun n => n.pn == bits x 11 0 && (bit x 64 || n.vqn == bits x 63 32)) s⟩,
   ⟨.register d, fun s => commanded d 4 none s && !(blockOf d s).any recordGood, fun s => (afterBlock d s).endCommand d St.malformed 0⟩,
   ⟨.register d, fun s => registers s && (freeEntry d s).isNone, fun s => (afterBlock d s).endCommand d St.nospace 0⟩,
   ⟨.register d, fun s => registers s && (freeEntry d s).isSome, fun s =>
     let x := (blockOf d s).getD 0
     let i := (freeEntry d s).getD 0
     (onDie d (fun y => y.modPort fun p => { p with registrations := p.registrations ++
       [{ index := i, state := 1, pn := bits x 11 0, dom := BitVec.ofNat 32 (bits x 63 32), base := bits x 127 64,
          len := bits x 191 128, rights := bits x 194 192, admitted := 0 }] }) (afterBlock d s)).endCommand d St.ok i⟩]

/-- The registration of an index. -/
def registrationAt (d index : Nat) (s : State) : Option Registration := (s.die d).port.registrations.find? fun r => r.index == index

/-- The entry is REVOKING (R144). -/
def revoking (d index : Nat) (s : State) : State :=
  onDie d (fun x => x.modPort fun p =>
    { p with registrations := modWhere (fun r => r.index == index) (fun r => { r with state := 2 }) p.registrations }) s

/-- The admitted requests of a registration that wait on a page move. -/
def admittedWaiting (d index : Nat) (s : State) : List WaitingSvc := (s.die d).port.waiting.filter fun w => w.reg == some index

/-- Each of them completes with REVOKED: its reply is sent, and the admitted count falls (R144). -/
def waitersRevoked (d index : Nat) (s : State) : State :=
  (admittedWaiting d index s).foldl (fun s w => s.endSvc d (svcOf w.bytes) w.reg St.revoked 0 [] [])
    (onDie d (fun x => x.modPort fun p => { p with waiting := p.waiting.filter fun w => !(w.reg == some index) }) s)

/-- With a count of 0 the entry becomes FREE, and a REVOKED event is enqueued (R144). -/
def entryFreed (d index : Nat) (s : State) : State :=
  onDie d (fun x => (x.modPort fun p => { p with registrations := p.registrations.filter fun r => r.index != index }).sysEvent 0x0007
    (toBytes 2 index)) s

/-- REVOKE (R114, R144). -/
noncomputable def revokeRows (d index : Nat) : List EventClaim :=
  let now := fun (s : State) => commanded d 5 (some index) s && (registrationAt d index s).any fun r => r.state == 1
  let after := fun (s : State) => waitersRevoked d index (revoking d index s)
  let empty := fun (s : State) => ((after s).die d).port.registrations.any fun r => r.index == index && r.state == 2 && r.admitted == 0
  [commandFails (.revoke d index) d 5 (some index) St.malformed fun s => (registrationAt d index s).isNone,
   commandFails (.revoke d index) d 5 (some index) St.ok fun s => (registrationAt d index s).any fun r => r.state != 1,
   ⟨.revoke d index, fun s => now s && empty s, fun s => (entryFreed d index (after s)).endCommand d St.ok 0⟩,
   ⟨.revoke d index, fun s => now s && !empty s, fun s => (after s).endCommand d St.ok 0⟩]

/-- The connection that CONNECT's block describes (R146). -/
def newConn (d : Nat) (s : State) : Conn := connOf ((blockOf d s).getD 0) (afterBlock d s).host.freeConn

/-- The status of CONNECT (R114). -/
def connectAnswer (d : Nat) (s : State) : Nat :=
  if (blockOf d s).isNone then St.malformed else (afterBlock d s).connectStatus ((blockOf d s).getD 0) (newConn d s)

/-- A connection of die 0 with the index. -/
def connAt (d index : Nat) (s : State) : Option Conn := (s.host.conns.find? fun c => c.index == index).filter fun _ => d == 0

/-- What an ended connection had sent keeps no capacity of its outbound queue. -/
def sentDropped (c : Conn) (s : State) : State :=
  c.unacked.foldl (fun s u => onDie 0 (fun x => x.modQueue (bits c.outq.toNat 44 29) fun q =>
    if q.gen = bits c.outq.toNat 28 16 then q.modTicket u.ticket fun t => { t with delivered := true } else q) s) s

/-- CONNECT and CLOSE (R113, R114, R146). -/
noncomputable def connectRows (d index : Nat) : List EventClaim :=
  [commandFails (.connect d) d 6 none St.malformed fun _ => d ≠ 0,
   ⟨.connect d, fun s => commanded d 6 none s && d == 0 && connectAnswer d s != St.ok, fun s =>
     (afterBlock d s).endCommand d (connectAnswer d s) 0⟩,
   ⟨.connect d, fun s => commanded d 6 none s && d == 0 && connectAnswer d s == St.ok, fun s =>
     let t := afterBlock d s
     { t with host := { t.host with conns := (t.host.conns.filter fun (k : Conn) => k.index != t.host.freeConn) ++ [newConn d s] } }.endCommand
       d St.ok t.host.freeConn⟩,
   commandFails (.close d index) d 7 (some index) St.malformed fun s => (connAt d index s).isNone,
   commandFails (.close d index) d 7 (some index) St.ok fun s => (connAt d index s).any fun c => c.state == 1,
   ⟨.close d index, fun s => commanded d 7 (some index) s && (connAt d index s).any fun c => c.state != 1, fun s =>
     ((sentDropped ((connAt d index s).getD default) s).modConn index fun c => { c with state := 1, unacked := [], ackDue := 0 }).endCommand
       d St.ok 0⟩]

/-- The commands. -/
noncomputable def commandTable (d index : Nat) : List EventClaim :=
  [⟨.create d index, fun s => commanded d 1 (some index) s && createOk d index s, created d index⟩,
   ⟨.create d index, fun s => commanded d 1 (some index) s && !createOk d index s, fun s =>
     (afterBlock d s).endCommand d
       (if (s.argBlock d).1.2 then St.malformed else ((afterBlock d s).die d).createStatus (s.argBlock d).1.1 index) 0⟩]
    ++ destroyRows d index ++ nameRows d ++ revokeRows d index ++ connectRows d index

/-! ## Links (R126, R129, R135, R424, R425) -/

/-- A link's end carries frames at this die. -/
def carries (d link : Nat) (s : State) : Bool := ((s.die d).link? link).any Link.carries

/-- One frame time of a seam, when its other end sends a frame. -/
def frameSent (d link : Nat) (s : State) : Bool :=
  let e := seamPeer d link
  up d s && carries d link s && link < 10 && s.seamUp link && carries e link s && (s.frameOut e link).1.isSome

/-- One frame time of a ridge port, below alarm level 2 (R431). -/
def ridgeTurn (d link : Nat) (s : State) : Bool := up d s && carries d link s && 10 ≤ link && (s.die d).ridgeOpen

/-- A partial message that RETRY answers, 50 µs after its first fragment (R129). -/
def partialLate (d k : Nat) (s : State) : Bool :=
  ((s.die d).port.reassembly[k]?).any fun r => r.first + 50 * usec ≤ (s.die d).ps

/-- The links' steps. -/
noncomputable def linkTable (d link k lost offset pkg die : Nat) (bs : List Byte) : List EventClaim :=
  let peer := fun (s : State) => s.frameOut (seamPeer d link) link
  [⟨.linkFrame d link .fromPeer, frameSent d link, fun s => (peer s).2.frameIn d link (peer s).1⟩,
   ⟨.linkFrame d link .corrupted, frameSent d link, fun s => (peer s).2.frameIn d link none⟩,
   ⟨.linkFrame d link .corrupted, ridgeTurn d link, fun s => (s.frameOut d link).2.frameIn d link none⟩,
   ⟨.linkFrame d link (.outside bs), ridgeTurn d link, fun s => (s.frameOut d link).2.frameIn d link (readFrame bs)⟩,
   ⟨.linkReplayTimeout d link, fun _ => true,
     onDie d fun x => x.modLink link fun l => if l.resend.isEmpty then { l with resend := l.replay } else l⟩,
   ⟨.frameAlignmentFound d link offset, fun _ => true,
     onDie d fun x => x.modLink link fun l => if l.aligned || l.good < 8 then l else { l with aligned := true, offset := offset % 34, crcFails := 0, good := 0 }⟩,
   ⟨.incompleteMessageDiscard d k, partialLate d k, fun s =>
     let r := ((s.die d).port.reassembly[k]?).getD default
     (onDie d (fun x => x.modPort fun p =>
       { (p.dropPartial fun y => y.msg.same r.msg).done r.msg x.ps with incomplete := count16 p.incomplete 1 }) s).answer d r.msg
       Kind.retry St.retry id⟩,
   ⟨.doneRecordExpiry d k, fun s => ((s.die d).port.doneRecs[k]?).any fun r => r.at_ + 10000 * usec ≤ (s.die d).ps,
     onDie d fun x => x.modPort fun p => { p with doneRecs := p.doneRecs.eraseIdx k }⟩,
   ⟨.transitSpillDiscard d k, fun s => ((s.die d).port.transit[k]?).any fun r => r.2 + 5000 * usec ≤ (s.die d).ps,
     onDie d fun x => x.modPort fun p => { p.countStale 1 with transit := p.transit.eraseIdx k }⟩,
   ⟨.probeSend d link,
     fun s => link < 10 && s.seamUp link && ((s.die d).link? link).any fun l => l.txq.isEmpty && l.sent + 100 * usec ≤ (s.die d).ps,
     fun s => (s.sendNew d { requestMsg Kind.probe (qid s.pkg (seamPeer d link) 0 0).toNat 0 0 0 with inc := (s.die d).incarnation }).2⟩,
   ⟨.dieLost d lost,
     fun s => up d s && d ≠ lost && lost < 8 && (seamBetween d lost).isSome && !(s.die d).port.holdsLost s.pkg lost
       && (seamsOf lost).all (s.seamSilent lost),
     fun s => s.announceLost d lost⟩,
   ⟨.targetLostTimeout d pkg die,
     fun s => pkg ≠ s.pkg && (s.die d).port.requests.any fun r => r.pkg == pkg && r.die == die && r.at_ + 2000 * usec ≤ (s.die d).ps,
     fun s => s.loseDie d pkg die⟩]

/-! ## The host port (R145 to R148, R420) -/

/-- What a frame brings that is a datagram of a TYPE for an OPEN connection: the datagram, its header, its connection and its
element size. -/
def datagram (type : Nat) (fr : List Byte) (s : State) : Option (Packet × Transport × Conn × Nat) :=
  (s.hostFrame fr).bind fun p => (s.inbound type p).map fun x => (p, x)

/-- The datagram in sequence that a frame brings for an OPEN connection, and what it holds. -/
def inSequence (fr : List Byte) (s : State) : Option (Conn × Incoming) :=
  ((datagram 1 fr s).filter fun x => x.2.1.seq == x.2.2.1.rcvNxt).map fun x =>
    (x.2.2.1, ⟨elementsOf (2 ^ x.2.2.2) x.2.1.nelem x.1.bytes, x.2.1.rwin, x.1.ecn == 3⟩)

/-- Its connection and elements, and the queue of die 0 that they go to, of a CKIND or not of it. -/
def forQueue (fr : List Byte) (s : State) (ok : Queue → Bool) : Option ((Conn × Incoming) × Queue) :=
  (inSequence fr s).bind fun x =>
    ((s.queueOfQid x.1.inq).filter fun q => bits x.1.inq.toNat 47 45 == 0 && ok q).map fun q => (x, q)

/-- What INQ answers to a reservation for the elements. -/
def roomOf (s : State) (x : (Conn × Incoming) × Queue) : (Nat × Nat) × Die :=
  (s.die 0).reserve x.2.index x.2.gen x.1.1.dom x.1.2.els.length (s.connProducer x.1.1) 0

/-- The connection once it has accepted a datagram: RCVNXT has passed it, and it is to be acknowledged (R148). -/
def accepting (c : Conn) (i : Incoming) : Conn :=
  { c with rwin := i.rwin, rcvNxt := (c.rcvNxt + i.els.flatten.length) % 2 ^ 48, ackDue := c.ackDue + 1, ece := c.ece || i.ce
           data := none }

/-- The state after an accepted datagram; the second unacknowledged one is acknowledged at once. -/
def dataAccepted (c : Conn) (i : Incoming) (s : State) : State :=
  let n := accepting c i
  if 2 ≤ n.ackDue then (s.modConn n.index fun _ => n).sendAck n else s.modConn n.index fun _ => n

/-- A connection that is OPEN. -/
def openConn (conn : Nat) (s : State) : Option Conn := s.host.conns.find? fun c => c.index == conn && c.state == 0

/-- The port carries queue traffic (R431). -/
def hostOpen (s : State) : Bool := s.hostUp && (s.die 0).alarm < 2

/-- The element that goes out next, when the connection's queue is the one that the port serves (R147, R148, R376). -/
def outgoing (conn : Nat) (s : State) : Option (Conn × Ticket) :=
  (openConn conn s).bind fun c => (s.nextOutbound.filter fun q => s.canSend c q).bind fun q => q.eligible.head?.map fun t => (c, t)

/-- It is taken: its bytes, the connection and the state. -/
def sending (conn : Nat) (s : State) : (List Byte × Conn) × State :=
  let x := (outgoing conn s).getD (default, default)
  s.sendElement x.1 x.2

/-- The oldest unacknowledged element was sent RTO ago (R147). -/
def rtoDue (conn : Nat) (s : State) : Bool :=
  hostOpen s && (openConn conn s).any fun c => c.unacked.head?.any fun u => u.sentAt + c.rto ≤ (s.die 0).ps

/-- The connection after a timeout that is not the eighth in a row. -/
def backedOff (c : Conn) (now : Nat) : Conn :=
  { c.halve now with
    timeouts := c.timeouts + 1, rto := min (2 * c.rto) (10000 * usec)
    unacked := c.unacked.map fun u => { u with sentAt := now, again := true } }

/-- The host port's steps. -/
noncomputable def hostTable (fr : List Byte) (conn : Nat) (target : BitVec 128) : List EventClaim :=
  let c := fun (s : State) => (openConn conn s).getD default
  [⟨.hostData fr, fun s => (forQueue fr s (·.ckind != 3)).any fun x => (roomOf s x).1.1 == St.ok, fun s =>
     match forQueue fr s (·.ckind != 3) with
     | some (x, q) =>
       let first := (roomOf s (x, q)).1.2
       dataAccepted x.1 x.2 (x.2.els.zipIdx.foldl (fun s e => s.putFrom x.1 ((first + e.2) % 2 ^ 48) e.1)
         (onDie 0 (fun _ => (roomOf s (x, q)).2) s))
     | none => s⟩,
   ⟨.hostData fr, fun s => (forQueue fr s fun _ => true).any fun x => (roomOf s x).1.1 != St.ok, fun s => s⟩,
   ⟨.hostData fr,
     fun s => (inSequence fr s).any fun x => bits x.1.inq.toNat 47 45 != 0 && (s.queueOfQid x.1.inq).isSome && x.1.data.isNone
       && !(s.die 0).port.holdsLost s.pkg (bits x.1.inq.toNat 47 45),
     fun s =>
       let x := (inSequence fr s).getD (default, default)
       (s.modConn x.1.index fun c => { c with data := some x.2 }).request 0 (.host x.1.index)
         { requestMsg Kind.resv x.1.inq.toNat x.1.dom (2 * 2 ^ 22 + x.1.index) 0 with arg0 := BitVec.ofNat 64 x.2.els.length }⟩,
   ⟨.hostAck fr, fun s => (datagram 2 fr s).isSome, fun s =>
     match datagram 2 fr s with
     | some (_, t, c, _) =>
       let n := c.acknowledge t (s.die 0).ps
       (s.dropUnacked { c with unacked := c.unacked.filter fun u => !n.unacked.contains u }).modConn c.index fun _ => n
     | none => s⟩,
   ⟨.hostAckSend conn,
     fun s => hostOpen s && (s.host.conns.find? fun c => c.index == conn && c.state == 0 && 0 < c.ackDue).isSome,
     fun s => s.sendAck ((s.host.conns.find? fun c => c.index == conn && c.state == 0 && 0 < c.ackDue).getD default)⟩,
   ⟨.hostDataSend conn, fun s => (outgoing conn s).isSome, fun s =>
     ((sending conn s).2.sendOn (c s) 1 (c s).sndNxt [(sending conn s).1.1]).modConn conn fun _ => (sending conn s).1.2⟩,
   ⟨.rtoTimeout conn, fun s => rtoDue conn s && 7 ≤ (c s).timeouts, fun s =>
     onDie 0 (fun x => x.sysEvent 0x0008 (toBytes 2 conn))
       (s.modConn conn fun k => { k with state := 2, timeouts := k.timeouts + 1 })⟩,
   ⟨.rtoTimeout conn, fun s => rtoDue conn s && (c s).timeouts < 7, fun s =>
     (s.resendAll (c s) ((s.connEsize (c s)).getD 4) (c s).unacked.length (c s).unacked).modConn conn fun _ =>
       backedOff (c s) (s.die 0).ps⟩,
   ⟨.neighbourDiscovery target, fun s => s.hostUp && s.host.owns target, fun s => s.send (.advertisement target)⟩]

/-! ## Management (R39, R421 to R423, R428 to R430) -/

/-- A command is accepted, and stands to be relayed to queue 7 of its die (R422; the relay itself is log entries 72 and 111). -/
def accepted (i : Instr) (op : Nat) (fr : List Byte) : EventClaim :=
  ⟨i, fun s => (s.mgmtTurn op fr).isNone && (s.accept op fr).isSome, fun s =>
    match s.accept op fr with
    | some (m, r, t) => t.modRelays (· ++ [⟨m, r, false⟩])
    | none => s⟩

/-- The command that a die's management core, free and with the command first, performs now (R422). At alarm level 3 it performs
READ and ATTEST alone (R431). -/
def managed (op : Nat) (fr : List Byte) (s : State) : Option Mgmt :=
  (s.mgmtTurn op fr).filter fun m => op == 8 || op == 9 || !(s.die m.die).levelThree

/-- The command has left the management core's list. -/
def unlisted (m : Mgmt) (s : State) : State := onDie m.die (fun x => { x with mgmtIn := x.mgmtIn.drop 1 }) s

/-- A management command with its effect: the die replies with its status and bytes. -/
def mgmtRow (i : Instr) (op : Nat) (fr : List Byte) (ok : Mgmt → State → Bool) (f : Mgmt → State → (Nat × List Byte) × State) :
    EventClaim :=
  ⟨i, fun s => (managed op fr s).any fun m => ok m (unlisted m s), fun s =>
    match managed op fr s with
    | some m =>
      let a := f m (unlisted m s)
      a.2.replyVia m.die ⟨m.op, m.die, m.seq⟩ a.1.1 a.1.2
    | none => s⟩

/-- A command that answers OK and no bytes. -/
def mgmtDone (i : Instr) (op : Nat) (fr : List Byte) (ok : Mgmt → State → Bool) (f : Mgmt → State → State) : EventClaim :=
  mgmtRow i op fr ok fun m s => ((St.ok, []), f m s)

/-- MGMT_PROC's fields are in range (R423). -/
def procOk (m : Mgmt) (s : State) : Bool :=
  let x := s.die m.die
  m.payload.length == 27 && m.field 0 2 < 4096 && m.field 6 8 % 16384 == 0 && m.field 6 8 < 2 ^ 52 && m.field 14 1 ≤ 1
    && m.field 15 8 % 16 == 0 && m.field 15 8 < 2 ^ 52 && m.field 23 4 < 2 ^ 24
    && x.space.procbase.toNat % 2 == 1 && x.port.qntroot.toNat % 2 == 1

/-- The process-table entry, the QNT-table entry, then XINV and NAMEINV for the process (R39, R107). -/
def procWritten (m : Mgmt) (s : State) : State :=
  let x := s.die m.die
  let v := m.field 14 1
  let s := s.softWrite m.die (bits x.space.procbase.toNat 51 15 * 32768 + 8 * m.field 0 2) (toBytes 8 (v * 2 ^ 63 + m.field 6 8))
  let s := s.softWrite m.die (bits x.port.qntroot.toNat 51 16 * 65536 + 16 * m.field 0 2)
    (toBytes 16 (m.field 2 4 * 2 ^ 96 + m.field 23 4 * 2 ^ 64 + v * 2 ^ 63 + m.field 15 8))
  s.modDie m.die fun x => x.forgetAllOf (m.field 0 2)

/-- The level-four entries that MGMT_MAP writes. -/
def mapPlaces (m : Mgmt) (s : State) : List (Option Nat) :=
  (List.range (m.field 10 2)).map fun i =>
    if 2 ^ 60 ≤ m.field 2 8 + 65536 * i then none else (s.die m.die).entryOf (m.field 0 2) (m.field 2 8 + 65536 * i)

/-- MGMT_MAP's fields are in range, and each page has its tables (R423). -/
def mapOk (m : Mgmt) (s : State) : Bool :=
  let n := m.field 10 2
  m.field 0 2 < 4096 && m.field 2 8 % 65536 == 0 && n ≠ 0 && n ≤ 512 && m.payload.length == 12 + 8 * n && (mapPlaces m s).all Option.isSome

/-- Each entry is written, and XINV drops its page. -/
def mapped (m : Mgmt) (s : State) : State :=
  ((mapPlaces m s).zipIdx).foldl (fun (s : State) (p : Option Nat × Nat) =>
    (s.softWrite m.die (p.1.getD 0) ((m.payload.drop (12 + 8 * p.2)).take 8)).modDie m.die fun x =>
      x.forgetPage (m.field 0 2) (m.field 2 8 + 65536 * p.2)) s

/-- MGMT_LOAD: where its bytes go. -/
def loadPlaces (m : Mgmt) (s : State) : Option (List Spot) × State :=
  s.loadSpots m.die (m.field 0 2) ((List.range (m.payload.length - 10)).map (m.field 2 8 + ·))

/-- MGMT_LOAD's fields are in range and its bytes may be written. -/
def loadOk (m : Mgmt) (s : State) : Bool :=
  10 ≤ m.payload.length && m.field 0 2 < 4096 && m.payload.length ≤ 8010 && m.field 2 8 + (m.payload.length - 10) ≤ 2 ^ 60
    && (loadPlaces m s).1.any devOk

/-- MGMT_LOAD: the bytes are written, and XINV drops each page. -/
def loaded (m : Mgmt) (s : State) : State :=
  let t := (loadPlaces m s).2.writeSpots (agentAsks m.die) ((loadPlaces m s).1.getD []) (m.payload.drop 10)
  let pages := distinct ((List.range (m.payload.length - 10)).map fun i => (m.field 2 8 + i) / 65536)
  t.modDie m.die fun x => pages.foldl (fun x v => x.forgetPage (m.field 0 2) (v * 65536)) x

/-- MGMT_REG's fields are in range (R423). -/
def regOk (mode : Nat) (m : Mgmt) (_ : State) : Bool :=
  let a := m.field 2 8
  let w := m.field 1 1
  m.payload.length == 18 && m.field 0 1 == mode && devBase ≤ a && a < 2 ^ 52 && (w == 4 || w == 8) && a % w == 0
    && !(w == 8 && isReg32 (a % 2 ^ 48 / 65536) (a % 65536))

/-- A management core writes a device register: SETTLE.INTERVAL on every live die (R43). A level that ALARMST.LEVEL rises to has its
effects (R431); UNIT 0 of its error-log entry is the model's choice (log entry 128). -/
def registerSet (d a width v : Nat) (s : State) : State :=
  let t := (if a = devBase + 0x10008 then s.upDies else [d]).foldl (fun s e => onDie e (fun x => x.writeReg true a width v) s) s
  if (s.die d).alarm < (t.die d).alarm then (onDie d (fun x => (x.logError 2 0 (toBytes 1 x.alarm)).alarmed) t).keyErased else t

/-- The 32 bytes of an error-log entry (R434). -/
def errorBytes (e : ErrEntry) : List Byte :=
  toBytes 8 e.clock ++ toBytes 4 e.boots ++ toBytes 2 e.code ++ toBytes 2 e.unit ++ (e.data ++ List.replicate 16 0).take 16

/-- The selector and the length of MGMT_READ. -/
def readsTable (sel : Nat) (m : Mgmt) (_ : State) : Bool := m.field 0 1 == sel && m.payload.length == 1

/-- The session that a signed payload opens (R422). -/
def sessionOpens (fr : List Byte) (s : State) : Option (Mgmt × Reply × State) :=
  (s.accept 1 fr).filter fun x => x.1.payload.length == 1024
    && Config.sessionSigOk x.2.2.host.operatorKey (x.1.payload.take 512 ++ toBytes 8 x.1.seq) (x.1.payload.drop 512)

/-- A session that is refused for its signature. -/
def sessionRefused (fr : List Byte) (s : State) : Option (Mgmt × Reply × State) :=
  (s.accept 1 fr).filter fun x => x.1.payload.length == 1024
    && !Config.sessionSigOk x.2.2.host.operatorKey (x.1.payload.take 512 ++ toBytes 8 x.1.seq) (x.1.payload.drop 512)

/-- The management commands. The offsets and widths of the payloads are the model's (log entry 71). -/
noncomputable def mgmtTable (fr : List Byte) : List EventClaim :=
  let entries := fun (m : Mgmt) (s : State) => (s.die m.die).flash.table.entries.flatMap RetEntry.bytes
  let queued := fun (s : State) => (managed 4 fr s).filter fun m => m.payload.length == 72
  [⟨.mgmtSession fr, fun s => (sessionOpens fr s).isSome, fun s =>
     match sessionOpens fr s with
     | some (m, r, t) =>
       let t := { t with host := { t.host with failures := 0 } }
       match Config.unwrapKey (m.payload.take 512) with
       | some k => { t with host := { t.host with sessionKey := some k, seq := m.seq } }.reply { r with key := some k } St.ok []
       | none => t.reply r St.rights []
     | none => s⟩,
   ⟨.mgmtSession fr, fun s => (sessionRefused fr s).isSome, fun s =>
     match sessionRefused fr s with
     | some (_, r, t) =>
       let n := t.host.failures + 1
       let u := { t with host := { t.host with failures := n } }.raiseAlarm 0 1 5
       (if 4 ≤ n then u.raiseAlarm 0 2 3 else u).reply r St.rights []
     | none => s⟩,
   mgmtDone (.mgmtClose fr) 0x0B fr (fun m _ => m.payload == []) fun _ s => { s with host := { s.host with sessionKey := none } },
   mgmtDone (.mgmtProc fr) 0x02 fr procOk procWritten,
   mgmtDone (.mgmtMap fr) 0x03 fr mapOk mapped,
   mgmtDone (.mgmtLoad fr) 0x05 fr loadOk loaded,
   mgmtDone (.mgmtPwrite fr) 0x0D fr
     (fun m s => 8 ≤ m.payload.length && m.payload.length ≤ 8008 && m.field 0 8 + (m.payload.length - 8) ≤ (s.die m.die).spillBase)
     fun m s => onDie m.die (fun x => x.engineWrite (m.field 0 8) (m.payload.drop 8)) s,
   ⟨.mgmtQueue fr, fun s => (queued s).isSome, fun s =>
     match queued s with
     | some m => onDie m.die (fun x => x.modPort fun q =>
         q.addCmd ⟨BitVec.ofNat 64 (m.field 0 8), some (m.payload.drop 8), some ⟨m.op, m.die, m.seq⟩⟩) (unlisted m s)
     | none => s⟩,
   mgmtRow (.mgmtEnqueue fr) 0x06 fr (fun m _ => m.payload.length == 129 && m.field 0 1 ≤ 3) fun m s =>
     let r := s.enqueueRecord m.die (m.field 0 1) (m.payload.drop 1)
     ((r.1, []), r.2),
   mgmtRow (.mgmtReg fr) 0x0C fr (regOk 1) fun m s => ((St.ok, toBytes 8 ((s.die m.die).readReg (m.field 2 8) (m.field 1 1))), s),
   mgmtDone (.mgmtReg fr) 0x0C fr (regOk 0) fun m s =>
     registerSet m.die (m.field 2 8) (m.field 1 1) (m.field 10 8 % 2 ^ (8 * m.field 1 1)) s,
   mgmtDone (.mgmtReset fr) 0x07 fr (fun m _ => m.payload == []) fun m s => onDie m.die (fun x => { x with resetDue := true }) s,
   mgmtDone (.mgmtFreq fr) 0x0A fr (fun m _ => m.payload.length == 1 && m.field 0 1 ≤ 2) fun m s =>
     let pt := BitVec.ofNat 2 (m.field 0 1)
     onDie m.die (fun x => if x.nextPoint < pt then { x with freqReq := pt }.askFreq pt else { x with freqReq := pt }) s,
   mgmtRow (.mgmtRead fr) 0x09 fr (readsTable 0) fun m s => ((St.ok, (s.die m.die).conf.bytes), s),
   mgmtRow (.mgmtRead fr) 0x09 fr (readsTable 1) fun m s => ((St.ok, entries m s ++ Config.identitySign m.die (entries m s)), s),
   mgmtRow (.mgmtRead fr) 0x09 fr (fun m _ => m.field 0 1 == 2 && 2 ≤ m.payload.length && m.payload.length ≤ 9) fun m s =>
     ((St.ok, (((s.die m.die).flash.errlog.drop (m.field 1 8)).take 252).flatMap errorBytes), s),
   mgmtRow (.mgmtRead fr) 0x09 fr (readsTable 3) fun m s => ((St.ok, Config.certificate m.die), s),
   mgmtRow (.mgmtAttest fr) 0x08 fr
     (fun m s => m.payload.length == 64 && (s.die m.die).flash.identity && (s.die 0).alarm < 2) fun m s =>
     let r := (s.die m.die).report m.payload
     ((St.ok, r ++ Config.identitySign m.die r), s),
   mgmtRow (.mgmtAttest fr) 0x08 fr
     (fun m s => m.payload.length == 64 && !(s.die m.die).flash.identity && (s.die 0).alarm < 2) fun _ s => ((St.fault, []), s),
   accepted (.mgmtProc fr) 0x02 fr, accepted (.mgmtMap fr) 0x03 fr, accepted (.mgmtQueue fr) 0x04 fr, accepted (.mgmtLoad fr) 0x05 fr,
   accepted (.mgmtEnqueue fr) 0x06 fr, accepted (.mgmtReset fr) 0x07 fr, accepted (.mgmtAttest fr) 0x08 fr,
   accepted (.mgmtRead fr) 0x09 fr, accepted (.mgmtFreq fr) 0x0A fr, accepted (.mgmtClose fr) 0x0B fr, accepted (.mgmtReg fr) 0x0C fr,
   accepted (.mgmtPwrite fr) 0x0D fr]

end Sys2Proof.Claims
end

