-- ==== Sys2Proof/Certificates/Slice0/Frames.lean ====
section
/-! DEFINITION. What the statements about frames, memory lines and traps say. -/

namespace Sys2Proof.Claims
open Sys2Proof.Machine

/-! ## The checks of any word -/

/-- The checks that a word passes at its issue: for a P word, those of its vector slot (R205, R213, R241, R397). -/
def checksOf (i : Instr) (s : State) : Issue :=
  match i.view with
  | .pair sop p => s.prepared default (.pair sop p) fun _ => p.vop.sig p.vector
  | v => s.prepared i v i.sig

/-- The signature of a word for a group whose format slot names a 64-bit type or not. -/
def sigOf (i : Instr) (slot64 : Bool) : Sig :=
  match i.view with
  | .pair _ p => p.vop.sig p.vector
  | _ => i.sig slot64

/-! ## Registers -/

/-- Nothing differs but one group of one die. -/
def onlyGroup (d gid : Nat) (s t : State) : Prop :=
  t = { s with dies := t.dies } ∧ t.dies.length = s.dies.length ∧ (∀ e, e ≠ d → t.die e = s.die e)
    ∧ t.die d = { s.die d with groups := (t.die d).groups } ∧ ∀ h, h ≠ gid → t.group? d h = s.group? d h

/-- In that group nothing differs but the registers that the word may write: those of the operands `ds`, `wide` v-registers
for each v-register that they name, and the predicates `preds`, of the active threads; the words `also` of the slot
partition; whether the word's own destination is pending; and the PC and M of the threads that issued. -/
def onlyWrites (j : Job) (ds : List Operand) (wide : Nat) (preds : List Nat) (also : Nat → Prop) (g h : Group) : Prop :=
  h = { g with threads := h.threads, part := h.part, sregs := h.sregs, pend := h.pend }
    ∧ (∀ r, r ∉ j.x.dst → (r ∈ h.pend ↔ r ∈ g.pend))
    ∧ (∀ k, h.word k ≠ g.word k → also k ∨ ∃ l ∈ j.x.lanes, ∃ r m, Operand.v r ∈ ds ∧ m < wide ∧ k = g.vWord l.t (r.toNat + m))
    ∧ (∀ a n, n < 64 → h.sreg a n ≠ g.sreg a n → a = j.x.warp ∧ ∃ r, Operand.s r ∈ ds ∧ r.toNat = n)
    ∧ (∀ t, (h.thread t) = { g.thread t with pc := (h.thread t).pc, m := (h.thread t).m, preds := (h.thread t).preds })
    ∧ (∀ t, t ∉ j.ts → (h.thread t).pc = (g.thread t).pc ∧ (h.thread t).m = (g.thread t).m)
    ∧ ∀ t n, n < 7 → (h.thread t).pred n ≠ (g.thread t).pred n →
        t ∈ j.act ∧ ((∃ r, Operand.p r ∈ ds ∧ r.toNat = n) ∨ n ∈ preds)

/-- No other word of the slot partition. -/
def noWord : Nat → Prop := fun _ => False

/-- A word that writes registers alone: its row, the operands that it writes, and the predicates it writes beside them. -/
structure Written where
  c : Claim
  ds : Job → List Operand
  preds : List Nat

/-- The predicates that a mask names (R253). -/
def predsOf (mask : Nat) : List Nat := (List.range 7).filter (bit mask)

/-- The words that write registers alone: nearly all write their destination; IADDC writes p6 too (R244); PMOV to predicates
those of MASK, and no destination (R253); a P word the destination of its vector slot and the s-register of its scalar
slot (R205). -/
noncomputable def writtenRows (w : RegWord) (v : WideWord) (u : ShortWord) (p : PairWord) : List Written :=
  let own := fun (preds : List Nat) (c : Claim) => (⟨c, fun j => [j.f.dst], preds⟩ : Written)
  (integerTable w v u ++ logicTable w v u ++ compareTable w v u ++ floatTable w ++ convertTable w ++ laneTable w u ++ blockTable w
      ++ rdsrTable w).map (own [])
    ++ (carryTable w v).map (own [6])
    ++ (pmovTable w).map (fun c => if w.imm[0] then ⟨c, fun _ => [], predsOf (bits w.imm.toNat 14 8)⟩ else own [] c)
    ++ (pairTable p).map fun c => ⟨c, fun _ => [p.vdst, .s p.sdst], []⟩

/-- In that group nothing differs but the special register that WRSR names, and the PC and M of the threads that issued. -/
def onlySpecial (j : Job) (g h : Group) : Prop :=
  let k := j.f.imm % 256
  h = { g with
        threads := h.threads
        wdlimit := if k = 0x12 then h.wdlimit else g.wdlimit
        ctx := { g.ctx with
          handler := if k = 0x0B then h.ctx.handler else g.ctx.handler
          tbase := if k = 0x0F then h.ctx.tbase else g.ctx.tbase
          tlen := if k = 0x10 then h.ctx.tlen else g.ctx.tlen } }
    ∧ (∀ t, h.thread t = { g.thread t with pc := (h.thread t).pc, m := (h.thread t).m })
    ∧ ∀ t, t ∉ j.ts → h.thread t = g.thread t

/-! ## Bytes of memory lines -/

/-- What a load of byte i of a line gives a node: its tentative copy, else the line in its slice, else memory; nothing
where it reads poisoned (R80, R167, R436). -/
def lineByte (d : Die) (nid : Nat) (r : LineRef) (i : Nat) : Option Byte :=
  if (d.seenByte nid r i).2 then none else some (d.seenByte nid r i).1

/-- Two references name one line of one slice. -/
def sameLine (d : Die) (r r' : LineRef) : Prop :=
  d.sliceOf r'.attr r'.addr = d.sliceOf r.attr r.addr ∧ r'.addr = r.addr ∧ r'.pres = r.pres

/-- A line of an ordinary page, at a multiple of 64. -/
def plainLine (r : LineRef) : Prop := r.pres = none ∧ r.attr.afmt = none ∧ r.addr % 64 = 0

/-- Two ways of the line's set are free. -/
def roomFor (d : Die) (r : LineRef) : Prop :=
  ∃ v w, v < 16 ∧ w < 16 ∧ v ≠ w ∧ ∀ l ∈ d.l2, l.slice = d.sliceOf r.attr r.addr → l2Set l.line = l2Set r.addr → l.way ≠ v ∧ l.way ≠ w

/-- A store to the line needs no way of its set: the copy or the line that it goes to stands in its slice. -/
def standsThere (d : Die) (nid : Nat) (r : LineRef) : Prop :=
  ((d.copyIn nid r).isSome = true ∨ (d.tentative nid = false ∧ d.stagedOf nid r = none))
    ∧ (d.tentative nid = true ∨ (d.l2Find r).isSome = true)

/-- No two of a node's lines in the staging reserve have one place. -/
def placesApart (d : Die) (nid : Nat) : Prop := ∀ n, d.node? nid = some n → (n.tent.map TentLine.place).Nodup

/-- Every byte of every ordinary line reads in one die as in another, for any node. -/
def sameLines (d e : Die) : Prop := ∀ nid r i, plainLine r → i < 64 → lineByte e nid r i = lineByte d nid r i

/-! ## Accesses to memory -/

/-- A spot is byte i of a line, under one name of that line or another. -/
def spotIs (d : Die) (k : Spot) (r : LineRef) (i : Nat) : Prop := ∃ r' i', k = .line r' i' ∧ sameLine d r' r ∧ i' = i

/-- Every byte of an access lies in a line of an ordinary page that is in its slice, and of which the node has no tentative
copy. -/
def inSlices (d : Die) (nid : Nat) (ls : List LaneSpots) : Prop :=
  ∀ l ∈ ls, ∀ k ∈ l.spots, ∃ r i, k = .line r i ∧ i < 64 ∧ plainLine r ∧ (d.l2Find r).isSome = true ∧ d.tentOf nid r = none

/-- The checks of an access of n bytes for each lane: the places they give, and the state after them. -/
def placesOf (j : Job) (s : State) (acc : Acc) (n align : Nat) (lanes : List LaneSrc) (va : LaneSrc → Nat) : List LaneSpots × State :=
  let p := checked j s acc n align lanes va
  (places p, p.2)

/-- The words that store to memory, with the number of bytes of each (R288). -/
def storeWords (w : RegWord) : List (Instr × Nat) :=
  [(.stB w, 1), (.stH w, 2), (.stW w, 4), (.stD w, 8), (.stQ w, 16)]

/-- The places that the checks of a store give. -/
def storePlaces (j : Job) (s : State) (n : Nat) : List LaneSpots × State := placesOf j s .store n 1 j.x.lanes (address j)

/-- An access that writes goes straight to the L2, where its lines stand: the node's writes are not tentative, no registration
holds one of its bytes, and the group is alive. -/
def writesInPlace (j : Job) (n : Nat) (p : List LaneSpots × State) : Prop :=
  hostSees j p.2 n p.1 = false ∧ (p.2.die j.d).tentative (j.group p.2).node = false ∧ j.alive p.2 = true
    ∧ inSlices (p.2.die j.d) (j.group p.2).node p.1

/-- A store passes its checks and writes in place. -/
def storesInPlace (j : Job) (s : State) (n : Nat) : Prop :=
  granted (checked j s .store n 1 j.x.lanes (address j)) = true ∧ writesInPlace j n (storePlaces j s n)

/-- The places that the checks of a load of n bytes give. -/
def readPlaces (j : Job) (s : State) (n : Nat) : List LaneSpots × State := placesOf j s .load n 1 (loaders j) (address j)

/-- The words that load from memory, with the number of bytes of each (R288). -/
def loadSizes : List Nat := [1, 1, 2, 2, 4, 8, 16]

/-- The atomics of memory, with the number of bytes of each (R294). -/
def atomRows (w : RegWord) : List (Claim × Nat) := [(atomMem (.atomW w) w 32, 4), (atomMem (.atomD w) w 64, 8)]

/-- The places that the checks of an atomic of n bytes give. -/
def atomPlaces (j : Job) (s : State) (n : Nat) : List LaneSpots × State :=
  placesOf j s .atom n n j.x.lanes fun l => l.a.toNat % 2 ^ 64

/-- The predicate that PD names, where an atomic has one (R294). -/
def predOut (j : Job) : List Nat := if bit j.f.imm 11 then [bits j.f.imm 10 8] else []

/-! ## Accesses to the window -/

/-- The words that store to the window, with the number of bytes of each (R287). -/
def windowWords (w : RegWord) : List (Instr × Nat) :=
  [(.stBWin w, 1), (.stHWin w, 2), (.stWWin w, 4), (.stDWin w, 8), (.stQWin w, 16)]

/-- The atomics of the window, with the number of bytes of each (R294). -/
def windowAtoms (w : RegWord) : List (Claim × Nat) := [(atomWin (.atomWWin w) 32, 4), (atomWin (.atomDWin w) 64, 8)]

/-- No thread waits in WAIT, in its turn or suspended. -/
def noWait (g : Group) : Bool :=
  !g.hasWait fun y => match y with
    | .wait .. => true
    | _ => false

/-! ## Traps -/

/-- No thread of a warp waits, has a wait suspended or has an end of one recorded, and no two of them share a lane. -/
def quiet (g : Group) (warp : Nat) : Prop :=
  (∀ t ∈ g.members warp, (g.thread t).wait = none ∧ (g.thread t).susp = none ∧ (g.thread t).suspEnd = none)
    ∧ ∀ t ∈ g.members warp, ∀ u ∈ g.members warp, t % 32 = u % 32 → t = u

end Sys2Proof.Claims
end

