-- ==== Sys2Proof/Certificates/Slice0/Obligations.lean ====
section
/-! DEFINITION. The statements for the provers. A row of a table that a statement names is read as Claim.Holds and
EventClaim.Holds say. -/

open Sys2Proof Sys2Proof.Machine Sys2Proof.Claims

/-! ## Words (R199 to R213) -/

/-- Words that the spec writes out, with the assembly that it gives them, decode to those instructions: R216's example, the
worked programs of R413 to R418, and the examples of R273, R294 and R333. -/
def Obligations.SpecWordsDecode : Prop :=
  let pt : Guard := ⟨false, 7⟩
  decodeTableWord 64 0x281F040608000000 = some (.imin ⟨⟨true, 2⟩, 3, .v 4, .v 6, .v 8, .v 0, 0, none⟩)
    ∧ decodeTableWord 64 0x5C10C3104009_0A0C = some (.scalarIaddImm ⟨pt, 3, 3, 16, .fadd, .v 9, .v 10, .v 12⟩)
    ∧ decodeTableWord 128 (0x9C010204EE000000 + 0x123456789 * 2 ^ 64)
        = some (.iadd ⟨pt, 1, .v 2, .v 4, .lit, .v 0, 0, some 0x123456789⟩)
    ∧ decodeTableWord 64 0x071C000000000020 = some (.call ⟨⟨false, 1⟩, 0, .v 0, .v 0, 0x20⟩)
    ∧ decodeTableWord 64 0x1C80010100000001 = some (.iaddWide ⟨pt, 0, .v 1, .v 1, 1⟩)
    ∧ decodeTableWord 64 0x1E300388068909C8 = some (.atomW ⟨pt, 0, .v 3, .s 8, .v 6, .s 9, 0x9C8, none⟩)
    ∧ decodeTableWord 64 0x1F7008D8948A0000 = some (.mrdF32 ⟨pt, 0, .v 8, .mt 0, .s 20, .s 10, 0, none⟩)
    ∧ decodeTableWord 64 0x1EC894C800000004 = some (.qresWide ⟨pt, 0, .s 20, .h 0, 4⟩)
    ∧ decodeTableWord 64 0x1ED494C885000006 = some (.qwait ⟨pt, 0, .s 20, .h 0, .s 5, .v 0, 6, none⟩)
    ∧ decodeTableWord 64 0x1EA8E28100000000 = some (.launch ⟨pt, 0, .zero, .s 1, .v 0, .v 0, 0, none⟩)
    ∧ decodeTableWord 64 0x1FA0000000000003 = some (.gate ⟨pt, 0, .v 0, .v 0, .v 0, .v 0, 3, none⟩)
    ∧ decodeTableWord 64 0x1F18000100000000 = some (.jtab ⟨pt, 0, .v 0, .v 1, .v 0, .v 0, 0, none⟩)
    ∧ decodeTableWord 64 0x1DA4040300001113 = some (.packK4 ⟨pt, 0, .v 4, .v 3, .v 0, .v 0, 0x1113, none⟩)
    ∧ decodeTableWord 64 0x1F5499D8009A0002 = some (.mloopB4Short ⟨pt, 0, .s 25, .mt 0, .s 26, 2, none⟩)

/-- Decode and encode agree: the bytes of every well-formed word, whatever follows them, decode to that word. -/
def Obligations.DecodeEncode : Prop :=
  ∀ (i : Instr) (rest : List Byte), i.view ≠ .step → i.WellFormed → decode (i.bytes ++ rest) = .ok (i, rest)

/-- Encode and decode agree: bytes that decode are the bytes of the well-formed word that they decode to, so no bit of a word is
dropped and no two words are read as one. -/
def Obligations.EncodeDecode : Prop :=
  ∀ (bs rest : List Byte) (i : Instr), decode bs = .ok (i, rest) → i.WellFormed ∧ i.view ≠ .step ∧ bs = i.bytes ++ rest

/-- R199 and R212: format 11 and the opcodes that the map leaves unassigned decode to nothing; so do a P word of scalar opcode
0x30 to 0x3F (R207) and a wide form with a literal (R202). -/
def Obligations.UnassignedWordsRefused : Prop :=
  ∀ (w : DWord) (next : Option DWord),
    (bits w.toNat 63 62 = 3 → decodeWords w next = .error .format)
      ∧ (bits w.toNat 63 62 = 0 → opcodeForm (bits w.toNat 57 50) = none → decodeWords w next = .error .opcode)
      ∧ (bits w.toNat 63 62 = 1 → 0x30 ≤ bits w.toNat 57 52 → ∃ b, decodeWords w next = .error b)
      ∧ (bits w.toNat 63 62 = 2 → opcodeForm (bits w.toNat 57 50) = some .wide → ∃ b, decodeWords w next = .error b)

/-! ## Steps -/

/-- A step runs the decoded instruction. On the turn of a core of a live die that is not paused by a change of its frequency or by a
reset (R406, R409), let p be the first place from its rotating pointer on at which a warp has threads to issue (R373). When the 16 bytes at their PC are
fetched clean and decode to a word i, whose registers are not pending (R211), which the warp's parked word does not hold
(R58) and which the core's port takes (R372), the step is exec of i, in the state in which cur names that warp, the port's turn is
taken and the core keeps what the word writes for roped issue (R393), with what follows from it at once at its end. That nextTurn names the turn is the
model's choice (log entry 2). -/
def Obligations.StepRunsDecoded : Prop :=
  ∀ (s u t : State) (d core p : Nat) (before after : List Nat) (g : Group) (first : Nat) (more : List Nat) (x : Nat) (i : Instr),
    s.nextTurn = (.issue d core, u) → (u.die d).phase = .up → (u.die d).paused = false →
    let v := u.resumeCore d core
    ((v.die d).core core).places = before ++ p :: after →
    (∀ q ∈ before, ∀ h, (v.die d).groupAt core (q / 8) = some h → (h.clearY (q % 8)).select (q % 8) = []) →
    (v.die d).groupAt core (p / 8) = some g → (g.clearY (p % 8)).select (p % 8) = first :: more →
    v.fetchWord d core (g.clearY (p % 8)).ctx.pn ((g.clearY (p % 8)).thread first).pc.toNat = (.ok x, t) →
    decodeWords (BitVec.ofNat 64 x) (some (BitVec.ofNat 64 (x / 2 ^ 64))) = .ok i →
    ((Instr.touches i (g.clearY (p % 8)) (p % 8) (first :: more)).any (g.clearY (p % 8)).isPending) = false →
    (((g.clearY (p % 8)).parked (p % 8) && !(g.clearY (p % 8)).trap.isSome && i.view.heldByPark) = false) →
    let mask := (i.sig ((g.clearY (p % 8)).slot64 i i.fields)).bankMask i.fields
    ((t.die d).core core).portFree p mask i.view.memRow = true →
    step s = settled (exec i ({ t with cur := ⟨d, core, p / 8, p % 8⟩ }.modDie d fun y => y.modCore core fun c =>
      { c.takePort p mask i.view.memRow with last := (g.clearY (p % 8)).lastWord i (first :: more) }))

/-- A step of the device that is its own turn is exec of that step, with what follows from it at once at its end (R12), where the
die whose engines make it is not paused (R406, R409) and the die whose units make it is not stopped (R406). The model's choice (log
entry 2) is that the agenda or a free choice names the turn; a step that carries a request comes from the agenda alone. -/
def Obligations.StepRunsDeviceStep : Prop :=
  ∀ (s u : State) (i : Instr), s.nextTurn = (.event i, u) → i.view = .step → (s.agenda ≠ [] ∨ asked i = false) →
    (∀ d, engineDie i = some d → (u.die d).paused = false) → (∀ d, unitDie i = some d → (u.die d).stopped = none) →
    step s = settled (exec i u)

/-- Every step keeps the invariant: eight dies, the bytes of each die's memory in canonical form, and no Unpopulated address
touched. The canonical form of memory is the model's choice (log entry 1); so is that a step which touches an Unpopulated address
ends in a fault, which `hole` carries to the step's end (log entries 77 and 79). -/
def Obligations.StepKeepsInv : Prop := ∀ s t : State, s.Inv → step s = .next t → t.Inv

/-- The state after reset has the invariant: eight dies, and, by the model's choices, memory that lists nothing (log entries 1 and
10) in canonical form (log entry 1), and no Unpopulated address touched (log entries 77 and 79). -/
def Obligations.ResetInv : Prop := State.reset.Inv

/-- What the spec states of reset, on each of the eight dies: PROCBASE, EPOCH and XINV are 0 and SETTLE.INTERVAL is 50,000
(R42), QNTROOT, QARG and QCMDST are 0 (R112), FSEL and FRBLK are 0 (R389), SAVEBASE and SAVEN are 0 (R392), SCHCTL.SWAPTH
is 2,000 (R369), ALARMST and THERM are 0 (R433), and the clock is 0 (R137). The model's choices beside them: memory lists nothing (log entries 1 and
10), no group runs (log entry 13), no Unpopulated address has been touched (log entries 77 and 79), and there is no session and no
connection (log entry 10). -/
def Obligations.ResetValues : Prop :=
  State.reset.dies.length = 8 ∧ State.reset.hole = none ∧ State.reset.host.sessionKey = none ∧ State.reset.host.conns = []
    ∧ ∀ x ∈ State.reset.dies,
      x.space.procbase = 0 ∧ x.space.epoch = 0 ∧ x.space.xinv = none ∧ x.space.interval = 50000 ∧ x.port.qntroot = 0 ∧ x.port.qarg = 0
        ∧ x.port.result = 0 ∧ x.port.status = 0 ∧ x.port.cmds = [] ∧ x.sched.fsel = 0 ∧ x.sched.frblk = 0 ∧ x.sched.savebase = 0
        ∧ x.sched.saven = 0 ∧ x.sched.swapth = 2000 ∧ x.alarm = 0 ∧ x.glitch = 0 ∧ x.tj = 0 ∧ x.power = 0 ∧ x.freqReq = 0
        ∧ x.freqPoint = 0 ∧ x.clock = 0 ∧ x.mem = [] ∧ x.groups = []

/-! ## The issue of a word (R190, R193, R204, R213, R241, R397) -/

/-- When a word issues. The warp whose turn it is has a group; its Select (R190) names threads; some of them have a true
guard (R204); the word passes the checks of R213; no active thread reads a poisoned source of its own (R395, R397). Then the checks give a
job: the active threads with their captured sources, at the PC of the first, and a state that differs in that group alone. -/
def Obligations.WordIssues : Prop :=
  ∀ (s : State) (i : Instr) (g : Group) (first : Nat) (more : List Nat),
    (s.die s.cur.d).groupAt s.cur.core s.cur.slot = some g → i.view ≠ .step →
    let warp := s.cur.warp
    let h := g.clearY warp
    let f := i.view.fields
    let sig := sigOf i (h.slot64 i f)
    let act := (first :: more).filter fun t => (h.thread t).guard f.guard
    h.select warp = first :: more → act ≠ [] → i.view.bad sig = none →
    sig.unallocated f h.ctx.frame.regs (if h.ctx.tilesOk then h.tiles.length else 0) = false → sig.legal = true →
    h.anyBadS (i.view.scalarSources warp) = false → (∀ t ∈ act, h.consumes (i.view.ownSources sig) f warp t = false) →
    ∃ j t, checksOf i s = .run j t ∧ j.d = s.cur.d ∧ j.gid = g.gid ∧ j.x.warp = warp ∧ j.ts = first :: more ∧ j.act = act
      ∧ j.x.lanes = act.map (h.capture sig f warp) ∧ j.x.pc = (h.thread first).pc.toNat ∧ j.f = f
      ∧ ∃ k, t = s.modGroup j.d j.gid fun _ => k

/-- Every word is checked before it has any effect: where no thread issues, nothing changes; where every guard is false, the issued
threads pass (R191, R204); and a word that fails a check of R213 or R241, or reads a poisoned source (R397), raises that precise
cause at its lanes and has no other effect (R380). -/
def Obligations.EveryWordIsChecked : Prop :=
  ∀ (i : Instr) (s : State), i.view ≠ .step →
    match checksOf i s with
    | .idle => exec i s = .next s
    | .skip j t => exec i s = .next (j.pass t)
    | .trap j t cause lanes => exec i s = .next (j.fault t cause lanes 0)
    | .run _ _ => True

/-! ## What each word does when it completes -/

/-- IADD, ISUB, IMUL, IMULH, IMAD, IMADW, IMIN, IMAX, IABS, INEG, ISAD and LEA, with their wide and short forms (R243, R245). -/
def Obligations.IntegerWords : Prop := ∀ w v u, ∀ c ∈ integerTable w v u, c.Holds

/-- The logic, shift, count, LOP3, bit-field and byte-permute words (R246 to R249). -/
def Obligations.LogicWords : Prop := ∀ w v u, ∀ c ∈ logicTable w v u, c.Holds

/-- ICMP, SEL, PSET, MOV, MOVI, IADDC and PMOV (R244, R250 to R253, R265). -/
def Obligations.PredicateWords : Prop := ∀ w v u, ∀ c ∈ predicateTable w v u, c.Holds

/-- The f32 and f64 words (R250, R254 to R258). -/
def Obligations.FloatWords : Prop := ∀ w, ∀ c ∈ floatTable w, c.Holds

/-- The packed FFMA words, CVT and CVTS (R259 to R262). -/
def Obligations.ConvertWords : Prop := ∀ w, ∀ c ∈ convertTable w, c.Holds

/-- BCAST, LANE, SHFL, VOTE, REDUX and MATCH (R266 to R271). -/
def Obligations.LaneWords : Prop := ∀ w u, ∀ c ∈ laneTable w u, c.Holds

/-- PACK and UNPK (R263, R264). -/
def Obligations.BlockWords : Prop := ∀ w, ∀ c ∈ blockTable w, c.Holds

/-- The scalar slots that write an s-register, beside their vector slot (R205, R207). -/
def Obligations.PairWords : Prop := ∀ p, ∀ c ∈ pairTable p, c.Holds

/-- The scalar slots that branch (R207, R274). -/
def Obligations.PairBranches : Prop := ∀ p, ∀ c ∈ pairBranchTable p, c.Holds

/-- BRA, BRA.u, BRAY, BRU and JMP (R272 to R275). -/
def Obligations.BranchWords : Prop := ∀ w v, ∀ c ∈ branchTable w v, c.Holds

/-- JTAB, CALL, CALLT, RET and REFORM (R194, R276 to R280). -/
def Obligations.CallWords : Prop := ∀ w v, ∀ c ∈ callTable w v, c.Holds

/-- NOP, FENCE, SLEEP, WAIT, EXIT and YIELD (R196, R281 to R283, R297, R390). The model's choices: every access is performed whole at
its own step, so that FENCE only passes (log entry 17); and YIELD stops its group at once (log entry 53). -/
def Obligations.WaitWords : Prop := ∀ w, ∀ c ∈ waitTable w, c.Holds

/-- LD, ST and ATOM of the window (R46, R288 to R296). -/
def Obligations.WindowWords : Prop := ∀ w, ∀ c ∈ windowTable w, c.Holds

/-- LD, ST, ATOM and PREF of memory (R284 to R298). -/
def Obligations.MemoryWords : Prop := ∀ w, ∀ c ∈ memoryTable w, c.Holds

/-- CINIT, CADD, CWAIT, CANCEL, PREF range and BAR (R299 to R307). -/
def Obligations.CounterWords : Prop := ∀ w v, ∀ c ∈ counterTable w v, c.Holds

/-- QBIND, QPUT, QGET, QWAIT, QSTAT, QRES, QCANCEL and LAUNCH (R309 to R319). -/
def Obligations.QueueWords : Prop := ∀ w v, ∀ c ∈ queueTable w v, c.Holds

/-- MLOOP, MZERO, MLDT, MST, MRD and MVER (R321 to R336). -/
def Obligations.TileWords : Prop := ∀ w u, ∀ c ∈ tileTable w u, c.Holds

/-- SFILL, SDRAIN and their queue forms, SREL, SJOIN and SWAIT (R337 to R348). -/
def Obligations.StreamWords : Prop := ∀ w, ∀ c ∈ streamTable w, c.Holds

/-- GATE, GRET, TRAP, BRK, TRET, RDSR and WRSR (R197, R208, R351, R355 to R358, R384). -/
def Obligations.SystemWords : Prop := ∀ w, ∀ c ∈ systemTable w, c.Holds

/-! ## What each step of the device does when it takes place -/

/-- Boot, the belay mirror, checkpoints and warm resets (R24, R403 to R406, R429). When each is taken, and that a checkpoint is one
step which sends its SAVEs, are the model's choices (log entries 110, 105 and 114). -/
def Obligations.BootSteps : Prop := ∀ d, ∀ c ∈ bootTable d, c.Holds

/-- Units that fail, links that narrow, frequency, heat and alarms (R20, R407 to R410, R426, R432, R435). The model's choices: the
causes that the loss of a unit needs, and that a ridge retrain which succeeds changes nothing more (log entry 66); when the heat is
read, and how ties between stages end (log entry 67); and one access performed whole at its step (log entry 16). -/
def Obligations.FailureSteps : Prop :=
  ∀ d unit cause link point celsius readings, ∀ c ∈ failureTable d unit cause link point celsius readings, c.Holds

/-- The memory controllers, the scrubber and bulk prefetch (R84, R88 to R97, R101). -/
def Obligations.ControllerSteps : Prop :=
  ∀ d a bad m32 data32 m64 data64 asub afmt blk core, ∀ c ∈ controllerTable d a bad m32 data32 m64 data64 asub afmt blk core, c.Holds

/-- Device registers, invalidations and the epoch (R41 to R43, R61). That the epoch of all live dies moves in one step, when each
has run its interval, is the model's choice (log entry 75). -/
def Obligations.SpaceSteps : Prop := ∀ d a size value pn vpn, ∀ c ∈ spaceTable d a size value pn vpn, c.Holds

/-- Answers to parked words and rows, and absent lines that have come (R59, R72, R343, R389). -/
def Obligations.AnswerSteps : Prop := ∀ d log gid warp, ∀ c ∈ answerTable d log gid warp, c.Holds

/-- Records, translation, placement, completion, commit, swapping and rebalancing (R160 to R188, R359 to R371, R377,
R391). The model's choices: which candidate is placed where several are equal (log entry 45), and that a rebalancing takes the first
pipeline that has a worker to move (log entry 50). -/
def Obligations.ScheduleSteps : Prop := ∀ d txid gid node, ∀ c ∈ scheduleTable d txid gid node, c.Holds

/-- Watchdogs, limits of waits, gate calls that end and cairns (R193 to R195, R281, R282, R304, R355, R400). That the watchdog's count
starts again at 0, and that a gate's timeout overrides an ending under way, are the model's choices (log entry 51). -/
def Obligations.LimitSteps : Prop := ∀ d gid warp thread level, ∀ c ∈ limitTable d gid warp thread level, c.Holds

/-- Matrix passes, stream rows and slots, and pending launches (R81, R310, R323, R342 to R346, R374, R375). -/
def Obligations.EngineSteps : Prop := ∀ d cluster core copy row, ∀ c ∈ engineTable d cluster core copy row, c.Holds

/-- Messages at a queue port, assignment and expiry of tickets (R115 to R128, R133 to R135). -/
def Obligations.MessageSteps : Prop := ∀ d k index ticket, ∀ c ∈ messageTable d k index ticket, c.Holds

/-- The memory service and page moves (R62, R63, R139 to R141). That MEMSVC_READ takes the elements whose OP is no other step's, and that
the smallest eligible ticket is the next one served, are the model's choices (log entry 36). -/
def Obligations.ServiceSteps : Prop := ∀ d k, ∀ c ∈ serviceTable d k, c.Holds

/-- Queue-port commands (R110 to R114, R125, R143, R144, R146). What a destroyed queue, a revoked registration and an invalidated name
leave is said in the spec's terms: NAME to every waiter, no ticket and no entry left (R125), REVOKED or the end of the
registration (R144). -/
def Obligations.CommandSteps : Prop := ∀ d index, ∀ c ∈ commandTable d index, c.Holds

/-- Frames, timeouts and lost dies (R126, R129, R132, R135, R424, R425). The model's choices: a replay timeout may come at any time
(log entry 43), and a loss is known first to the port that notices it alone (log entry 42). -/
def Obligations.LinkSteps : Prop :=
  ∀ d link k lost offset pkg die bs, ∀ c ∈ linkTable d link k lost offset pkg die bs, c.Holds

/-- The host port (R145 to R148, R420). The model's choices: one step sends one element (log entry 107); what a retransmission sends
again (log entry 101) and how the window follows it (log entry 73); the timer's start and the SEQ of an ACK (log entries 120 and
123). -/
def Obligations.HostSteps : Prop := ∀ fr conn target, ∀ c ∈ hostTable fr conn target, c.Holds

/-- The management commands (R39, R421 to R423, R428 to R431). The model's choices: the places and widths of the fields of a payload
(log entry 71), and the relay of a command to its die and of the reply back as messages between the cores (log entries 72 and
111). -/
def Obligations.ManagementSteps : Prop := ∀ fr, ∀ c ∈ mgmtTable fr, c.Holds

/-! ## Frames -/

/-- The integer, logic, compare, select, move, predicate, f32, f64, packed, conversion, lane, block and RDSR words, and the scalar slots
that write an s-register, change nothing but what they write, and the PC and M of the issued threads: no other register, predicate,
special register, byte of the window or byte of memory. What they write is their destination, p6 for IADDC (R244), the
predicates of MASK for PMOV to predicates (R253), and for a P word the destinations of its two slots (R205). WRSR changes nothing but
the special register that it names (R208). -/
def Obligations.RegisterWordFrame : Prop :=
  (∀ w v u p, ∀ x ∈ writtenRows w v u p, ∀ s j t, x.c.checks s = .run j t → x.c.ok j t = true →
    ∃ n, exec x.c.i s = .next n ∧ onlyGroup j.d j.gid t n ∧ onlyWrites j (x.ds j) 2 x.preds noWord (j.group t) (j.group n)
      ∧ ∀ nid r i, lineByte (n.die j.d) nid r i = lineByte (t.die j.d) nid r i)
    ∧ ∀ w, ∀ c ∈ wrsrTable w, ∀ s j t, c.checks s = .run j t → c.ok j t = true →
      ∃ n, exec c.i s = .next n ∧ onlyGroup j.d j.gid t n ∧ onlySpecial j (j.group t) (j.group n)
        ∧ ∀ nid r i, lineByte (n.die j.d) nid r i = lineByte (t.die j.d) nid r i

/-- A result of k registers goes to every active lane's own registers n to n + k − 1, and clears their poison (R45, R70, R206). -/
def Obligations.ResultReachesRegisters : Prop :=
  ∀ (j : Job) (s : State) (f : LaneSrc → Nat) (n : BitVec 7) (l : LaneSrc) (m : Nat),
    (s.group? j.d j.gid).isSome = true → j.f.dst = .v n → j.act.Nodup → l ∈ j.x.lanes → m < (j.sig.dst.width + 31) / 32 →
    n.toNat + (j.sig.dst.width + 31) / 32 ≤ (j.group s).ctx.frame.regs →
      (j.group (j.perLane s f)).word ((j.group s).vWord l.t (n.toNat + m)) = ⟨BitVec.ofNat 32 (f l / 2 ^ (32 * m)), false⟩

/-- The window's frames (R46, R288, R290, R294). A ST.win stores each active lane's bytes at that lane's offset, and changes no byte
of the partition outside them; each byte that no higher lane covers is the one its lane stores. Unless a thread waits in WAIT, no
register and no predicate changes. A LD.win changes its destination alone; an ATOM.win its destination, the predicate of PD and the
words at its offsets. No word of the window changes memory. -/
def Obligations.WindowStoreFrame : Prop :=
  (∀ w, ∀ x ∈ windowWords w, ∀ s j t, checksOf x.1 s = .run j t → windowOpen j t x.2 true (windowOff j) = true →
    let g := j.group t
    let base := g.ctx.frame.base
    ∃ n, exec x.1 s = .next n ∧ onlyGroup j.d j.gid t n
      ∧ (∀ a, (∀ l ∈ j.x.lanes, a < base + windowOff j l ∨ base + windowOff j l + x.2 ≤ a) → ((j.group n).partByte a).1 = (g.partByte a).1)
      ∧ (∀ before l after, j.x.lanes = before ++ l :: after → ∀ k, k < x.2 →
          (∀ m ∈ after, windowOff j l + k < windowOff j m ∨ windowOff j m + x.2 ≤ windowOff j l + k) →
            ((j.group n).partByte (base + windowOff j l + k)).1 = BitVec.ofNat 8 (l.c.toNat / 256 ^ k))
      ∧ (noWait g = true → (j.group n) = { g with threads := (j.group n).threads, part := (j.group n).part }
            ∧ ∀ a, ((j.group n).thread a).preds = (g.thread a).preds)
      ∧ ∀ nid r i, lineByte (n.die j.d) nid r i = lineByte (t.die j.d) nid r i)
    ∧ (∀ w, ∀ x ∈ (windowLoads w).zip loadSizes, ∀ s j t, x.1.checks s = .run j t → x.1.ok j t = true →
      ∃ n, exec x.1.i s = .next n ∧ onlyGroup j.d j.gid t n
        ∧ onlyWrites j [j.f.dst] ((x.2 + 3) / 4) [] noWord (j.group t) (j.group n)
        ∧ ∀ nid r i, lineByte (n.die j.d) nid r i = lineByte (t.die j.d) nid r i)
    ∧ ∀ w, ∀ x ∈ windowAtoms w, ∀ s j t, x.1.checks s = .run j t → x.1.ok j t = true → noWait (j.group t) = true →
      ∃ n, exec x.1.i s = .next n ∧ onlyGroup j.d j.gid t n
        ∧ onlyWrites j [j.f.dst] (x.2 / 4) (predOut j)
            (fun k => ∃ l ∈ j.x.lanes, ∃ i, i < x.2 ∧ k = ((j.group t).ctx.frame.base + l.a.toNat % 2 ^ 32 + i) / 4) (j.group t) (j.group n)
        ∧ ∀ nid r i, lineByte (n.die j.d) nid r i = lineByte (t.die j.d) nid r i

/-- A store to a line of an ordinary page, for which no other line has to leave the slice, changes the bytes that it names and no
other byte of any ordinary line, for any node: whether it is tentative (R167), goes to a line that stands in its slice, or brings
its line in (R80); and the node reads back what it stored. -/
def Obligations.LineStoreFrame : Prop :=
  ∀ (d : Die) (q : Asking) (r : LineRef) (bs : List (Nat × Byte)),
    plainLine r → (∀ b ∈ bs, b.1 < 64) → roomFor d r ∨ standsThere d q.node r → placesApart d q.node →
      (∀ nid r' i, plainLine r' → i < 64 → (sameLine d r r' → ∀ b ∈ bs, b.1 ≠ i) →
          lineByte (d.storeLine q r bs) nid r' i = lineByte d nid r' i)
        ∧ ∀ b ∈ bs, (bs.filter fun c => c.1 == b.1) = [b] → lineByte (d.storeLine q r bs) q.node r b.1 = some b.2

/-- A committed line that leaves its slice is written back: each dirty byte of a sector that is not marked poison is in memory, unless the
sector is offline or poisoned there; and memory changes in no other sector (R80). -/
def Obligations.EvictWritesBack : Prop :=
  ∀ (d : Die) (l : L2Line), Memory.wf d.mem = true → l.node = none → l.pres = none → l.line % 64 = 0 →
    (∀ i, i < 64 → l.dirty.toNat.testBit i → l.valid.toNat.testBit i → l.mark.toNat.testBit (i / 32) = false →
        d.sectorBad (l.line / 32 + i / 32) = false →
          memGet (d.evict l).mem (l.line + i) = (l.byte i).1 ∧ inRanges (d.evict l).zpend (l.line / 32 + i / 32) = false)
      ∧ (∀ a, a < l.line ∨ l.line + 64 ≤ a → memGet (d.evict l).mem a = memGet d.mem a)
      ∧ ∀ k, k ≠ l.line / 32 → k ≠ l.line / 32 + 1 → (d.evict l).sectorBad k = d.sectorBad k ∧ inRanges (d.evict l).zpend k = inRanges d.zpend k

/-- The frames of ST, LD and ATOM of memory, for lines that stand in their slices and a node whose writes are not tentative; `p` are
the places that the checks of their addresses give, and the state after these checks (R284, R288, R290, R294). A ST changes exactly the
bytes at its places: each that no later lane covers reads back as the byte stored, every other byte of every ordinary line reads as
before for every node, and of the group only the PC and M of the issued threads change. A LD changes no byte, and of the group its
destination alone. An ATOM changes no byte but those at its places, and of the group its destination and the predicate of PD. Nothing
changes on another die. -/
def Obligations.MemoryStoreFrame : Prop :=
  (∀ w, ∀ x ∈ storeWords w, ∀ s j t, checksOf x.1 s = .run j t → storesInPlace j t x.2 →
    let p := storePlaces j t x.2
    let d := p.2.die j.d
    ∃ n, exec x.1 s = .next n ∧ (∀ e, e ≠ j.d → n.die e = p.2.die e)
      ∧ (∀ nid r i, plainLine r → i < 64 → (∀ l ∈ p.1, ∀ k ∈ l.spots, ¬spotIs d k r i) → lineByte (n.die j.d) nid r i = lineByte d nid r i)
      ∧ (∀ before l after, p.1.zip (j.x.lanes.map fun y => toBytes x.2 y.c.toNat) = before ++ l :: after →
          ∀ r i b, (Spot.line r i, b) ∈ l.1.spots.zip l.2 → (∀ c ∈ l.1.spots.zip l.2, spotIs d c.1 r i → c.2 = b) →
            (∀ m ∈ after, ∀ k ∈ m.1.spots, ¬spotIs d k r i) → lineByte (n.die j.d) (j.group p.2).node r i = some b)
      ∧ onlyWrites j [] 0 [] noWord (j.group p.2) (j.group n))
    ∧ (∀ w, ∀ x ∈ (memoryLoads w).zip loadSizes, ∀ s j t, x.1.checks s = .run j t → x.1.ok j t = true →
      let p := readPlaces j t x.2
      inSlices (p.2.die j.d) (j.group p.2).node p.1 →
        ∃ n, exec x.1.i s = .next n ∧ (∀ e, e ≠ j.d → n.die e = p.2.die e) ∧ sameLines (p.2.die j.d) (n.die j.d)
          ∧ onlyWrites j [j.f.dst] ((x.2 + 3) / 4) [] noWord (j.group p.2) (j.group n))
    ∧ ∀ w, ∀ x ∈ atomRows w, ∀ s j t, x.1.checks s = .run j t → x.1.ok j t = true →
      let p := atomPlaces j t x.2
      let d := p.2.die j.d
      writesInPlace j x.2 p →
        ∃ n, exec x.1.i s = .next n ∧ (∀ e, e ≠ j.d → n.die e = p.2.die e)
          ∧ (∀ nid r i, plainLine r → i < 64 → (∀ l ∈ p.1, ∀ k ∈ l.spots, ¬spotIs d k r i) → lineByte (n.die j.d) nid r i = lineByte d nid r i)
          ∧ onlyWrites j [j.f.dst] (x.2 / 4) (predOut j) noWord (j.group p.2) (j.group n)

/-- A branch changes nothing but PCs, M and the yield of BRAY: every register, every special register, the window and memory stay (R272
to R275). A scalar slot that branches changes PCs, M and the destination of its vector slot, and nothing else (R205, R207). -/
def Obligations.BranchFrame : Prop :=
  (∀ w v, ∀ c ∈ branchTable w v, ∀ s j t, c.checks s = .run j t → c.ok j t = true →
    ∃ n, exec c.i s = .next n ∧ onlyGroup j.d j.gid t n ∧ (j.group n) = { j.group t with threads := (j.group n).threads }
      ∧ ∀ a, (j.group n).thread a
          = { (j.group t).thread a with pc := ((j.group n).thread a).pc, m := ((j.group n).thread a).m, y := ((j.group n).thread a).y })
    ∧ ∀ p, ∀ c ∈ pairBranchTable p, ∀ s j t, c.checks s = .run j t → c.ok j t = true →
      ∃ n, exec c.i s = .next n ∧ onlyGroup j.d j.gid t n ∧ onlyWrites j [p.vdst] 2 [] noWord (j.group t) (j.group n)
        ∧ ∀ nid r i, lineByte (n.die j.d) nid r i = lineByte (t.die j.d) nid r i

/-- A masked write to a sector that reads poisoned changes nothing, and a write of the whole sector or a ZERO makes it clean, on a
channel that is not offline (R90, R94). -/
def Obligations.PoisonSectors : Prop :=
  ∀ (d : Die) (sec mask : Nat) (bs : List Byte),
    Memory.wf d.mem = true → bs.length = 32 → d.sectorBad sec = true → d.channelOffline (d.channelOf (32 * sec)) = false →
      (mask ≠ 2 ^ 32 - 1 → d.writeSector sec mask bs = d)
        ∧ (d.writeSector sec (2 ^ 32 - 1) bs).sectorBad sec = false ∧ (d.writeSector sec (2 ^ 32 - 1) bs).sectorBytes sec = bs
        ∧ (d.zeroRange (32 * sec) 32).sectorBad sec = false ∧ (d.zeroRange (32 * sec) 32).sectorBytes sec = List.replicate 32 0

/-! ## Traps -/

/-- A precise cause other than POISON, in a group that has a handler and is not in it, is delivered to the warp of its word (R381,
R382): the group is in its handler; TRAPCAUSE, TRAPPC and TRAPADDR name the cause, the word and the address; every member of
the warp stands at HANDLER with Y and M 0 and its DEPTH and predicates kept; no other thread and no s-register changes; and
the frame at B3 holds the cause, the warp, the flag precise, TRAPPC, TRAPADDR, each member's PC and each s-register (R383). -/
def Obligations.PreciseTrapDelivered : Prop :=
  ∀ (s : State) (d gid cause warp : Nat) (lanes : List Nat) (pc addr : DWord) (len : Nat) (g : Group),
    s.group? d gid = some g → cause ≠ Cause.poison → cause < 2 ^ 16 → warp < 2 ^ 8 → g.trap = none → g.ctx.handler ≠ 0 → quiet g warp →
      ∃ h, (s.precise d gid cause warp lanes pc addr len).group? d gid = some h ∧ (h.trap.any fun t => t.cause == cause && t.warp == warp && t.precise)
        ∧ h.ctx.trapcause.toNat = cause ∧ h.ctx.trappc = pc ∧ h.ctx.trapaddr = addr ∧ h.ctx.handler = g.ctx.handler
        ∧ (∀ t ∈ g.members warp, h.thread t = { g.thread t with pc := g.ctx.handler, y := false, m := false })
        ∧ (∀ t, t ∉ g.members warp → h.thread t = g.thread t) ∧ h.sregs = g.sregs
        ∧ let fr := (h.window h.b3 1024).1
          frameField fr 0 2 = cause ∧ frameField fr 2 1 = warp ∧ frameField fr 3 1 = 1 ∧ frameField fr 8 8 = pc.toNat ∧ frameField fr 16 8 = addr.toNat
            ∧ (∀ t ∈ g.members warp, frameField fr (0x40 + 8 * (t % 32)) 8 = (g.thread t).pc.toNat)
            ∧ ∀ n, n < 64 → frameField fr (0x200 + 8 * n) 8 = (g.sreg warp n).val.toNat

/-- A trap and a TRET of the frame as it was written bring the warp back: every thread of the group stands as before the trap, every
s-register of the warp has its value, and the group is out of its handler (R382 to R384). -/
def Obligations.TrapRoundTrip : Prop :=
  ∀ (g : Group) (tr : Trap) (pc addr : DWord), quiet g tr.warp → tr.lanes.Nodup → (∀ l ∈ tr.lanes, l < 32) →
    let h := g.enterHandler tr pc addr
    let k := h.leaveHandler tr (h.window h.b3 1024).1 false
    (∀ t, k.thread t = g.thread t) ∧ (∀ n, n < 64 → (k.sreg tr.warp n).val = (g.sreg tr.warp n).val) ∧ k.trap = none

/-- A precise cause other than POISON kills a group that has no handler, outside every gate call (R386), and one that is in its
handler (R385). -/
def Obligations.PreciseCauseKills : Prop :=
  ∀ (s : State) (d gid cause warp : Nat) (lanes : List Nat) (pc addr : DWord) (len : Nat) (g : Group),
    s.group? d gid = some g → cause ≠ Cause.poison → (g.trap.isSome = true ∧ g.poisonDue = none) ∨ (g.trap = none ∧ g.ctx.handler = 0 ∧ g.gateDepth = 0) →
      s.precise d gid cause warp lanes pc addr len = s.killWith d gid St.killed

/-! ## Rules of the spec -/

/-- R222: the values of the E2M1 codes, in halves. Bit 3 is the sign (the code 8 reads as +0, R224), and no
code is an infinity or a NaN. -/
def Obligations.E2M1Values : Prop :=
  ∀ c k, c < 16 →
    let v := BlockFmt.codeValue ⟨0x20, k⟩ c
    v.isNan = false ∧ v.isInf = false ∧ v.neg = (c.testBit 3 && c != 8)
      ∧ v.units (-1) = (if c.testBit 3 then -1 else 1) * (([0, 1, 2, 3, 4, 6, 8, 12] : List Int).getD (c % 8) 0)

/-- R66: an ANCHORED leaf whose AEPOCH is not EPOCH mod 256 is taken as REMOTE, and a MEPOCH that is not makes the page's count zero;
both compare 8 bits alone. -/
def Obligations.EpochStamps : Prop :=
  ∀ (d : Die) (svc : Bool) (acc : Acc) (e : Nat),
    (leafType e = 3 → bits e 31 24 ≠ d.space.epoch.toNat % 256 → d.leafCause svc acc e = Cause.remote)
      ∧ (leafType e = 3 → bits e 31 24 = d.space.epoch.toNat % 256 → d.leafCause svc acc e = Cause.anchored)
      ∧ (bits e 59 52 ≠ d.space.epoch.toNat % 256 → d.moveCount e = 0)
      ∧ (bits e 59 52 = d.space.epoch.toNat % 256 → d.moveCount e = bits e 13 12)

/-- R118: the eligible elements of a queue, and the one that is served. Tickets are compared modulo 2^48 (R115). -/
def Obligations.EligibleElements : Prop :=
  ∀ q : Queue, q.tickets.Pairwise (fun a b => ticketBefore a.num b.num = true) → (∀ t ∈ q.tickets, t.num < 2 ^ 48) →
    (∀ t, t ∈ q.eligible ↔
        t ∈ q.tickets ∧ t.st = .committed ∧ ¬∃ e ∈ q.tickets, ticketBefore e.num t.num = true ∧ e.prod = t.prod ∧ e.st = .granted)
      ∧ (∀ t, q.eligible.head? = some t → ∀ u ∈ q.eligible, u = t ∨ ticketBefore t.num u.num = true)
      ∧ (∀ (s : State) (d : Nat) (t : Ticket) (w : Waiter) (ws : List Waiter),
          q.waiters = w :: ws → q.eligible.head? = some t →
            s.assign d q = (s.modDie d fun x => x.modQueue q.index fun p => { p with waiters := ws }).serveLogged d q.index t w)
      ∧ ∀ t, q.eligible.head? = some t → ∀ e ∈ q.tickets, e.prod = t.prod → ticketBefore e.num t.num = true →
          e.st ≠ .committed ∧ e.st ≠ .granted

/-- R45: where a thread's registers and its return stack lie in the window, for the thread of home row w and lane l. -/
def Obligations.WindowLocations : Prop :=
  ∀ (g : Group) (w l n j : Nat), l < 32 → g.ctx.frame.base % 4 = 0 → j < g.ctx.frame.rse →
    4 * g.vWord (32 * w + l) n = g.ctx.frame.base + ((w * g.ctx.frame.regs + n) * 128 + l * 4)
      ∧ g.returnSlot (32 * w + l) j = g.b2 + ((w * g.ctx.frame.rse + j) * 32 + l) * 8

/-- R247: each bit of LOP3's result comes from its table, and a word with one of bits 15:9 set is not well formed. -/
def Obligations.Lop3Bits : Prop :=
  ∀ w : RegWord,
    (eachLane (.lop3 w) fun l => fromBits (opw w.mod) fun i =>
      bit (bits w.imm.toNat 7 0) ((bit l.a.toNat i).toNat + 2 * (bit l.b.toNat i).toNat + 4 * (bit l.c.toNat i).toNat) != bit w.imm.toNat 8).Holds
      ∧ (bits w.imm.toNat 15 9 ≠ 0 → ¬(Instr.lop3 w).WellFormed)
end

