-- ==== Sys2Proof/Laws/Memory.lean ====
section
/-! SUPPORT. The list of memory bytes: a write is read back, leaves every other byte alone, and keeps the canonical
form. -/

namespace Sys2Proof.Machine

/-- A form that holds from an address on holds from every lower one. -/
theorem memWfFrom_mono {lo lo' : Nat} {m : List Host.Cell} (h : memWfFrom lo m = true) (hl : lo' ≤ lo) :
    memWfFrom lo' m = true := by
  cases m with
  | nil => rfl
  | cons c m =>
    simp only [memWfFrom, Bool.and_eq_true, decide_eq_true_eq] at h ⊢
    exact ⟨⟨by omega, h.1.2⟩, h.2⟩

/-- Below its first address a canonical list reads 0. -/
theorem memGet_below {lo a : Nat} {m : List Host.Cell} (h : memWfFrom lo m = true) (ha : a < lo) : memGet m a = 0 := by
  cases m with
  | nil => rfl
  | cons c m =>
    simp only [memWfFrom, Bool.and_eq_true, decide_eq_true_eq] at h
    have h1 : c.1 ≠ a := by omega
    have h2 : a < c.1 := by omega
    simp [memGet, h1, h2]

/-- A write keeps the canonical form. -/
theorem memSet_wfFrom {lo a : Nat} (b : Byte) {m : List Host.Cell} (h : memWfFrom lo m = true) (ha : lo ≤ a) :
    memWfFrom lo (memSet m a b) = true := by
  induction m generalizing lo with
  | nil =>
    by_cases hb : b = 0
    · simp [memSet, hb, memWfFrom]
    · simp only [memSet, if_neg hb, memWfFrom, Bool.and_true, Bool.and_eq_true, decide_eq_true_eq]
      exact ⟨ha, by simpa using hb⟩
  | cons c m ih =>
    obtain ⟨k, v⟩ := c
    simp only [memWfFrom, Bool.and_eq_true, decide_eq_true_eq] at h
    simp only [memSet]
    split
    · simp only [memWfFrom, Bool.and_eq_true, decide_eq_true_eq]
      exact ⟨h.1, ih h.2 (by omega)⟩
    · split
      · split
        · exact memWfFrom_mono h.2 (by omega)
        · rename_i hb
          subst_vars
          simp only [memWfFrom, Bool.and_eq_true, decide_eq_true_eq]
          exact ⟨⟨ha, by simpa using hb⟩, h.2⟩
      · split
        · simp only [memWfFrom, Bool.and_eq_true, decide_eq_true_eq]
          exact h
        · rename_i hb
          simp only [memWfFrom, Bool.and_eq_true, decide_eq_true_eq]
          exact ⟨⟨ha, by simpa using hb⟩, ⟨by omega, h.1.2⟩, h.2⟩

/-- Every write of one byte keeps the canonical form. -/
theorem memSet_wf (a : Nat) (b : Byte) {m : List Host.Cell} (h : Memory.wf m = true) : Memory.wf (memSet m a b) = true :=
  memSet_wfFrom b h (Nat.zero_le a)

/-- Every write of several bytes keeps the canonical form. -/
@[simp] theorem memPut_wf (a mask : Nat) (bs : List Byte) (m : List Host.Cell) (h : Memory.wf m = true) :
    Memory.wf (memPut m a mask bs) = true := by
  induction bs generalizing m a mask with
  | nil => exact h
  | cons b bs ih =>
    simp only [memPut]
    split
    · exact ih _ _ _ (memSet_wf a b h)
    · exact ih _ _ _ h

/-- Zeroing a sector keeps the canonical form. -/
@[simp] theorem zeroSectorBytes_wf (sec : Nat) (m : List Host.Cell) (h : Memory.wf m = true) :
    Memory.wf (zeroSectorBytes m sec) = true := memPut_wf _ _ _ m h

/-- A byte written is read back. -/
theorem memGet_memSet_same {lo a : Nat} (b : Byte) {m : List Host.Cell} (h : memWfFrom lo m = true) :
    memGet (memSet m a b) a = b := by
  induction m generalizing lo with
  | nil =>
    by_cases hb : b = 0
    · simp [memSet, hb, memGet]
    · simp only [memSet, if_neg hb, memGet, if_true]
  | cons c m ih =>
    obtain ⟨k, v⟩ := c
    simp only [memWfFrom, Bool.and_eq_true, decide_eq_true_eq] at h
    simp only [memSet]
    split
    · rename_i hk
      have h1 : k ≠ a := by omega
      have h2 : ¬ a < k := by omega
      simp only [memGet, h1, h2, if_false]
      exact ih h.2
    · split
      · rename_i hk
        subst hk
        split
        · rename_i hb
          rw [memGet_below h.2 (by omega), hb]
        · simp [memGet]
      · split
        · rename_i hb
          have h1 : k ≠ a := by omega
          have h2 : a < k := by omega
          simp [memGet, h1, h2, hb]
        · simp [memGet]

/-- A byte at another address is left alone. -/
theorem memGet_memSet_other {lo a x : Nat} (b : Byte) {m : List Host.Cell} (h : memWfFrom lo m = true) (hx : x ≠ a) :
    memGet (memSet m a b) x = memGet m x := by
  induction m generalizing lo with
  | nil =>
    by_cases hb : b = 0
    · simp [memSet, hb]
    · have : a ≠ x := fun e => hx e.symm
      simp only [memSet, if_neg hb, memGet, this, if_false, ite_self]
  | cons c m ih =>
    obtain ⟨k, v⟩ := c
    simp only [memWfFrom, Bool.and_eq_true, decide_eq_true_eq] at h
    simp only [memSet]
    split
    · simp only [memGet]
      split
      · rfl
      · split
        · rfl
        · exact ih h.2
    · split
      · rename_i hk
        subst hk
        have h1 : k ≠ x := fun e => hx e.symm
        split
        · simp only [memGet, h1, if_false]
          split
          · exact memGet_below h.2 (by omega)
          · rfl
        · simp [memGet, h1]
      · split
        · rfl
        · have h1 : a ≠ x := fun e => hx e.symm
          rename_i hk1 hk2 hb
          simp only [memGet, h1, if_false]
          split
          · have h2 : k ≠ x := by omega
            have h3 : x < k := by omega
            simp [h2, h3]
          · rfl

/-- Bit i of a number. -/
theorem bit_half (mask i : Nat) : bit (mask / 2) i = bit mask (i + 1) := by
  simp [bit, Nat.testBit_succ]

/-- What a byte reads after a masked write of several bytes. -/
theorem memGet_memPut {a : Nat} (mask : Nat) (bs : List Byte) {m : List Host.Cell} (h : Memory.wf m = true) (x : Nat) :
    memGet (memPut m a mask bs) x =
      if a ≤ x ∧ x < a + bs.length ∧ bit mask (x - a) = true then bs.getD (x - a) 0 else memGet m x := by
  induction bs generalizing m a mask with
  | nil =>
    have : ¬ (a ≤ x ∧ x < a + ([] : List Byte).length ∧ bit mask (x - a) = true) := by
      simp only [List.length_nil]; omega
    simp only [memPut, this, if_false]
  | cons b bs ih =>
    simp only [memPut]
    have hw : Memory.wf (if bit mask 0 = true then memSet m a b else m) = true := by
      split
      · exact memSet_wf a b h
      · exact h
    rw [ih (a := a + 1) (mask / 2) hw]
    by_cases hx : x = a
    · subst hx
      have h1 : ¬ (x + 1 ≤ x ∧ x < x + 1 + bs.length ∧ bit (mask / 2) (x - (x + 1)) = true) := by omega
      simp only [h1, if_false, Nat.sub_self, List.length_cons]
      by_cases hb : bit mask 0 = true
      · simp only [hb, if_true, and_true]
        rw [memGet_memSet_same b h]
        have : x ≤ x ∧ x < x + (bs.length + 1) := by omega
        simp [this]
      · simp [hb]
    · have hget : memGet (if bit mask 0 = true then memSet m a b else m) x = memGet m x := by
        split
        · exact memGet_memSet_other b h hx
        · rfl
      rw [hget, bit_half]
      by_cases hr : a + 1 ≤ x ∧ x < a + 1 + bs.length
      · have e : x - (a + 1) + 1 = x - a := by omega
        have hr' : a ≤ x ∧ x < a + (bs.length + 1) := by omega
        have e2 : x - a = (x - (a + 1)) + 1 := by omega
        simp only [hr.1, hr.2, true_and, e, List.length_cons, hr'.1, hr'.2]
        rw [e2, List.getD_cons_succ]
      · have h1 : ¬ (a + 1 ≤ x ∧ x < a + 1 + bs.length ∧ bit mask (x - (a + 1) + 1) = true) := fun hh => hr ⟨hh.1, hh.2.1⟩
        have h2 : ¬ (a ≤ x ∧ x < a + (b :: bs).length ∧ bit mask (x - a) = true) := by
          intro hh
          have := hh.2.1
          simp only [List.length_cons] at this
          omega
        rw [if_neg h1, if_neg h2]

end Sys2Proof.Machine
end

