-- ==== Sys2Proof/Laws/State.lean ====
section
/-! SUPPORT. What each update of State, of a die and of a group leaves as it is, one field at a time. -/

namespace Sys2Proof.Machine

/-! ## State: a die changed -/

@[simp] theorem State.modDie_pkg (s : State) (d : Nat) (f : Die → Die) : (s.modDie d f).pkg = s.pkg := rfl
@[simp] theorem State.modDie_host (s : State) (d : Nat) (f : Die → Die) : (s.modDie d f).host = s.host := rfl
@[simp] theorem State.modDie_power (s : State) (d : Nat) (f : Die → Die) : (s.modDie d f).power = s.power := rfl
@[simp] theorem State.modDie_cur (s : State) (d : Nat) (f : Die → Die) : (s.modDie d f).cur = s.cur := rfl
@[simp] theorem State.modDie_agenda (s : State) (d : Nat) (f : Die → Die) : (s.modDie d f).agenda = s.agenda := rfl
@[simp] theorem State.modDie_freeNo (s : State) (d : Nat) (f : Die → Die) : (s.modDie d f).freeNo = s.freeNo := rfl
@[simp] theorem State.modDie_nextId (s : State) (d : Nat) (f : Die → Die) : (s.modDie d f).nextId = s.nextId := rfl
@[simp] theorem State.modDie_hole (s : State) (d : Nat) (f : Die → Die) : (s.modDie d f).hole = s.hole := rfl
@[simp] theorem State.modDie_dies (s : State) (d : Nat) (f : Die → Die) : (s.modDie d f).dies = s.dies.modify d f := rfl

/-! ## State: a group changed -/

@[simp] theorem State.modGroup_pkg (s : State) (d gid : Nat) (f : Group → Group) : (s.modGroup d gid f).pkg = s.pkg := rfl
@[simp] theorem State.modGroup_host (s : State) (d gid : Nat) (f : Group → Group) : (s.modGroup d gid f).host = s.host := rfl
@[simp] theorem State.modGroup_power (s : State) (d gid : Nat) (f : Group → Group) : (s.modGroup d gid f).power = s.power := rfl
@[simp] theorem State.modGroup_cur (s : State) (d gid : Nat) (f : Group → Group) : (s.modGroup d gid f).cur = s.cur := rfl
@[simp] theorem State.modGroup_agenda (s : State) (d gid : Nat) (f : Group → Group) : (s.modGroup d gid f).agenda = s.agenda := rfl
@[simp] theorem State.modGroup_freeNo (s : State) (d gid : Nat) (f : Group → Group) : (s.modGroup d gid f).freeNo = s.freeNo := rfl
@[simp] theorem State.modGroup_nextId (s : State) (d gid : Nat) (f : Group → Group) : (s.modGroup d gid f).nextId = s.nextId := rfl
@[simp] theorem State.modGroup_hole (s : State) (d gid : Nat) (f : Group → Group) : (s.modGroup d gid f).hole = s.hole := rfl

/-! ## State: a free value drawn, a name taken -/

@[simp] theorem State.draw_dies (s : State) : (s.draw.2).dies = s.dies := rfl
@[simp] theorem State.draw_pkg (s : State) : (s.draw.2).pkg = s.pkg := rfl
@[simp] theorem State.draw_host (s : State) : (s.draw.2).host = s.host := rfl
@[simp] theorem State.draw_power (s : State) : (s.draw.2).power = s.power := rfl
@[simp] theorem State.draw_cur (s : State) : (s.draw.2).cur = s.cur := rfl
@[simp] theorem State.draw_agenda (s : State) : (s.draw.2).agenda = s.agenda := rfl
@[simp] theorem State.draw_nextId (s : State) : (s.draw.2).nextId = s.nextId := rfl
@[simp] theorem State.draw_hole (s : State) : (s.draw.2).hole = s.hole := rfl
@[simp] theorem State.draw_freeNo (s : State) : s.draw.2.freeNo = s.freeNo + 1 := rfl
@[simp] theorem State.newId_dies (s : State) : (s.newId.2).dies = s.dies := rfl
@[simp] theorem State.newId_pkg (s : State) : (s.newId.2).pkg = s.pkg := rfl
@[simp] theorem State.newId_host (s : State) : (s.newId.2).host = s.host := rfl
@[simp] theorem State.newId_power (s : State) : (s.newId.2).power = s.power := rfl
@[simp] theorem State.newId_cur (s : State) : (s.newId.2).cur = s.cur := rfl
@[simp] theorem State.newId_agenda (s : State) : (s.newId.2).agenda = s.agenda := rfl
@[simp] theorem State.newId_freeNo (s : State) : (s.newId.2).freeNo = s.freeNo := rfl
@[simp] theorem State.newId_hole (s : State) : (s.newId.2).hole = s.hole := rfl
@[simp] theorem State.newId_nextId (s : State) : s.newId.2.nextId = s.nextId + 1 := rfl

/-! ## Die: a group changed -/

@[simp] theorem Die.modGroup_phase (d : Die) (gid : Nat) (f : Group → Group) : (d.modGroup gid f).phase = d.phase := rfl
@[simp] theorem Die.modGroup_flash (d : Die) (gid : Nat) (f : Group → Group) : (d.modGroup gid f).flash = d.flash := rfl
@[simp] theorem Die.modGroup_conf (d : Die) (gid : Nat) (f : Group → Group) : (d.modGroup gid f).conf = d.conf := rfl
@[simp] theorem Die.modGroup_space (d : Die) (gid : Nat) (f : Group → Group) : (d.modGroup gid f).space = d.space := rfl
@[simp] theorem Die.modGroup_port (d : Die) (gid : Nat) (f : Group → Group) : (d.modGroup gid f).port = d.port := rfl
@[simp] theorem Die.modGroup_sched (d : Die) (gid : Nat) (f : Group → Group) : (d.modGroup gid f).sched = d.sched := rfl
@[simp] theorem Die.modGroup_memctl (d : Die) (gid : Nat) (f : Group → Group) : (d.modGroup gid f).memctl = d.memctl := rfl
@[simp] theorem Die.modGroup_mem (d : Die) (gid : Nat) (f : Group → Group) : (d.modGroup gid f).mem = d.mem := rfl
@[simp] theorem Die.modGroup_poisonSec (d : Die) (gid : Nat) (f : Group → Group) : (d.modGroup gid f).poisonSec = d.poisonSec := rfl
@[simp] theorem Die.modGroup_zpend (d : Die) (gid : Nat) (f : Group → Group) : (d.modGroup gid f).zpend = d.zpend := rfl
@[simp] theorem Die.modGroup_poisonPending (d : Die) (gid : Nat) (f : Group → Group) : (d.modGroup gid f).poisonPending = d.poisonPending := rfl
@[simp] theorem Die.modGroup_l2 (d : Die) (gid : Nat) (f : Group → Group) : (d.modGroup gid f).l2 = d.l2 := rfl
@[simp] theorem Die.modGroup_cores (d : Die) (gid : Nat) (f : Group → Group) : (d.modGroup gid f).cores = d.cores := rfl
@[simp] theorem Die.modGroup_clusters (d : Die) (gid : Nat) (f : Group → Group) : (d.modGroup gid f).clusters = d.clusters := rfl
@[simp] theorem Die.modGroup_links (d : Die) (gid : Nat) (f : Group → Group) : (d.modGroup gid f).links = d.links := rfl
@[simp] theorem Die.modGroup_clock (d : Die) (gid : Nat) (f : Group → Group) : (d.modGroup gid f).clock = d.clock := rfl
@[simp] theorem Die.modGroup_ps (d : Die) (gid : Nat) (f : Group → Group) : (d.modGroup gid f).ps = d.ps := rfl
@[simp] theorem Die.modGroup_epochPs (d : Die) (gid : Nat) (f : Group → Group) : (d.modGroup gid f).epochPs = d.epochPs := rfl
@[simp] theorem Die.modGroup_alarm (d : Die) (gid : Nat) (f : Group → Group) : (d.modGroup gid f).alarm = d.alarm := rfl
@[simp] theorem Die.modGroup_glitch (d : Die) (gid : Nat) (f : Group → Group) : (d.modGroup gid f).glitch = d.glitch := rfl
@[simp] theorem Die.modGroup_alarmSrc (d : Die) (gid : Nat) (f : Group → Group) : (d.modGroup gid f).alarmSrc = d.alarmSrc := rfl
@[simp] theorem Die.modGroup_tj (d : Die) (gid : Nat) (f : Group → Group) : (d.modGroup gid f).tj = d.tj := rfl
@[simp] theorem Die.modGroup_power (d : Die) (gid : Nat) (f : Group → Group) : (d.modGroup gid f).power = d.power := rfl
@[simp] theorem Die.modGroup_freqReq (d : Die) (gid : Nat) (f : Group → Group) : (d.modGroup gid f).freqReq = d.freqReq := rfl
@[simp] theorem Die.modGroup_freqPoint (d : Die) (gid : Nat) (f : Group → Group) : (d.modGroup gid f).freqPoint = d.freqPoint := rfl
@[simp] theorem Die.modGroup_freqTo (d : Die) (gid : Nat) (f : Group → Group) : (d.modGroup gid f).freqTo = d.freqTo := rfl
@[simp] theorem Die.modGroup_freqRunning (d : Die) (gid : Nat) (f : Group → Group) : (d.modGroup gid f).freqRunning = d.freqRunning := rfl
@[simp] theorem Die.modGroup_coolFrom (d : Die) (gid : Nat) (f : Group → Group) : (d.modGroup gid f).coolFrom = d.coolFrom := rfl
@[simp] theorem Die.modGroup_kept (d : Die) (gid : Nat) (f : Group → Group) : (d.modGroup gid f).kept = d.kept := rfl
@[simp] theorem Die.modGroup_keptLog (d : Die) (gid : Nat) (f : Group → Group) : (d.modGroup gid f).keptLog = d.keptLog := rfl
@[simp] theorem Die.modGroup_belayQ (d : Die) (gid : Nat) (f : Group → Group) : (d.modGroup gid f).belayQ = d.belayQ := rfl
@[simp] theorem Die.modGroup_belayBusy (d : Die) (gid : Nat) (f : Group → Group) : (d.modGroup gid f).belayBusy = d.belayBusy := rfl
@[simp] theorem Die.modGroup_imageNo (d : Die) (gid : Nat) (f : Group → Group) : (d.modGroup gid f).imageNo = d.imageNo := rfl
@[simp] theorem Die.modGroup_logPos (d : Die) (gid : Nat) (f : Group → Group) : (d.modGroup gid f).logPos = d.logPos := rfl
@[simp] theorem Die.modGroup_cpAt (d : Die) (gid : Nat) (f : Group → Group) : (d.modGroup gid f).cpAt = d.cpAt := rfl
@[simp] theorem Die.modGroup_cpDue (d : Die) (gid : Nat) (f : Group → Group) : (d.modGroup gid f).cpDue = d.cpDue := rfl
@[simp] theorem Die.modGroup_retiredAt (d : Die) (gid : Nat) (f : Group → Group) : (d.modGroup gid f).retiredAt = d.retiredAt := rfl
@[simp] theorem Die.modGroup_routes (d : Die) (gid : Nat) (f : Group → Group) : (d.modGroup gid f).routes = d.routes := rfl
@[simp] theorem Die.modGroup_used (d : Die) (gid : Nat) (f : Group → Group) : (d.modGroup gid f).used = d.used := rfl
@[simp] theorem Die.modGroup_resetDue (d : Die) (gid : Nat) (f : Group → Group) : (d.modGroup gid f).resetDue = d.resetDue := rfl
@[simp] theorem Die.modGroup_stopped (d : Die) (gid : Nat) (f : Group → Group) : (d.modGroup gid f).stopped = d.stopped := rfl
@[simp] theorem Die.modGroup_gather (d : Die) (gid : Nat) (f : Group → Group) : (d.modGroup gid f).gather = d.gather := rfl
@[simp] theorem Die.modGroup_mgmtIn (d : Die) (gid : Nat) (f : Group → Group) : (d.modGroup gid f).mgmtIn = d.mgmtIn := rfl
@[simp] theorem Die.modGroup_mgmtOut (d : Die) (gid : Nat) (f : Group → Group) : (d.modGroup gid f).mgmtOut = d.mgmtOut := rfl
@[simp] theorem Die.modGroup_doomed (d : Die) (gid : Nat) (f : Group → Group) : (d.modGroup gid f).doomed = d.doomed := rfl
@[simp] theorem Die.modGroup_owing (d : Die) (gid : Nat) (f : Group → Group) : (d.modGroup gid f).owing = d.owing := rfl

/-! ## Die: the scheduler changed -/

@[simp] theorem Die.modSched_phase (d : Die) (f : Sched → Sched) : (d.modSched f).phase = d.phase := rfl
@[simp] theorem Die.modSched_flash (d : Die) (f : Sched → Sched) : (d.modSched f).flash = d.flash := rfl
@[simp] theorem Die.modSched_conf (d : Die) (f : Sched → Sched) : (d.modSched f).conf = d.conf := rfl
@[simp] theorem Die.modSched_space (d : Die) (f : Sched → Sched) : (d.modSched f).space = d.space := rfl
@[simp] theorem Die.modSched_port (d : Die) (f : Sched → Sched) : (d.modSched f).port = d.port := rfl
@[simp] theorem Die.modSched_memctl (d : Die) (f : Sched → Sched) : (d.modSched f).memctl = d.memctl := rfl
@[simp] theorem Die.modSched_mem (d : Die) (f : Sched → Sched) : (d.modSched f).mem = d.mem := rfl
@[simp] theorem Die.modSched_poisonSec (d : Die) (f : Sched → Sched) : (d.modSched f).poisonSec = d.poisonSec := rfl
@[simp] theorem Die.modSched_zpend (d : Die) (f : Sched → Sched) : (d.modSched f).zpend = d.zpend := rfl
@[simp] theorem Die.modSched_poisonPending (d : Die) (f : Sched → Sched) : (d.modSched f).poisonPending = d.poisonPending := rfl
@[simp] theorem Die.modSched_l2 (d : Die) (f : Sched → Sched) : (d.modSched f).l2 = d.l2 := rfl
@[simp] theorem Die.modSched_cores (d : Die) (f : Sched → Sched) : (d.modSched f).cores = d.cores := rfl
@[simp] theorem Die.modSched_clusters (d : Die) (f : Sched → Sched) : (d.modSched f).clusters = d.clusters := rfl
@[simp] theorem Die.modSched_groups (d : Die) (f : Sched → Sched) : (d.modSched f).groups = d.groups := rfl
@[simp] theorem Die.modSched_links (d : Die) (f : Sched → Sched) : (d.modSched f).links = d.links := rfl
@[simp] theorem Die.modSched_clock (d : Die) (f : Sched → Sched) : (d.modSched f).clock = d.clock := rfl
@[simp] theorem Die.modSched_ps (d : Die) (f : Sched → Sched) : (d.modSched f).ps = d.ps := rfl
@[simp] theorem Die.modSched_epochPs (d : Die) (f : Sched → Sched) : (d.modSched f).epochPs = d.epochPs := rfl
@[simp] theorem Die.modSched_alarm (d : Die) (f : Sched → Sched) : (d.modSched f).alarm = d.alarm := rfl
@[simp] theorem Die.modSched_glitch (d : Die) (f : Sched → Sched) : (d.modSched f).glitch = d.glitch := rfl
@[simp] theorem Die.modSched_alarmSrc (d : Die) (f : Sched → Sched) : (d.modSched f).alarmSrc = d.alarmSrc := rfl
@[simp] theorem Die.modSched_tj (d : Die) (f : Sched → Sched) : (d.modSched f).tj = d.tj := rfl
@[simp] theorem Die.modSched_power (d : Die) (f : Sched → Sched) : (d.modSched f).power = d.power := rfl
@[simp] theorem Die.modSched_freqReq (d : Die) (f : Sched → Sched) : (d.modSched f).freqReq = d.freqReq := rfl
@[simp] theorem Die.modSched_freqPoint (d : Die) (f : Sched → Sched) : (d.modSched f).freqPoint = d.freqPoint := rfl
@[simp] theorem Die.modSched_freqTo (d : Die) (f : Sched → Sched) : (d.modSched f).freqTo = d.freqTo := rfl
@[simp] theorem Die.modSched_freqRunning (d : Die) (f : Sched → Sched) : (d.modSched f).freqRunning = d.freqRunning := rfl
@[simp] theorem Die.modSched_coolFrom (d : Die) (f : Sched → Sched) : (d.modSched f).coolFrom = d.coolFrom := rfl
@[simp] theorem Die.modSched_kept (d : Die) (f : Sched → Sched) : (d.modSched f).kept = d.kept := rfl
@[simp] theorem Die.modSched_keptLog (d : Die) (f : Sched → Sched) : (d.modSched f).keptLog = d.keptLog := rfl
@[simp] theorem Die.modSched_belayQ (d : Die) (f : Sched → Sched) : (d.modSched f).belayQ = d.belayQ := rfl
@[simp] theorem Die.modSched_belayBusy (d : Die) (f : Sched → Sched) : (d.modSched f).belayBusy = d.belayBusy := rfl
@[simp] theorem Die.modSched_imageNo (d : Die) (f : Sched → Sched) : (d.modSched f).imageNo = d.imageNo := rfl
@[simp] theorem Die.modSched_logPos (d : Die) (f : Sched → Sched) : (d.modSched f).logPos = d.logPos := rfl
@[simp] theorem Die.modSched_cpAt (d : Die) (f : Sched → Sched) : (d.modSched f).cpAt = d.cpAt := rfl
@[simp] theorem Die.modSched_cpDue (d : Die) (f : Sched → Sched) : (d.modSched f).cpDue = d.cpDue := rfl
@[simp] theorem Die.modSched_retiredAt (d : Die) (f : Sched → Sched) : (d.modSched f).retiredAt = d.retiredAt := rfl
@[simp] theorem Die.modSched_routes (d : Die) (f : Sched → Sched) : (d.modSched f).routes = d.routes := rfl
@[simp] theorem Die.modSched_used (d : Die) (f : Sched → Sched) : (d.modSched f).used = d.used := rfl
@[simp] theorem Die.modSched_resetDue (d : Die) (f : Sched → Sched) : (d.modSched f).resetDue = d.resetDue := rfl
@[simp] theorem Die.modSched_stopped (d : Die) (f : Sched → Sched) : (d.modSched f).stopped = d.stopped := rfl
@[simp] theorem Die.modSched_gather (d : Die) (f : Sched → Sched) : (d.modSched f).gather = d.gather := rfl
@[simp] theorem Die.modSched_mgmtIn (d : Die) (f : Sched → Sched) : (d.modSched f).mgmtIn = d.mgmtIn := rfl
@[simp] theorem Die.modSched_mgmtOut (d : Die) (f : Sched → Sched) : (d.modSched f).mgmtOut = d.mgmtOut := rfl
@[simp] theorem Die.modSched_doomed (d : Die) (f : Sched → Sched) : (d.modSched f).doomed = d.doomed := rfl
@[simp] theorem Die.modSched_owing (d : Die) (f : Sched → Sched) : (d.modSched f).owing = d.owing := rfl
@[simp] theorem Die.modSched_sched (d : Die) (f : Sched → Sched) : (d.modSched f).sched = f d.sched := rfl

/-! ## Die: the queue port changed -/

@[simp] theorem Die.modPort_phase (d : Die) (f : Port → Port) : (d.modPort f).phase = d.phase := rfl
@[simp] theorem Die.modPort_flash (d : Die) (f : Port → Port) : (d.modPort f).flash = d.flash := rfl
@[simp] theorem Die.modPort_conf (d : Die) (f : Port → Port) : (d.modPort f).conf = d.conf := rfl
@[simp] theorem Die.modPort_space (d : Die) (f : Port → Port) : (d.modPort f).space = d.space := rfl
@[simp] theorem Die.modPort_sched (d : Die) (f : Port → Port) : (d.modPort f).sched = d.sched := rfl
@[simp] theorem Die.modPort_memctl (d : Die) (f : Port → Port) : (d.modPort f).memctl = d.memctl := rfl
@[simp] theorem Die.modPort_mem (d : Die) (f : Port → Port) : (d.modPort f).mem = d.mem := rfl
@[simp] theorem Die.modPort_poisonSec (d : Die) (f : Port → Port) : (d.modPort f).poisonSec = d.poisonSec := rfl
@[simp] theorem Die.modPort_zpend (d : Die) (f : Port → Port) : (d.modPort f).zpend = d.zpend := rfl
@[simp] theorem Die.modPort_poisonPending (d : Die) (f : Port → Port) : (d.modPort f).poisonPending = d.poisonPending := rfl
@[simp] theorem Die.modPort_l2 (d : Die) (f : Port → Port) : (d.modPort f).l2 = d.l2 := rfl
@[simp] theorem Die.modPort_cores (d : Die) (f : Port → Port) : (d.modPort f).cores = d.cores := rfl
@[simp] theorem Die.modPort_clusters (d : Die) (f : Port → Port) : (d.modPort f).clusters = d.clusters := rfl
@[simp] theorem Die.modPort_groups (d : Die) (f : Port → Port) : (d.modPort f).groups = d.groups := rfl
@[simp] theorem Die.modPort_links (d : Die) (f : Port → Port) : (d.modPort f).links = d.links := rfl
@[simp] theorem Die.modPort_clock (d : Die) (f : Port → Port) : (d.modPort f).clock = d.clock := rfl
@[simp] theorem Die.modPort_ps (d : Die) (f : Port → Port) : (d.modPort f).ps = d.ps := rfl
@[simp] theorem Die.modPort_epochPs (d : Die) (f : Port → Port) : (d.modPort f).epochPs = d.epochPs := rfl
@[simp] theorem Die.modPort_alarm (d : Die) (f : Port → Port) : (d.modPort f).alarm = d.alarm := rfl
@[simp] theorem Die.modPort_glitch (d : Die) (f : Port → Port) : (d.modPort f).glitch = d.glitch := rfl
@[simp] theorem Die.modPort_alarmSrc (d : Die) (f : Port → Port) : (d.modPort f).alarmSrc = d.alarmSrc := rfl
@[simp] theorem Die.modPort_tj (d : Die) (f : Port → Port) : (d.modPort f).tj = d.tj := rfl
@[simp] theorem Die.modPort_power (d : Die) (f : Port → Port) : (d.modPort f).power = d.power := rfl
@[simp] theorem Die.modPort_freqReq (d : Die) (f : Port → Port) : (d.modPort f).freqReq = d.freqReq := rfl
@[simp] theorem Die.modPort_freqPoint (d : Die) (f : Port → Port) : (d.modPort f).freqPoint = d.freqPoint := rfl
@[simp] theorem Die.modPort_freqTo (d : Die) (f : Port → Port) : (d.modPort f).freqTo = d.freqTo := rfl
@[simp] theorem Die.modPort_freqRunning (d : Die) (f : Port → Port) : (d.modPort f).freqRunning = d.freqRunning := rfl
@[simp] theorem Die.modPort_coolFrom (d : Die) (f : Port → Port) : (d.modPort f).coolFrom = d.coolFrom := rfl
@[simp] theorem Die.modPort_kept (d : Die) (f : Port → Port) : (d.modPort f).kept = d.kept := rfl
@[simp] theorem Die.modPort_keptLog (d : Die) (f : Port → Port) : (d.modPort f).keptLog = d.keptLog := rfl
@[simp] theorem Die.modPort_belayQ (d : Die) (f : Port → Port) : (d.modPort f).belayQ = d.belayQ := rfl
@[simp] theorem Die.modPort_belayBusy (d : Die) (f : Port → Port) : (d.modPort f).belayBusy = d.belayBusy := rfl
@[simp] theorem Die.modPort_imageNo (d : Die) (f : Port → Port) : (d.modPort f).imageNo = d.imageNo := rfl
@[simp] theorem Die.modPort_logPos (d : Die) (f : Port → Port) : (d.modPort f).logPos = d.logPos := rfl
@[simp] theorem Die.modPort_cpAt (d : Die) (f : Port → Port) : (d.modPort f).cpAt = d.cpAt := rfl
@[simp] theorem Die.modPort_cpDue (d : Die) (f : Port → Port) : (d.modPort f).cpDue = d.cpDue := rfl
@[simp] theorem Die.modPort_retiredAt (d : Die) (f : Port → Port) : (d.modPort f).retiredAt = d.retiredAt := rfl
@[simp] theorem Die.modPort_routes (d : Die) (f : Port → Port) : (d.modPort f).routes = d.routes := rfl
@[simp] theorem Die.modPort_used (d : Die) (f : Port → Port) : (d.modPort f).used = d.used := rfl
@[simp] theorem Die.modPort_resetDue (d : Die) (f : Port → Port) : (d.modPort f).resetDue = d.resetDue := rfl
@[simp] theorem Die.modPort_stopped (d : Die) (f : Port → Port) : (d.modPort f).stopped = d.stopped := rfl
@[simp] theorem Die.modPort_gather (d : Die) (f : Port → Port) : (d.modPort f).gather = d.gather := rfl
@[simp] theorem Die.modPort_mgmtIn (d : Die) (f : Port → Port) : (d.modPort f).mgmtIn = d.mgmtIn := rfl
@[simp] theorem Die.modPort_mgmtOut (d : Die) (f : Port → Port) : (d.modPort f).mgmtOut = d.mgmtOut := rfl
@[simp] theorem Die.modPort_doomed (d : Die) (f : Port → Port) : (d.modPort f).doomed = d.doomed := rfl
@[simp] theorem Die.modPort_owing (d : Die) (f : Port → Port) : (d.modPort f).owing = d.owing := rfl
@[simp] theorem Die.modPort_port (d : Die) (f : Port → Port) : (d.modPort f).port = f d.port := rfl

/-! ## Die: a core changed -/

@[simp] theorem Die.modCore_phase (d : Die) (c : Nat) (f : Core → Core) : (d.modCore c f).phase = d.phase := rfl
@[simp] theorem Die.modCore_flash (d : Die) (c : Nat) (f : Core → Core) : (d.modCore c f).flash = d.flash := rfl
@[simp] theorem Die.modCore_conf (d : Die) (c : Nat) (f : Core → Core) : (d.modCore c f).conf = d.conf := rfl
@[simp] theorem Die.modCore_space (d : Die) (c : Nat) (f : Core → Core) : (d.modCore c f).space = d.space := rfl
@[simp] theorem Die.modCore_port (d : Die) (c : Nat) (f : Core → Core) : (d.modCore c f).port = d.port := rfl
@[simp] theorem Die.modCore_sched (d : Die) (c : Nat) (f : Core → Core) : (d.modCore c f).sched = d.sched := rfl
@[simp] theorem Die.modCore_memctl (d : Die) (c : Nat) (f : Core → Core) : (d.modCore c f).memctl = d.memctl := rfl
@[simp] theorem Die.modCore_mem (d : Die) (c : Nat) (f : Core → Core) : (d.modCore c f).mem = d.mem := rfl
@[simp] theorem Die.modCore_poisonSec (d : Die) (c : Nat) (f : Core → Core) : (d.modCore c f).poisonSec = d.poisonSec := rfl
@[simp] theorem Die.modCore_zpend (d : Die) (c : Nat) (f : Core → Core) : (d.modCore c f).zpend = d.zpend := rfl
@[simp] theorem Die.modCore_poisonPending (d : Die) (c : Nat) (f : Core → Core) : (d.modCore c f).poisonPending = d.poisonPending := rfl
@[simp] theorem Die.modCore_l2 (d : Die) (c : Nat) (f : Core → Core) : (d.modCore c f).l2 = d.l2 := rfl
@[simp] theorem Die.modCore_clusters (d : Die) (c : Nat) (f : Core → Core) : (d.modCore c f).clusters = d.clusters := rfl
@[simp] theorem Die.modCore_groups (d : Die) (c : Nat) (f : Core → Core) : (d.modCore c f).groups = d.groups := rfl
@[simp] theorem Die.modCore_links (d : Die) (c : Nat) (f : Core → Core) : (d.modCore c f).links = d.links := rfl
@[simp] theorem Die.modCore_clock (d : Die) (c : Nat) (f : Core → Core) : (d.modCore c f).clock = d.clock := rfl
@[simp] theorem Die.modCore_ps (d : Die) (c : Nat) (f : Core → Core) : (d.modCore c f).ps = d.ps := rfl
@[simp] theorem Die.modCore_epochPs (d : Die) (c : Nat) (f : Core → Core) : (d.modCore c f).epochPs = d.epochPs := rfl
@[simp] theorem Die.modCore_alarm (d : Die) (c : Nat) (f : Core → Core) : (d.modCore c f).alarm = d.alarm := rfl
@[simp] theorem Die.modCore_glitch (d : Die) (c : Nat) (f : Core → Core) : (d.modCore c f).glitch = d.glitch := rfl
@[simp] theorem Die.modCore_alarmSrc (d : Die) (c : Nat) (f : Core → Core) : (d.modCore c f).alarmSrc = d.alarmSrc := rfl
@[simp] theorem Die.modCore_tj (d : Die) (c : Nat) (f : Core → Core) : (d.modCore c f).tj = d.tj := rfl
@[simp] theorem Die.modCore_power (d : Die) (c : Nat) (f : Core → Core) : (d.modCore c f).power = d.power := rfl
@[simp] theorem Die.modCore_freqReq (d : Die) (c : Nat) (f : Core → Core) : (d.modCore c f).freqReq = d.freqReq := rfl
@[simp] theorem Die.modCore_freqPoint (d : Die) (c : Nat) (f : Core → Core) : (d.modCore c f).freqPoint = d.freqPoint := rfl
@[simp] theorem Die.modCore_freqTo (d : Die) (c : Nat) (f : Core → Core) : (d.modCore c f).freqTo = d.freqTo := rfl
@[simp] theorem Die.modCore_freqRunning (d : Die) (c : Nat) (f : Core → Core) : (d.modCore c f).freqRunning = d.freqRunning := rfl
@[simp] theorem Die.modCore_coolFrom (d : Die) (c : Nat) (f : Core → Core) : (d.modCore c f).coolFrom = d.coolFrom := rfl
@[simp] theorem Die.modCore_kept (d : Die) (c : Nat) (f : Core → Core) : (d.modCore c f).kept = d.kept := rfl
@[simp] theorem Die.modCore_keptLog (d : Die) (c : Nat) (f : Core → Core) : (d.modCore c f).keptLog = d.keptLog := rfl
@[simp] theorem Die.modCore_belayQ (d : Die) (c : Nat) (f : Core → Core) : (d.modCore c f).belayQ = d.belayQ := rfl
@[simp] theorem Die.modCore_belayBusy (d : Die) (c : Nat) (f : Core → Core) : (d.modCore c f).belayBusy = d.belayBusy := rfl
@[simp] theorem Die.modCore_imageNo (d : Die) (c : Nat) (f : Core → Core) : (d.modCore c f).imageNo = d.imageNo := rfl
@[simp] theorem Die.modCore_logPos (d : Die) (c : Nat) (f : Core → Core) : (d.modCore c f).logPos = d.logPos := rfl
@[simp] theorem Die.modCore_cpAt (d : Die) (c : Nat) (f : Core → Core) : (d.modCore c f).cpAt = d.cpAt := rfl
@[simp] theorem Die.modCore_cpDue (d : Die) (c : Nat) (f : Core → Core) : (d.modCore c f).cpDue = d.cpDue := rfl
@[simp] theorem Die.modCore_retiredAt (d : Die) (c : Nat) (f : Core → Core) : (d.modCore c f).retiredAt = d.retiredAt := rfl
@[simp] theorem Die.modCore_routes (d : Die) (c : Nat) (f : Core → Core) : (d.modCore c f).routes = d.routes := rfl
@[simp] theorem Die.modCore_used (d : Die) (c : Nat) (f : Core → Core) : (d.modCore c f).used = d.used := rfl
@[simp] theorem Die.modCore_resetDue (d : Die) (c : Nat) (f : Core → Core) : (d.modCore c f).resetDue = d.resetDue := rfl
@[simp] theorem Die.modCore_stopped (d : Die) (c : Nat) (f : Core → Core) : (d.modCore c f).stopped = d.stopped := rfl
@[simp] theorem Die.modCore_gather (d : Die) (c : Nat) (f : Core → Core) : (d.modCore c f).gather = d.gather := rfl
@[simp] theorem Die.modCore_mgmtIn (d : Die) (c : Nat) (f : Core → Core) : (d.modCore c f).mgmtIn = d.mgmtIn := rfl
@[simp] theorem Die.modCore_mgmtOut (d : Die) (c : Nat) (f : Core → Core) : (d.modCore c f).mgmtOut = d.mgmtOut := rfl
@[simp] theorem Die.modCore_doomed (d : Die) (c : Nat) (f : Core → Core) : (d.modCore c f).doomed = d.doomed := rfl
@[simp] theorem Die.modCore_owing (d : Die) (c : Nat) (f : Core → Core) : (d.modCore c f).owing = d.owing := rfl

/-! ## Die: a cluster changed -/

@[simp] theorem Die.modCluster_phase (d : Die) (c : Nat) (f : Cluster → Cluster) : (d.modCluster c f).phase = d.phase := rfl
@[simp] theorem Die.modCluster_flash (d : Die) (c : Nat) (f : Cluster → Cluster) : (d.modCluster c f).flash = d.flash := rfl
@[simp] theorem Die.modCluster_conf (d : Die) (c : Nat) (f : Cluster → Cluster) : (d.modCluster c f).conf = d.conf := rfl
@[simp] theorem Die.modCluster_space (d : Die) (c : Nat) (f : Cluster → Cluster) : (d.modCluster c f).space = d.space := rfl
@[simp] theorem Die.modCluster_port (d : Die) (c : Nat) (f : Cluster → Cluster) : (d.modCluster c f).port = d.port := rfl
@[simp] theorem Die.modCluster_sched (d : Die) (c : Nat) (f : Cluster → Cluster) : (d.modCluster c f).sched = d.sched := rfl
@[simp] theorem Die.modCluster_memctl (d : Die) (c : Nat) (f : Cluster → Cluster) : (d.modCluster c f).memctl = d.memctl := rfl
@[simp] theorem Die.modCluster_mem (d : Die) (c : Nat) (f : Cluster → Cluster) : (d.modCluster c f).mem = d.mem := rfl
@[simp] theorem Die.modCluster_poisonSec (d : Die) (c : Nat) (f : Cluster → Cluster) : (d.modCluster c f).poisonSec = d.poisonSec := rfl
@[simp] theorem Die.modCluster_zpend (d : Die) (c : Nat) (f : Cluster → Cluster) : (d.modCluster c f).zpend = d.zpend := rfl
@[simp] theorem Die.modCluster_poisonPending (d : Die) (c : Nat) (f : Cluster → Cluster) : (d.modCluster c f).poisonPending = d.poisonPending := rfl
@[simp] theorem Die.modCluster_l2 (d : Die) (c : Nat) (f : Cluster → Cluster) : (d.modCluster c f).l2 = d.l2 := rfl
@[simp] theorem Die.modCluster_cores (d : Die) (c : Nat) (f : Cluster → Cluster) : (d.modCluster c f).cores = d.cores := rfl
@[simp] theorem Die.modCluster_groups (d : Die) (c : Nat) (f : Cluster → Cluster) : (d.modCluster c f).groups = d.groups := rfl
@[simp] theorem Die.modCluster_links (d : Die) (c : Nat) (f : Cluster → Cluster) : (d.modCluster c f).links = d.links := rfl
@[simp] theorem Die.modCluster_clock (d : Die) (c : Nat) (f : Cluster → Cluster) : (d.modCluster c f).clock = d.clock := rfl
@[simp] theorem Die.modCluster_ps (d : Die) (c : Nat) (f : Cluster → Cluster) : (d.modCluster c f).ps = d.ps := rfl
@[simp] theorem Die.modCluster_epochPs (d : Die) (c : Nat) (f : Cluster → Cluster) : (d.modCluster c f).epochPs = d.epochPs := rfl
@[simp] theorem Die.modCluster_alarm (d : Die) (c : Nat) (f : Cluster → Cluster) : (d.modCluster c f).alarm = d.alarm := rfl
@[simp] theorem Die.modCluster_glitch (d : Die) (c : Nat) (f : Cluster → Cluster) : (d.modCluster c f).glitch = d.glitch := rfl
@[simp] theorem Die.modCluster_alarmSrc (d : Die) (c : Nat) (f : Cluster → Cluster) : (d.modCluster c f).alarmSrc = d.alarmSrc := rfl
@[simp] theorem Die.modCluster_tj (d : Die) (c : Nat) (f : Cluster → Cluster) : (d.modCluster c f).tj = d.tj := rfl
@[simp] theorem Die.modCluster_power (d : Die) (c : Nat) (f : Cluster → Cluster) : (d.modCluster c f).power = d.power := rfl
@[simp] theorem Die.modCluster_freqReq (d : Die) (c : Nat) (f : Cluster → Cluster) : (d.modCluster c f).freqReq = d.freqReq := rfl
@[simp] theorem Die.modCluster_freqPoint (d : Die) (c : Nat) (f : Cluster → Cluster) : (d.modCluster c f).freqPoint = d.freqPoint := rfl
@[simp] theorem Die.modCluster_freqTo (d : Die) (c : Nat) (f : Cluster → Cluster) : (d.modCluster c f).freqTo = d.freqTo := rfl
@[simp] theorem Die.modCluster_freqRunning (d : Die) (c : Nat) (f : Cluster → Cluster) : (d.modCluster c f).freqRunning = d.freqRunning := rfl
@[simp] theorem Die.modCluster_coolFrom (d : Die) (c : Nat) (f : Cluster → Cluster) : (d.modCluster c f).coolFrom = d.coolFrom := rfl
@[simp] theorem Die.modCluster_kept (d : Die) (c : Nat) (f : Cluster → Cluster) : (d.modCluster c f).kept = d.kept := rfl
@[simp] theorem Die.modCluster_keptLog (d : Die) (c : Nat) (f : Cluster → Cluster) : (d.modCluster c f).keptLog = d.keptLog := rfl
@[simp] theorem Die.modCluster_belayQ (d : Die) (c : Nat) (f : Cluster → Cluster) : (d.modCluster c f).belayQ = d.belayQ := rfl
@[simp] theorem Die.modCluster_belayBusy (d : Die) (c : Nat) (f : Cluster → Cluster) : (d.modCluster c f).belayBusy = d.belayBusy := rfl
@[simp] theorem Die.modCluster_imageNo (d : Die) (c : Nat) (f : Cluster → Cluster) : (d.modCluster c f).imageNo = d.imageNo := rfl
@[simp] theorem Die.modCluster_logPos (d : Die) (c : Nat) (f : Cluster → Cluster) : (d.modCluster c f).logPos = d.logPos := rfl
@[simp] theorem Die.modCluster_cpAt (d : Die) (c : Nat) (f : Cluster → Cluster) : (d.modCluster c f).cpAt = d.cpAt := rfl
@[simp] theorem Die.modCluster_cpDue (d : Die) (c : Nat) (f : Cluster → Cluster) : (d.modCluster c f).cpDue = d.cpDue := rfl
@[simp] theorem Die.modCluster_retiredAt (d : Die) (c : Nat) (f : Cluster → Cluster) : (d.modCluster c f).retiredAt = d.retiredAt := rfl
@[simp] theorem Die.modCluster_routes (d : Die) (c : Nat) (f : Cluster → Cluster) : (d.modCluster c f).routes = d.routes := rfl
@[simp] theorem Die.modCluster_used (d : Die) (c : Nat) (f : Cluster → Cluster) : (d.modCluster c f).used = d.used := rfl
@[simp] theorem Die.modCluster_resetDue (d : Die) (c : Nat) (f : Cluster → Cluster) : (d.modCluster c f).resetDue = d.resetDue := rfl
@[simp] theorem Die.modCluster_stopped (d : Die) (c : Nat) (f : Cluster → Cluster) : (d.modCluster c f).stopped = d.stopped := rfl
@[simp] theorem Die.modCluster_gather (d : Die) (c : Nat) (f : Cluster → Cluster) : (d.modCluster c f).gather = d.gather := rfl
@[simp] theorem Die.modCluster_mgmtIn (d : Die) (c : Nat) (f : Cluster → Cluster) : (d.modCluster c f).mgmtIn = d.mgmtIn := rfl
@[simp] theorem Die.modCluster_mgmtOut (d : Die) (c : Nat) (f : Cluster → Cluster) : (d.modCluster c f).mgmtOut = d.mgmtOut := rfl
@[simp] theorem Die.modCluster_doomed (d : Die) (c : Nat) (f : Cluster → Cluster) : (d.modCluster c f).doomed = d.doomed := rfl
@[simp] theorem Die.modCluster_owing (d : Die) (c : Nat) (f : Cluster → Cluster) : (d.modCluster c f).owing = d.owing := rfl

/-! ## Group: an s-register, a partition word, a thread, the context changed -/

@[simp] theorem Group.setSreg_gid (g : Group) (w n : Nat) (v : SReg) : (g.setSreg w n v).gid = g.gid := rfl
@[simp] theorem Group.setSreg_node (g : Group) (w n : Nat) (v : SReg) : (g.setSreg w n v).node = g.node := rfl
@[simp] theorem Group.setSreg_core (g : Group) (w n : Nat) (v : SReg) : (g.setSreg w n v).core = g.core := rfl
@[simp] theorem Group.setSreg_slot (g : Group) (w n : Nat) (v : SReg) : (g.setSreg w n v).slot = g.slot := rfl
@[simp] theorem Group.setSreg_pcore (g : Group) (w n : Nat) (v : SReg) : (g.setSreg w n v).pcore = g.pcore := rfl
@[simp] theorem Group.setSreg_pslot (g : Group) (w n : Nat) (v : SReg) : (g.setSreg w n v).pslot = g.pslot := rfl
@[simp] theorem Group.setSreg_pinst (g : Group) (w n : Nat) (v : SReg) : (g.setSreg w n v).pinst = g.pinst := rfl
@[simp] theorem Group.setSreg_phase (g : Group) (w n : Nat) (v : SReg) : (g.setSreg w n v).phase = g.phase := rfl
@[simp] theorem Group.setSreg_warps (g : Group) (w n : Nat) (v : SReg) : (g.setSreg w n v).warps = g.warps := rfl
@[simp] theorem Group.setSreg_groupid (g : Group) (w n : Nat) (v : SReg) : (g.setSreg w n v).groupid = g.groupid := rfl
@[simp] theorem Group.setSreg_griddim (g : Group) (w n : Nat) (v : SReg) : (g.setSreg w n v).griddim = g.griddim := rfl
@[simp] theorem Group.setSreg_nodeid (g : Group) (w n : Nat) (v : SReg) : (g.setSreg w n v).nodeid = g.nodeid := rfl
@[simp] theorem Group.setSreg_cls (g : Group) (w n : Nat) (v : SReg) : (g.setSreg w n v).cls = g.cls := rfl
@[simp] theorem Group.setSreg_age (g : Group) (w n : Nat) (v : SReg) : (g.setSreg w n v).age = g.age := rfl
@[simp] theorem Group.setSreg_threads (g : Group) (w n : Nat) (v : SReg) : (g.setSreg w n v).threads = g.threads := rfl
@[simp] theorem Group.setSreg_part (g : Group) (w n : Nat) (v : SReg) : (g.setSreg w n v).part = g.part := rfl
@[simp] theorem Group.setSreg_absent (g : Group) (w n : Nat) (v : SReg) : (g.setSreg w n v).absent = g.absent := rfl
@[simp] theorem Group.setSreg_ctx (g : Group) (w n : Nat) (v : SReg) : (g.setSreg w n v).ctx = g.ctx := rfl
@[simp] theorem Group.setSreg_gates (g : Group) (w n : Nat) (v : SReg) : (g.setSreg w n v).gates = g.gates := rfl
@[simp] theorem Group.setSreg_wdlimit (g : Group) (w n : Nat) (v : SReg) : (g.setSreg w n v).wdlimit = g.wdlimit := rfl
@[simp] theorem Group.setSreg_wdcount (g : Group) (w n : Nat) (v : SReg) : (g.setSreg w n v).wdcount = g.wdcount := rfl
@[simp] theorem Group.setSreg_wdowed (g : Group) (w n : Nat) (v : SReg) : (g.setSreg w n v).wdowed = g.wdowed := rfl
@[simp] theorem Group.setSreg_trap (g : Group) (w n : Nat) (v : SReg) : (g.setSreg w n v).trap = g.trap := rfl
@[simp] theorem Group.setSreg_held (g : Group) (w n : Nat) (v : SReg) : (g.setSreg w n v).held = g.held := rfl
@[simp] theorem Group.setSreg_preemptDue (g : Group) (w n : Nat) (v : SReg) : (g.setSreg w n v).preemptDue = g.preemptDue := rfl
@[simp] theorem Group.setSreg_saveRec (g : Group) (w n : Nat) (v : SReg) : (g.setSreg w n v).saveRec = g.saveRec := rfl
@[simp] theorem Group.setSreg_saving (g : Group) (w n : Nat) (v : SReg) : (g.setSreg w n v).saving = g.saving := rfl
@[simp] theorem Group.setSreg_saveNo (g : Group) (w n : Nat) (v : SReg) : (g.setSreg w n v).saveNo = g.saveNo := rfl
@[simp] theorem Group.setSreg_dead (g : Group) (w n : Nat) (v : SReg) : (g.setSreg w n v).dead = g.dead := rfl
@[simp] theorem Group.setSreg_yielded (g : Group) (w n : Nat) (v : SReg) : (g.setSreg w n v).yielded = g.yielded := rfl
@[simp] theorem Group.setSreg_poisonDue (g : Group) (w n : Nat) (v : SReg) : (g.setSreg w n v).poisonDue = g.poisonDue := rfl
@[simp] theorem Group.setSreg_barriers (g : Group) (w n : Nat) (v : SReg) : (g.setSreg w n v).barriers = g.barriers := rfl
@[simp] theorem Group.setSreg_cairns (g : Group) (w n : Nat) (v : SReg) : (g.setSreg w n v).cairns = g.cairns := rfl
@[simp] theorem Group.setSreg_log (g : Group) (w n : Nat) (v : SReg) : (g.setSreg w n v).log = g.log := rfl
@[simp] theorem Group.setSreg_pend (g : Group) (w n : Nat) (v : SReg) : (g.setSreg w n v).pend = g.pend := rfl
@[simp] theorem Group.setSreg_tiles (g : Group) (w n : Nat) (v : SReg) : (g.setSreg w n v).tiles = g.tiles := rfl
@[simp] theorem Group.setSreg_sticky (g : Group) (w n : Nat) (v : SReg) : (g.setSreg w n v).sticky = g.sticky := rfl
@[simp] theorem Group.setSreg_resClk (g : Group) (w n : Nat) (v : SReg) : (g.setSreg w n v).resClk = g.resClk := rfl
@[simp] theorem Group.setSreg_resPs (g : Group) (w n : Nat) (v : SReg) : (g.setSreg w n v).resPs = g.resPs := rfl
@[simp] theorem Group.setSreg_now (g : Group) (w n : Nat) (v : SReg) : (g.setSreg w n v).now = g.now := rfl
@[simp] theorem Group.setSreg_swapAt (g : Group) (w n : Nat) (v : SReg) : (g.setSreg w n v).swapAt = g.swapAt := rfl
@[simp] theorem Group.setSreg_candAt (g : Group) (w n : Nat) (v : SReg) : (g.setSreg w n v).candAt = g.candAt := rfl
@[simp] theorem Group.setSreg_moved (g : Group) (w n : Nat) (v : SReg) : (g.setSreg w n v).moved = g.moved := rfl
@[simp] theorem Group.setSreg_restorable (g : Group) (w n : Nat) (v : SReg) : (g.setSreg w n v).restorable = g.restorable := rfl
@[simp] theorem Group.setWord_gid (g : Group) (i : Nat) (w : CoreWord) : (g.setWord i w).gid = g.gid := rfl
@[simp] theorem Group.setWord_node (g : Group) (i : Nat) (w : CoreWord) : (g.setWord i w).node = g.node := rfl
@[simp] theorem Group.setWord_core (g : Group) (i : Nat) (w : CoreWord) : (g.setWord i w).core = g.core := rfl
@[simp] theorem Group.setWord_slot (g : Group) (i : Nat) (w : CoreWord) : (g.setWord i w).slot = g.slot := rfl
@[simp] theorem Group.setWord_pcore (g : Group) (i : Nat) (w : CoreWord) : (g.setWord i w).pcore = g.pcore := rfl
@[simp] theorem Group.setWord_pslot (g : Group) (i : Nat) (w : CoreWord) : (g.setWord i w).pslot = g.pslot := rfl
@[simp] theorem Group.setWord_pinst (g : Group) (i : Nat) (w : CoreWord) : (g.setWord i w).pinst = g.pinst := rfl
@[simp] theorem Group.setWord_phase (g : Group) (i : Nat) (w : CoreWord) : (g.setWord i w).phase = g.phase := rfl
@[simp] theorem Group.setWord_warps (g : Group) (i : Nat) (w : CoreWord) : (g.setWord i w).warps = g.warps := rfl
@[simp] theorem Group.setWord_groupid (g : Group) (i : Nat) (w : CoreWord) : (g.setWord i w).groupid = g.groupid := rfl
@[simp] theorem Group.setWord_griddim (g : Group) (i : Nat) (w : CoreWord) : (g.setWord i w).griddim = g.griddim := rfl
@[simp] theorem Group.setWord_nodeid (g : Group) (i : Nat) (w : CoreWord) : (g.setWord i w).nodeid = g.nodeid := rfl
@[simp] theorem Group.setWord_cls (g : Group) (i : Nat) (w : CoreWord) : (g.setWord i w).cls = g.cls := rfl
@[simp] theorem Group.setWord_age (g : Group) (i : Nat) (w : CoreWord) : (g.setWord i w).age = g.age := rfl
@[simp] theorem Group.setWord_threads (g : Group) (i : Nat) (w : CoreWord) : (g.setWord i w).threads = g.threads := rfl
@[simp] theorem Group.setWord_absent (g : Group) (i : Nat) (w : CoreWord) : (g.setWord i w).absent = g.absent := rfl
@[simp] theorem Group.setWord_sregs (g : Group) (i : Nat) (w : CoreWord) : (g.setWord i w).sregs = g.sregs := rfl
@[simp] theorem Group.setWord_ctx (g : Group) (i : Nat) (w : CoreWord) : (g.setWord i w).ctx = g.ctx := rfl
@[simp] theorem Group.setWord_gates (g : Group) (i : Nat) (w : CoreWord) : (g.setWord i w).gates = g.gates := rfl
@[simp] theorem Group.setWord_wdlimit (g : Group) (i : Nat) (w : CoreWord) : (g.setWord i w).wdlimit = g.wdlimit := rfl
@[simp] theorem Group.setWord_wdcount (g : Group) (i : Nat) (w : CoreWord) : (g.setWord i w).wdcount = g.wdcount := rfl
@[simp] theorem Group.setWord_wdowed (g : Group) (i : Nat) (w : CoreWord) : (g.setWord i w).wdowed = g.wdowed := rfl
@[simp] theorem Group.setWord_trap (g : Group) (i : Nat) (w : CoreWord) : (g.setWord i w).trap = g.trap := rfl
@[simp] theorem Group.setWord_held (g : Group) (i : Nat) (w : CoreWord) : (g.setWord i w).held = g.held := rfl
@[simp] theorem Group.setWord_preemptDue (g : Group) (i : Nat) (w : CoreWord) : (g.setWord i w).preemptDue = g.preemptDue := rfl
@[simp] theorem Group.setWord_saveRec (g : Group) (i : Nat) (w : CoreWord) : (g.setWord i w).saveRec = g.saveRec := rfl
@[simp] theorem Group.setWord_saving (g : Group) (i : Nat) (w : CoreWord) : (g.setWord i w).saving = g.saving := rfl
@[simp] theorem Group.setWord_saveNo (g : Group) (i : Nat) (w : CoreWord) : (g.setWord i w).saveNo = g.saveNo := rfl
@[simp] theorem Group.setWord_dead (g : Group) (i : Nat) (w : CoreWord) : (g.setWord i w).dead = g.dead := rfl
@[simp] theorem Group.setWord_yielded (g : Group) (i : Nat) (w : CoreWord) : (g.setWord i w).yielded = g.yielded := rfl
@[simp] theorem Group.setWord_poisonDue (g : Group) (i : Nat) (w : CoreWord) : (g.setWord i w).poisonDue = g.poisonDue := rfl
@[simp] theorem Group.setWord_barriers (g : Group) (i : Nat) (w : CoreWord) : (g.setWord i w).barriers = g.barriers := rfl
@[simp] theorem Group.setWord_cairns (g : Group) (i : Nat) (w : CoreWord) : (g.setWord i w).cairns = g.cairns := rfl
@[simp] theorem Group.setWord_log (g : Group) (i : Nat) (w : CoreWord) : (g.setWord i w).log = g.log := rfl
@[simp] theorem Group.setWord_pend (g : Group) (i : Nat) (w : CoreWord) : (g.setWord i w).pend = g.pend := rfl
@[simp] theorem Group.setWord_tiles (g : Group) (i : Nat) (w : CoreWord) : (g.setWord i w).tiles = g.tiles := rfl
@[simp] theorem Group.setWord_sticky (g : Group) (i : Nat) (w : CoreWord) : (g.setWord i w).sticky = g.sticky := rfl
@[simp] theorem Group.setWord_resClk (g : Group) (i : Nat) (w : CoreWord) : (g.setWord i w).resClk = g.resClk := rfl
@[simp] theorem Group.setWord_resPs (g : Group) (i : Nat) (w : CoreWord) : (g.setWord i w).resPs = g.resPs := rfl
@[simp] theorem Group.setWord_now (g : Group) (i : Nat) (w : CoreWord) : (g.setWord i w).now = g.now := rfl
@[simp] theorem Group.setWord_swapAt (g : Group) (i : Nat) (w : CoreWord) : (g.setWord i w).swapAt = g.swapAt := rfl
@[simp] theorem Group.setWord_candAt (g : Group) (i : Nat) (w : CoreWord) : (g.setWord i w).candAt = g.candAt := rfl
@[simp] theorem Group.setWord_moved (g : Group) (i : Nat) (w : CoreWord) : (g.setWord i w).moved = g.moved := rfl
@[simp] theorem Group.setWord_restorable (g : Group) (i : Nat) (w : CoreWord) : (g.setWord i w).restorable = g.restorable := rfl
@[simp] theorem Group.modThread_gid (g : Group) (t : Nat) (f : Thread → Thread) : (g.modThread t f).gid = g.gid := rfl
@[simp] theorem Group.modThread_node (g : Group) (t : Nat) (f : Thread → Thread) : (g.modThread t f).node = g.node := rfl
@[simp] theorem Group.modThread_core (g : Group) (t : Nat) (f : Thread → Thread) : (g.modThread t f).core = g.core := rfl
@[simp] theorem Group.modThread_slot (g : Group) (t : Nat) (f : Thread → Thread) : (g.modThread t f).slot = g.slot := rfl
@[simp] theorem Group.modThread_pcore (g : Group) (t : Nat) (f : Thread → Thread) : (g.modThread t f).pcore = g.pcore := rfl
@[simp] theorem Group.modThread_pslot (g : Group) (t : Nat) (f : Thread → Thread) : (g.modThread t f).pslot = g.pslot := rfl
@[simp] theorem Group.modThread_pinst (g : Group) (t : Nat) (f : Thread → Thread) : (g.modThread t f).pinst = g.pinst := rfl
@[simp] theorem Group.modThread_phase (g : Group) (t : Nat) (f : Thread → Thread) : (g.modThread t f).phase = g.phase := rfl
@[simp] theorem Group.modThread_warps (g : Group) (t : Nat) (f : Thread → Thread) : (g.modThread t f).warps = g.warps := rfl
@[simp] theorem Group.modThread_groupid (g : Group) (t : Nat) (f : Thread → Thread) : (g.modThread t f).groupid = g.groupid := rfl
@[simp] theorem Group.modThread_griddim (g : Group) (t : Nat) (f : Thread → Thread) : (g.modThread t f).griddim = g.griddim := rfl
@[simp] theorem Group.modThread_nodeid (g : Group) (t : Nat) (f : Thread → Thread) : (g.modThread t f).nodeid = g.nodeid := rfl
@[simp] theorem Group.modThread_cls (g : Group) (t : Nat) (f : Thread → Thread) : (g.modThread t f).cls = g.cls := rfl
@[simp] theorem Group.modThread_age (g : Group) (t : Nat) (f : Thread → Thread) : (g.modThread t f).age = g.age := rfl
@[simp] theorem Group.modThread_part (g : Group) (t : Nat) (f : Thread → Thread) : (g.modThread t f).part = g.part := rfl
@[simp] theorem Group.modThread_absent (g : Group) (t : Nat) (f : Thread → Thread) : (g.modThread t f).absent = g.absent := rfl
@[simp] theorem Group.modThread_sregs (g : Group) (t : Nat) (f : Thread → Thread) : (g.modThread t f).sregs = g.sregs := rfl
@[simp] theorem Group.modThread_ctx (g : Group) (t : Nat) (f : Thread → Thread) : (g.modThread t f).ctx = g.ctx := rfl
@[simp] theorem Group.modThread_gates (g : Group) (t : Nat) (f : Thread → Thread) : (g.modThread t f).gates = g.gates := rfl
@[simp] theorem Group.modThread_wdlimit (g : Group) (t : Nat) (f : Thread → Thread) : (g.modThread t f).wdlimit = g.wdlimit := rfl
@[simp] theorem Group.modThread_wdcount (g : Group) (t : Nat) (f : Thread → Thread) : (g.modThread t f).wdcount = g.wdcount := rfl
@[simp] theorem Group.modThread_wdowed (g : Group) (t : Nat) (f : Thread → Thread) : (g.modThread t f).wdowed = g.wdowed := rfl
@[simp] theorem Group.modThread_trap (g : Group) (t : Nat) (f : Thread → Thread) : (g.modThread t f).trap = g.trap := rfl
@[simp] theorem Group.modThread_held (g : Group) (t : Nat) (f : Thread → Thread) : (g.modThread t f).held = g.held := rfl
@[simp] theorem Group.modThread_preemptDue (g : Group) (t : Nat) (f : Thread → Thread) : (g.modThread t f).preemptDue = g.preemptDue := rfl
@[simp] theorem Group.modThread_saveRec (g : Group) (t : Nat) (f : Thread → Thread) : (g.modThread t f).saveRec = g.saveRec := rfl
@[simp] theorem Group.modThread_saving (g : Group) (t : Nat) (f : Thread → Thread) : (g.modThread t f).saving = g.saving := rfl
@[simp] theorem Group.modThread_saveNo (g : Group) (t : Nat) (f : Thread → Thread) : (g.modThread t f).saveNo = g.saveNo := rfl
@[simp] theorem Group.modThread_dead (g : Group) (t : Nat) (f : Thread → Thread) : (g.modThread t f).dead = g.dead := rfl
@[simp] theorem Group.modThread_yielded (g : Group) (t : Nat) (f : Thread → Thread) : (g.modThread t f).yielded = g.yielded := rfl
@[simp] theorem Group.modThread_poisonDue (g : Group) (t : Nat) (f : Thread → Thread) : (g.modThread t f).poisonDue = g.poisonDue := rfl
@[simp] theorem Group.modThread_barriers (g : Group) (t : Nat) (f : Thread → Thread) : (g.modThread t f).barriers = g.barriers := rfl
@[simp] theorem Group.modThread_cairns (g : Group) (t : Nat) (f : Thread → Thread) : (g.modThread t f).cairns = g.cairns := rfl
@[simp] theorem Group.modThread_log (g : Group) (t : Nat) (f : Thread → Thread) : (g.modThread t f).log = g.log := rfl
@[simp] theorem Group.modThread_pend (g : Group) (t : Nat) (f : Thread → Thread) : (g.modThread t f).pend = g.pend := rfl
@[simp] theorem Group.modThread_tiles (g : Group) (t : Nat) (f : Thread → Thread) : (g.modThread t f).tiles = g.tiles := rfl
@[simp] theorem Group.modThread_sticky (g : Group) (t : Nat) (f : Thread → Thread) : (g.modThread t f).sticky = g.sticky := rfl
@[simp] theorem Group.modThread_resClk (g : Group) (t : Nat) (f : Thread → Thread) : (g.modThread t f).resClk = g.resClk := rfl
@[simp] theorem Group.modThread_resPs (g : Group) (t : Nat) (f : Thread → Thread) : (g.modThread t f).resPs = g.resPs := rfl
@[simp] theorem Group.modThread_now (g : Group) (t : Nat) (f : Thread → Thread) : (g.modThread t f).now = g.now := rfl
@[simp] theorem Group.modThread_swapAt (g : Group) (t : Nat) (f : Thread → Thread) : (g.modThread t f).swapAt = g.swapAt := rfl
@[simp] theorem Group.modThread_candAt (g : Group) (t : Nat) (f : Thread → Thread) : (g.modThread t f).candAt = g.candAt := rfl
@[simp] theorem Group.modThread_moved (g : Group) (t : Nat) (f : Thread → Thread) : (g.modThread t f).moved = g.moved := rfl
@[simp] theorem Group.modThread_restorable (g : Group) (t : Nat) (f : Thread → Thread) : (g.modThread t f).restorable = g.restorable := rfl
@[simp] theorem Group.modThread_threads (g : Group) (t : Nat) (f : Thread → Thread) : (g.modThread t f).threads = g.threads.modify t f := rfl
@[simp] theorem Group.modCtx_gid (g : Group) (f : Ctx → Ctx) : (g.modCtx f).gid = g.gid := rfl
@[simp] theorem Group.modCtx_node (g : Group) (f : Ctx → Ctx) : (g.modCtx f).node = g.node := rfl
@[simp] theorem Group.modCtx_core (g : Group) (f : Ctx → Ctx) : (g.modCtx f).core = g.core := rfl
@[simp] theorem Group.modCtx_slot (g : Group) (f : Ctx → Ctx) : (g.modCtx f).slot = g.slot := rfl
@[simp] theorem Group.modCtx_pcore (g : Group) (f : Ctx → Ctx) : (g.modCtx f).pcore = g.pcore := rfl
@[simp] theorem Group.modCtx_pslot (g : Group) (f : Ctx → Ctx) : (g.modCtx f).pslot = g.pslot := rfl
@[simp] theorem Group.modCtx_pinst (g : Group) (f : Ctx → Ctx) : (g.modCtx f).pinst = g.pinst := rfl
@[simp] theorem Group.modCtx_phase (g : Group) (f : Ctx → Ctx) : (g.modCtx f).phase = g.phase := rfl
@[simp] theorem Group.modCtx_warps (g : Group) (f : Ctx → Ctx) : (g.modCtx f).warps = g.warps := rfl
@[simp] theorem Group.modCtx_groupid (g : Group) (f : Ctx → Ctx) : (g.modCtx f).groupid = g.groupid := rfl
@[simp] theorem Group.modCtx_griddim (g : Group) (f : Ctx → Ctx) : (g.modCtx f).griddim = g.griddim := rfl
@[simp] theorem Group.modCtx_nodeid (g : Group) (f : Ctx → Ctx) : (g.modCtx f).nodeid = g.nodeid := rfl
@[simp] theorem Group.modCtx_cls (g : Group) (f : Ctx → Ctx) : (g.modCtx f).cls = g.cls := rfl
@[simp] theorem Group.modCtx_age (g : Group) (f : Ctx → Ctx) : (g.modCtx f).age = g.age := rfl
@[simp] theorem Group.modCtx_threads (g : Group) (f : Ctx → Ctx) : (g.modCtx f).threads = g.threads := rfl
@[simp] theorem Group.modCtx_part (g : Group) (f : Ctx → Ctx) : (g.modCtx f).part = g.part := rfl
@[simp] theorem Group.modCtx_absent (g : Group) (f : Ctx → Ctx) : (g.modCtx f).absent = g.absent := rfl
@[simp] theorem Group.modCtx_sregs (g : Group) (f : Ctx → Ctx) : (g.modCtx f).sregs = g.sregs := rfl
@[simp] theorem Group.modCtx_gates (g : Group) (f : Ctx → Ctx) : (g.modCtx f).gates = g.gates := rfl
@[simp] theorem Group.modCtx_wdlimit (g : Group) (f : Ctx → Ctx) : (g.modCtx f).wdlimit = g.wdlimit := rfl
@[simp] theorem Group.modCtx_wdcount (g : Group) (f : Ctx → Ctx) : (g.modCtx f).wdcount = g.wdcount := rfl
@[simp] theorem Group.modCtx_wdowed (g : Group) (f : Ctx → Ctx) : (g.modCtx f).wdowed = g.wdowed := rfl
@[simp] theorem Group.modCtx_trap (g : Group) (f : Ctx → Ctx) : (g.modCtx f).trap = g.trap := rfl
@[simp] theorem Group.modCtx_held (g : Group) (f : Ctx → Ctx) : (g.modCtx f).held = g.held := rfl
@[simp] theorem Group.modCtx_preemptDue (g : Group) (f : Ctx → Ctx) : (g.modCtx f).preemptDue = g.preemptDue := rfl
@[simp] theorem Group.modCtx_saveRec (g : Group) (f : Ctx → Ctx) : (g.modCtx f).saveRec = g.saveRec := rfl
@[simp] theorem Group.modCtx_saving (g : Group) (f : Ctx → Ctx) : (g.modCtx f).saving = g.saving := rfl
@[simp] theorem Group.modCtx_saveNo (g : Group) (f : Ctx → Ctx) : (g.modCtx f).saveNo = g.saveNo := rfl
@[simp] theorem Group.modCtx_dead (g : Group) (f : Ctx → Ctx) : (g.modCtx f).dead = g.dead := rfl
@[simp] theorem Group.modCtx_yielded (g : Group) (f : Ctx → Ctx) : (g.modCtx f).yielded = g.yielded := rfl
@[simp] theorem Group.modCtx_poisonDue (g : Group) (f : Ctx → Ctx) : (g.modCtx f).poisonDue = g.poisonDue := rfl
@[simp] theorem Group.modCtx_barriers (g : Group) (f : Ctx → Ctx) : (g.modCtx f).barriers = g.barriers := rfl
@[simp] theorem Group.modCtx_cairns (g : Group) (f : Ctx → Ctx) : (g.modCtx f).cairns = g.cairns := rfl
@[simp] theorem Group.modCtx_log (g : Group) (f : Ctx → Ctx) : (g.modCtx f).log = g.log := rfl
@[simp] theorem Group.modCtx_pend (g : Group) (f : Ctx → Ctx) : (g.modCtx f).pend = g.pend := rfl
@[simp] theorem Group.modCtx_tiles (g : Group) (f : Ctx → Ctx) : (g.modCtx f).tiles = g.tiles := rfl
@[simp] theorem Group.modCtx_sticky (g : Group) (f : Ctx → Ctx) : (g.modCtx f).sticky = g.sticky := rfl
@[simp] theorem Group.modCtx_resClk (g : Group) (f : Ctx → Ctx) : (g.modCtx f).resClk = g.resClk := rfl
@[simp] theorem Group.modCtx_resPs (g : Group) (f : Ctx → Ctx) : (g.modCtx f).resPs = g.resPs := rfl
@[simp] theorem Group.modCtx_now (g : Group) (f : Ctx → Ctx) : (g.modCtx f).now = g.now := rfl
@[simp] theorem Group.modCtx_swapAt (g : Group) (f : Ctx → Ctx) : (g.modCtx f).swapAt = g.swapAt := rfl
@[simp] theorem Group.modCtx_candAt (g : Group) (f : Ctx → Ctx) : (g.modCtx f).candAt = g.candAt := rfl
@[simp] theorem Group.modCtx_moved (g : Group) (f : Ctx → Ctx) : (g.modCtx f).moved = g.moved := rfl
@[simp] theorem Group.modCtx_restorable (g : Group) (f : Ctx → Ctx) : (g.modCtx f).restorable = g.restorable := rfl
@[simp] theorem Group.modCtx_ctx (g : Group) (f : Ctx → Ctx) : (g.modCtx f).ctx = f g.ctx := rfl

/-! ## Group: pending marks and presence bits changed -/

@[simp] theorem Group.pendSet_gid (g : Group) (rs : List Res) : (g.pendSet rs).gid = g.gid := rfl
@[simp] theorem Group.pendSet_node (g : Group) (rs : List Res) : (g.pendSet rs).node = g.node := rfl
@[simp] theorem Group.pendSet_core (g : Group) (rs : List Res) : (g.pendSet rs).core = g.core := rfl
@[simp] theorem Group.pendSet_slot (g : Group) (rs : List Res) : (g.pendSet rs).slot = g.slot := rfl
@[simp] theorem Group.pendSet_pcore (g : Group) (rs : List Res) : (g.pendSet rs).pcore = g.pcore := rfl
@[simp] theorem Group.pendSet_pslot (g : Group) (rs : List Res) : (g.pendSet rs).pslot = g.pslot := rfl
@[simp] theorem Group.pendSet_pinst (g : Group) (rs : List Res) : (g.pendSet rs).pinst = g.pinst := rfl
@[simp] theorem Group.pendSet_phase (g : Group) (rs : List Res) : (g.pendSet rs).phase = g.phase := rfl
@[simp] theorem Group.pendSet_warps (g : Group) (rs : List Res) : (g.pendSet rs).warps = g.warps := rfl
@[simp] theorem Group.pendSet_groupid (g : Group) (rs : List Res) : (g.pendSet rs).groupid = g.groupid := rfl
@[simp] theorem Group.pendSet_griddim (g : Group) (rs : List Res) : (g.pendSet rs).griddim = g.griddim := rfl
@[simp] theorem Group.pendSet_nodeid (g : Group) (rs : List Res) : (g.pendSet rs).nodeid = g.nodeid := rfl
@[simp] theorem Group.pendSet_cls (g : Group) (rs : List Res) : (g.pendSet rs).cls = g.cls := rfl
@[simp] theorem Group.pendSet_age (g : Group) (rs : List Res) : (g.pendSet rs).age = g.age := rfl
@[simp] theorem Group.pendSet_threads (g : Group) (rs : List Res) : (g.pendSet rs).threads = g.threads := rfl
@[simp] theorem Group.pendSet_part (g : Group) (rs : List Res) : (g.pendSet rs).part = g.part := rfl
@[simp] theorem Group.pendSet_absent (g : Group) (rs : List Res) : (g.pendSet rs).absent = g.absent := rfl
@[simp] theorem Group.pendSet_sregs (g : Group) (rs : List Res) : (g.pendSet rs).sregs = g.sregs := rfl
@[simp] theorem Group.pendSet_ctx (g : Group) (rs : List Res) : (g.pendSet rs).ctx = g.ctx := rfl
@[simp] theorem Group.pendSet_gates (g : Group) (rs : List Res) : (g.pendSet rs).gates = g.gates := rfl
@[simp] theorem Group.pendSet_wdlimit (g : Group) (rs : List Res) : (g.pendSet rs).wdlimit = g.wdlimit := rfl
@[simp] theorem Group.pendSet_wdcount (g : Group) (rs : List Res) : (g.pendSet rs).wdcount = g.wdcount := rfl
@[simp] theorem Group.pendSet_wdowed (g : Group) (rs : List Res) : (g.pendSet rs).wdowed = g.wdowed := rfl
@[simp] theorem Group.pendSet_trap (g : Group) (rs : List Res) : (g.pendSet rs).trap = g.trap := rfl
@[simp] theorem Group.pendSet_held (g : Group) (rs : List Res) : (g.pendSet rs).held = g.held := rfl
@[simp] theorem Group.pendSet_preemptDue (g : Group) (rs : List Res) : (g.pendSet rs).preemptDue = g.preemptDue := rfl
@[simp] theorem Group.pendSet_saveRec (g : Group) (rs : List Res) : (g.pendSet rs).saveRec = g.saveRec := rfl
@[simp] theorem Group.pendSet_saving (g : Group) (rs : List Res) : (g.pendSet rs).saving = g.saving := rfl
@[simp] theorem Group.pendSet_saveNo (g : Group) (rs : List Res) : (g.pendSet rs).saveNo = g.saveNo := rfl
@[simp] theorem Group.pendSet_dead (g : Group) (rs : List Res) : (g.pendSet rs).dead = g.dead := rfl
@[simp] theorem Group.pendSet_yielded (g : Group) (rs : List Res) : (g.pendSet rs).yielded = g.yielded := rfl
@[simp] theorem Group.pendSet_poisonDue (g : Group) (rs : List Res) : (g.pendSet rs).poisonDue = g.poisonDue := rfl
@[simp] theorem Group.pendSet_barriers (g : Group) (rs : List Res) : (g.pendSet rs).barriers = g.barriers := rfl
@[simp] theorem Group.pendSet_cairns (g : Group) (rs : List Res) : (g.pendSet rs).cairns = g.cairns := rfl
@[simp] theorem Group.pendSet_log (g : Group) (rs : List Res) : (g.pendSet rs).log = g.log := rfl
@[simp] theorem Group.pendSet_tiles (g : Group) (rs : List Res) : (g.pendSet rs).tiles = g.tiles := rfl
@[simp] theorem Group.pendSet_sticky (g : Group) (rs : List Res) : (g.pendSet rs).sticky = g.sticky := rfl
@[simp] theorem Group.pendSet_resClk (g : Group) (rs : List Res) : (g.pendSet rs).resClk = g.resClk := rfl
@[simp] theorem Group.pendSet_resPs (g : Group) (rs : List Res) : (g.pendSet rs).resPs = g.resPs := rfl
@[simp] theorem Group.pendSet_now (g : Group) (rs : List Res) : (g.pendSet rs).now = g.now := rfl
@[simp] theorem Group.pendSet_swapAt (g : Group) (rs : List Res) : (g.pendSet rs).swapAt = g.swapAt := rfl
@[simp] theorem Group.pendSet_candAt (g : Group) (rs : List Res) : (g.pendSet rs).candAt = g.candAt := rfl
@[simp] theorem Group.pendSet_moved (g : Group) (rs : List Res) : (g.pendSet rs).moved = g.moved := rfl
@[simp] theorem Group.pendSet_restorable (g : Group) (rs : List Res) : (g.pendSet rs).restorable = g.restorable := rfl
@[simp] theorem Group.pendClear_gid (g : Group) (rs : List Res) : (g.pendClear rs).gid = g.gid := rfl
@[simp] theorem Group.pendClear_node (g : Group) (rs : List Res) : (g.pendClear rs).node = g.node := rfl
@[simp] theorem Group.pendClear_core (g : Group) (rs : List Res) : (g.pendClear rs).core = g.core := rfl
@[simp] theorem Group.pendClear_slot (g : Group) (rs : List Res) : (g.pendClear rs).slot = g.slot := rfl
@[simp] theorem Group.pendClear_pcore (g : Group) (rs : List Res) : (g.pendClear rs).pcore = g.pcore := rfl
@[simp] theorem Group.pendClear_pslot (g : Group) (rs : List Res) : (g.pendClear rs).pslot = g.pslot := rfl
@[simp] theorem Group.pendClear_pinst (g : Group) (rs : List Res) : (g.pendClear rs).pinst = g.pinst := rfl
@[simp] theorem Group.pendClear_phase (g : Group) (rs : List Res) : (g.pendClear rs).phase = g.phase := rfl
@[simp] theorem Group.pendClear_warps (g : Group) (rs : List Res) : (g.pendClear rs).warps = g.warps := rfl
@[simp] theorem Group.pendClear_groupid (g : Group) (rs : List Res) : (g.pendClear rs).groupid = g.groupid := rfl
@[simp] theorem Group.pendClear_griddim (g : Group) (rs : List Res) : (g.pendClear rs).griddim = g.griddim := rfl
@[simp] theorem Group.pendClear_nodeid (g : Group) (rs : List Res) : (g.pendClear rs).nodeid = g.nodeid := rfl
@[simp] theorem Group.pendClear_cls (g : Group) (rs : List Res) : (g.pendClear rs).cls = g.cls := rfl
@[simp] theorem Group.pendClear_age (g : Group) (rs : List Res) : (g.pendClear rs).age = g.age := rfl
@[simp] theorem Group.pendClear_threads (g : Group) (rs : List Res) : (g.pendClear rs).threads = g.threads := rfl
@[simp] theorem Group.pendClear_part (g : Group) (rs : List Res) : (g.pendClear rs).part = g.part := rfl
@[simp] theorem Group.pendClear_absent (g : Group) (rs : List Res) : (g.pendClear rs).absent = g.absent := rfl
@[simp] theorem Group.pendClear_sregs (g : Group) (rs : List Res) : (g.pendClear rs).sregs = g.sregs := rfl
@[simp] theorem Group.pendClear_ctx (g : Group) (rs : List Res) : (g.pendClear rs).ctx = g.ctx := rfl
@[simp] theorem Group.pendClear_gates (g : Group) (rs : List Res) : (g.pendClear rs).gates = g.gates := rfl
@[simp] theorem Group.pendClear_wdlimit (g : Group) (rs : List Res) : (g.pendClear rs).wdlimit = g.wdlimit := rfl
@[simp] theorem Group.pendClear_wdcount (g : Group) (rs : List Res) : (g.pendClear rs).wdcount = g.wdcount := rfl
@[simp] theorem Group.pendClear_wdowed (g : Group) (rs : List Res) : (g.pendClear rs).wdowed = g.wdowed := rfl
@[simp] theorem Group.pendClear_trap (g : Group) (rs : List Res) : (g.pendClear rs).trap = g.trap := rfl
@[simp] theorem Group.pendClear_held (g : Group) (rs : List Res) : (g.pendClear rs).held = g.held := rfl
@[simp] theorem Group.pendClear_preemptDue (g : Group) (rs : List Res) : (g.pendClear rs).preemptDue = g.preemptDue := rfl
@[simp] theorem Group.pendClear_saveRec (g : Group) (rs : List Res) : (g.pendClear rs).saveRec = g.saveRec := rfl
@[simp] theorem Group.pendClear_saving (g : Group) (rs : List Res) : (g.pendClear rs).saving = g.saving := rfl
@[simp] theorem Group.pendClear_saveNo (g : Group) (rs : List Res) : (g.pendClear rs).saveNo = g.saveNo := rfl
@[simp] theorem Group.pendClear_dead (g : Group) (rs : List Res) : (g.pendClear rs).dead = g.dead := rfl
@[simp] theorem Group.pendClear_yielded (g : Group) (rs : List Res) : (g.pendClear rs).yielded = g.yielded := rfl
@[simp] theorem Group.pendClear_poisonDue (g : Group) (rs : List Res) : (g.pendClear rs).poisonDue = g.poisonDue := rfl
@[simp] theorem Group.pendClear_barriers (g : Group) (rs : List Res) : (g.pendClear rs).barriers = g.barriers := rfl
@[simp] theorem Group.pendClear_cairns (g : Group) (rs : List Res) : (g.pendClear rs).cairns = g.cairns := rfl
@[simp] theorem Group.pendClear_log (g : Group) (rs : List Res) : (g.pendClear rs).log = g.log := rfl
@[simp] theorem Group.pendClear_tiles (g : Group) (rs : List Res) : (g.pendClear rs).tiles = g.tiles := rfl
@[simp] theorem Group.pendClear_sticky (g : Group) (rs : List Res) : (g.pendClear rs).sticky = g.sticky := rfl
@[simp] theorem Group.pendClear_resClk (g : Group) (rs : List Res) : (g.pendClear rs).resClk = g.resClk := rfl
@[simp] theorem Group.pendClear_resPs (g : Group) (rs : List Res) : (g.pendClear rs).resPs = g.resPs := rfl
@[simp] theorem Group.pendClear_now (g : Group) (rs : List Res) : (g.pendClear rs).now = g.now := rfl
@[simp] theorem Group.pendClear_swapAt (g : Group) (rs : List Res) : (g.pendClear rs).swapAt = g.swapAt := rfl
@[simp] theorem Group.pendClear_candAt (g : Group) (rs : List Res) : (g.pendClear rs).candAt = g.candAt := rfl
@[simp] theorem Group.pendClear_moved (g : Group) (rs : List Res) : (g.pendClear rs).moved = g.moved := rfl
@[simp] theorem Group.pendClear_restorable (g : Group) (rs : List Res) : (g.pendClear rs).restorable = g.restorable := rfl
@[simp] theorem Group.setLines_gid (g : Group) (ls : List Nat) : (g.setLines ls).gid = g.gid := rfl
@[simp] theorem Group.setLines_node (g : Group) (ls : List Nat) : (g.setLines ls).node = g.node := rfl
@[simp] theorem Group.setLines_core (g : Group) (ls : List Nat) : (g.setLines ls).core = g.core := rfl
@[simp] theorem Group.setLines_slot (g : Group) (ls : List Nat) : (g.setLines ls).slot = g.slot := rfl
@[simp] theorem Group.setLines_pcore (g : Group) (ls : List Nat) : (g.setLines ls).pcore = g.pcore := rfl
@[simp] theorem Group.setLines_pslot (g : Group) (ls : List Nat) : (g.setLines ls).pslot = g.pslot := rfl
@[simp] theorem Group.setLines_pinst (g : Group) (ls : List Nat) : (g.setLines ls).pinst = g.pinst := rfl
@[simp] theorem Group.setLines_phase (g : Group) (ls : List Nat) : (g.setLines ls).phase = g.phase := rfl
@[simp] theorem Group.setLines_warps (g : Group) (ls : List Nat) : (g.setLines ls).warps = g.warps := rfl
@[simp] theorem Group.setLines_groupid (g : Group) (ls : List Nat) : (g.setLines ls).groupid = g.groupid := rfl
@[simp] theorem Group.setLines_griddim (g : Group) (ls : List Nat) : (g.setLines ls).griddim = g.griddim := rfl
@[simp] theorem Group.setLines_nodeid (g : Group) (ls : List Nat) : (g.setLines ls).nodeid = g.nodeid := rfl
@[simp] theorem Group.setLines_cls (g : Group) (ls : List Nat) : (g.setLines ls).cls = g.cls := rfl
@[simp] theorem Group.setLines_age (g : Group) (ls : List Nat) : (g.setLines ls).age = g.age := rfl
@[simp] theorem Group.setLines_threads (g : Group) (ls : List Nat) : (g.setLines ls).threads = g.threads := rfl
@[simp] theorem Group.setLines_part (g : Group) (ls : List Nat) : (g.setLines ls).part = g.part := rfl
@[simp] theorem Group.setLines_sregs (g : Group) (ls : List Nat) : (g.setLines ls).sregs = g.sregs := rfl
@[simp] theorem Group.setLines_ctx (g : Group) (ls : List Nat) : (g.setLines ls).ctx = g.ctx := rfl
@[simp] theorem Group.setLines_gates (g : Group) (ls : List Nat) : (g.setLines ls).gates = g.gates := rfl
@[simp] theorem Group.setLines_wdlimit (g : Group) (ls : List Nat) : (g.setLines ls).wdlimit = g.wdlimit := rfl
@[simp] theorem Group.setLines_wdcount (g : Group) (ls : List Nat) : (g.setLines ls).wdcount = g.wdcount := rfl
@[simp] theorem Group.setLines_wdowed (g : Group) (ls : List Nat) : (g.setLines ls).wdowed = g.wdowed := rfl
@[simp] theorem Group.setLines_trap (g : Group) (ls : List Nat) : (g.setLines ls).trap = g.trap := rfl
@[simp] theorem Group.setLines_held (g : Group) (ls : List Nat) : (g.setLines ls).held = g.held := rfl
@[simp] theorem Group.setLines_preemptDue (g : Group) (ls : List Nat) : (g.setLines ls).preemptDue = g.preemptDue := rfl
@[simp] theorem Group.setLines_saveRec (g : Group) (ls : List Nat) : (g.setLines ls).saveRec = g.saveRec := rfl
@[simp] theorem Group.setLines_saving (g : Group) (ls : List Nat) : (g.setLines ls).saving = g.saving := rfl
@[simp] theorem Group.setLines_saveNo (g : Group) (ls : List Nat) : (g.setLines ls).saveNo = g.saveNo := rfl
@[simp] theorem Group.setLines_dead (g : Group) (ls : List Nat) : (g.setLines ls).dead = g.dead := rfl
@[simp] theorem Group.setLines_yielded (g : Group) (ls : List Nat) : (g.setLines ls).yielded = g.yielded := rfl
@[simp] theorem Group.setLines_poisonDue (g : Group) (ls : List Nat) : (g.setLines ls).poisonDue = g.poisonDue := rfl
@[simp] theorem Group.setLines_barriers (g : Group) (ls : List Nat) : (g.setLines ls).barriers = g.barriers := rfl
@[simp] theorem Group.setLines_cairns (g : Group) (ls : List Nat) : (g.setLines ls).cairns = g.cairns := rfl
@[simp] theorem Group.setLines_log (g : Group) (ls : List Nat) : (g.setLines ls).log = g.log := rfl
@[simp] theorem Group.setLines_pend (g : Group) (ls : List Nat) : (g.setLines ls).pend = g.pend := rfl
@[simp] theorem Group.setLines_tiles (g : Group) (ls : List Nat) : (g.setLines ls).tiles = g.tiles := rfl
@[simp] theorem Group.setLines_sticky (g : Group) (ls : List Nat) : (g.setLines ls).sticky = g.sticky := rfl
@[simp] theorem Group.setLines_resClk (g : Group) (ls : List Nat) : (g.setLines ls).resClk = g.resClk := rfl
@[simp] theorem Group.setLines_resPs (g : Group) (ls : List Nat) : (g.setLines ls).resPs = g.resPs := rfl
@[simp] theorem Group.setLines_now (g : Group) (ls : List Nat) : (g.setLines ls).now = g.now := rfl
@[simp] theorem Group.setLines_swapAt (g : Group) (ls : List Nat) : (g.setLines ls).swapAt = g.swapAt := rfl
@[simp] theorem Group.setLines_candAt (g : Group) (ls : List Nat) : (g.setLines ls).candAt = g.candAt := rfl
@[simp] theorem Group.setLines_moved (g : Group) (ls : List Nat) : (g.setLines ls).moved = g.moved := rfl
@[simp] theorem Group.setLines_restorable (g : Group) (ls : List Nat) : (g.setLines ls).restorable = g.restorable := rfl
@[simp] theorem Group.clearLines_gid (g : Group) (ls : List Nat) : (g.clearLines ls).gid = g.gid := rfl
@[simp] theorem Group.clearLines_node (g : Group) (ls : List Nat) : (g.clearLines ls).node = g.node := rfl
@[simp] theorem Group.clearLines_core (g : Group) (ls : List Nat) : (g.clearLines ls).core = g.core := rfl
@[simp] theorem Group.clearLines_slot (g : Group) (ls : List Nat) : (g.clearLines ls).slot = g.slot := rfl
@[simp] theorem Group.clearLines_pcore (g : Group) (ls : List Nat) : (g.clearLines ls).pcore = g.pcore := rfl
@[simp] theorem Group.clearLines_pslot (g : Group) (ls : List Nat) : (g.clearLines ls).pslot = g.pslot := rfl
@[simp] theorem Group.clearLines_pinst (g : Group) (ls : List Nat) : (g.clearLines ls).pinst = g.pinst := rfl
@[simp] theorem Group.clearLines_phase (g : Group) (ls : List Nat) : (g.clearLines ls).phase = g.phase := rfl
@[simp] theorem Group.clearLines_warps (g : Group) (ls : List Nat) : (g.clearLines ls).warps = g.warps := rfl
@[simp] theorem Group.clearLines_groupid (g : Group) (ls : List Nat) : (g.clearLines ls).groupid = g.groupid := rfl
@[simp] theorem Group.clearLines_griddim (g : Group) (ls : List Nat) : (g.clearLines ls).griddim = g.griddim := rfl
@[simp] theorem Group.clearLines_nodeid (g : Group) (ls : List Nat) : (g.clearLines ls).nodeid = g.nodeid := rfl
@[simp] theorem Group.clearLines_cls (g : Group) (ls : List Nat) : (g.clearLines ls).cls = g.cls := rfl
@[simp] theorem Group.clearLines_age (g : Group) (ls : List Nat) : (g.clearLines ls).age = g.age := rfl
@[simp] theorem Group.clearLines_threads (g : Group) (ls : List Nat) : (g.clearLines ls).threads = g.threads := rfl
@[simp] theorem Group.clearLines_part (g : Group) (ls : List Nat) : (g.clearLines ls).part = g.part := rfl
@[simp] theorem Group.clearLines_sregs (g : Group) (ls : List Nat) : (g.clearLines ls).sregs = g.sregs := rfl
@[simp] theorem Group.clearLines_ctx (g : Group) (ls : List Nat) : (g.clearLines ls).ctx = g.ctx := rfl
@[simp] theorem Group.clearLines_gates (g : Group) (ls : List Nat) : (g.clearLines ls).gates = g.gates := rfl
@[simp] theorem Group.clearLines_wdlimit (g : Group) (ls : List Nat) : (g.clearLines ls).wdlimit = g.wdlimit := rfl
@[simp] theorem Group.clearLines_wdcount (g : Group) (ls : List Nat) : (g.clearLines ls).wdcount = g.wdcount := rfl
@[simp] theorem Group.clearLines_wdowed (g : Group) (ls : List Nat) : (g.clearLines ls).wdowed = g.wdowed := rfl
@[simp] theorem Group.clearLines_trap (g : Group) (ls : List Nat) : (g.clearLines ls).trap = g.trap := rfl
@[simp] theorem Group.clearLines_held (g : Group) (ls : List Nat) : (g.clearLines ls).held = g.held := rfl
@[simp] theorem Group.clearLines_preemptDue (g : Group) (ls : List Nat) : (g.clearLines ls).preemptDue = g.preemptDue := rfl
@[simp] theorem Group.clearLines_saveRec (g : Group) (ls : List Nat) : (g.clearLines ls).saveRec = g.saveRec := rfl
@[simp] theorem Group.clearLines_saving (g : Group) (ls : List Nat) : (g.clearLines ls).saving = g.saving := rfl
@[simp] theorem Group.clearLines_saveNo (g : Group) (ls : List Nat) : (g.clearLines ls).saveNo = g.saveNo := rfl
@[simp] theorem Group.clearLines_dead (g : Group) (ls : List Nat) : (g.clearLines ls).dead = g.dead := rfl
@[simp] theorem Group.clearLines_yielded (g : Group) (ls : List Nat) : (g.clearLines ls).yielded = g.yielded := rfl
@[simp] theorem Group.clearLines_poisonDue (g : Group) (ls : List Nat) : (g.clearLines ls).poisonDue = g.poisonDue := rfl
@[simp] theorem Group.clearLines_barriers (g : Group) (ls : List Nat) : (g.clearLines ls).barriers = g.barriers := rfl
@[simp] theorem Group.clearLines_cairns (g : Group) (ls : List Nat) : (g.clearLines ls).cairns = g.cairns := rfl
@[simp] theorem Group.clearLines_log (g : Group) (ls : List Nat) : (g.clearLines ls).log = g.log := rfl
@[simp] theorem Group.clearLines_pend (g : Group) (ls : List Nat) : (g.clearLines ls).pend = g.pend := rfl
@[simp] theorem Group.clearLines_tiles (g : Group) (ls : List Nat) : (g.clearLines ls).tiles = g.tiles := rfl
@[simp] theorem Group.clearLines_sticky (g : Group) (ls : List Nat) : (g.clearLines ls).sticky = g.sticky := rfl
@[simp] theorem Group.clearLines_resClk (g : Group) (ls : List Nat) : (g.clearLines ls).resClk = g.resClk := rfl
@[simp] theorem Group.clearLines_resPs (g : Group) (ls : List Nat) : (g.clearLines ls).resPs = g.resPs := rfl
@[simp] theorem Group.clearLines_now (g : Group) (ls : List Nat) : (g.clearLines ls).now = g.now := rfl
@[simp] theorem Group.clearLines_swapAt (g : Group) (ls : List Nat) : (g.clearLines ls).swapAt = g.swapAt := rfl
@[simp] theorem Group.clearLines_candAt (g : Group) (ls : List Nat) : (g.clearLines ls).candAt = g.candAt := rfl
@[simp] theorem Group.clearLines_moved (g : Group) (ls : List Nat) : (g.clearLines ls).moved = g.moved := rfl
@[simp] theorem Group.clearLines_restorable (g : Group) (ls : List Nat) : (g.clearLines ls).restorable = g.restorable := rfl

end Sys2Proof.Machine
end

