-- ==== Sys2Proof/Laws/DieMemory.lean ====
section
/-! SUPPORT. Every operation on a die keeps the canonical form of its memory: most leave the list of bytes as it is
(`_mem`), and the others write it through `memPut` (`_wf`). -/

set_option maxRecDepth 4000
set_option linter.all false

namespace Sys2Proof.Machine

/-- Steps each of which leaves memory alone leave it alone together. -/
@[simp] theorem foldl_mem {α : Type} (f : Die → α → Die) (h : ∀ d a, (f d a).mem = d.mem) (l : List α) (d : Die) :
    (l.foldl f d).mem = d.mem := by
  induction l generalizing d with
  | nil => rfl
  | cons a l ih => simp [ih, h]

/-- The same, where the die is the first of a pair. -/
@[simp] theorem foldl_fst_mem {α β : Type} (f : Die × β → α → Die × β) (h : ∀ s a, (f s a).1.mem = s.1.mem) (l : List α)
    (s : Die × β) : (l.foldl f s).1.mem = s.1.mem := by
  induction l generalizing s with
  | nil => rfl
  | cons a l ih => simp [ih, h]

/-- The same, where the die is the second of a pair. -/
@[simp] theorem foldl_snd_mem {α β : Type} (f : β × Die → α → β × Die) (h : ∀ s a, (f s a).2.mem = s.2.mem) (l : List α)
    (s : β × Die) : (l.foldl f s).2.mem = s.2.mem := by
  induction l generalizing s with
  | nil => rfl
  | cons a l ih => simp [ih, h]

/-- The memory of a choice of dies. -/
@[simp] theorem ite_mem (c : Prop) [Decidable c] (a b : Die) : (if c then a else b).mem = if c then a.mem else b.mem := by
  split <;> rfl

/-- Steps each of which keeps the form keep it together. -/
theorem foldl_wf {α : Type} (f : Die → α → Die) (h : ∀ d a, Memory.wf d.mem = true → Memory.wf (f d a).mem = true)
    (l : List α) (d : Die) (hd : Memory.wf d.mem = true) : Memory.wf (l.foldl f d).mem = true := by
  induction l generalizing d with
  | nil => exact hd
  | cons a l ih => exact ih _ (h _ _ hd)

/-- The same, where the die is the first of a pair. -/
theorem foldl_fst_wf {α β : Type} (f : Die × β → α → Die × β)
    (h : ∀ p a, Memory.wf p.1.mem = true → Memory.wf (f p a).1.mem = true) (l : List α) (p : Die × β)
    (hp : Memory.wf p.1.mem = true) : Memory.wf (l.foldl f p).1.mem = true := by
  induction l generalizing p with
  | nil => exact hp
  | cons a l ih => exact ih _ (h _ _ hp)

@[simp] theorem Die.modNode_mem (d : Die) (nid : Nat) (f : Node → Node) : (Die.modNode d nid f).mem = d.mem := by
  unfold Die.modNode
  (try simp) <;> (repeat' (split <;> try simp_all))

@[simp] theorem Die.poisonSector_mem (d : Die) (sec : Nat) : (Die.poisonSector d sec).mem = d.mem := by
  unfold Die.poisonSector
  (try simp) <;> (repeat' (split <;> try simp_all))

@[simp] theorem Die.writeSector_wf (d : Die) (sec mask : Nat) (bs : List Byte) (hw : Memory.wf d.mem = true) : Memory.wf (Die.writeSector d sec mask bs).mem = true := by
  unfold Die.writeSector
  dsimp only
  repeat' split
  all_goals simp [hw]

@[simp] theorem Die.awrite_wf (d : Die) (frame asub afmt b : Nat) (mask : DWord) (data : BitVec 512) (hw : Memory.wf d.mem = true) : Memory.wf (Die.awrite d frame asub afmt b mask data).mem = true := by
  unfold Die.awrite
  (try simp [hw]) <;> (repeat' (split <;> try simp_all))

@[simp] theorem Die.l2Modify_mem (d : Die) (r : LineRef) (f : L2Line → L2Line) : (Die.l2Modify d r f).mem = d.mem := by
  unfold Die.l2Modify
  (try simp) <;> (repeat' (split <;> try simp_all))

@[simp] theorem Die.l1Drop_mem (d : Die) (slice a : Nat) : (Die.l1Drop d slice a).mem = d.mem := by
  unfold Die.l1Drop
  (try simp) <;> (repeat' (split <;> try simp_all))

@[simp] theorem Die.l1DropRange_mem (d : Die) (a n : Nat) : (Die.l1DropRange d a n).mem = d.mem := by
  unfold Die.l1DropRange
  (try simp) <;> (repeat' (split <;> try simp_all))

@[simp] theorem Die.writeBackSector_wf (d : Die) (l : L2Line) (i : Nat) (hw : Memory.wf d.mem = true) : Memory.wf (Die.writeBackSector d l i).mem = true := by
  unfold Die.writeBackSector
  (try simp [hw]) <;> (repeat' (split <;> try simp_all))

theorem Die.stageAt_wf (d : Die) (room : Die → Nat → Nat → Die × Nat) (k : Nat) (data : BitVec 512)
    (hr : ∀ d sl st, Memory.wf d.mem = true → Memory.wf (room d sl st).1.mem = true) (hw : Memory.wf d.mem = true) :
    Memory.wf (Die.stageAt d room k data).mem = true := by
  unfold Die.stageAt
  dsimp only
  rw [Die.l2Modify_mem]
  split
  · exact hw
  · exact hr _ _ _ hw

theorem Die.stage_wf (d : Die) (room : Die → Nat → Nat → Die × Nat) (nid : Nat) (l : L2Line)
    (hr : ∀ d sl st, Memory.wf d.mem = true → Memory.wf (room d sl st).1.mem = true) (hw : Memory.wf d.mem = true) :
    Memory.wf (Die.stage d room nid l).mem = true := by
  unfold Die.stage
  split
  · exact hw
  · exact Die.stageAt_wf _ _ _ _ hr (by simp [hw])

theorem Die.evictWith_wf (d : Die) (room : Die → Nat → Nat → Die × Nat) (l : L2Line)
    (hr : ∀ d sl st, Memory.wf d.mem = true → Memory.wf (room d sl st).1.mem = true) (hw : Memory.wf d.mem = true) :
    Memory.wf (Die.evictWith d room l).mem = true := by
  have h1 : Memory.wf (if l.l1 then d.l1Drop l.slice l.line else d).mem = true := by split <;> simp [hw]
  unfold Die.evictWith
  dsimp only
  split
  · exact Die.stage_wf _ _ _ _ hr h1
  · split
    · exact h1
    · exact Die.writeBackSector_wf _ _ _ (Die.writeBackSector_wf _ _ _ h1)

theorem Die.victim_mem {d : Die} {slice set : Nat} {v : L2Line × Die} (h : d.victim slice set = some v) : v.2.mem = d.mem := by
  unfold Die.victim at h
  obtain ⟨l, -, rfl⟩ := Option.map_eq_some_iff.mp h
  rfl

theorem Die.roomIn_wf (fuel : Nat) : ∀ (d : Die) (slice set : Nat), Memory.wf d.mem = true →
    Memory.wf (Die.roomIn fuel d slice set).1.mem = true := by
  induction fuel with
  | zero =>
    intro d slice set hw
    unfold Die.roomIn
    split <;> exact hw
  | succ n ih =>
    intro d slice set hw
    unfold Die.roomIn
    split
    · exact hw
    · split
      · rename_i v d' hk hv
        cases hk
        exact ih _ _ _ (Die.evictWith_wf _ _ _ (fun d sl st h => ih d sl st h) (by rw [Die.victim_mem hv]; exact hw))
      · exact hw

@[simp] theorem Die.makeRoom_wf (d : Die) (slice set : Nat) (hw : Memory.wf d.mem = true) : Memory.wf (Die.makeRoom d slice set).1.mem = true :=
  Die.roomIn_wf _ _ _ _ hw

@[simp] theorem Die.evict_wf (d : Die) (l : L2Line) (hw : Memory.wf d.mem = true) : Memory.wf (Die.evict d l).mem = true :=
  Die.evictWith_wf _ _ _ (fun d sl st h => Die.makeRoom_wf d sl st h) hw

@[simp] theorem Die.l2Open_wf (d : Die) (r : LineRef) (hint : Nat) (hw : Memory.wf d.mem = true) : Memory.wf (Die.l2Open d r hint).mem = true := by
  unfold Die.l2Open
  (try simp [hw]) <;> (repeat' (split <;> try simp_all))

@[simp] theorem Die.l2Load_wf (d : Die) (r : LineRef) (hint : Nat) (hw : Memory.wf d.mem = true) : Memory.wf (Die.l2Load d r hint).mem = true := by
  unfold Die.l2Load
  (try simp [hw]) <;> (repeat' (split <;> try simp_all))

@[simp] theorem Die.l1Invalidate_mem (d : Die) (r : LineRef) : (Die.l1Invalidate d r).mem = d.mem := by
  unfold Die.l1Invalidate
  (try simp) <;> (repeat' (split <;> try simp_all))

@[simp] theorem Die.l2Store_wf (d : Die) (r : LineRef) (hint : Nat) (bs : List (Nat × Byte)) (hw : Memory.wf d.mem = true) : Memory.wf (Die.l2Store d r hint bs).mem = true := by
  unfold Die.l2Store
  (try simp [hw]) <;> (repeat' (split <;> try simp_all))

@[simp] theorem Die.l2Poison_wf (d : Die) (r : LineRef) (hint : Nat) (sectors : List Nat) (hw : Memory.wf d.mem = true) : Memory.wf (Die.l2Poison d r hint sectors).mem = true := by
  unfold Die.l2Poison
  (try simp [hw]) <;> (repeat' (split <;> try simp_all))

@[simp] theorem Die.fetchLines_wf (d : Die) (t : Attr) (a n : Nat) (hw : Memory.wf d.mem = true) : Memory.wf (Die.fetchLines d t a n).mem = true := by
  exact foldl_wf _ (fun d l h => Die.l2Load_wf _ _ _ h) _ _ hw

@[simp] theorem Die.fetchAt_wf (d : Die) (t : Attr) (a n : Nat) (hw : Memory.wf d.mem = true) : Memory.wf (Die.fetchAt d t a n).2.mem = true := by
  unfold Die.fetchAt
  (try simp [hw]) <;> (repeat' (split <;> try simp_all))

@[simp] theorem Die.poisonWordsAt_wf (d : Die) (t : Attr) (a : Nat) (words : List Nat) (hw : Memory.wf d.mem = true) : Memory.wf (Die.poisonWordsAt d t a words).mem = true := by
  exact foldl_wf _ (fun d sec h => Die.l2Poison_wf _ _ _ _ h) _ _ hw

@[simp] theorem Die.writeAt_wf (d : Die) (t : Attr) (a : Nat) (bs : List Byte) (hw : Memory.wf d.mem = true) : Memory.wf (Die.writeAt d t a bs).mem = true := by
  exact foldl_wf _ (fun d l h => Die.l2Store_wf _ _ _ _ h) _ _ hw

@[simp] theorem Die.engineWrite_wf (d : Die) (a : Nat) (bs : List Byte) (hw : Memory.wf d.mem = true) : Memory.wf (Die.engineWrite d a bs).mem = true := by
  exact Die.writeAt_wf _ _ _ _ hw

@[simp] theorem Die.dropLines_mem (d : Die) (a n : Nat) : (Die.dropLines d a n).mem = d.mem := by
  unfold Die.dropLines
  (try simp) <;> (repeat' (split <;> try simp_all))

@[simp] theorem Die.zeroRange_mem (d : Die) (a n : Nat) : (Die.zeroRange d a n).mem = d.mem := by
  unfold Die.zeroRange
  (try simp) <;> (repeat' (split <;> try simp_all))

@[simp] theorem Die.zeroFrame_mem (d : Die) (frame size : Nat) (asub : Option Nat) : (Die.zeroFrame d frame size asub).mem = d.mem := by
  unfold Die.zeroFrame
  (try simp) <;> (repeat' (split <;> try simp_all))

@[simp] theorem Die.zeroLine_wf (d : Die) (line : Nat) (hw : Memory.wf d.mem = true) : Memory.wf (Die.zeroLine d line).mem = true := by
  refine foldl_wf _ (fun d sec h => ?_) _ _ hw
  split <;> simp [h]

@[simp] theorem Die.modLink_mem (d : Die) (code : Nat) (f : Link → Link) : (Die.modLink d code f).mem = d.mem := by
  unfold Die.modLink
  (try simp) <;> (repeat' (split <;> try simp_all))

@[simp] theorem Die.putEntry_wf (d : Die) (loc e : Nat) (hw : Memory.wf d.mem = true) : Memory.wf (Die.putEntry d loc e).mem = true := by
  unfold Die.putEntry
  (try simp [hw]) <;> (repeat' (split <;> try simp_all))

@[simp] theorem Die.zeroLeaf_wf (d : Die) (f : Found) (hw : Memory.wf d.mem = true) : Memory.wf (Die.zeroLeaf d f).2.mem = true := by
  unfold Die.zeroLeaf
  (try simp [hw]) <;> (repeat' (split <;> try simp_all))

@[simp] theorem Die.translate_wf (d : Die) (pn va : Nat) (hw : Memory.wf d.mem = true) : Memory.wf (Die.translate d pn va).2.mem = true := by
  unfold Die.translate
  (try simp [hw]) <;> (repeat' (split <;> try simp_all))

@[simp] theorem Die.walkFresh_wf (d : Die) (core pn va : Nat) (hw : Memory.wf d.mem = true) : Memory.wf (Die.walkFresh d core pn va).2.mem = true := by
  unfold Die.walkFresh
  (try simp [hw]) <;> (repeat' (split <;> try simp_all))

@[simp] theorem Die.walkThrough_wf (d : Die) (core pn va : Nat) (hw : Memory.wf d.mem = true) : Memory.wf (Die.walkThrough d core pn va).2.mem = true := by
  unfold Die.walkThrough
  (try simp [hw]) <;> (repeat' (split <;> try simp_all))

@[simp] theorem Die.modQueue_mem (d : Die) (i : Nat) (f : Queue → Queue) : (Die.modQueue d i f).mem = d.mem := by
  unfold Die.modQueue
  (try simp) <;> (repeat' (split <;> try simp_all))

@[simp] theorem Die.reserve_mem (d : Die) (idx gen : Nat) (dom : Word) (n : Nat) (prod : Producer) (pn : Nat) : (Die.reserve d idx gen dom n prod pn).2.mem = d.mem := by
  unfold Die.reserve
  (try simp) <;> (repeat' (split <;> try simp_all))

@[simp] theorem Die.commit_mem (d : Die) (q : Queue) (ticket : Nat) (prod : Producer) (rput err : Bool) (bytes : List Byte) (mlen : Nat) (bad : List Nat) (dom : Word) (mseq : Nat) : (Die.commit d q ticket prod rput err bytes mlen bad dom mseq).2.mem = d.mem := by
  unfold Die.commit
  (try simp) <;> (repeat' (split <;> try simp_all))

@[simp] theorem Die.makeHoles_mem (d : Die) (idx : Nat) (sel : Ticket → Bool) : (Die.makeHoles d idx sel).mem = d.mem := by
  unfold Die.makeHoles
  (try simp) <;> (repeat' (split <;> try simp_all))

@[simp] theorem Die.cancelGrant_mem (d : Die) (idx first : Nat) (prod : Producer) : (Die.cancelGrant d idx first prod).mem = d.mem := by
  unfold Die.cancelGrant
  (try simp) <;> (repeat' (split <;> try simp_all))

@[simp] theorem Die.append_mem (d : Die) (idx cell : Nat) (bytes : List Byte) : (Die.append d idx cell bytes).mem = d.mem := by
  unfold Die.append
  (try simp) <;> (repeat' (split <;> try simp_all))

@[simp] theorem Die.sysEvent_mem (d : Die) (code : Nat) (body : List Byte) : (Die.sysEvent d code body).mem = d.mem := by
  unfold Die.sysEvent
  (try simp) <;> (repeat' (split <;> try simp_all))

@[simp] theorem Die.notice_mem (d : Die) (n : Notice) : (Die.notice d n).mem = d.mem := by
  unfold Die.notice
  (try simp) <;> (repeat' (split <;> try simp_all))

@[simp] theorem Die.flushNotices_mem (d : Die) : (Die.flushNotices d).mem = d.mem := by
  unfold Die.flushNotices
  (try simp) <;> (repeat' (split <;> try simp_all))

@[simp] theorem Die.markTaken_mem (d : Die) (idx num : Nat) (taker : Option (Nat × Nat × Nat)) (delivered : Bool) : (Die.markTaken d idx num taker delivered).mem = d.mem := by
  unfold Die.markTaken
  (try simp) <;> (repeat' (split <;> try simp_all))

@[simp] theorem Die.take_mem (d : Die) (idx num : Nat) (taker : Option (Nat × Nat × Nat)) (delivered : Bool) : (Die.take d idx num taker delivered).mem = d.mem := by
  unfold Die.take
  (try simp) <;> (repeat' (split <;> try simp_all))

@[simp] theorem Die.putObject_wf (d : Die) (o : ObjRef) (x : Nat) (hw : Memory.wf d.mem = true) : Memory.wf (Die.putObject d o x).mem = true := by
  unfold Die.putObject
  (try simp [hw]) <;> (repeat' (split <;> try simp_all))

@[simp] theorem Die.reachSync_wf (d : Die) (pn va : Nat) (hw : Memory.wf d.mem = true) : Memory.wf (Die.reachSync d pn va).mem = true := by
  unfold Die.reachSync
  (try simp [hw]) <;> (repeat' (split <;> try simp_all))

@[simp] theorem Die.boundary_mem (d : Die) (reached : Bool) : (Die.boundary d reached).mem = d.mem := by
  unfold Die.boundary
  (try simp) <;> (repeat' (split <;> try simp_all))

@[simp] theorem Die.climb_wf (d : Die) (fuel pn : Nat) (prev : Option ObjRef) (a n st : Nat) (hw : Memory.wf d.mem = true) : Memory.wf (Die.climb d fuel pn prev a n st).1.mem = true := by
  induction fuel generalizing d prev a n st with
  | zero => exact hw
  | succ fuel ih =>
    have hr := Die.reachSync_wf d pn a hw
    unfold Die.climb
    generalize d.reachSync pn a = e at hr ⊢
    dsimp only
    split
    · exact hw
    · split
      · have hq (o : ObjRef) (x : Nat) (b : Bool) : Memory.wf ((e.putObject o x).boundary b).mem = true := by
          rw [Die.boundary_mem]; exact Die.putObject_wf _ _ _ hr
        split
        · exact hq _ _ _
        · exact ih _ _ _ _ _ (hq _ _ _)
      · cases prev with
        | none => exact hr
        | some p =>
          dsimp only
          split
          · dsimp only
            exact Die.putObject_wf _ _ _ hr
          · exact hr

@[simp] theorem Die.countDiscard_mem (d : Die) : (Die.countDiscard d).mem = d.mem := by
  unfold Die.countDiscard
  (try simp) <;> (repeat' (split <;> try simp_all))

@[simp] theorem Die.belayLog_mem (d : Die) (e : LogEntry) : (Die.belayLog d e).mem = d.mem := by
  unfold Die.belayLog
  (try simp) <;> (repeat' (split <;> try simp_all))

@[simp] theorem Die.recordOver_mem (d : Die) (rid : Nat) : (Die.recordOver d rid).mem = d.mem := by
  unfold Die.recordOver
  (try simp) <;> (repeat' (split <;> try simp_all))

@[simp] theorem Die.wakeCwait_mem (d : Die) (o : ObjRef) : (Die.wakeCwait d o).mem = d.mem := by
  unfold Die.wakeCwait
  (try simp) <;> (repeat' (split <;> try simp_all))

@[simp] theorem Die.releaseHeld_wf (d : Die) (o : ObjRef) (hw : Memory.wf d.mem = true) : Memory.wf (Die.releaseHeld d o).2.2.mem = true := by
  have h1 : Memory.wf (d.sched.hold.foldl (fun d r => d.reachSync r.pn r.gate) d).mem = true :=
    foldl_wf _ (fun d r h => Die.reachSync_wf _ _ _ h) _ _ hw
  unfold Die.releaseHeld
  dsimp only
  repeat' split
  all_goals exact h1

@[simp] theorem Die.owes_mem (d : Die) (pn va : Nat) (o : ObjRef) (up : Bool) : (Die.owes d pn va o up).mem = d.mem := by
  unfold Die.owes
  (try simp) <;> (repeat' (split <;> try simp_all))

@[simp] theorem Die.register_wf (d : Die) (pn va : Nat) (up : Bool) (hw : Memory.wf d.mem = true) : Memory.wf (Die.register d pn va up).mem = true := by
  unfold Die.register
  (try simp [hw]) <;> (repeat' (split <;> try simp_all))

@[simp] theorem Die.wake_wf (d : Die) (o : ObjRef) (hw : Memory.wf d.mem = true) : Memory.wf (Die.wake d o).1.mem = true := by
  have h1 := Die.releaseHeld_wf (d.wakeCwait o) o (by simpa using hw)
  unfold Die.wake
  dsimp only
  rw [Die.modSched_mem, foldl_mem _ (fun d r => by split <;> simp), foldl_mem _ (fun d r => by simp)]
  exact foldl_wf _ (fun d r h => Die.register_wf _ _ _ _ h) _ _ h1

@[simp] theorem Die.arriveAll_wf (d : Die) (fuel : Nat) (todo : List Arrival174) (hw : Memory.wf d.mem = true) : Memory.wf (Die.arriveAll d fuel todo).mem = true := by
  induction fuel generalizing d todo with
  | zero => unfold Die.arriveAll; exact hw
  | succ fuel ih =>
    cases todo with
    | nil => unfold Die.arriveAll; exact hw
    | cons a rest =>
      unfold Die.arriveAll
      refine ih _ _ ?_
      have h2 := foldl_fst_wf (fun (x : Die × List Arrival174) o =>
          match x with
          | (d, more) => match d.wake o with
            | (d, new) => (d, more ++ new)) (fun p o h => Die.wake_wf _ _ h) (d.climb 9 a.pn none a.va a.n a.st).2
        ((d.climb 9 a.pn none a.va a.n a.st).1, []) (Die.climb_wf d 9 a.pn none a.va a.n a.st hw)
      dsimp only
      split
      · exact Die.register_wf _ _ _ _ h2
      · exact h2

@[simp] theorem Die.arrive_wf (d : Die) (pn va n st : Nat) (hw : Memory.wf d.mem = true) : Memory.wf (Die.arrive d pn va n st).mem = true := by
  unfold Die.arrive
  (try simp [hw]) <;> (repeat' (split <;> try simp_all))

@[simp] theorem Die.arriveOwed_wf (d : Die) (pn va : Nat) (hw : Memory.wf d.mem = true) : Memory.wf (Die.arriveOwed d pn va).mem = true := by
  unfold Die.arriveOwed
  (try simp [hw]) <;> (repeat' (split <;> try simp_all))

@[simp] theorem Die.wakeDone_wf (d : Die) (o : ObjRef) (hw : Memory.wf d.mem = true) : Memory.wf (Die.wakeDone d o).mem = true := by
  unfold Die.wakeDone
  (try simp [hw]) <;> (repeat' (split <;> try simp_all))

@[simp] theorem Die.discardRecord_wf (d : Die) (r : TaskRec) (st : Nat) (hw : Memory.wf d.mem = true) : Memory.wf (Die.discardRecord d r st).mem = true := by
  unfold Die.discardRecord
  (try simp [hw]) <;> (repeat' (split <;> try simp_all))

@[simp] theorem Die.dropFence_mem (d : Die) (core id : Nat) : (Die.dropFence d core id).mem = d.mem := by
  unfold Die.dropFence
  (try simp) <;> (repeat' (split <;> try simp_all))

@[simp] theorem Die.clearFences_mem (d : Die) (core : Nat) : (Die.clearFences d core).mem = d.mem := by
  unfold Die.clearFences
  (try simp) <;> (repeat' (split <;> try simp_all))

@[simp] theorem Die.endOp_mem (d : Die) (core id : Nat) : (Die.endOp d core id).mem = d.mem := by
  unfold Die.endOp
  (try simp) <;> (repeat' (split <;> try simp_all))

@[simp] theorem Die.endCopy_mem (d : Die) (core : Nat) (c : Copy) (status : Nat) : (Die.endCopy d core c status).mem = d.mem := by
  unfold Die.endCopy
  (try simp) <;> (repeat' (split <;> try simp_all))

@[simp] theorem Die.discardTent_mem (d : Die) (nid : Nat) : (Die.discardTent d nid).mem = d.mem := by
  unfold Die.discardTent
  rw [Die.modNode_mem]

@[simp] theorem Die.forgetNode_mem (d : Die) (nid : Nat) : (Die.forgetNode d nid).mem = d.mem := by
  unfold Die.forgetNode
  rw [Die.modSched_mem, Die.discardTent_mem]

@[simp] theorem Die.dropNode_mem (d : Die) (nid : Nat) : (Die.dropNode d nid).mem = d.mem := by
  unfold Die.dropNode
  (try simp) <;> (repeat' (split <;> try simp_all))

@[simp] theorem Die.turnIrrevocable_mem (d : Die) (nid : Nat) : (Die.turnIrrevocable d nid).mem = d.mem := by
  unfold Die.turnIrrevocable
  (try simp) <;> (repeat' (split <;> try simp_all))

@[simp] theorem Die.settleKilled_wf (d : Die) (n : Node) (st : Nat) (hw : Memory.wf d.mem = true) : Memory.wf (Die.settleKilled d n st).mem = true := by
  unfold Die.settleKilled
  (try simp [hw]) <;> (repeat' (split <;> try simp_all))

@[simp] theorem Die.endStage_wf (d : Die) (n : Node) (st : Stage) (hw : Memory.wf d.mem = true) : Memory.wf (Die.endStage d n st).mem = true := by
  unfold Die.endStage
  (try simp [hw]) <;> (repeat' (split <;> try simp_all))

@[simp] theorem Die.dropOwed_wf (d : Die) (n : Node) (hw : Memory.wf d.mem = true) : Memory.wf (Die.dropOwed d n).mem = true := by
  exact foldl_wf _ (fun d _ h => Die.register_wf _ _ _ _ h) _ _ hw

@[simp] theorem Die.checkSettled_wf (d : Die) (nid : Nat) (hw : Memory.wf d.mem = true) : Memory.wf (Die.checkSettled d nid).mem = true := by
  unfold Die.checkSettled
  (try simp [hw]) <;> (repeat' (split <;> try simp_all))

@[simp] theorem Die.unpin_mem (d : Die) (cl : Nat) : (Die.unpin d cl).mem = d.mem := by
  unfold Die.unpin
  (try simp) <;> (repeat' (split <;> try simp_all))

@[simp] theorem Die.dropMatrix_mem (d : Die) (gid : Nat) : (Die.dropMatrix d gid).mem = d.mem := by
  unfold Die.dropMatrix
  (try simp) <;> (repeat' (split <;> try simp_all))

@[simp] theorem Die.freeSlot_mem (d : Die) (core slot : Nat) : (Die.freeSlot d core slot).mem = d.mem := by
  unfold Die.freeSlot
  (try simp) <;> (repeat' (split <;> try simp_all))

@[simp] theorem Die.dropHeldPrefetch_wf (d : Die) (g : Group) (ts : List Nat) (hw : Memory.wf d.mem = true) : Memory.wf (Die.dropHeldPrefetch d g ts).mem = true := by
  exact foldl_wf _ (fun d _ h => Die.register_wf _ _ _ _ h) _ _ hw

@[simp] theorem Die.dropPrefetchArrivals_wf (d : Die) (g : Group) (hw : Memory.wf d.mem = true) : Memory.wf (Die.dropPrefetchArrivals d g).mem = true := by
  exact foldl_wf _ (fun d _ h => Die.register_wf _ _ _ _ h) _ _ hw

@[simp] theorem Die.removeGroup_mem (d : Die) (gid : Nat) : (Die.removeGroup d gid).mem = d.mem := by
  unfold Die.removeGroup
  (try simp) <;> (repeat' (split <;> try simp_all))

@[simp] theorem Die.dropEngines_wf (d : Die) (g : Group) (hw : Memory.wf d.mem = true) : Memory.wf (Die.dropEngines d g).mem = true := by
  have h0 := Die.dropPrefetchArrivals_wf _ g (Die.dropHeldPrefetch_wf d g g.living hw)
  unfold Die.dropEngines
  dsimp only
  rw [foldl_mem _ (fun y k => Die.endCopy_mem y g.core k 0), Die.dropMatrix_mem]
  exact h0

@[simp] theorem Die.groupKilled_wf (d : Die) (g : Group) (hw : Memory.wf d.mem = true) : Memory.wf (Die.groupKilled d g).mem = true := by
  unfold Die.groupKilled
  (try simp [hw]) <;> (repeat' (split <;> try simp_all))

@[simp] theorem Die.freeRecordOf_mem (d : Die) (g : Group) : (Die.freeRecordOf d g).mem = d.mem := by
  unfold Die.freeRecordOf
  (try simp) <;> (repeat' (split <;> try simp_all))

@[simp] theorem Die.leaveSlot_mem (d : Die) (g : Group) : (Die.leaveSlot d g).mem = d.mem := by
  unfold Die.leaveSlot
  (try simp) <;> (repeat' (split <;> try simp_all))

@[simp] theorem Die.writeFans_wf (d : Die) (v : Nat) (hw : Memory.wf d.mem = true) : Memory.wf (Die.writeFans d v).mem = true := by
  unfold Die.writeFans
  (try simp [hw]) <;> (repeat' (split <;> try simp_all))

@[simp] theorem Die.writeTxans_mem (d : Die) (v : Nat) : (Die.writeTxans d v).mem = d.mem := by
  unfold Die.writeTxans
  (try simp) <;> (repeat' (split <;> try simp_all))

@[simp] theorem Die.writeReg64_mem (d : Die) (block off lo n v : Nat) : (Die.writeReg64 d block off lo n v).mem = d.mem := by
  unfold Die.writeReg64
  (try simp) <;> (repeat' (split <;> try simp_all))

@[simp] theorem Die.writeReg32_wf (d : Die) (mc : Bool) (block off v : Nat) (hw : Memory.wf d.mem = true) : Memory.wf (Die.writeReg32 d mc block off v).mem = true := by
  unfold Die.writeReg32
  split <;> (try dsimp only) <;> (try split) <;> first
    | with_reducible exact hw
    | exact Die.writeFans_wf d v hw
    | (rw [Die.modSched_mem]; exact hw)
    | (rw [Die.writeTxans_mem]; exact hw)

@[simp] theorem Die.writeReg_wf (d : Die) (mc : Bool) (a n v : Nat) (hw : Memory.wf d.mem = true) : Memory.wf (Die.writeReg d mc a n v).mem = true := by
  unfold Die.writeReg
  (try simp [hw]) <;> (repeat' (split <;> try simp_all))

@[simp] theorem Die.fetchPlace_wf (d : Die) (k : Nat) (hw : Memory.wf d.mem = true) : Memory.wf (Die.fetchPlace d k).mem = true :=
  Die.fetchLines_wf _ _ _ _ hw

@[simp] theorem Die.copyModify_mem (d : Die) (nid : Nat) (r : LineRef) (f : L2Line → L2Line) : (Die.copyModify d nid r f).mem = d.mem := by
  unfold Die.copyModify
  (try simp) <;> (repeat' (split <;> try simp_all))

@[simp] theorem Die.tentOpen_wf (d : Die) (nid : Nat) (r : LineRef) (hint : Nat) (hw : Memory.wf d.mem = true) : Memory.wf (Die.tentOpen d nid r hint).mem = true := by
  unfold Die.tentOpen
  split
  · rw [Die.copyModify_mem]; exact hw
  · have h1 : Memory.wf (match d.stagedOf nid r with | some t => d.fetchPlace t.place | none => d).mem = true := by
      split
      · exact Die.fetchPlace_wf _ _ hw
      · exact hw
    dsimp only
    split
    · rw [Die.modNode_mem]; exact Die.makeRoom_wf _ _ _ h1
    · exact Die.makeRoom_wf _ _ _ h1

@[simp] theorem Die.open__wf (d : Die) (q : Asking) (r : LineRef) (l1 : Bool) (hw : Memory.wf d.mem = true) : Memory.wf (Die.open_ d q r l1).mem = true := by
  unfold Die.open_
  (try simp [hw]) <;> (repeat' (split <;> try simp_all))

@[simp] theorem Die.storeLine_wf (d : Die) (q : Asking) (r : LineRef) (bs : List (Nat × Byte)) (hw : Memory.wf d.mem = true) : Memory.wf (Die.storeLine d q r bs).mem = true := by
  unfold Die.storeLine
  (try simp [hw]) <;> (repeat' (split <;> try simp_all))

@[simp] theorem Die.poisonLine_wf (d : Die) (q : Asking) (r : LineRef) (sectors : List Nat) (hw : Memory.wf d.mem = true) : Memory.wf (Die.poisonLine d q r sectors).mem = true := by
  unfold Die.poisonLine
  (try simp [hw]) <;> (repeat' (split <;> try simp_all))

theorem Die.fetchName_wf (d : Die) (pn vqn : Nat) (hw : Memory.wf d.mem = true) : Memory.wf (Die.fetchName d pn vqn).mem = true := by
  unfold Die.fetchName
  extract_lets fetch q
  have hf : ∀ (x : Die) (a : Nat), Memory.wf x.mem = true → Memory.wf (fetch x a).mem = true := by
    intro x a hx
    simp only [fetch]
    split
    · exact hx
    · exact Die.fetchLines_wf _ _ _ _ hx
  repeat' split
  all_goals first | exact hw | exact hf _ _ (hf _ _ hw) | exact hf _ _ hw

theorem Die.openLines_wf (d : Die) (q : Asking) (rs : List LineRef) (hw : Memory.wf d.mem = true) : Memory.wf (Die.openLines d q rs).mem = true :=
  foldl_wf _ (fun d r h => Die.open__wf d q r false h) rs d hw

theorem Die.ite_wf {c : Prop} [Decidable c] {x y : Die} (hx : Memory.wf x.mem = true) (hy : Memory.wf y.mem = true) :
    Memory.wf (if c then x else y).mem = true := by
  split
  · exact hx
  · exact hy

theorem Die.commitBytes_wf (d : Die) (r : LineRef) (sectors : List Nat) (bs : List (Nat × Byte)) (hw : Memory.wf d.mem = true) :
    Memory.wf (Die.commitBytes d r sectors bs).mem = true := by
  have h1 := Die.ite_wf (c := sectors.isEmpty = true) hw (Die.l2Poison_wf d r 0 sectors hw)
  exact Die.ite_wf h1 (Die.l2Store_wf _ _ _ _ h1)

@[simp] theorem Die.commitLine_wf (d : Die) (l : L2Line) (hw : Memory.wf d.mem = true) : Memory.wf (Die.commitLine d l).mem = true := by
  exact Die.commitBytes_wf _ _ _ _ hw

/-- A property that each of a list's steps keeps, all of them together keep. -/
theorem foldl_keeps {α : Type} (P : Die → Prop) (f : Die → α → Die) (h : ∀ d a, P d → P (f d a)) (l : List α) (d : Die) (hd : P d) :
    P (l.foldl f d) := by
  induction l generalizing d with
  | nil => exact hd
  | cons a l ih => exact ih _ (h d a hd)

/-- What a commit does to a die: it fetches staged lines, drops tentative copies, commits lines and writes the node. -/
theorem Die.commitNode_keeps (P : Die → Prop) (d : Die) (nid : Nat) (hf : ∀ x (t : TentLine), P x → P (x.fetchPlace t.place))
    (hk : ∀ x lines, P x → P { x with l2 := lines }) (hc : ∀ x l, P x → P (Die.commitLine x l)) (hn : ∀ x f, P x → P (x.modNode nid f))
    (hd : P d) : P (d.commitNode nid) := by
  unfold Die.commitNode
  dsimp only
  exact hn _ _ (foldl_keeps P _ hc _ _ (hk _ _ (foldl_keeps P _ hf _ _ hd)))

@[simp] theorem Die.commitNode_wf (d : Die) (nid : Nat) (hw : Memory.wf d.mem = true) : Memory.wf (Die.commitNode d nid).mem = true :=
  Die.commitNode_keeps (fun x => Memory.wf x.mem = true) d nid (fun x t h => Die.fetchPlace_wf x t.place h) (fun _ _ h => h)
    (fun x l h => Die.commitLine_wf x l h) (fun x f h => (Die.modNode_mem x nid f).symm ▸ h) hw

@[simp] theorem Die.procSpots_wf (d : Die) (pn va n : Nat) (pages : List Nat) (spots : List Spot) (hw : Memory.wf d.mem = true) : Memory.wf (Die.procSpots d pn va n pages spots).2.mem = true := by
  induction pages generalizing d spots with
  | nil => exact hw
  | cons p rest ih =>
    have ht := Die.translate_wf d pn (max va (p * 65536)) hw
    unfold Die.procSpots
    dsimp only
    repeat' split
    all_goals first
      | exact ht
      | exact ih _ _ ht

@[simp] theorem Die.procRead_wf (d : Die) (pn va n : Nat) (hw : Memory.wf d.mem = true) : Memory.wf (Die.procRead d pn va n).2.mem = true := by
  unfold Die.procRead
  have hp := Die.procSpots_wf d pn va n (pagesOf va n) [] hw
  split
  · exact hw
  · split
    · rename_i h; rw [h] at hp; exact hp
    · rename_i h; rw [h] at hp
      exact foldl_wf _ (fun d _ h => Die.l2Load_wf _ _ _ h) _ _ hp

@[simp] theorem Die.transPages_wf (d : Die) (no fuel pn : Nat) (svc : Bool) (i : Nat) (e : Extent) (va : Nat) (runs : List Run) (hw : Memory.wf d.mem = true) : Memory.wf (Die.transPages d no fuel pn svc i e va runs).2.mem = true := by
  induction fuel generalizing d va runs with
  | zero => exact hw
  | succ fuel ih =>
    have ht := Die.walkThrough_wf d (Config.freeCache no (va / 65536)) pn va hw
    unfold Die.transPages
    dsimp only
    generalize Die.walkThrough d _ pn va = p at ht ⊢
    obtain ⟨f, e⟩ := p
    dsimp only at ht ⊢
    repeat' split
    all_goals first
      | exact hw
      | exact ht
      | exact ih _ _ _ ht

@[simp] theorem Die.transExtents_wf (d : Die) (no pn : Nat) (svc : Bool) (i : Nat) (es : List Extent) (t : ExtTable) (hw : Memory.wf d.mem = true) : Memory.wf (Die.transExtents d no pn svc i es t).2.mem = true := by
  induction es generalizing d i t with
  | nil => exact hw
  | cons e rest ih =>
    have ht := Die.transPages_wf d no (e.len / 65536 + 2) pn svc i e e.base [] hw
    unfold Die.transExtents
    split
    · exact ih _ _ _ hw
    · split
      · rename_i h; rw [h] at ht; exact ht
      · rename_i h; rw [h] at ht
        split <;> exact ih _ _ _ ht

@[simp] theorem Die.translateAll_wf (d : Die) (no pn : Nat) (es : List Extent) (hw : Memory.wf d.mem = true) : Memory.wf (Die.translateAll d no pn es).2.mem = true := by
  unfold Die.translateAll
  (try simp [hw]) <;> (repeat' (split <;> try simp_all))

@[simp] theorem Die.enterOut_mem (d : Die) (core : Nat) (o : OutOp) : (Die.enterOut d core o).mem = d.mem := by
  unfold Die.enterOut
  (try simp) <;> (repeat' (split <;> try simp_all))

@[simp] theorem Die.modLaunch_mem (d : Die) (core id : Nat) (f : PendLaunch → PendLaunch) : (Die.modLaunch d core id f).mem = d.mem := by
  unfold Die.modLaunch
  (try simp) <;> (repeat' (split <;> try simp_all))

@[simp] theorem Die.modCopy_mem (d : Die) (core id : Nat) (f : Copy → Copy) : (Die.modCopy d core id f).mem = d.mem := by
  unfold Die.modCopy
  (try simp) <;> (repeat' (split <;> try simp_all))

@[simp] theorem Die.rowDone_wf (d : Die) (core id m : Nat) (hw : Memory.wf d.mem = true) : Memory.wf (Die.rowDone d core id m).mem = true := by
  unfold Die.rowDone
  (try simp [hw]) <;> (repeat' (split <;> try simp_all))

@[simp] theorem Die.unresolvable_wf (d : Die) (core : Nat) (c : Copy) (m va : Nat) (hw : Memory.wf d.mem = true) : Memory.wf (Die.unresolvable d core c m va).mem = true := by
  unfold Die.unresolvable
  (try simp [hw]) <;> (repeat' (split <;> try simp_all))

@[simp] theorem Die.parkRow_mem (d : Die) (core : Nat) (c : Copy) (m va cause : Nat) : (Die.parkRow d core c m va cause).mem = d.mem := by
  unfold Die.parkRow
  (try simp) <;> (repeat' (split <;> try simp_all))

@[simp] theorem Die.loseDie_mem (d : Die) (pkg die : Nat) : (Die.loseDie d pkg die).mem = d.mem := by
  unfold Die.loseDie
  (try simp) <;> (repeat' (split <;> try simp_all))

@[simp] theorem Die.keep_mem (d : Die) (i : BelayItem) : (Die.keep d i).mem = d.mem := by
  unfold Die.keep
  (try simp) <;> (repeat' (split <;> try simp_all))

@[simp] theorem Die.countHot_mem (d : Die) (cls a : Nat) : (Die.countHot d cls a).mem = d.mem := by
  unfold Die.countHot
  (try simp) <;> (repeat' (split <;> try simp_all))

@[simp] theorem Die.freeRevoked_mem (d : Die) (index : Nat) : (Die.freeRevoked d index).mem = d.mem := by
  unfold Die.freeRevoked
  (try simp) <;> (repeat' (split <;> try simp_all))

@[simp] theorem Die.lowerReg_mem (d : Die) (reg : Option Nat) : (Die.lowerReg d reg).mem = d.mem := by
  unfold Die.lowerReg
  (try simp) <;> (repeat' (split <;> try simp_all))

@[simp] theorem Die.forgetPage_mem (d : Die) (pn va : Nat) : (Die.forgetPage d pn va).mem = d.mem := by
  unfold Die.forgetPage
  (try simp) <;> (repeat' (split <;> try simp_all))

@[simp] theorem Die.writePage_wf (d : Die) (leaf a : Nat) (bytes : List Byte) (bad : List Nat) (hw : Memory.wf d.mem = true) : Memory.wf (Die.writePage d leaf a bytes bad).mem = true := by
  exact Die.poisonWordsAt_wf _ _ _ _ (Die.writeAt_wf _ _ _ _ hw)

@[simp] theorem Die.installPage_wf (d : Die) (a : Arrival) (leaf : Nat) (hw : Memory.wf d.mem = true) : Memory.wf (Die.installPage d a leaf).mem = true := by
  unfold Die.installPage
  (try simp [hw]) <;> (repeat' (split <;> try simp_all))

@[simp] theorem Die.countCorr_mem (d : Die) (st : Nat) : (Die.countCorr d st).mem = d.mem := by
  unfold Die.countCorr
  (try simp) <;> (repeat' (split <;> try simp_all))

@[simp] theorem Die.uncorrectable_mem (d : Die) (sec : Nat) : (Die.uncorrectable d sec).mem = d.mem := by
  unfold Die.uncorrectable
  (try simp) <;> (repeat' (split <;> try simp_all))

@[simp] theorem Die.miscorrected_wf (d : Die) (sec n : Nat) (hw : Memory.wf d.mem = true) : Memory.wf (Die.miscorrected d sec n).mem = true := by
  unfold Die.miscorrected
  (try simp [hw]) <;> (repeat' (split <;> try simp_all))

@[simp] theorem Die.scrubNext_mem (d : Die) (st : Nat) : (Die.scrubNext d st).mem = d.mem := by
  unfold Die.scrubNext
  (try simp) <;> (repeat' (split <;> try simp_all))

@[simp] theorem Die.forgetProcess_mem (d : Die) (pn : Nat) : (Die.forgetProcess d pn).mem = d.mem := by
  unfold Die.forgetProcess
  (try simp) <;> (repeat' (split <;> try simp_all))

@[simp] theorem Die.forgetAll_mem (d : Die) : (Die.forgetAll d).mem = d.mem := by
  unfold Die.forgetAll
  (try simp) <;> (repeat' (split <;> try simp_all))

@[simp] theorem Die.invalidate_mem (d : Die) (v : DWord) : (Die.invalidate d v).mem = d.mem := by
  unfold Die.invalidate
  (try simp) <;> (repeat' (split <;> try simp_all))

@[simp] theorem Die.nextEpoch_mem (d : Die) : (Die.nextEpoch d).mem = d.mem := by
  unfold Die.nextEpoch
  (try simp) <;> (repeat' (split <;> try simp_all))

@[simp] theorem Die.releasePhase_mem (d : Die) (o : ObjRef) (ph : Word) : (Die.releasePhase d o ph).mem = d.mem := by
  unfold Die.releasePhase
  (try simp) <;> (repeat' (split <;> try simp_all))

@[simp] theorem Die.reachChain_wf (d : Die) (fuel pn va : Nat) (hw : Memory.wf d.mem = true) : Memory.wf (Die.reachChain d fuel pn va).mem = true := by
  induction fuel generalizing d va with
  | zero => exact hw
  | succ fuel ih =>
    have hr := Die.reachSync_wf d pn va hw
    unfold Die.reachChain
    dsimp only
    repeat' split
    all_goals first
      | exact hw
      | exact hr
      | exact ih _ _ hr

@[simp] theorem Die.reachRecord_wf (d : Die) (r : TaskRec) (hw : Memory.wf d.mem = true) : Memory.wf (Die.reachRecord d r).mem = true := by
  unfold Die.reachRecord
  (try simp [hw]) <;> (repeat' (split <;> try simp_all))

@[simp] theorem Die.cancelRecords_wf (d : Die) (pa : ObjRef) (hw : Memory.wf d.mem = true) : Memory.wf (Die.cancelRecords d pa).mem = true := by
  unfold Die.cancelRecords
  extract_lets e queued held ready again trans f g h
  have he : Memory.wf e.mem = true := foldl_wf _ (fun d r h => Die.reachRecord_wf _ _ h) _ _ hw
  have hf : f.mem = e.mem :=
    foldl_mem (fun (d : Die) (q : Nat × Nat × TaskRec) => (d.markTaken q.1 q.2.1 none true).belayLog (.assigned q.1 q.2.1))
      (fun d q => by simp) _ _
  have hg : Memory.wf g.mem = true := by
    show Memory.wf (Die.modSched f _).mem = true
    rw [Die.modSched_mem, hf]
    exact he
  exact foldl_wf _ (fun d r h => Die.discardRecord_wf _ _ _ h) _ _ (foldl_wf _ (fun d r h => Die.register_wf _ _ _ _ h) _ _ hg)

@[simp] theorem Die.completeEntry_mem (d : Die) (cl : Nat) (e : MatEntry) : (Die.completeEntry d cl e).mem = d.mem := by
  unfold Die.completeEntry
  (try simp) <;> (repeat' (split <;> try simp_all))

@[simp] theorem Die.completeEmpty_mem (d : Die) (fuel cl : Nat) : (Die.completeEmpty d fuel cl).mem = d.mem := by
  induction fuel generalizing d with
  | zero => rfl
  | succ fuel ih =>
    unfold Die.completeEmpty
    dsimp only
    split
    · rfl
    · rw [ih]; simp

@[simp] theorem Die.pinLine_wf (d : Die) (cl : Nat) (q : Asking) (r : LineRef) (hw : Memory.wf d.mem = true) : Memory.wf (Die.pinLine d cl q r).mem = true := by
  unfold Die.pinLine
  (try simp [hw]) <;> (repeat' (split <;> try simp_all))

@[simp] theorem Die.pinLines_wf (d : Die) (cl : Nat) (q : Asking) (rs : List LineRef) (hw : Memory.wf d.mem = true) : Memory.wf (Die.pinLines d cl q rs).1.mem = true := by
  induction rs generalizing d with
  | nil => exact hw
  | cons r rest ih =>
    unfold Die.pinLines
    split
    · exact ih _ (Die.pinLine_wf _ _ _ _ hw)
    · exact hw

@[simp] theorem Die.unpinPast_mem (d : Die) (cl : Nat) (left : List LineRef) : (Die.unpinPast d cl left).mem = d.mem := by
  unfold Die.unpinPast
  (try simp) <;> (repeat' (split <;> try simp_all))

@[simp] theorem Die.putRecord_wf (d : Die) (k : Nat) (out : List (Nat × List Byte)) (hw : Memory.wf d.mem = true) : Memory.wf (Die.putRecord d k out).mem = true := by
  unfold Die.putRecord
  dsimp only
  split
  · exact hw
  · exact foldl_wf _ (fun d o h => Die.engineWrite_wf _ _ _ h) _ _ hw

@[simp] theorem Die.expandStage_wf (d : Die) (r : TaskRec) (pipe k : Nat) (entry : Nat) (hw : Memory.wf d.mem = true) : Memory.wf (Die.expandStage d r pipe k entry).2.mem = true := by
  have hp := Die.procRead_wf d r.pn (bits entry 63 0) 128 hw
  unfold Die.expandStage
  dsimp only
  repeat' split
  all_goals first
    | exact hw
    | (rename_i h _ _; rw [h] at hp; exact hp)
    | (rename_i h _; rw [h] at hp; exact hp)
    | (rename_i h; rw [h] at hp; exact hp)
    | exact hp

@[simp] theorem Die.expandStages_wf (d : Die) (r : TaskRec) (pipe : Nat) (entries : List Nat) (k : Nat) (hw : Memory.wf d.mem = true) : Memory.wf (Die.expandStages d r pipe entries k).2.mem = true := by
  induction entries generalizing d k with
  | nil => exact hw
  | cons e rest ih =>
    have hp := Die.expandStage_wf d r pipe k e hw
    unfold Die.expandStages
    split
    · rename_i h; rw [h] at hp; exact hp
    · rename_i h; rw [h] at hp
      have hq := ih _ (k + 1) hp
      split
      · rename_i h; rw [h] at hq; exact hq
      · exact hq

@[simp] theorem Die.expand_wf (d : Die) (r : TaskRec) (hw : Memory.wf d.mem = true) : Memory.wf (Die.expand d r).2.mem = true := by
  have hp := Die.procRead_wf d r.pn (r.word 5) (32 * bits (r.word 0) 3 0) hw
  unfold Die.expand
  dsimp only
  split
  all_goals (rename_i h; rw [h] at hp)
  all_goals first
    | exact hp
    | exact Die.expandStages_wf _ _ _ _ _ hp

@[simp] theorem Die.reachGate_wf (d : Die) (r : TaskRec) (hw : Memory.wf d.mem = true) : Memory.wf (Die.reachGate d r).mem = true := by
  unfold Die.reachGate
  (try simp [hw]) <;> (repeat' (split <;> try simp_all))

@[simp] theorem Die.checkRecord_wf (d : Die) (r : TaskRec) (hw : Memory.wf d.mem = true) : Memory.wf (Die.checkRecord d r).2.mem = true := by
  have hr := Die.reachGate_wf (d.reachRecord r) r (Die.reachRecord_wf d r hw)
  unfold Die.checkRecord
  dsimp only
  repeat' split
  all_goals first
    | exact hw
    | exact hr
    | exact Die.expand_wf _ _ hr

@[simp] theorem Die.addTrans_wf (d : Die) (r : TaskRec) (stage : Option Stage) (hw : Memory.wf d.mem = true) : Memory.wf (Die.addTrans d r stage).mem = true := by
  unfold Die.addTrans
  (try simp [hw]) <;> (repeat' (split <;> try simp_all))

@[simp] theorem Die.passStages_wf (d : Die) (r : TaskRec) (hw : Memory.wf d.mem = true) : Memory.wf (Die.passStages d r).mem = true := by
  have h1 : Memory.wf (if r.isSignal then d.register r.pn r.done true else d).mem = true := by
    split
    · exact Die.register_wf _ _ _ _ hw
    · exact hw
  unfold Die.passStages
  generalize (if r.isSignal then d.register r.pn r.done true else d) = e at h1 ⊢
  have h2 : Memory.wf (if r.isSignal then e.register r.pn r.done false else e).mem = true := by
    split
    · exact Die.register_wf _ _ _ _ h1
    · exact h1
  dsimp only
  generalize (if r.isSignal then e.register r.pn r.done false else e) = e' at h2 ⊢
  repeat' split
  all_goals first
    | exact Die.discardRecord_wf _ _ _ h2
    | exact h1
    | (rw [Die.recordOver_mem]; exact Die.arriveOwed_wf _ _ _ h1)

@[simp] theorem Die.modTrans_mem (d : Die) (txid : Nat) (f : TransEntry → TransEntry) : (Die.modTrans d txid f).mem = d.mem := by
  unfold Die.modTrans
  (try simp) <;> (repeat' (split <;> try simp_all))

@[simp] theorem Die.endDueWaits_mem (d : Die) (gid : Nat) : (Die.endDueWaits d gid).mem = d.mem := by
  unfold Die.endDueWaits
  split
  · rfl
  · refine foldl_mem _ (fun d w => ?_) _ _
    repeat' split
    all_goals simp

@[simp] theorem Die.moveStreams_mem (d : Die) (g : Group) (core : Nat) : (Die.moveStreams d g core).mem = d.mem := by
  unfold Die.moveStreams
  (try simp) <;> (repeat' (split <;> try simp_all))

@[simp] theorem Die.completeGroup_wf (d : Die) (g : Group) (hw : Memory.wf d.mem = true) : Memory.wf (Die.completeGroup d g).mem = true := by
  simp only [Die.completeGroup]
  split
  · exact hw
  · refine Die.checkSettled_wf _ _ ?_
    split
    · exact hw
    · exact Die.arriveOwed_wf _ _ _ hw

@[simp] theorem Die.freeSaveRec_mem (d : Die) (g : Group) : (Die.freeSaveRec d g).mem = d.mem := by
  unfold Die.freeSaveRec
  (try simp) <;> (repeat' (split <;> try simp_all))

@[simp] theorem Die.publish_mem (d : Die) (f : ConfRec → ConfRec) : (Die.publish d f).mem = d.mem := by
  unfold Die.publish
  (try simp) <;> (repeat' (split <;> try simp_all))

@[simp] theorem Die.retire_mem (d : Die) (kind unit width cause : Nat) : (Die.retire d kind unit width cause).mem = d.mem := by
  unfold Die.retire
  (try simp) <;> (repeat' (split <;> try simp_all))

@[simp] theorem Die.logError_mem (d : Die) (code unit : Nat) (data : List Byte) : (Die.logError d code unit data).mem = d.mem := by
  unfold Die.logError
  (try simp) <;> (repeat' (split <;> try simp_all))

@[simp] theorem Die.emptySlice_wf (d : Die) (slice : Nat) (hw : Memory.wf d.mem = true) : Memory.wf (Die.emptySlice d slice).mem = true := by
  exact foldl_wf _ (fun d _ h => Die.evict_wf _ _ h) _ _ hw

@[simp] theorem Die.narrowed_mem (d : Die) (code old w : Nat) : (Die.narrowed d code old w).mem = d.mem := by
  unfold Die.narrowed
  (try simp) <;> (repeat' (split <;> try simp_all))

@[simp] theorem Die.askFreq_mem (d : Die) (p : BitVec 2) : (Die.askFreq d p).mem = d.mem := by
  unfold Die.askFreq
  (try simp) <;> (repeat' (split <;> try simp_all))

@[simp] theorem Die.stepTo_mem (d : Die) (p : BitVec 2) : (Die.stepTo d p).mem = d.mem := by
  unfold Die.stepTo
  (try simp) <;> (repeat' (split <;> try simp_all))

@[simp] theorem Die.stop_mem (d : Die) : (Die.stop d).mem = d.mem := by
  unfold Die.stop
  (try simp) <;> (repeat' (split <;> try simp_all))

@[simp] theorem Die.coolDown_mem (d : Die) (package : Nat) : (Die.coolDown d package).mem = d.mem := by
  unfold Die.coolDown
  (try simp) <;> (repeat' (split <;> try simp_all))

@[simp] theorem Die.alarmed_mem (d : Die) : (Die.alarmed d).mem = d.mem := by
  unfold Die.alarmed
  split <;> rfl

@[simp] theorem Die.raiseAlarm_mem (d : Die) (level src : Nat) : (Die.raiseAlarm d level src).mem = d.mem := by
  unfold Die.raiseAlarm
  dsimp only
  rw [Die.alarmed_mem]
  split
  · rw [Die.logError_mem]
  · rw [Die.logError_mem]

@[simp] theorem Die.failTest_mem (d : Die) (kind unit : Nat) : (Die.failTest d kind unit).mem = d.mem := by
  unfold Die.failTest
  (try simp) <;> (repeat' (split <;> try simp_all))

@[simp] theorem Die.replayEntry_mem (d : Die) (e : LogEntry) : (Die.replayEntry d e).mem = d.mem := by
  unfold Die.replayEntry
  (try simp) <;> (repeat' (split <;> try simp_all))

@[simp] theorem Die.settleOne_wf (d : Die) (u : Unsettled) (hw : Memory.wf d.mem = true) : Memory.wf (Die.settleOne d u).mem = true := by
  unfold Die.settleOne
  (try simp [hw]) <;> (repeat' (split <;> try simp_all))

@[simp] theorem Die.dropRegistered_wf (d : Die) (nodes : List Node) (hw : Memory.wf d.mem = true) : Memory.wf (Die.dropRegistered d nodes).mem = true := by
  have h1 := foldl_wf (fun (d : Die) (n : Node) =>
    let left := (d.groups.filter fun g => g.node == n.nid && g.phase == .tracked && !g.dead).length
    let d := d.dropOwed n
    let k := if n.stage.isSome then 1 else left
    (List.range k).foldl (fun d _ => d.register n.rec_.pn n.rec_.done false) d)
    (fun d n h => foldl_wf _ (fun d _ h => Die.register_wf _ _ _ _ h) _ _ (Die.dropOwed_wf _ _ h)) nodes d hw
  exact foldl_wf _ (fun d r h => Die.register_wf _ _ _ _ h) _ _ (foldl_wf _ (fun d p h => Die.register_wf _ _ _ _ h) _ _ h1)

@[simp] theorem Die.resetUnits_mem (d : Die) : (Die.resetUnits d).mem = d.mem := by
  unfold Die.resetUnits
  (try simp) <;> (repeat' (split <;> try simp_all))

@[simp] theorem Die.restart_wf (d : Die) (cp : Checkpoint) (log : List LogEntry) (planned : Bool) (keep : List Nat) (hw : Memory.wf d.mem = true) : Memory.wf (Die.restart d cp log planned keep).mem = true := by
  unfold Die.restart
  refine foldl_wf _ (fun d u h => Die.settleOne_wf _ _ h) _ _ ?_
  show Memory.wf (List.foldl Die.replayEntry _ log).mem = true
  rw [foldl_mem Die.replayEntry Die.replayEntry_mem]
  exact hw

@[simp] theorem Die.forgetAllOf_mem (d : Die) (pn : Nat) : (Die.forgetAllOf d pn).mem = d.mem := by
  unfold Die.forgetAllOf
  (try simp) <;> (repeat' (split <;> try simp_all))

@[simp] theorem Die.place_wf (d : Die) (a : Nat) (bs : List Byte) (hw : Memory.wf d.mem = true) : Memory.wf (Die.place d a bs).mem = true := by
  unfold Die.place
  (try simp [hw]) <;> (repeat' (split <;> try simp_all))

@[simp] theorem Die.withCode_wf (d : Die) (nid gid : Nat) (code : List Byte) (hw : Memory.wf d.mem = true) : Memory.wf (Die.withCode d nid gid code).mem = true := by
  exact foldl_wf _ (fun d _ h => Die.place_wf _ _ _ h) _ _ hw

end Sys2Proof.Machine
end

