-- ==== Sys2Proof/Laws/Sound.lean ====
section
/-! SUPPORT. Every operation of the machine keeps eight dies with memories in canonical form. -/

set_option maxRecDepth 4000
set_option linter.all false

namespace Sys2Proof.Machine

/-- The memory of a die of the package. -/
@[simp] theorem die_wf (s : State) (d : Nat) (h : diesOk s.dies) : Memory.wf (s.die d).mem = true := by
  unfold State.die
  rw [List.getD_eq_getElem?_getD]
  cases hd : s.dies[d]? with
  | none => rfl
  | some x => exact h.2 x (List.mem_of_getElem? hd)

/-- A change of one die. -/
@[simp] theorem modify_ok (ds : List Die) (d : Nat) (f : Die → Die) (h : diesOk ds)
    (hf : ∀ x, Memory.wf x.mem = true → Memory.wf (f x).mem = true) : diesOk (ds.modify d f) := by
  refine ⟨by rw [List.length_modify]; exact h.1, fun x hx => ?_⟩
  obtain ⟨i, hi⟩ := List.mem_iff_getElem?.mp hx
  rw [List.getElem?_modify] at hi
  cases hd : ds[i]? with
  | none => simp [hd] at hi
  | some y =>
    have hy := h.2 y (List.mem_of_getElem? hd)
    split at hi <;> simp only [hd, Option.map_eq_map, Option.map_some, Option.some.injEq] at hi
    · rw [← hi]; exact hf y hy
    · rw [← hi]; exact hy

/-- A change of one die, as a change of the state. -/
theorem State.modDie_ok (s : State) (d : Nat) (f : Die → Die) (h : diesOk s.dies)
    (hf : ∀ x, Memory.wf x.mem = true → Memory.wf (f x).mem = true) : diesOk (s.modDie d f).dies :=
  modify_ok _ _ _ h hf

/-- A change of one die, told by its result. -/
theorem State.modDie_ok_of (s : State) (d : Nat) (f : Die → Die) (h : diesOk s.dies)
    (hf : ∀ x z, f x = z → Memory.wf x.mem = true → Memory.wf z.mem = true) : diesOk (s.modDie d f).dies :=
  modify_ok _ _ _ h fun x hx => hf x (f x) rfl hx

/-- A change of one group. -/
@[simp] theorem State.modGroup_ok (s : State) (d gid : Nat) (f : Group → Group) (h : diesOk s.dies) :
    diesOk (s.modGroup d gid f).dies := modify_ok _ _ _ h fun _ hx => hx

/-- Steps each of which keeps the dies well keep them well together. -/
@[simp] theorem foldl_ok {α : Type} (f : State → α → State) (hf : ∀ s a, diesOk s.dies → diesOk (f s a).dies) (l : List α)
    (s : State) (h : diesOk s.dies) : diesOk (l.foldl f s).dies := by
  induction l generalizing s with
  | nil => exact h
  | cons a l ih => exact ih _ (hf _ _ h)

/-- The same, where the state is the first of a pair. -/
@[simp] theorem foldl_fst_ok {α β : Type} (f : State × β → α → State × β)
    (hf : ∀ p a, diesOk p.1.dies → diesOk (f p a).1.dies) (l : List α) (p : State × β) (h : diesOk p.1.dies) :
    diesOk (l.foldl f p).1.dies := by
  induction l generalizing p with
  | nil => exact h
  | cons a l ih => exact ih _ (hf _ _ h)

/-- The same, where the state is the second of a pair. -/
@[simp] theorem foldl_snd_ok {α β : Type} (f : β × State → α → β × State)
    (hf : ∀ p a, diesOk p.2.dies → diesOk (f p a).2.dies) (l : List α) (p : β × State) (h : diesOk p.2.dies) :
    diesOk (l.foldl f p).2.dies := by
  induction l generalizing p with
  | nil => exact h
  | cons a l ih => exact ih _ (hf _ _ h)

/-- A choice of lists of dies. -/
@[simp] theorem diesOk_ite (c : Prop) [Decidable c] (a b : List Die) (ha : diesOk a) (hb : diesOk b) :
    diesOk (if c then a else b) := by
  split <;> assumption

/-- A choice of memories. -/
@[simp] theorem wf_ite (c : Prop) [Decidable c] (a b : List Host.Cell) (ha : Memory.wf a = true) (hb : Memory.wf b = true) :
    Memory.wf (if c then a else b) = true := by
  split <;> assumption

/-- A choice of results with a state. -/
theorem snd_ite_ok {α : Type} (c : Prop) [Decidable c] (a b : α × State) (ha : diesOk a.2.dies) (hb : diesOk b.2.dies) :
    diesOk (if c then a else b).2.dies := by
  split <;> assumption

/-- The dies of a choice of states. -/
@[simp] theorem ite_dies (c : Prop) [Decidable c] (a b : State) : (if c then a else b).dies = if c then a.dies else b.dies := by
  split <;> rfl

@[simp] theorem State.installRoutes_ok (s : State) (h : diesOk s.dies) :
    diesOk (State.installRoutes s).dies := by
  refine ⟨by simp [State.installRoutes, h.1], fun x hx => ?_⟩
  simp only [State.installRoutes, List.mem_iff_getElem, List.getElem_zipWith, List.length_zipWith] at hx
  obtain ⟨i, hi, rfl⟩ := hx
  have := h.2 _ (List.getElem_mem (l := s.dies) (by simp only [List.length_range] at hi; omega : i < s.dies.length))
  split <;> exact this

@[simp] theorem State.forward_ok (s : State) (d : Nat) (f : Fragment) (h : diesOk s.dies) :
    diesOk (State.forward s d f).dies := by
  unfold State.forward
  (try simp +contextual (maxDischargeDepth := 12) [h]) <;> (repeat' (split <;> try simp_all +contextual (maxDischargeDepth := 12)))

@[simp] theorem State.transmit_ok (s : State) (d : Nat) (m : Msg) (h : diesOk s.dies) :
    diesOk (State.transmit s d m).dies := by
  unfold State.transmit
  (try simp +contextual (maxDischargeDepth := 12) [h]) <;> (repeat' (split <;> try simp_all +contextual (maxDischargeDepth := 12)))

@[simp] theorem State.settleTransit_ok (s : State) (d : Nat) (h : diesOk s.dies) :
    diesOk (State.settleTransit s d).dies := by
  unfold State.settleTransit
  try simp only
  repeat' first
    | with_reducible assumption
    | with_reducible rfl
    | with_reducible apply State.forward_ok
    | with_reducible apply modify_ok
    | with_reducible apply State.modDie_ok
    | with_reducible apply State.modGroup_ok
    | with_reducible apply foldl_ok
    | with_reducible apply foldl_fst_ok
    | with_reducible apply foldl_snd_ok
    | with_reducible apply foldl_wf
    | with_reducible apply die_wf
    | rw [State.draw_dies]
    | rw [State.newId_dies]
    | rw [Die.modSched_mem]
    | rw [Die.modPort_mem]
    | rw [Die.modCore_mem]
    | rw [Die.modCluster_mem]
    | rw [Die.modGroup_mem]
    | rw [Die.modNode_mem]
    | rw [Die.belayLog_mem]
    | rw [Die.commit_mem]
    | rw [Die.reserve_mem]
    | rw [Die.modQueue_mem]
    | intro _
    | split
    | (simp_all; done)

@[simp] theorem State.emptyLink_ok (s : State) (d code : Nat) (h : diesOk s.dies) :
    diesOk (State.emptyLink s d code).dies := by
  unfold State.emptyLink
  (try simp +contextual (maxDischargeDepth := 12) [h]) <;> (repeat' (split <;> try simp_all +contextual (maxDischargeDepth := 12)))

@[simp] theorem State.unroute_ok (s : State) (d code : Nat) (h : diesOk s.dies) :
    diesOk (State.unroute s d code).dies := by
  unfold State.unroute
  (try simp +contextual (maxDischargeDepth := 12) [h]) <;> (repeat' (split <;> try simp_all +contextual (maxDischargeDepth := 12)))

@[simp] theorem State.reroute_ok (s : State) (down : List Nat) (h : diesOk s.dies) :
    diesOk (State.reroute s down).dies := by
  unfold State.reroute
  (try simp +contextual (maxDischargeDepth := 12) [h]) <;> (repeat' (split <;> try simp_all +contextual (maxDischargeDepth := 12)))

@[simp] theorem State.walkFresh_ok (s : State) (d core pn va : Nat) (h : diesOk s.dies) :
    diesOk (State.walkFresh s d core pn va).2.dies := by
  unfold State.walkFresh
  (try simp +contextual (maxDischargeDepth := 12) [h]) <;> (repeat' (split <;> try simp_all +contextual (maxDischargeDepth := 12)))

@[simp] theorem State.lookup_ok (s : State) (d core pn va : Nat) (h : diesOk s.dies) :
    diesOk (State.lookup s d core pn va).2.dies := by
  unfold State.lookup
  try simp only
  repeat' first
    | with_reducible assumption
    | with_reducible rfl
    | with_reducible apply State.walkFresh_ok
    | with_reducible apply Die.walkFresh_wf
    | with_reducible apply modify_ok
    | with_reducible apply State.modDie_ok
    | with_reducible apply State.modGroup_ok
    | with_reducible apply foldl_ok
    | with_reducible apply foldl_fst_ok
    | with_reducible apply foldl_snd_ok
    | with_reducible apply foldl_wf
    | with_reducible apply die_wf
    | rw [State.draw_dies]
    | rw [State.newId_dies]
    | rw [Die.modSched_mem]
    | rw [Die.modPort_mem]
    | rw [Die.modCore_mem]
    | rw [Die.modCluster_mem]
    | rw [Die.modGroup_mem]
    | rw [Die.modNode_mem]
    | rw [Die.belayLog_mem]
    | rw [Die.commit_mem]
    | rw [Die.reserve_mem]
    | rw [Die.modQueue_mem]
    | intro _
    | split
    | (simp_all; done)

@[simp] theorem State.checkPages_ok (s : State) (d core pn : Nat) (svc : Bool) (acc : Acc) (mustOpen : Bool) (va n : Nat) (pages : List Nat) (h : diesOk s.dies) :
    diesOk (State.checkPages s d core pn svc acc mustOpen va n pages).2.dies := by
  induction pages generalizing s with
  | nil =>
    first | exact h | (unfold State.checkPages; simpa using h)
  | cons p rest ih =>
    unfold State.checkPages
    try simp only
    repeat' first
      | with_reducible assumption
      | with_reducible rfl
      | with_reducible apply State.lookup_ok
      | with_reducible apply ih
      | with_reducible apply modify_ok
      | with_reducible apply State.modDie_ok
      | with_reducible apply State.modGroup_ok
      | with_reducible apply foldl_ok
      | with_reducible apply foldl_fst_ok
      | with_reducible apply foldl_snd_ok
      | with_reducible apply foldl_wf
      | with_reducible apply die_wf
      | rw [State.draw_dies]
      | rw [State.newId_dies]
      | rw [Die.modSched_mem]
      | rw [Die.modPort_mem]
      | rw [Die.modCore_mem]
      | rw [Die.modCluster_mem]
      | rw [Die.modGroup_mem]
      | rw [Die.modNode_mem]
      | rw [Die.belayLog_mem]
      | rw [Die.commit_mem]
      | rw [Die.reserve_mem]
      | rw [Die.modQueue_mem]
      | intro _
      | split
      | (simp_all; done)

@[simp] theorem State.checkAccess_ok (s : State) (d core pn : Nat) (ext : ExtTable) (acc : Acc) (x n : Nat) (h : diesOk s.dies) :
    diesOk (State.checkAccess s d core pn ext acc x n).2.dies := by
  unfold State.checkAccess
  (try simp +contextual (maxDischargeDepth := 12) [h]) <;> (repeat' (split <;> try simp_all +contextual (maxDischargeDepth := 12)))

@[simp] theorem State.nextSeq_ok (s : State) (d pkg die : Nat) (h : diesOk s.dies) :
    diesOk (State.nextSeq s d pkg die).2.dies := by
  unfold State.nextSeq
  (try simp +contextual (maxDischargeDepth := 12) [h]) <;> (repeat' (split <;> try simp_all +contextual (maxDischargeDepth := 12)))

@[simp] theorem State.sendNew_ok (s : State) (d : Nat) (m : Msg) (h : diesOk s.dies) :
    diesOk (State.sendNew s d m).2.dies := by
  unfold State.sendNew
  (try simp +contextual (maxDischargeDepth := 12) [h]) <;> (repeat' (split <;> try simp_all +contextual (maxDischargeDepth := 12)))

@[simp] theorem State.request_ok (s : State) (d : Nat) (a : Asker) (m : Msg) (h : diesOk s.dies) :
    diesOk (State.request s d a m).dies := by
  unfold State.request
  try simp only
  repeat' first
    | with_reducible assumption
    | with_reducible rfl
    | with_reducible apply State.sendNew_ok
    | with_reducible apply modify_ok
    | with_reducible apply State.modDie_ok
    | with_reducible apply State.modGroup_ok
    | with_reducible apply foldl_ok
    | with_reducible apply foldl_fst_ok
    | with_reducible apply foldl_snd_ok
    | with_reducible apply foldl_wf
    | with_reducible apply die_wf
    | rw [State.draw_dies]
    | rw [State.newId_dies]
    | rw [Die.modSched_mem]
    | rw [Die.modPort_mem]
    | rw [Die.modCore_mem]
    | rw [Die.modCluster_mem]
    | rw [Die.modGroup_mem]
    | rw [Die.modNode_mem]
    | rw [Die.belayLog_mem]
    | rw [Die.commit_mem]
    | rw [Die.reserve_mem]
    | rw [Die.modQueue_mem]
    | intro _
    | split
    | (simp_all; done)

@[simp] theorem State.answer_ok (s : State) (d : Nat) (m : Msg) (kind status : Nat) (f : Msg → Msg) (h : diesOk s.dies) :
    diesOk (State.answer s d m kind status f).dies := by
  unfold State.answer
  (try simp +contextual (maxDischargeDepth := 12) [h]) <;> (repeat' (split <;> try simp_all +contextual (maxDischargeDepth := 12)))

@[simp] theorem State.stat_ok (s : State) (d : Nat) (m : Msg) (status : Nat) (h : diesOk s.dies) :
    diesOk (State.stat s d m status).dies := by
  unfold State.stat
  (try simp +contextual (maxDischargeDepth := 12) [h]) <;> (repeat' (split <;> try simp_all +contextual (maxDischargeDepth := 12)))

@[simp] theorem State.translateName_ok (s : State) (d pn vqn : Nat) (enq deq : Bool) (h : diesOk s.dies) :
    diesOk (State.translateName s d pn vqn enq deq).2.dies := by
  unfold State.translateName
  extract_lets die now keep current
  have hk : ∀ t : State, diesOk t.dies → diesOk (keep t).2.dies := by
    intro t ht
    have hf := State.modDie_ok t d (fun x => x.fetchName pn vqn) ht fun x hx => Die.fetchName_wf x pn vqn hx
    simp only [keep]
    clear_value now
    split
    · exact State.modDie_ok _ _ _ hf fun x hx => by rw [Die.modPort_mem]; exact hx
    · exact hf
  clear_value now current keep
  split
  · exact hk _ h
  · dsimp only
    repeat' split
    all_goals first | exact h | exact hk _ h

@[simp] theorem State.serve_ok (s : State) (d idx : Nat) (t : Ticket) (w : Waiter) (h : diesOk s.dies) :
    diesOk (State.serve s d idx t w).dies := by
  exact State.transmit_ok _ _ _ (State.modDie_ok _ _ _ h fun x hx => by rw [Die.take_mem]; exact hx)

@[simp] theorem State.delivered_ok (s : State) (d idx : Nat) (num : Nat) (key : Nat × Nat × Nat) (back : Bool) (h : diesOk s.dies) :
    diesOk (State.delivered s d idx num key back).dies := by
  unfold State.delivered
  (try simp +contextual (maxDischargeDepth := 12) [h]) <;> (repeat' (split <;> try simp_all +contextual (maxDischargeDepth := 12)))

@[simp] theorem State.undoDeq_ok (s : State) (home idx : Nat) (key : Nat × Nat × Nat) (h : diesOk s.dies) :
    diesOk (State.undoDeq s home idx key).dies := by
  unfold State.undoDeq
  (try simp +contextual (maxDischargeDepth := 12) [h]) <;> (repeat' (split <;> try simp_all +contextual (maxDischargeDepth := 12)))

@[simp] theorem State.withdraw_ok (s : State) (d : Nat) (sel : Asker → Bool) (h : diesOk s.dies) :
    diesOk (State.withdraw s d sel).dies := by
  unfold State.withdraw
  try simp only
  repeat' first
    | with_reducible assumption
    | with_reducible rfl
    | with_reducible apply State.undoDeq_ok
    | with_reducible apply modify_ok
    | with_reducible apply State.modDie_ok
    | with_reducible apply State.modGroup_ok
    | with_reducible apply foldl_ok
    | with_reducible apply foldl_fst_ok
    | with_reducible apply foldl_snd_ok
    | with_reducible apply foldl_wf
    | with_reducible apply die_wf
    | rw [State.draw_dies]
    | rw [State.newId_dies]
    | rw [Die.modSched_mem]
    | rw [Die.modPort_mem]
    | rw [Die.modCore_mem]
    | rw [Die.modCluster_mem]
    | rw [Die.modGroup_mem]
    | rw [Die.modNode_mem]
    | rw [Die.belayLog_mem]
    | rw [Die.commit_mem]
    | rw [Die.reserve_mem]
    | rw [Die.modQueue_mem]
    | intro _
    | split
    | (simp_all; done)

@[simp] theorem State.withdrawWaits_ok (s : State) (d gid depth : Nat) (h : diesOk s.dies) :
    diesOk (State.withdrawWaits s d gid depth).dies := by
  unfold State.withdrawWaits
  (try simp +contextual (maxDischargeDepth := 12) [h]) <;> (repeat' (split <;> try simp_all +contextual (maxDischargeDepth := 12)))

@[simp] theorem State.closeStream_ok (s : State) (d core : Nat) (c : Copy) (status : Nat) (h : diesOk s.dies) :
    diesOk (State.closeStream s d core c status).dies := by
  unfold State.closeStream
  (try simp +contextual (maxDischargeDepth := 12) [h]) <;> (repeat' (split <;> try simp_all +contextual (maxDischargeDepth := 12)))

@[simp] theorem State.closeStreams_ok (s : State) (d gid depth : Nat) (h : diesOk s.dies) :
    diesOk (State.closeStreams s d gid depth).dies := by
  unfold State.closeStreams
  (try simp +contextual (maxDischargeDepth := 12) [h]) <;> (repeat' (split <;> try simp_all +contextual (maxDischargeDepth := 12)))

@[simp] theorem State.killGroup_ok (s : State) (d gid : Nat) (h : diesOk s.dies) :
    diesOk (State.killGroup s d gid).dies := by
  unfold State.killGroup
  try simp only
  repeat' first
    | with_reducible assumption
    | with_reducible rfl
    | with_reducible apply State.withdrawWaits_ok
    | with_reducible apply State.closeStreams_ok
    | with_reducible apply Die.dropEngines_wf
    | with_reducible apply Die.groupKilled_wf
    | with_reducible apply modify_ok
    | with_reducible apply State.modDie_ok
    | with_reducible apply State.modGroup_ok
    | with_reducible apply foldl_ok
    | with_reducible apply foldl_fst_ok
    | with_reducible apply foldl_snd_ok
    | with_reducible apply foldl_wf
    | with_reducible apply die_wf
    | rw [State.draw_dies]
    | rw [State.newId_dies]
    | rw [Die.modSched_mem]
    | rw [Die.modPort_mem]
    | rw [Die.modCore_mem]
    | rw [Die.modCluster_mem]
    | rw [Die.modGroup_mem]
    | rw [Die.modNode_mem]
    | rw [Die.belayLog_mem]
    | rw [Die.commit_mem]
    | rw [Die.reserve_mem]
    | rw [Die.modQueue_mem]
    | intro _
    | split
    | (simp_all; done)

@[simp] theorem State.killNode_ok (s : State) (d nid st : Nat) (h : diesOk s.dies) :
    diesOk (State.killNode s d nid st).dies := by
  unfold State.killNode
  try simp only
  repeat' first
    | with_reducible assumption
    | with_reducible rfl
    | with_reducible apply State.killGroup_ok
    | with_reducible apply Die.checkSettled_wf
    | with_reducible apply modify_ok
    | with_reducible apply State.modDie_ok
    | with_reducible apply State.modGroup_ok
    | with_reducible apply foldl_ok
    | with_reducible apply foldl_fst_ok
    | with_reducible apply foldl_snd_ok
    | with_reducible apply foldl_wf
    | with_reducible apply die_wf
    | rw [State.draw_dies]
    | rw [State.newId_dies]
    | rw [Die.modSched_mem]
    | rw [Die.modPort_mem]
    | rw [Die.modCore_mem]
    | rw [Die.modCluster_mem]
    | rw [Die.modGroup_mem]
    | rw [Die.modNode_mem]
    | rw [Die.belayLog_mem]
    | rw [Die.commit_mem]
    | rw [Die.reserve_mem]
    | rw [Die.modQueue_mem]
    | intro _
    | split
    | (simp_all; done)

@[simp] theorem State.killWith_ok (s : State) (d gid st : Nat) (h : diesOk s.dies) :
    diesOk (State.killWith s d gid st).dies := by
  unfold State.killWith
  try simp only
  repeat' first
    | with_reducible assumption
    | with_reducible rfl
    | with_reducible apply State.killGroup_ok
    | with_reducible apply State.killNode_ok
    | with_reducible apply Die.arrive_wf
    | with_reducible apply Die.checkSettled_wf
    | with_reducible apply modify_ok
    | with_reducible apply State.modDie_ok
    | with_reducible apply State.modGroup_ok
    | with_reducible apply foldl_ok
    | with_reducible apply foldl_fst_ok
    | with_reducible apply foldl_snd_ok
    | with_reducible apply foldl_wf
    | with_reducible apply die_wf
    | rw [State.draw_dies]
    | rw [State.newId_dies]
    | rw [Die.modSched_mem]
    | rw [Die.modPort_mem]
    | rw [Die.modCore_mem]
    | rw [Die.modCluster_mem]
    | rw [Die.modGroup_mem]
    | rw [Die.modNode_mem]
    | rw [Die.belayLog_mem]
    | rw [Die.commit_mem]
    | rw [Die.reserve_mem]
    | rw [Die.modQueue_mem]
    | intro _
    | split
    | (simp_all; done)

@[simp] theorem State.endGate_ok (s : State) (d gid word : Nat) (h : diesOk s.dies) :
    diesOk (State.endGate s d gid word).dies := by
  unfold State.endGate
  (try simp +contextual (maxDischargeDepth := 12) [h]) <;> (repeat' (split <;> try simp_all +contextual (maxDischargeDepth := 12)))

@[simp] theorem State.deliver_ok (s : State) (d gid : Nat) (tr : Trap) (pc addr : DWord) (h : diesOk s.dies) :
    diesOk (State.deliver s d gid tr pc addr).dies := by
  unfold State.deliver
  try simp only
  repeat' first
    | with_reducible assumption
    | with_reducible rfl
    | with_reducible apply State.withdraw_ok
    | with_reducible apply Job.wait_ok
    | with_reducible apply Die.dropHeldPrefetch_wf
    | with_reducible apply modify_ok
    | with_reducible apply State.modDie_ok
    | with_reducible apply State.modGroup_ok
    | with_reducible apply foldl_ok
    | with_reducible apply foldl_fst_ok
    | with_reducible apply foldl_snd_ok
    | with_reducible apply foldl_wf
    | with_reducible apply die_wf
    | rw [State.draw_dies]
    | rw [State.newId_dies]
    | rw [Die.modSched_mem]
    | rw [Die.modPort_mem]
    | rw [Die.modCore_mem]
    | rw [Die.modCluster_mem]
    | rw [Die.modGroup_mem]
    | rw [Die.modNode_mem]
    | rw [Die.belayLog_mem]
    | rw [Die.commit_mem]
    | rw [Die.reserve_mem]
    | rw [Die.modQueue_mem]
    | intro _
    | split
    | (simp_all; done)

@[simp] theorem State.poisonNode_ok (s : State) (d gid : Nat) (h : diesOk s.dies) :
    diesOk (State.poisonNode s d gid).dies := by
  unfold State.poisonNode
  try simp only
  repeat' first
    | with_reducible assumption
    | with_reducible rfl
    | with_reducible apply State.killGroup_ok
    | with_reducible apply Die.checkSettled_wf
    | with_reducible apply modify_ok
    | with_reducible apply State.modDie_ok
    | with_reducible apply State.modGroup_ok
    | with_reducible apply foldl_ok
    | with_reducible apply foldl_fst_ok
    | with_reducible apply foldl_snd_ok
    | with_reducible apply foldl_wf
    | with_reducible apply die_wf
    | rw [State.draw_dies]
    | rw [State.newId_dies]
    | rw [Die.modSched_mem]
    | rw [Die.modPort_mem]
    | rw [Die.modCore_mem]
    | rw [Die.modCluster_mem]
    | rw [Die.modGroup_mem]
    | rw [Die.modNode_mem]
    | rw [Die.belayLog_mem]
    | rw [Die.commit_mem]
    | rw [Die.reserve_mem]
    | rw [Die.modQueue_mem]
    | intro _
    | split
    | (simp_all; done)

@[simp] theorem State.precise_ok (s : State) (d gid cause warp : Nat) (lanes : List Nat) (pc addr : DWord) (len : Nat) (h : diesOk s.dies) :
    diesOk (State.precise s d gid cause warp lanes pc addr len).dies := by
  unfold State.precise
  (try simp +contextual (maxDischargeDepth := 12) [h]) <;> (repeat' (split <;> try simp_all +contextual (maxDischargeDepth := 12)))

@[simp] theorem State.collective_ok (s : State) (d gid cause : Nat) (sel : Wait → Bool) (addr : DWord) (h : diesOk s.dies) :
    diesOk (State.collective s d gid cause sel addr).dies := by
  unfold State.collective
  (try simp +contextual (maxDischargeDepth := 12) [h]) <;> (repeat' (split <;> try simp_all +contextual (maxDischargeDepth := 12)))

@[simp] theorem State.consumeStruck_ok (s : State) (d : Nat) (g : Group) (h : diesOk s.dies) :
    diesOk (State.consumeStruck s d g).dies := by
  unfold State.consumeStruck
  (try simp +contextual (maxDischargeDepth := 12) [h]) <;> (repeat' (split <;> try simp_all +contextual (maxDischargeDepth := 12)))

@[simp] theorem State.consumeAll_ok (s : State) (d : Nat) (h : diesOk s.dies) :
    diesOk (State.consumeAll s d).dies := by
  unfold State.consumeAll
  (try simp +contextual (maxDischargeDepth := 12) [h]) <;> (repeat' (split <;> try simp_all +contextual (maxDischargeDepth := 12)))

@[simp] theorem State.forceSave_ok (s : State) (d gid : Nat) (h : diesOk s.dies) :
    diesOk (State.forceSave s d gid).dies := by
  unfold State.forceSave
  (try simp +contextual (maxDischargeDepth := 12) [h]) <;> (repeat' (split <;> try simp_all +contextual (maxDischargeDepth := 12)))

@[simp] theorem State.asynchronous_ok (s : State) (d gid cause warp : Nat) (h : diesOk s.dies) :
    diesOk (State.asynchronous s d gid cause warp).dies := by
  unfold State.asynchronous
  (try simp +contextual (maxDischargeDepth := 12) [h]) <;> (repeat' (split <;> try simp_all +contextual (maxDischargeDepth := 12)))

@[simp] theorem State.deliverHeld_ok (s : State) (d gid : Nat) (h : diesOk s.dies) :
    diesOk (State.deliverHeld s d gid).dies := by
  unfold State.deliverHeld
  (try simp +contextual (maxDischargeDepth := 12) [h]) <;> (repeat' (split <;> try simp_all +contextual (maxDischargeDepth := 12)))

@[simp] theorem Job.mod_ok (j : Job) (s : State) (f : Group → Group) (h : diesOk s.dies) :
    diesOk (Job.mod j s f).dies := by
  unfold Job.mod
  (try simp +contextual (maxDischargeDepth := 12) [h]) <;> (repeat' (split <;> try simp_all +contextual (maxDischargeDepth := 12)))

@[simp] theorem Job.pass_ok (j : Job) (s : State) (h : diesOk s.dies) :
    diesOk (Job.pass j s).dies := by
  unfold Job.pass
  (try simp +contextual (maxDischargeDepth := 12) [h]) <;> (repeat' (split <;> try simp_all +contextual (maxDischargeDepth := 12)))

@[simp] theorem Job.wait_ok (j : Job) (s : State) (w : Wait) (h : diesOk s.dies) :
    diesOk (Job.wait j s w).dies := by
  unfold Job.wait
  (try simp +contextual (maxDischargeDepth := 12) [h]) <;> (repeat' (split <;> try simp_all +contextual (maxDischargeDepth := 12)))

@[simp] theorem Job.hold_ok (j : Job) (s : State) (w : Wait) (h : diesOk s.dies) :
    diesOk (Job.hold j s w).dies := by
  unfold Job.hold
  (try simp +contextual (maxDischargeDepth := 12) [h]) <;> (repeat' (split <;> try simp_all +contextual (maxDischargeDepth := 12)))

@[simp] theorem Job.fault_ok (j : Job) (s : State) (cause : Nat) (lanes : List Nat) (addr : Nat) (h : diesOk s.dies) :
    diesOk (Job.fault j s cause lanes addr).dies := by
  unfold Job.fault
  (try simp +contextual (maxDischargeDepth := 12) [h]) <;> (repeat' (split <;> try simp_all +contextual (maxDischargeDepth := 12)))

/-- A word after its checks, whatever its own effect. -/
theorem perform_ok (p : Issue) (s : State) (body : Job → State → State) (h : diesOk s.dies)
    (ht : ∀ j t c l, p = .trap j t c l → diesOk t.dies) (hk : ∀ j t, p = .skip j t → diesOk t.dies)
    (hr : ∀ j t, p = .run j t → diesOk t.dies)
    (hb : ∀ j s, diesOk s.dies → diesOk (body j s).dies) : diesOk (p.perform s body).dies := by
  cases p with
  | idle => exact h
  | trap j t c l => exact Job.fault_ok _ _ _ _ _ (ht _ _ _ _ rfl)
  | skip j t => exact Job.pass_ok _ _ (hk _ _ rfl)
  | run j t => exact hb _ _ (hr _ _ rfl)

/-- The state with which a word's checks end. -/
def Issue.state : Issue → Option State
  | .idle => none
  | .trap _ s _ _ => some s
  | .skip _ s => some s
  | .run _ s => some s

/-- The checks change only the group. -/
theorem prepare_state (i : Instr) (v : View) (sigOf : Bool → Sig) (s : State) (d : Nat) (g : Group) (w : Nat) (t : State)
    (h : (prepare i v sigOf s d g w).state = some t) : ∃ gid g', t = s.modGroup d gid fun _ => g' := by
  unfold prepare at h
  simp only at h
  repeat' split at h
  all_goals first
    | (cases h; done)
    | (simp only [Issue.state, Option.some.injEq] at h; exact ⟨_, _, h.symm⟩)

/-- The checks of the warp whose turn it is change only its group. -/
theorem prepared_state (s : State) (i : Instr) (v : View) (sigOf : Bool → Sig) (t : State)
    (h : (s.prepared i v sigOf).state = some t) : ∃ gid g', t = s.modGroup s.cur.d gid fun _ => g' := by
  unfold State.prepared at h
  split at h
  · cases h
  · exact prepare_state _ _ _ _ _ _ _ _ h

/-- A word issued keeps the dies well when its own effect does. -/
theorem prepared_perform_ok (s : State) (i : Instr) (v : View) (sigOf : Bool → Sig) (body : Job → State → State)
    (h : diesOk s.dies) (hb : ∀ j s, diesOk s.dies → diesOk (body j s).dies) :
    diesOk ((s.prepared i v sigOf).perform s body).dies := by
  have key : ∀ t, (s.prepared i v sigOf).state = some t → diesOk t.dies := fun t ht => by
    obtain ⟨gid, g', rfl⟩ := prepared_state s i v sigOf t ht
    exact State.modGroup_ok _ _ _ _ h
  refine perform_ok _ _ _ h (fun j t c l e => key t ?_) (fun j t e => key t ?_) (fun j t e => key t ?_) hb <;> rw [e] <;> rfl

@[simp] theorem Job.result_ok (j : Job) (s : State) (v : Nat) (h : diesOk s.dies) :
    diesOk (Job.result j s v).dies := by
  unfold Job.result
  (try simp +contextual (maxDischargeDepth := 12) [h]) <;> (repeat' (split <;> try simp_all +contextual (maxDischargeDepth := 12)))

@[simp] theorem Job.later_ok (j : Job) (s : State) (h : diesOk s.dies) :
    diesOk (Job.later j s).dies := by
  unfold Job.later
  (try simp +contextual (maxDischargeDepth := 12) [h]) <;> (repeat' (split <;> try simp_all +contextual (maxDischargeDepth := 12)))

@[simp] theorem Job.perLane_ok (j : Job) (s : State) (f : LaneSrc → Nat) (h : diesOk s.dies) :
    diesOk (Job.perLane j s f).dies := by
  unfold Job.perLane
  (try simp +contextual (maxDischargeDepth := 12) [h]) <;> (repeat' (split <;> try simp_all +contextual (maxDischargeDepth := 12)))

@[simp] theorem State.park_ok (s : State) (d gid : Nat) (x : Issued) (threads : List Nat) (kind size : Nat) (addrs : List (Nat × DWord)) (causes : List (Nat × Nat)) (fetch : Bool) (h : diesOk s.dies) :
    diesOk (State.park s d gid x threads kind size addrs causes fetch).dies := by
  unfold State.park
  (try simp +contextual (maxDischargeDepth := 12) [h]) <;> (repeat' (split <;> try simp_all +contextual (maxDischargeDepth := 12)))

@[simp] theorem State.codeLine_ok (s : State) (d core pn : Nat) (r : LineRef) (h : diesOk s.dies) :
    diesOk (State.codeLine s d core pn r).2.dies := by
  unfold State.codeLine
  (try simp +contextual (maxDischargeDepth := 12) [h]) <;> (repeat' (split <;> try simp_all +contextual (maxDischargeDepth := 12)))

@[simp] theorem State.fetchBytes_ok (s : State) (d core pn va n : Nat) (h : diesOk s.dies) :
    diesOk (State.fetchBytes s d core pn va n).2.dies := by
  unfold State.fetchBytes
  (try simp +contextual (maxDischargeDepth := 12) [h]) <;> (repeat' (split <;> try simp_all +contextual (maxDischargeDepth := 12)))

@[simp] theorem State.fetchWord_ok (s : State) (d core pn pc : Nat) (h : diesOk s.dies) :
    diesOk (State.fetchWord s d core pn pc).2.dies := by
  unfold State.fetchWord
  (try simp +contextual (maxDischargeDepth := 12) [h]) <;> (repeat' (split <;> try simp_all +contextual (maxDischargeDepth := 12)))

@[simp] theorem State.passTime_ok (s : State) (d clocks : Nat) (h : diesOk s.dies) :
    diesOk (State.passTime s d clocks).dies := by
  unfold State.passTime
  (try simp +contextual (maxDischargeDepth := 12) [h]) <;> (repeat' (split <;> try simp_all +contextual (maxDischargeDepth := 12)))

@[simp] theorem Job.readsWindow_ok (j : Job) (s : State) (accs : List WinAcc) (k : State → State) (h : diesOk s.dies) (hk : ∀ x0, diesOk x0.dies → diesOk (k x0).dies) :
    diesOk (Job.readsWindow j s accs k).dies := by
  unfold Job.readsWindow
  (try simp +contextual (maxDischargeDepth := 12) [h]) <;> (repeat' (split <;> try simp_all +contextual (maxDischargeDepth := 12)))

@[simp] theorem State.readLanes_ok (s : State) (d core pn n : Nat) (l : List (Nat × Nat)) (h : diesOk s.dies) :
    diesOk (State.readLanes s d core pn n l).2.dies := by
  induction l generalizing s with
  | nil =>
    first | exact h | (unfold State.readLanes; simpa using h)
  | cons a rest ih =>
    unfold State.readLanes
    try simp only
    repeat' first
      | with_reducible assumption
      | with_reducible rfl
      | with_reducible apply State.fetchBytes_ok
      | with_reducible apply ih
      | with_reducible apply modify_ok
      | with_reducible apply State.modDie_ok
      | with_reducible apply State.modGroup_ok
      | with_reducible apply foldl_ok
      | with_reducible apply foldl_fst_ok
      | with_reducible apply foldl_snd_ok
      | with_reducible apply foldl_wf
      | with_reducible apply die_wf
      | rw [State.draw_dies]
      | rw [State.newId_dies]
      | rw [Die.modSched_mem]
      | rw [Die.modPort_mem]
      | rw [Die.modCore_mem]
      | rw [Die.modCluster_mem]
      | rw [Die.modGroup_mem]
      | rw [Die.modNode_mem]
      | rw [Die.belayLog_mem]
      | rw [Die.commit_mem]
      | rw [Die.reserve_mem]
      | rw [Die.modQueue_mem]
      | intro _
      | split
      | (simp_all; done)

@[simp] theorem Job.passOthers_ok (j : Job) (s : State) (h : diesOk s.dies) :
    diesOk (Job.passOthers j s).dies := by
  unfold Job.passOthers
  (try simp +contextual (maxDischargeDepth := 12) [h]) <;> (repeat' (split <;> try simp_all +contextual (maxDischargeDepth := 12)))

@[simp] theorem Job.withEntries_ok (j : Job) (s : State) (addr : LaneSrc → Nat) (k : List LaneRead → State → State) (h : diesOk s.dies) (hk : ∀ x0 x1, diesOk x1.dies → diesOk (k x0 x1).dies) :
    diesOk (Job.withEntries j s addr k).dies := by
  unfold Job.withEntries
  (try simp +contextual (maxDischargeDepth := 12) [h]) <;> (repeat' (split <;> try simp_all +contextual (maxDischargeDepth := 12)))

@[simp] theorem State.readSpots_ok (s : State) (q : Asking) (spots : List Spot) (l1 : Bool) (h : diesOk s.dies) :
    diesOk (State.readSpots s q spots l1).2.dies := by
  unfold State.readSpots
  try simp only
  repeat' first
    | with_reducible assumption
    | with_reducible rfl
    | with_reducible apply Die.open__wf
    | with_reducible apply modify_ok
    | with_reducible apply State.modDie_ok
    | with_reducible apply State.modGroup_ok
    | with_reducible apply foldl_ok
    | with_reducible apply foldl_fst_ok
    | with_reducible apply foldl_snd_ok
    | with_reducible apply foldl_wf
    | with_reducible apply die_wf
    | rw [State.draw_dies]
    | rw [State.newId_dies]
    | rw [Die.modSched_mem]
    | rw [Die.modPort_mem]
    | rw [Die.modCore_mem]
    | rw [Die.modCluster_mem]
    | rw [Die.modGroup_mem]
    | rw [Die.modNode_mem]
    | rw [Die.belayLog_mem]
    | rw [Die.commit_mem]
    | rw [Die.reserve_mem]
    | rw [Die.modQueue_mem]
    | intro _
    | split
    | (simp_all; done)

@[simp] theorem State.writeSpots_ok (s : State) (q : Asking) (spots : List Spot) (bs : List Byte) (h : diesOk s.dies) :
    diesOk (State.writeSpots s q spots bs).dies := by
  unfold State.writeSpots
  try simp only
  repeat' first
    | with_reducible assumption
    | with_reducible rfl
    | with_reducible apply Die.writeReg_wf
    | with_reducible apply Die.storeLine_wf
    | with_reducible apply modify_ok
    | with_reducible apply State.modDie_ok
    | with_reducible apply State.modGroup_ok
    | with_reducible apply foldl_ok
    | with_reducible apply foldl_fst_ok
    | with_reducible apply foldl_snd_ok
    | with_reducible apply foldl_wf
    | with_reducible apply die_wf
    | rw [State.draw_dies]
    | rw [State.newId_dies]
    | rw [Die.modSched_mem]
    | rw [Die.modPort_mem]
    | rw [Die.modCore_mem]
    | rw [Die.modCluster_mem]
    | rw [Die.modGroup_mem]
    | rw [Die.modNode_mem]
    | rw [Die.belayLog_mem]
    | rw [Die.commit_mem]
    | rw [Die.reserve_mem]
    | rw [Die.modQueue_mem]
    | intro _
    | split
    | (simp_all; done)

@[simp] theorem State.poisonSpots_ok (s : State) (q : Asking) (spots : List Spot) (h : diesOk s.dies) :
    diesOk (State.poisonSpots s q spots).dies := by
  unfold State.poisonSpots
  try simp only
  repeat' first
    | with_reducible assumption
    | with_reducible rfl
    | with_reducible apply Die.poisonLine_wf
    | with_reducible apply modify_ok
    | with_reducible apply State.modDie_ok
    | with_reducible apply State.modGroup_ok
    | with_reducible apply foldl_ok
    | with_reducible apply foldl_fst_ok
    | with_reducible apply foldl_snd_ok
    | with_reducible apply foldl_wf
    | with_reducible apply die_wf
    | rw [State.draw_dies]
    | rw [State.newId_dies]
    | rw [Die.modSched_mem]
    | rw [Die.modPort_mem]
    | rw [Die.modCore_mem]
    | rw [Die.modCluster_mem]
    | rw [Die.modGroup_mem]
    | rw [Die.modNode_mem]
    | rw [Die.belayLog_mem]
    | rw [Die.commit_mem]
    | rw [Die.reserve_mem]
    | rw [Die.modQueue_mem]
    | intro _
    | split
    | (simp_all; done)

@[simp] theorem Job.irrevocable_ok (j : Job) (s : State) (k : State → State) (h : diesOk s.dies) (hk : ∀ x0, diesOk x0.dies → diesOk (k x0).dies) :
    diesOk (Job.irrevocable j s k).dies := by
  unfold Job.irrevocable
  try simp only
  repeat' first
    | with_reducible assumption
    | with_reducible rfl
    | with_reducible apply Job.wait_ok
    | with_reducible apply hk
    | with_reducible apply modify_ok
    | with_reducible apply State.modDie_ok
    | with_reducible apply State.modGroup_ok
    | with_reducible apply foldl_ok
    | with_reducible apply foldl_fst_ok
    | with_reducible apply foldl_snd_ok
    | with_reducible apply foldl_wf
    | with_reducible apply die_wf
    | rw [State.draw_dies]
    | rw [State.newId_dies]
    | rw [Die.modSched_mem]
    | rw [Die.modPort_mem]
    | rw [Die.modCore_mem]
    | rw [Die.modCluster_mem]
    | rw [Die.modGroup_mem]
    | rw [Die.modNode_mem]
    | rw [Die.belayLog_mem]
    | rw [Die.commit_mem]
    | rw [Die.reserve_mem]
    | rw [Die.modQueue_mem]
    | intro _
    | split
    | (simp_all; done)

@[simp] theorem aluWord_ok (m : BitVec 2) (f : Nat → Bool → Nat → Nat → Nat → Nat) (j : Job) (s : State) (h : diesOk s.dies) :
    diesOk (aluWord m f j s).dies := by
  unfold aluWord
  (try simp +contextual (maxDischargeDepth := 12) [h]) <;> (repeat' (split <;> try simp_all +contextual (maxDischargeDepth := 12)))

@[simp] theorem fixedWord_ok (f : Nat → Nat → Nat → Nat) (j : Job) (s : State) (h : diesOk s.dies) :
    diesOk (fixedWord f j s).dies := by
  unfold fixedWord
  (try simp +contextual (maxDischargeDepth := 12) [h]) <;> (repeat' (split <;> try simp_all +contextual (maxDischargeDepth := 12)))

@[simp] theorem carryWord_ok (m : BitVec 2) (j : Job) (s : State) (h : diesOk s.dies) :
    diesOk (carryWord m j s).dies := by
  unfold carryWord
  (try simp +contextual (maxDischargeDepth := 12) [h]) <;> (repeat' (split <;> try simp_all +contextual (maxDischargeDepth := 12)))

@[simp] theorem predsFrom_ok (mask : Nat) (j : Job) (s : State) (h : diesOk s.dies) :
    diesOk (predsFrom mask j s).dies := by
  unfold predsFrom
  (try simp +contextual (maxDischargeDepth := 12) [h]) <;> (repeat' (split <;> try simp_all +contextual (maxDischargeDepth := 12)))

@[simp] theorem predsTo_ok (j : Job) (s : State) (h : diesOk s.dies) :
    diesOk (predsTo j s).dies := by
  unfold predsTo
  (try simp +contextual (maxDischargeDepth := 12) [h]) <;> (repeat' (split <;> try simp_all +contextual (maxDischargeDepth := 12)))

@[simp] theorem State.parkCollective_ok (s : State) (d gid kind size va cause : Nat) (sel : Wait → Bool) (h : diesOk s.dies) :
    diesOk (State.parkCollective s d gid kind size va cause sel).dies := by
  unfold State.parkCollective
  (try simp +contextual (maxDischargeDepth := 12) [h]) <;> (repeat' (split <;> try simp_all +contextual (maxDischargeDepth := 12)))

@[simp] theorem State.beginGate_ok (s : State) (d gid : Nat) (g : Group) (e : GateEntry) (exts : List Extent) (h : diesOk s.dies) :
    diesOk (State.beginGate s d gid g e exts).dies := by
  unfold State.beginGate
  try simp only
  repeat' first
    | with_reducible assumption
    | with_reducible rfl
    | with_reducible apply Die.translateAll_wf
    | with_reducible apply modify_ok
    | with_reducible apply State.modDie_ok
    | with_reducible apply State.modGroup_ok
    | with_reducible apply foldl_ok
    | with_reducible apply foldl_fst_ok
    | with_reducible apply foldl_snd_ok
    | with_reducible apply foldl_wf
    | with_reducible apply die_wf
    | rw [State.draw_dies]
    | rw [State.newId_dies]
    | rw [Die.modSched_mem]
    | rw [Die.modPort_mem]
    | rw [Die.modCore_mem]
    | rw [Die.modCluster_mem]
    | rw [Die.modGroup_mem]
    | rw [Die.modNode_mem]
    | rw [Die.belayLog_mem]
    | rw [Die.commit_mem]
    | rw [Die.reserve_mem]
    | rw [Die.modQueue_mem]
    | intro _
    | split
    | (simp_all; done)

@[simp] theorem State.openGate_ok (s : State) (d gid : Nat) (g : Group) (e : GateEntry) (h : diesOk s.dies) :
    diesOk (State.openGate s d gid g e).dies := by
  unfold State.openGate
  try simp only
  repeat' first
    | with_reducible assumption
    | with_reducible rfl
    | with_reducible apply State.beginGate_ok
    | with_reducible apply Die.procRead_wf
    | with_reducible apply modify_ok
    | with_reducible apply State.modDie_ok
    | with_reducible apply State.modGroup_ok
    | with_reducible apply foldl_ok
    | with_reducible apply foldl_fst_ok
    | with_reducible apply foldl_snd_ok
    | with_reducible apply foldl_wf
    | with_reducible apply die_wf
    | rw [State.draw_dies]
    | rw [State.newId_dies]
    | rw [Die.modSched_mem]
    | rw [Die.modPort_mem]
    | rw [Die.modCore_mem]
    | rw [Die.modCluster_mem]
    | rw [Die.modGroup_mem]
    | rw [Die.modNode_mem]
    | rw [Die.belayLog_mem]
    | rw [Die.commit_mem]
    | rw [Die.reserve_mem]
    | rw [Die.modQueue_mem]
    | intro _
    | split
    | (simp_all; done)

@[simp] theorem State.gatherGate_ok (s : State) (d gid : Nat) (h : diesOk s.dies) :
    diesOk (State.gatherGate s d gid).dies := by
  unfold State.gatherGate
  split
  · exact h
  · rename_i g _
    split
    · exact h
    · extract_lets ns va
      have hf := State.fetchBytes_ok s d g.core g.ctx.pn va 64 h
      split
      · with_reducible exact State.collective_ok _ _ _ _ _ _ h
      · split
        · with_reducible exact State.collective_ok _ _ _ _ _ _ h
        · generalize s.fetchBytes d g.core g.ctx.pn va 64 = f at hf
          obtain ⟨f, t⟩ := f
          cases f <;> dsimp only at hf ⊢
          · repeat' first
              | with_reducible exact State.collective_ok _ _ _ _ _ _ hf
              | with_reducible apply State.openGate_ok
              | with_reducible apply State.modDie_ok
              | with_reducible exact hf
              | split
            all_goals (intro x hx; simp only [Die.turnIrrevocable_mem, Die.modNode_mem]; exact hx)
          · split
            · with_reducible exact State.parkCollective_ok _ _ _ _ _ _ _ _ hf
            · with_reducible exact State.collective_ok _ _ _ _ _ _ hf
          · with_reducible exact hf

@[simp] theorem State.gatherGret_ok (s : State) (d gid : Nat) (h : diesOk s.dies) :
    diesOk (State.gatherGret s d gid).dies := by
  unfold State.gatherGret
  (try simp +contextual (maxDischargeDepth := 12) [h]) <;> (repeat' (split <;> try simp_all +contextual (maxDischargeDepth := 12)))

@[simp] theorem Job.goto_ok (j : Job) (s : State) (target : LaneSrc → Nat) (after : Group → Group) (h : diesOk s.dies) :
    diesOk (Job.goto j s target after).dies := by
  unfold Job.goto
  (try simp +contextual (maxDischargeDepth := 12) [h]) <;> (repeat' (split <;> try simp_all +contextual (maxDischargeDepth := 12)))

@[simp] theorem braWord_ok (imm : Word) (j : Job) (s : State) (h : diesOk s.dies) :
    diesOk (braWord imm j s).dies := by
  unfold braWord
  (try simp +contextual (maxDischargeDepth := 12) [h]) <;> (repeat' (split <;> try simp_all +contextual (maxDischargeDepth := 12)))

@[simp] theorem braUWord_ok (imm : Word) (j : Job) (s : State) (h : diesOk s.dies) :
    diesOk (braUWord imm j s).dies := by
  unfold braUWord
  (try simp +contextual (maxDischargeDepth := 12) [h]) <;> (repeat' (split <;> try simp_all +contextual (maxDischargeDepth := 12)))

@[simp] theorem brayWord_ok (imm : Word) (j : Job) (s : State) (h : diesOk s.dies) :
    diesOk (brayWord imm j s).dies := by
  unfold brayWord
  (try simp +contextual (maxDischargeDepth := 12) [h]) <;> (repeat' (split <;> try simp_all +contextual (maxDischargeDepth := 12)))

@[simp] theorem bruWord_ok (nz : Bool) (imm : Word) (j : Job) (s : State) (h : diesOk s.dies) :
    diesOk (bruWord nz imm j s).dies := by
  unfold bruWord
  (try simp +contextual (maxDischargeDepth := 12) [h]) <;> (repeat' (split <;> try simp_all +contextual (maxDischargeDepth := 12)))

@[simp] theorem jmpWord_ok (j : Job) (s : State) (h : diesOk s.dies) :
    diesOk (jmpWord j s).dies := by
  unfold jmpWord
  (try simp +contextual (maxDischargeDepth := 12) [h]) <;> (repeat' (split <;> try simp_all +contextual (maxDischargeDepth := 12)))

/-- A dispatch-table word, whatever it does with its targets. -/
theorem tableWord_ok (checks : Group → Option (Nat × List Nat)) (k : (LaneSrc → Nat) → Job → State → State) (j : Job)
    (s : State) (h : diesOk s.dies) (hk : ∀ f j s, diesOk s.dies → diesOk (k f j s).dies) :
    diesOk (tableWord checks k j s).dies := by
  unfold tableWord
  simp only
  split
  · exact Job.fault_ok _ _ _ _ _ h
  · split
    · exact Job.fault_ok _ _ _ _ _ h
    · refine Job.withEntries_ok _ _ _ _ h fun rs s hs => ?_
      split
      · exact Job.fault_ok _ _ _ _ _ hs
      · exact hk _ _ _ hs

/-- JTAB. -/
@[simp] theorem jtabWord_ok (j : Job) (s : State) (h : diesOk s.dies) : diesOk (jtabWord j s).dies :=
  tableWord_ok _ _ _ _ h fun _ _ _ hs => Job.goto_ok _ _ _ _ hs

@[simp] theorem callTo_ok (target : LaneSrc → Nat) (j : Job) (s : State) (h : diesOk s.dies) :
    diesOk (callTo target j s).dies := by
  unfold callTo
  (try simp +contextual (maxDischargeDepth := 12) [h]) <;> (repeat' (split <;> try simp_all +contextual (maxDischargeDepth := 12)))

@[simp] theorem callWord_ok (target : LaneSrc → Nat) (j : Job) (s : State) (h : diesOk s.dies) :
    diesOk (callWord target j s).dies := by
  unfold callWord
  (try simp +contextual (maxDischargeDepth := 12) [h]) <;> (repeat' (split <;> try simp_all +contextual (maxDischargeDepth := 12)))

/-- CALLT. -/
@[simp] theorem calltWord_ok (j : Job) (s : State) (h : diesOk s.dies) : diesOk (calltWord j s).dies :=
  tableWord_ok _ _ _ _ h fun _ _ _ hs => callTo_ok _ _ _ hs

@[simp] theorem retWord_ok (j : Job) (s : State) (h : diesOk s.dies) :
    diesOk (retWord j s).dies := by
  unfold retWord
  (try simp +contextual (maxDischargeDepth := 12) [h]) <;> (repeat' (split <;> try simp_all +contextual (maxDischargeDepth := 12)))

/-- REFORM. -/
@[simp] theorem reformWord_ok (j : Job) (s : State) (h : diesOk s.dies) : diesOk (reformWord j s).dies := by
  refine tableWord_ok _ _ _ _ h fun target j s hs => ?_
  simp only
  split
  · exact Job.fault_ok _ _ _ _ _ hs
  · exact State.modGroup_ok _ _ _ _ (Job.passOthers_ok _ _ hs)

@[simp] theorem waitWord_ok (lim : Nat) (j : Job) (s : State) (h : diesOk s.dies) :
    diesOk (waitWord lim j s).dies := by
  unfold waitWord
  (try simp +contextual (maxDischargeDepth := 12) [h]) <;> (repeat' (split <;> try simp_all +contextual (maxDischargeDepth := 12)))

@[simp] theorem sleepWord_ok (j : Job) (s : State) (h : diesOk s.dies) :
    diesOk (sleepWord j s).dies := by
  unfold sleepWord
  (try simp +contextual (maxDischargeDepth := 12) [h]) <;> (repeat' (split <;> try simp_all +contextual (maxDischargeDepth := 12)))

@[simp] theorem State.checkLanes_ok (s : State) (d : Nat) (g : Group) (acc : Acc) (n align : Nat) (ls : List (Nat × Nat)) (h : diesOk s.dies) :
    diesOk (State.checkLanes s d g acc n align ls).2.dies := by
  induction ls generalizing s with
  | nil =>
    first | exact h | (unfold State.checkLanes; simpa using h)
  | cons a rest ih =>
    unfold State.checkLanes
    try simp only
    repeat' first
      | with_reducible assumption
      | with_reducible rfl
      | with_reducible apply State.checkAccess_ok
      | with_reducible apply ih
      | with_reducible apply modify_ok
      | with_reducible apply State.modDie_ok
      | with_reducible apply State.modGroup_ok
      | with_reducible apply foldl_ok
      | with_reducible apply foldl_fst_ok
      | with_reducible apply foldl_snd_ok
      | with_reducible apply foldl_wf
      | with_reducible apply die_wf
      | rw [State.draw_dies]
      | rw [State.newId_dies]
      | rw [Die.modSched_mem]
      | rw [Die.modPort_mem]
      | rw [Die.modCore_mem]
      | rw [Die.modCluster_mem]
      | rw [Die.modGroup_mem]
      | rw [Die.modNode_mem]
      | rw [Die.belayLog_mem]
      | rw [Die.commit_mem]
      | rw [Die.reserve_mem]
      | rw [Die.modQueue_mem]
      | intro _
      | split
      | (simp_all; done)

@[simp] theorem Job.withAccess_ok (j : Job) (s : State) (acc : Acc) (kind n align : Nat) (lanes : List (Nat × Nat)) (k : List LaneSpots → State → State) (h : diesOk s.dies) (hk : ∀ x0 x1, diesOk x1.dies → diesOk (k x0 x1).dies) :
    diesOk (Job.withAccess j s acc kind n align lanes k).dies := by
  unfold Job.withAccess
  (try simp +contextual (maxDischargeDepth := 12) [h]) <;> (repeat' (split <;> try simp_all +contextual (maxDischargeDepth := 12)))

@[simp] theorem State.readAll_ok (s : State) (q : Asking) (ls : List LaneSpots) (h : diesOk s.dies) :
    diesOk (State.readAll s q ls).2.dies := by
  induction ls generalizing s with
  | nil =>
    first | exact h | (unfold State.readAll; simpa using h)
  | cons a rest ih =>
    unfold State.readAll
    try simp only
    repeat' first
      | with_reducible assumption
      | with_reducible rfl
      | with_reducible apply State.readSpots_ok
      | with_reducible apply ih
      | with_reducible apply modify_ok
      | with_reducible apply State.modDie_ok
      | with_reducible apply State.modGroup_ok
      | with_reducible apply foldl_ok
      | with_reducible apply foldl_fst_ok
      | with_reducible apply foldl_snd_ok
      | with_reducible apply foldl_wf
      | with_reducible apply die_wf
      | rw [State.draw_dies]
      | rw [State.newId_dies]
      | rw [Die.modSched_mem]
      | rw [Die.modPort_mem]
      | rw [Die.modCore_mem]
      | rw [Die.modCluster_mem]
      | rw [Die.modGroup_mem]
      | rw [Die.modNode_mem]
      | rw [Die.belayLog_mem]
      | rw [Die.commit_mem]
      | rw [Die.reserve_mem]
      | rw [Die.modQueue_mem]
      | intro _
      | split
      | (simp_all; done)

@[simp] theorem Job.deliverLoads_ok (j : Job) (s : State) (n : Nat) (signed : Bool) (got : List (Nat × List (Byte × Bool))) (h : diesOk s.dies) :
    diesOk (Job.deliverLoads j s n signed got).dies := by
  unfold Job.deliverLoads
  (try simp +contextual (maxDischargeDepth := 12) [h]) <;> (repeat' (split <;> try simp_all +contextual (maxDischargeDepth := 12)))

@[simp] theorem loadWord_ok (n : Nat) (signed : Bool) (hint : BitVec 2) (j : Job) (s : State) (h : diesOk s.dies) :
    diesOk (loadWord n signed hint j s).dies := by
  unfold loadWord
  (try simp +contextual (maxDischargeDepth := 12) [h]) <;> (repeat' (split <;> try simp_all +contextual (maxDischargeDepth := 12)))

@[simp] theorem Job.withWindow_ok (j : Job) (s : State) (n : Nat) (stores : Bool) (off : LaneSrc → Nat) (k : State → State) (h : diesOk s.dies) (hk : ∀ x0, diesOk x0.dies → diesOk (k x0).dies) :
    diesOk (Job.withWindow j s n stores off k).dies := by
  unfold Job.withWindow
  (try simp +contextual (maxDischargeDepth := 12) [h]) <;> (repeat' (split <;> try simp_all +contextual (maxDischargeDepth := 12)))

@[simp] theorem loadWindow_ok (n : Nat) (signed : Bool) (j : Job) (s : State) (h : diesOk s.dies) :
    diesOk (loadWindow n signed j s).dies := by
  unfold loadWindow
  (try simp +contextual (maxDischargeDepth := 12) [h]) <;> (repeat' (split <;> try simp_all +contextual (maxDischargeDepth := 12)))

@[simp] theorem Job.storeAll_ok (j : Job) (s : State) (q : Asking) (ls : List (LaneSpots × List Byte)) (h : diesOk s.dies) :
    diesOk (Job.storeAll j s q ls).dies := by
  induction ls generalizing s with
  | nil => unfold Job.storeAll; exact Job.pass_ok j s h
  | cons a rest ih =>
    unfold Job.storeAll
    split
    · exact ih _ (State.writeSpots_ok _ _ _ _ h)
    · exact h

@[simp] theorem Job.hostChecked_ok (j : Job) (s : State) (n : Nat) (ls : List LaneSpots) (also : Bool) (k : State → State) (h : diesOk s.dies) (hk : ∀ x0, diesOk x0.dies → diesOk (k x0).dies) :
    diesOk (Job.hostChecked j s n ls also k).dies := by
  unfold Job.hostChecked
  (try simp +contextual (maxDischargeDepth := 12) [h]) <;> (repeat' (split <;> try simp_all +contextual (maxDischargeDepth := 12)))

@[simp] theorem storeWord_ok (n : Nat) (hint : BitVec 2) (j : Job) (s : State) (h : diesOk s.dies) :
    diesOk (storeWord n hint j s).dies := by
  unfold storeWord
  (try simp +contextual (maxDischargeDepth := 12) [h]) <;> (repeat' (split <;> try simp_all +contextual (maxDischargeDepth := 12)))

@[simp] theorem storeWindow_ok (n : Nat) (j : Job) (s : State) (h : diesOk s.dies) :
    diesOk (storeWindow n j s).dies := by
  unfold storeWindow
  (try simp +contextual (maxDischargeDepth := 12) [h]) <;> (repeat' (split <;> try simp_all +contextual (maxDischargeDepth := 12)))

@[simp] theorem Job.atomLane_ok (j : Job) (s : State) (w : Nat) (q : Asking) (l : LaneSrc) (p : LaneSpots) (h : diesOk s.dies) :
    diesOk (Job.atomLane j s w q l p).dies := by
  unfold Job.atomLane
  (try simp +contextual (maxDischargeDepth := 12) [h]) <;> (repeat' (split <;> try simp_all +contextual (maxDischargeDepth := 12)))

@[simp] theorem Job.atomAll_ok (j : Job) (s : State) (w : Nat) (q : Asking) (ls : List (LaneSrc × LaneSpots)) (h : diesOk s.dies) :
    diesOk (Job.atomAll j s w q ls).dies := by
  induction ls generalizing s with
  | nil => unfold Job.atomAll; exact Job.pass_ok j s h
  | cons a rest ih =>
    unfold Job.atomAll
    split
    · exact ih _ (Job.atomLane_ok _ _ _ _ _ _ h)
    · exact h

@[simp] theorem atomWord_ok (w : Nat) (hint : BitVec 2) (j : Job) (s : State) (h : diesOk s.dies) :
    diesOk (atomWord w hint j s).dies := by
  unfold atomWord
  (try simp +contextual (maxDischargeDepth := 12) [h]) <;> (repeat' (split <;> try simp_all +contextual (maxDischargeDepth := 12)))

@[simp] theorem atomWindow_ok (w : Nat) (j : Job) (s : State) (h : diesOk s.dies) :
    diesOk (atomWindow w j s).dies := by
  unfold atomWindow
  (try simp +contextual (maxDischargeDepth := 12) [h]) <;> (repeat' (split <;> try simp_all +contextual (maxDischargeDepth := 12)))

@[simp] theorem State.prefetch_ok (s : State) (d core pn : Nat) (ext : ExtTable) (va hint : Nat) (h : diesOk s.dies) :
    diesOk (State.prefetch s d core pn ext va hint).dies := by
  unfold State.prefetch
  (try simp +contextual (maxDischargeDepth := 12) [h]) <;> (repeat' (split <;> try simp_all +contextual (maxDischargeDepth := 12)))

@[simp] theorem prefWord_ok (hint : BitVec 2) (j : Job) (s : State) (h : diesOk s.dies) :
    diesOk (prefWord hint j s).dies := by
  unfold prefWord
  (try simp +contextual (maxDischargeDepth := 12) [h]) <;> (repeat' (split <;> try simp_all +contextual (maxDischargeDepth := 12)))

@[simp] theorem State.closeOut_ok (s : State) (d core : Nat) (o : OutOp) (word : Nat) (h : diesOk s.dies) :
    diesOk (State.closeOut s d core o word).dies := by
  unfold State.closeOut
  try simp only
  repeat' first
    | with_reducible assumption
    | with_reducible rfl
    | with_reducible apply modify_ok
    | with_reducible apply State.modDie_ok
    | with_reducible apply State.modGroup_ok
    | with_reducible apply foldl_ok
    | with_reducible apply foldl_fst_ok
    | with_reducible apply foldl_snd_ok
    | with_reducible apply foldl_wf
    | with_reducible apply die_wf
    | rw [State.draw_dies]
    | rw [State.newId_dies]
    | rw [Die.modSched_mem]
    | rw [Die.modPort_mem]
    | rw [Die.modCore_mem]
    | rw [Die.modCluster_mem]
    | rw [Die.modGroup_mem]
    | rw [Die.modNode_mem]
    | rw [Die.belayLog_mem]
    | rw [Die.commit_mem]
    | rw [Die.reserve_mem]
    | rw [Die.modQueue_mem]
    | intro _
    | split
    | (simp_all; done)

@[simp] theorem State.nameFor_ok (s : State) (d pn : Nat) (vqn : Word) (enq deq : Bool) (h : diesOk s.dies) :
    diesOk (State.nameFor s d pn vqn enq deq).2.dies := by
  unfold State.nameFor
  (try simp +contextual (maxDischargeDepth := 12) [h]) <;> (repeat' (split <;> try simp_all +contextual (maxDischargeDepth := 12)))

@[simp] theorem State.startOut_ok (s : State) (d core : Nat) (o : OutOp) (h : diesOk s.dies) :
    diesOk (State.startOut s d core o).dies := by
  unfold State.startOut
  try simp only
  repeat' first
    | with_reducible assumption
    | with_reducible rfl
    | with_reducible apply State.request_ok
    | with_reducible apply State.closeOut_ok
    | with_reducible apply State.nameFor_ok
    | with_reducible apply modify_ok
    | with_reducible apply State.modDie_ok
    | with_reducible apply State.modGroup_ok
    | with_reducible apply foldl_ok
    | with_reducible apply foldl_fst_ok
    | with_reducible apply foldl_snd_ok
    | with_reducible apply foldl_wf
    | with_reducible apply die_wf
    | rw [State.draw_dies]
    | rw [State.newId_dies]
    | rw [Die.modSched_mem]
    | rw [Die.modPort_mem]
    | rw [Die.modCore_mem]
    | rw [Die.modCluster_mem]
    | rw [Die.modGroup_mem]
    | rw [Die.modNode_mem]
    | rw [Die.belayLog_mem]
    | rw [Die.commit_mem]
    | rw [Die.reserve_mem]
    | rw [Die.modQueue_mem]
    | intro _
    | split
    | (simp_all; done)

@[simp] theorem State.pumpOut_ok (s : State) (fuel d core : Nat) (h : diesOk s.dies) :
    diesOk (State.pumpOut s fuel d core).dies := by
  induction fuel generalizing s with
  | zero =>
    unfold State.pumpOut; simpa using h
  | succ fuel ih =>
    unfold State.pumpOut
    try simp only
    repeat' first
      | with_reducible assumption
      | with_reducible rfl
      | with_reducible apply State.startOut_ok
      | with_reducible apply ih
      | with_reducible apply modify_ok
      | with_reducible apply State.modDie_ok
      | with_reducible apply State.modGroup_ok
      | with_reducible apply foldl_ok
      | with_reducible apply foldl_fst_ok
      | with_reducible apply foldl_snd_ok
      | with_reducible apply foldl_wf
      | with_reducible apply die_wf
      | rw [State.draw_dies]
      | rw [State.newId_dies]
      | rw [Die.modSched_mem]
      | rw [Die.modPort_mem]
      | rw [Die.modCore_mem]
      | rw [Die.modCluster_mem]
      | rw [Die.modGroup_mem]
      | rw [Die.modNode_mem]
      | rw [Die.belayLog_mem]
      | rw [Die.commit_mem]
      | rw [Die.reserve_mem]
      | rw [Die.modQueue_mem]
      | intro _
      | split
      | (simp_all; done)

@[simp] theorem State.pump_ok (s : State) (d core : Nat) (h : diesOk s.dies) :
    diesOk (State.pump s d core).dies := by
  unfold State.pump
  (try simp +contextual (maxDischargeDepth := 12) [h]) <;> (repeat' (split <;> try simp_all +contextual (maxDischargeDepth := 12)))

@[simp] theorem State.endOut_ok (s : State) (d core : Nat) (o : OutOp) (word : Nat) (h : diesOk s.dies) :
    diesOk (State.endOut s d core o word).dies := by
  unfold State.endOut
  (try simp +contextual (maxDischargeDepth := 12) [h]) <;> (repeat' (split <;> try simp_all +contextual (maxDischargeDepth := 12)))

@[simp] theorem Job.outbound_ok (j : Job) (s : State) (n : Nat) (kind : OutKind) (h : diesOk s.dies) :
    diesOk (Job.outbound j s n kind).dies := by
  unfold Job.outbound
  try simp only
  repeat' first
    | with_reducible assumption
    | with_reducible rfl
    | with_reducible apply Job.mod_ok
    | with_reducible apply Job.later_ok
    | with_reducible apply State.pump_ok
    | with_reducible apply modify_ok
    | with_reducible apply State.modDie_ok
    | with_reducible apply State.modGroup_ok
    | with_reducible apply foldl_ok
    | with_reducible apply foldl_fst_ok
    | with_reducible apply foldl_snd_ok
    | with_reducible apply foldl_wf
    | with_reducible apply die_wf
    | rw [State.draw_dies]
    | rw [State.newId_dies]
    | rw [Die.modSched_mem]
    | rw [Die.modPort_mem]
    | rw [Die.modCore_mem]
    | rw [Die.modCluster_mem]
    | rw [Die.modGroup_mem]
    | rw [Die.modNode_mem]
    | rw [Die.belayLog_mem]
    | rw [Die.commit_mem]
    | rw [Die.reserve_mem]
    | rw [Die.modQueue_mem]
    | intro _
    | split
    | (simp_all; done)

@[simp] theorem qbindWord_ok (j : Job) (s : State) (h : diesOk s.dies) :
    diesOk (qbindWord j s).dies := by
  unfold qbindWord
  try simp only
  repeat' first
    | with_reducible assumption
    | with_reducible rfl
    | with_reducible apply Job.mod_ok
    | with_reducible apply Job.pass_ok
    | with_reducible apply modify_ok
    | with_reducible apply State.modDie_ok
    | with_reducible apply State.modGroup_ok
    | with_reducible apply foldl_ok
    | with_reducible apply foldl_fst_ok
    | with_reducible apply foldl_snd_ok
    | with_reducible apply foldl_wf
    | with_reducible apply die_wf
    | rw [State.draw_dies]
    | rw [State.newId_dies]
    | rw [Die.modSched_mem]
    | rw [Die.modPort_mem]
    | rw [Die.modCore_mem]
    | rw [Die.modCluster_mem]
    | rw [Die.modGroup_mem]
    | rw [Die.modNode_mem]
    | rw [Die.belayLog_mem]
    | rw [Die.commit_mem]
    | rw [Die.reserve_mem]
    | rw [Die.modQueue_mem]
    | intro _
    | split
    | (simp_all; done)

@[simp] theorem Job.queueStatus_ok (j : Job) (s : State) (st : Nat) (h : diesOk s.dies) :
    diesOk (Job.queueStatus j s st).dies := by
  unfold Job.queueStatus
  (try simp +contextual (maxDischargeDepth := 12) [h]) <;> (repeat' (split <;> try simp_all +contextual (maxDischargeDepth := 12)))

@[simp] theorem qresWord_ok (count : Job → Nat) (j : Job) (s : State) (h : diesOk s.dies) :
    diesOk (qresWord count j s).dies := by
  unfold qresWord
  (try simp +contextual (maxDischargeDepth := 12) [h]) <;> (repeat' (split <;> try simp_all +contextual (maxDischargeDepth := 12)))

@[simp] theorem qputWord_ok (j : Job) (s : State) (h : diesOk s.dies) :
    diesOk (qputWord j s).dies := by
  unfold qputWord
  (try simp +contextual (maxDischargeDepth := 12) [h]) <;> (repeat' (split <;> try simp_all +contextual (maxDischargeDepth := 12)))

@[simp] theorem qstatWord_ok (j : Job) (s : State) (h : diesOk s.dies) :
    diesOk (qstatWord j s).dies := by
  unfold qstatWord
  (try simp +contextual (maxDischargeDepth := 12) [h]) <;> (repeat' (split <;> try simp_all +contextual (maxDischargeDepth := 12)))

@[simp] theorem qcancelWord_ok (kind : Job → OutKind) (j : Job) (s : State) (h : diesOk s.dies) :
    diesOk (qcancelWord kind j s).dies := by
  unfold qcancelWord
  (try simp +contextual (maxDischargeDepth := 12) [h]) <;> (repeat' (split <;> try simp_all +contextual (maxDischargeDepth := 12)))

@[simp] theorem State.sendDeq_ok (s : State) (d : Nat) (g : Group) (x : Issued) (wait : Bool) (h : diesOk s.dies) :
    diesOk (State.sendDeq s d g x wait).2.dies := by
  unfold State.sendDeq
  (try simp +contextual (maxDischargeDepth := 12) [h]) <;> (repeat' (split <;> try simp_all +contextual (maxDischargeDepth := 12)))

@[simp] theorem Job.dequeue_ok (j : Job) (s : State) (wait : Bool) (h : diesOk s.dies) :
    diesOk (Job.dequeue j s wait).dies := by
  unfold Job.dequeue
  (try simp +contextual (maxDischargeDepth := 12) [h]) <;> (repeat' (split <;> try simp_all +contextual (maxDischargeDepth := 12)))

@[simp] theorem deqWord_ok (wait : Bool) (j : Job) (s : State) (h : diesOk s.dies) :
    diesOk (deqWord wait j s).dies := by
  unfold deqWord
  (try simp +contextual (maxDischargeDepth := 12) [h]) <;> (repeat' (split <;> try simp_all +contextual (maxDischargeDepth := 12)))

@[simp] theorem State.resendWaits_ok (s : State) (d gid : Nat) (h : diesOk s.dies) :
    diesOk (State.resendWaits s d gid).dies := by
  unfold State.resendWaits
  try simp only
  repeat' first
    | with_reducible assumption
    | with_reducible rfl
    | with_reducible apply Job.wait_ok
    | with_reducible apply State.sendDeq_ok
    | with_reducible apply modify_ok
    | with_reducible apply State.modDie_ok
    | with_reducible apply State.modGroup_ok
    | with_reducible apply foldl_ok
    | with_reducible apply foldl_fst_ok
    | with_reducible apply foldl_snd_ok
    | with_reducible apply foldl_wf
    | with_reducible apply die_wf
    | rw [State.draw_dies]
    | rw [State.newId_dies]
    | rw [Die.modSched_mem]
    | rw [Die.modPort_mem]
    | rw [Die.modCore_mem]
    | rw [Die.modCluster_mem]
    | rw [Die.modGroup_mem]
    | rw [Die.modNode_mem]
    | rw [Die.belayLog_mem]
    | rw [Die.commit_mem]
    | rw [Die.reserve_mem]
    | rw [Die.modQueue_mem]
    | intro _
    | split
    | (simp_all; done)

@[simp] theorem Job.appendLaunch_ok (j : Job) (s : State) (queue : Bool) (h : diesOk s.dies) :
    diesOk (Job.appendLaunch j s queue).dies := by
  unfold Job.appendLaunch
  try simp only
  repeat' first
    | with_reducible assumption
    | with_reducible rfl
    | with_reducible apply Job.mod_ok
    | with_reducible apply Job.later_ok
    | with_reducible apply modify_ok
    | with_reducible apply State.modDie_ok
    | with_reducible apply State.modGroup_ok
    | with_reducible apply foldl_ok
    | with_reducible apply foldl_fst_ok
    | with_reducible apply foldl_snd_ok
    | with_reducible apply foldl_wf
    | with_reducible apply die_wf
    | rw [State.draw_dies]
    | rw [State.newId_dies]
    | rw [Die.modSched_mem]
    | rw [Die.modPort_mem]
    | rw [Die.modCore_mem]
    | rw [Die.modCluster_mem]
    | rw [Die.modGroup_mem]
    | rw [Die.modNode_mem]
    | rw [Die.belayLog_mem]
    | rw [Die.commit_mem]
    | rw [Die.reserve_mem]
    | rw [Die.modQueue_mem]
    | intro _
    | split
    | (simp_all; done)

@[simp] theorem launchWord_ok (queue : Bool) (j : Job) (s : State) (h : diesOk s.dies) :
    diesOk (launchWord queue j s).dies := by
  unfold launchWord
  (try simp +contextual (maxDischargeDepth := 12) [h]) <;> (repeat' (split <;> try simp_all +contextual (maxDischargeDepth := 12)))

@[simp] theorem State.endLaunch_ok (s : State) (d core : Nat) (l : PendLaunch) (st : Nat) (h : diesOk s.dies) :
    diesOk (State.endLaunch s d core l st).dies := by
  unfold State.endLaunch
  try simp only
  repeat' first
    | with_reducible assumption
    | with_reducible rfl
    | with_reducible apply State.pump_ok
    | with_reducible apply modify_ok
    | with_reducible apply State.modDie_ok
    | with_reducible apply State.modGroup_ok
    | with_reducible apply foldl_ok
    | with_reducible apply foldl_fst_ok
    | with_reducible apply foldl_snd_ok
    | with_reducible apply foldl_wf
    | with_reducible apply die_wf
    | rw [State.draw_dies]
    | rw [State.newId_dies]
    | rw [Die.modSched_mem]
    | rw [Die.modPort_mem]
    | rw [Die.modCore_mem]
    | rw [Die.modCluster_mem]
    | rw [Die.modGroup_mem]
    | rw [Die.modNode_mem]
    | rw [Die.belayLog_mem]
    | rw [Die.commit_mem]
    | rw [Die.reserve_mem]
    | rw [Die.modQueue_mem]
    | intro _
    | split
    | (simp_all; done)

@[simp] theorem State.launchTarget_ok (s : State) (d : Nat) (l : PendLaunch) (h : diesOk s.dies) :
    diesOk (State.launchTarget s d l).2.dies := by
  unfold State.launchTarget
  (try simp +contextual (maxDischargeDepth := 12) [h]) <;> (repeat' (split <;> try simp_all +contextual (maxDischargeDepth := 12)))

@[simp] theorem State.reserveLaunch_ok (s : State) (d core : Nat) (l : PendLaunch) (h : diesOk s.dies) :
    diesOk (State.reserveLaunch s d core l).dies := by
  unfold State.reserveLaunch
  try simp only
  repeat' first
    | with_reducible assumption
    | with_reducible rfl
    | with_reducible apply State.request_ok
    | with_reducible apply State.endLaunch_ok
    | with_reducible apply State.launchTarget_ok
    | with_reducible apply modify_ok
    | with_reducible apply State.modDie_ok
    | with_reducible apply State.modGroup_ok
    | with_reducible apply foldl_ok
    | with_reducible apply foldl_fst_ok
    | with_reducible apply foldl_snd_ok
    | with_reducible apply foldl_wf
    | with_reducible apply die_wf
    | rw [State.draw_dies]
    | rw [State.newId_dies]
    | rw [Die.modSched_mem]
    | rw [Die.modPort_mem]
    | rw [Die.modCore_mem]
    | rw [Die.modCluster_mem]
    | rw [Die.modGroup_mem]
    | rw [Die.modNode_mem]
    | rw [Die.belayLog_mem]
    | rw [Die.commit_mem]
    | rw [Die.reserve_mem]
    | rw [Die.modQueue_mem]
    | intro _
    | split
    | (simp_all; done)

@[simp] theorem Job.startCopy_ok (j : Job) (s : State) (kind : CopyKind) (lay : Layout) (h : diesOk s.dies) :
    diesOk (Job.startCopy j s kind lay).dies := by
  unfold Job.startCopy
  try simp only
  repeat' first
    | with_reducible assumption
    | with_reducible rfl
    | with_reducible apply Job.mod_ok
    | with_reducible apply Job.wait_ok
    | with_reducible apply Job.result_ok
    | with_reducible apply modify_ok
    | with_reducible apply State.modDie_ok
    | with_reducible apply State.modGroup_ok
    | with_reducible apply foldl_ok
    | with_reducible apply foldl_fst_ok
    | with_reducible apply foldl_snd_ok
    | with_reducible apply foldl_wf
    | with_reducible apply die_wf
    | rw [State.draw_dies]
    | rw [State.newId_dies]
    | rw [Die.modSched_mem]
    | rw [Die.modPort_mem]
    | rw [Die.modCore_mem]
    | rw [Die.modCluster_mem]
    | rw [Die.modGroup_mem]
    | rw [Die.modNode_mem]
    | rw [Die.belayLog_mem]
    | rw [Die.commit_mem]
    | rw [Die.reserve_mem]
    | rw [Die.modQueue_mem]
    | intro _
    | split
    | (simp_all; done)

@[simp] theorem Job.withLayout_ok (j : Job) (s : State) (queue : Bool) (k : Layout → State → State) (h : diesOk s.dies) (hk : ∀ x0 x1, diesOk x1.dies → diesOk (k x0 x1).dies) :
    diesOk (Job.withLayout j s queue k).dies := by
  unfold Job.withLayout
  (try simp +contextual (maxDischargeDepth := 12) [h]) <;> (repeat' (split <;> try simp_all +contextual (maxDischargeDepth := 12)))

@[simp] theorem Job.withRecord_ok (j : Job) (s : State) (k : State → State) (h : diesOk s.dies) (hk : ∀ x0, diesOk x0.dies → diesOk (k x0).dies) :
    diesOk (Job.withRecord j s k).dies := by
  unfold Job.withRecord
  (try simp +contextual (maxDischargeDepth := 12) [h]) <;> (repeat' (split <;> try simp_all +contextual (maxDischargeDepth := 12)))

@[simp] theorem copyWord_ok (drain : Bool) (j : Job) (s : State) (h : diesOk s.dies) :
    diesOk (copyWord drain j s).dies := by
  unfold copyWord
  (try simp +contextual (maxDischargeDepth := 12) [h]) <;> (repeat' (split <;> try simp_all +contextual (maxDischargeDepth := 12)))

@[simp] theorem queueCopyWord_ok (drain : Bool) (j : Job) (s : State) (h : diesOk s.dies) :
    diesOk (queueCopyWord drain j s).dies := by
  unfold queueCopyWord
  (try simp +contextual (maxDischargeDepth := 12) [h]) <;> (repeat' (split <;> try simp_all +contextual (maxDischargeDepth := 12)))

@[simp] theorem srelWord_ok (j : Job) (s : State) (h : diesOk s.dies) :
    diesOk (srelWord j s).dies := by
  unfold srelWord
  (try simp +contextual (maxDischargeDepth := 12) [h]) <;> (repeat' (split <;> try simp_all +contextual (maxDischargeDepth := 12)))

@[simp] theorem sjoinWord_ok (j : Job) (s : State) (h : diesOk s.dies) :
    diesOk (sjoinWord j s).dies := by
  unfold sjoinWord
  try simp only
  repeat' first
    | with_reducible assumption
    | with_reducible rfl
    | with_reducible apply Job.pass_ok
    | with_reducible apply Job.fault_ok
    | with_reducible apply State.pump_ok
    | with_reducible apply modify_ok
    | with_reducible apply State.modDie_ok
    | with_reducible apply State.modGroup_ok
    | with_reducible apply foldl_ok
    | with_reducible apply foldl_fst_ok
    | with_reducible apply foldl_snd_ok
    | with_reducible apply foldl_wf
    | with_reducible apply die_wf
    | rw [State.draw_dies]
    | rw [State.newId_dies]
    | rw [Die.modSched_mem]
    | rw [Die.modPort_mem]
    | rw [Die.modCore_mem]
    | rw [Die.modCluster_mem]
    | rw [Die.modGroup_mem]
    | rw [Die.modNode_mem]
    | rw [Die.belayLog_mem]
    | rw [Die.commit_mem]
    | rw [Die.reserve_mem]
    | rw [Die.modQueue_mem]
    | intro _
    | split
    | (simp_all; done)

@[simp] theorem swaitWord_ok (count : Job → Nat) (j : Job) (s : State) (h : diesOk s.dies) :
    diesOk (swaitWord count j s).dies := by
  unfold swaitWord
  (try simp +contextual (maxDischargeDepth := 12) [h]) <;> (repeat' (split <;> try simp_all +contextual (maxDischargeDepth := 12)))

@[simp] theorem State.checkRow_ok (s : State) (d core pn : Nat) (ext : ExtTable) (acc : Acc) (va n : Nat) (pages : List Nat) (spots : List Spot) (h : diesOk s.dies) :
    diesOk (State.checkRow s d core pn ext acc va n pages spots).2.dies := by
  induction pages generalizing s spots with
  | nil =>
    first | exact h | (unfold State.checkRow; simpa using h)
  | cons p rest ih =>
    unfold State.checkRow
    try simp only
    repeat' first
      | with_reducible assumption
      | with_reducible rfl
      | with_reducible apply State.checkAccess_ok
      | with_reducible apply ih
      | with_reducible apply modify_ok
      | with_reducible apply State.modDie_ok
      | with_reducible apply State.modGroup_ok
      | with_reducible apply foldl_ok
      | with_reducible apply foldl_fst_ok
      | with_reducible apply foldl_snd_ok
      | with_reducible apply foldl_wf
      | with_reducible apply die_wf
      | rw [State.draw_dies]
      | rw [State.newId_dies]
      | rw [Die.modSched_mem]
      | rw [Die.modPort_mem]
      | rw [Die.modCore_mem]
      | rw [Die.modCluster_mem]
      | rw [Die.modGroup_mem]
      | rw [Die.modNode_mem]
      | rw [Die.belayLog_mem]
      | rw [Die.commit_mem]
      | rw [Die.reserve_mem]
      | rw [Die.modQueue_mem]
      | intro _
      | split
      | (simp_all; done)

@[simp] theorem State.writeMarked_ok (s : State) (q : Asking) (cells : List (Spot × Byte × Bool)) (h : diesOk s.dies) :
    diesOk (State.writeMarked s q cells).dies := by
  unfold State.writeMarked
  (try simp +contextual (maxDischargeDepth := 12) [h]) <;> (repeat' (split <;> try simp_all +contextual (maxDischargeDepth := 12)))

@[simp] theorem State.performRow_ok (s : State) (d core : Nat) (c : Copy) (m : Nat) (h : diesOk s.dies) :
    diesOk (State.performRow s d core c m).dies := by
  unfold State.performRow
  (try simp +contextual (maxDischargeDepth := 12) [h]) <;> (repeat' (split <;> try simp_all +contextual (maxDischargeDepth := 12)))

@[simp] theorem State.rowStep_ok (s : State) (d core copy row : Nat) (kind : CopyKind) (h : diesOk s.dies) :
    diesOk (State.rowStep s d core copy row kind).dies := by
  unfold State.rowStep
  (try simp +contextual (maxDischargeDepth := 12) [h]) <;> (repeat' (split <;> try simp_all +contextual (maxDischargeDepth := 12)))

@[simp] theorem State.streamRefused_ok (s : State) (d core copy st : Nat) (h : diesOk s.dies) :
    diesOk (State.streamRefused s d core copy st).dies := by
  unfold State.streamRefused
  (try simp +contextual (maxDischargeDepth := 12) [h]) <;> (repeat' (split <;> try simp_all +contextual (maxDischargeDepth := 12)))

@[simp] theorem State.streamAsk_ok (s : State) (d core : Nat) (c : Copy) (g : Group) (h : diesOk s.dies) :
    diesOk (State.streamAsk s d core c g).dies := by
  unfold State.streamAsk
  try simp only
  repeat' first
    | with_reducible assumption
    | with_reducible rfl
    | with_reducible apply State.request_ok
    | with_reducible apply State.nameFor_ok
    | with_reducible apply State.pump_ok
    | with_reducible apply State.streamRefused_ok
    | with_reducible apply modify_ok
    | with_reducible apply State.modDie_ok
    | with_reducible apply State.modGroup_ok
    | with_reducible apply foldl_ok
    | with_reducible apply foldl_fst_ok
    | with_reducible apply foldl_snd_ok
    | with_reducible apply foldl_wf
    | with_reducible apply die_wf
    | rw [State.draw_dies]
    | rw [State.newId_dies]
    | rw [Die.modSched_mem]
    | rw [Die.modPort_mem]
    | rw [Die.modCore_mem]
    | rw [Die.modCluster_mem]
    | rw [Die.modGroup_mem]
    | rw [Die.modNode_mem]
    | rw [Die.belayLog_mem]
    | rw [Die.commit_mem]
    | rw [Die.reserve_mem]
    | rw [Die.modQueue_mem]
    | intro _
    | split
    | (simp_all; done)

@[simp] theorem State.streamDelivered_ok (s : State) (d core copy slot : Nat) (bytes : List Byte) (bad : List Nat) (h : diesOk s.dies) :
    diesOk (State.streamDelivered s d core copy slot bytes bad).dies := by
  unfold State.streamDelivered
  try simp only
  repeat' first
    | with_reducible assumption
    | with_reducible rfl
    | with_reducible apply State.delivered_ok
    | with_reducible apply State.closeStream_ok
    | with_reducible apply State.pump_ok
    | with_reducible apply modify_ok
    | with_reducible apply State.modDie_ok
    | with_reducible apply State.modGroup_ok
    | with_reducible apply foldl_ok
    | with_reducible apply foldl_fst_ok
    | with_reducible apply foldl_snd_ok
    | with_reducible apply foldl_wf
    | with_reducible apply die_wf
    | rw [State.draw_dies]
    | rw [State.newId_dies]
    | rw [Die.modSched_mem]
    | rw [Die.modPort_mem]
    | rw [Die.modCore_mem]
    | rw [Die.modCluster_mem]
    | rw [Die.modGroup_mem]
    | rw [Die.modNode_mem]
    | rw [Die.belayLog_mem]
    | rw [Die.commit_mem]
    | rw [Die.reserve_mem]
    | rw [Die.modQueue_mem]
    | intro _
    | split
    | (simp_all; done)

@[simp] theorem State.withdrawStreams_ok (s : State) (d gid : Nat) (h : diesOk s.dies) :
    diesOk (State.withdrawStreams s d gid).dies := by
  unfold State.withdrawStreams
  try simp only
  repeat' first
    | with_reducible assumption
    | with_reducible rfl
    | with_reducible apply State.withdraw_ok
    | with_reducible apply modify_ok
    | with_reducible apply State.modDie_ok
    | with_reducible apply State.modGroup_ok
    | with_reducible apply foldl_ok
    | with_reducible apply foldl_fst_ok
    | with_reducible apply foldl_snd_ok
    | with_reducible apply foldl_wf
    | with_reducible apply die_wf
    | rw [State.draw_dies]
    | rw [State.newId_dies]
    | rw [Die.modSched_mem]
    | rw [Die.modPort_mem]
    | rw [Die.modCore_mem]
    | rw [Die.modCluster_mem]
    | rw [Die.modGroup_mem]
    | rw [Die.modNode_mem]
    | rw [Die.belayLog_mem]
    | rw [Die.commit_mem]
    | rw [Die.reserve_mem]
    | rw [Die.modQueue_mem]
    | intro _
    | split
    | (simp_all; done)

@[simp] theorem State.drainEnd_ok (s : State) (d core copy st : Nat) (h : diesOk s.dies) :
    diesOk (State.drainEnd s d core copy st).dies := by
  unfold State.drainEnd
  try simp only
  repeat' first
    | with_reducible assumption
    | with_reducible rfl
    | with_reducible apply State.pump_ok
    | with_reducible apply modify_ok
    | with_reducible apply State.modDie_ok
    | with_reducible apply State.modGroup_ok
    | with_reducible apply foldl_ok
    | with_reducible apply foldl_fst_ok
    | with_reducible apply foldl_snd_ok
    | with_reducible apply foldl_wf
    | with_reducible apply die_wf
    | rw [State.draw_dies]
    | rw [State.newId_dies]
    | rw [Die.modSched_mem]
    | rw [Die.modPort_mem]
    | rw [Die.modCore_mem]
    | rw [Die.modCluster_mem]
    | rw [Die.modGroup_mem]
    | rw [Die.modNode_mem]
    | rw [Die.belayLog_mem]
    | rw [Die.commit_mem]
    | rw [Die.reserve_mem]
    | rw [Die.modQueue_mem]
    | intro _
    | split
    | (simp_all; done)

@[simp] theorem State.drainReserve_ok (s : State) (d core : Nat) (c : Copy) (h : diesOk s.dies) :
    diesOk (State.drainReserve s d core c).dies := by
  unfold State.drainReserve
  try simp only
  repeat' first
    | with_reducible assumption
    | with_reducible rfl
    | with_reducible apply State.request_ok
    | with_reducible apply State.nameFor_ok
    | with_reducible apply State.drainEnd_ok
    | with_reducible apply modify_ok
    | with_reducible apply State.modDie_ok
    | with_reducible apply State.modGroup_ok
    | with_reducible apply foldl_ok
    | with_reducible apply foldl_fst_ok
    | with_reducible apply foldl_snd_ok
    | with_reducible apply foldl_wf
    | with_reducible apply die_wf
    | rw [State.draw_dies]
    | rw [State.newId_dies]
    | rw [Die.modSched_mem]
    | rw [Die.modPort_mem]
    | rw [Die.modCore_mem]
    | rw [Die.modCluster_mem]
    | rw [Die.modGroup_mem]
    | rw [Die.modNode_mem]
    | rw [Die.belayLog_mem]
    | rw [Die.commit_mem]
    | rw [Die.reserve_mem]
    | rw [Die.modQueue_mem]
    | intro _
    | split
    | (simp_all; done)

@[simp] theorem State.drainPut_ok (s : State) (d core copy : Nat) (m : Msg) (h : diesOk s.dies) :
    diesOk (State.drainPut s d core copy m).dies := by
  unfold State.drainPut
  (try simp +contextual (maxDischargeDepth := 12) [h]) <;> (repeat' (split <;> try simp_all +contextual (maxDischargeDepth := 12)))

@[simp] theorem State.pumpCore_ok (s : State) (d core : Nat) (h : diesOk s.dies) :
    diesOk (State.pumpCore s d core).dies := by
  unfold State.pumpCore
  try simp only
  repeat' first
    | with_reducible assumption
    | with_reducible rfl
    | with_reducible apply State.pump_ok
    | with_reducible apply State.drainPut_ok
    | with_reducible apply modify_ok
    | with_reducible apply State.modDie_ok
    | with_reducible apply State.modGroup_ok
    | with_reducible apply foldl_ok
    | with_reducible apply foldl_fst_ok
    | with_reducible apply foldl_snd_ok
    | with_reducible apply foldl_wf
    | with_reducible apply die_wf
    | rw [State.draw_dies]
    | rw [State.newId_dies]
    | rw [Die.modSched_mem]
    | rw [Die.modPort_mem]
    | rw [Die.modCore_mem]
    | rw [Die.modCluster_mem]
    | rw [Die.modGroup_mem]
    | rw [Die.modNode_mem]
    | rw [Die.belayLog_mem]
    | rw [Die.commit_mem]
    | rw [Die.reserve_mem]
    | rw [Die.modQueue_mem]
    | intro _
    | split
    | (simp_all; done)

@[simp] theorem State.pumpDie_ok (s : State) (d : Nat) (h : diesOk s.dies) :
    diesOk (State.pumpDie s d).dies := by
  unfold State.pumpDie
  (try simp +contextual (maxDischargeDepth := 12) [h]) <;> (repeat' (split <;> try simp_all +contextual (maxDischargeDepth := 12)))

@[simp] theorem State.send_ok (s : State) (x : Sent) (h : diesOk s.dies) :
    diesOk (State.send s x).dies := by
  unfold State.send
  (try simp +contextual (maxDischargeDepth := 12) [h]) <;> (repeat' (split <;> try simp_all +contextual (maxDischargeDepth := 12)))

@[simp] theorem State.reply_ok (s : State) (r : Reply) (status : Nat) (payload : List Byte) (h : diesOk s.dies) :
    diesOk (State.reply s r status payload).dies := by
  unfold State.reply
  (try simp +contextual (maxDischargeDepth := 12) [h]) <;> (repeat' (split <;> try simp_all +contextual (maxDischargeDepth := 12)))

@[simp] theorem State.modConn_ok (s : State) (index : Nat) (f : Conn → Conn) (h : diesOk s.dies) :
    diesOk (State.modConn s index f).dies := by
  unfold State.modConn
  (try simp +contextual (maxDischargeDepth := 12) [h]) <;> (repeat' (split <;> try simp_all +contextual (maxDischargeDepth := 12)))

@[simp] theorem State.sendOn_ok (s : State) (c : Conn) (type seq : Nat) (els : List (List Byte)) (h : diesOk s.dies) :
    diesOk (State.sendOn s c type seq els).dies := by
  unfold State.sendOn
  (try simp +contextual (maxDischargeDepth := 12) [h]) <;> (repeat' (split <;> try simp_all +contextual (maxDischargeDepth := 12)))

@[simp] theorem State.sendAck_ok (s : State) (c : Conn) (h : diesOk s.dies) :
    diesOk (State.sendAck s c).dies := by
  unfold State.sendAck
  (try simp +contextual (maxDischargeDepth := 12) [h]) <;> (repeat' (split <;> try simp_all +contextual (maxDischargeDepth := 12)))

/-- Reply elements reserved. -/
@[simp] theorem State.reserveReplies_ok (s : State) (c : Conn) (n : Nat) (h : diesOk s.dies) :
    ∀ r, State.reserveReplies s c n = some r → diesOk r.2.dies := by
  unfold State.reserveReplies
  simp only
  have key : ∀ (f : Option (List Nat × State) → Nat → Option (List Nat × State))
      (_ : ∀ o a, (∀ r, o = some r → diesOk r.2.dies) → ∀ r, f o a = some r → diesOk r.2.dies)
      (l : List Nat) (o : Option (List Nat × State)), (∀ r, o = some r → diesOk r.2.dies) →
      ∀ r, l.foldl f o = some r → diesOk r.2.dies := by
    intro f hf l
    induction l with
    | nil => exact fun o ho => ho
    | cons a l ih => exact fun o ho => ih _ (hf o a ho)
  refine key _ (fun o a ho r hr => ?_) _ _ fun r hr => by cases hr; exact h
  cases o with
  | none => cases hr
  | some p =>
    obtain ⟨ts, s⟩ := p
    have hs := ho _ rfl
    simp only at hr
    split at hr
    · cases hr
      exact State.modDie_ok _ _ _ hs fun x _ => by rw [Die.reserve_mem]; exact die_wf _ _ hs
    · cases hr

@[simp] theorem State.withReplies_ok (s : State) (c : Conn) (service : Bool) (els : List (List Byte)) (h : diesOk s.dies) :
    ∀ r, State.withReplies s c service els = some r → diesOk r.2.dies := by
  intro r hr
  unfold State.withReplies at hr
  split at hr
  · cases hr; exact h
  · rw [Option.map_eq_some_iff] at hr
    obtain ⟨p, hp, rfl⟩ := hr
    exact State.reserveReplies_ok _ _ _ h _ hp

@[simp] theorem State.acceptData_ok (s : State) (c : Conn) (i : Incoming) (h : diesOk s.dies) :
    diesOk (State.acceptData s c i).dies := by
  unfold State.acceptData
  (try simp +contextual (maxDischargeDepth := 12) [h]) <;> (repeat' (split <;> try simp_all +contextual (maxDischargeDepth := 12)))

@[simp] theorem State.openBytes_ok (s : State) (t : Ticket) (h : diesOk s.dies) :
    diesOk (State.openBytes s t).2.dies := by
  unfold State.openBytes
  (try simp +contextual (maxDischargeDepth := 12) [h]) <;> (repeat' (split <;> try simp_all +contextual (maxDischargeDepth := 12)))

@[simp] theorem State.freePn_ok (s : State) (h : diesOk s.dies) :
    diesOk (State.freePn s).2.dies := by
  unfold State.freePn
  (try simp +contextual (maxDischargeDepth := 12) [h]) <;> (repeat' (split <;> try simp_all +contextual (maxDischargeDepth := 12)))

@[simp] theorem State.dropMsg_ok (s : State) (d k : Nat) (h : diesOk s.dies) :
    diesOk (State.dropMsg s d k).dies := by
  unfold State.dropMsg
  (try simp +contextual (maxDischargeDepth := 12) [h]) <;> (repeat' (split <;> try simp_all +contextual (maxDischargeDepth := 12)))

@[simp] theorem State.current_ok (s : State) (d : Nat) (m : Msg) (k : State → State) (h : diesOk s.dies) (hk : ∀ x0, diesOk x0.dies → diesOk (k x0).dies) :
    diesOk (State.current s d m k).dies := by
  unfold State.current
  (try simp +contextual (maxDischargeDepth := 12) [h]) <;> (repeat' (split <;> try simp_all +contextual (maxDischargeDepth := 12)))

@[simp] theorem State.takeResv_ok (s : State) (d : Nat) (m : Msg) (h : diesOk s.dies) :
    diesOk (State.takeResv s d m).dies := by
  unfold State.takeResv
  try simp only
  repeat' first
    | with_reducible assumption
    | with_reducible rfl
    | with_reducible apply State.answer_ok
    | with_reducible apply State.stat_ok
    | with_reducible apply State.current_ok
    | with_reducible apply modify_ok
    | with_reducible apply State.modDie_ok
    | with_reducible apply State.modGroup_ok
    | with_reducible apply foldl_ok
    | with_reducible apply foldl_fst_ok
    | with_reducible apply foldl_snd_ok
    | with_reducible apply foldl_wf
    | with_reducible apply die_wf
    | rw [State.draw_dies]
    | rw [State.newId_dies]
    | rw [Die.modSched_mem]
    | rw [Die.modPort_mem]
    | rw [Die.modCore_mem]
    | rw [Die.modCluster_mem]
    | rw [Die.modGroup_mem]
    | rw [Die.modNode_mem]
    | rw [Die.belayLog_mem]
    | rw [Die.commit_mem]
    | rw [Die.reserve_mem]
    | rw [Die.modQueue_mem]
    | intro _
    | split
    | (simp_all; done)

@[simp] theorem State.statLogged_ok (s : State) (d : Nat) (m : Msg) (st : Nat) (h : diesOk s.dies) :
    diesOk (State.statLogged s d m st).dies := by
  unfold State.statLogged
  (try simp +contextual (maxDischargeDepth := 12) [h]) <;> (repeat' (split <;> try simp_all +contextual (maxDischargeDepth := 12)))

@[simp] theorem State.takePut_ok (s : State) (d : Nat) (m : Msg) (h : diesOk s.dies) :
    diesOk (State.takePut s d m).dies := by
  unfold State.takePut
  try simp only
  repeat' first
    | with_reducible assumption
    | with_reducible rfl
    | with_reducible apply State.stat_ok
    | with_reducible apply State.current_ok
    | with_reducible apply State.statLogged_ok
    | with_reducible apply modify_ok
    | with_reducible apply State.modDie_ok
    | with_reducible apply State.modGroup_ok
    | with_reducible apply foldl_ok
    | with_reducible apply foldl_fst_ok
    | with_reducible apply foldl_snd_ok
    | with_reducible apply foldl_wf
    | with_reducible apply die_wf
    | rw [State.draw_dies]
    | rw [State.newId_dies]
    | rw [Die.modSched_mem]
    | rw [Die.modPort_mem]
    | rw [Die.modCore_mem]
    | rw [Die.modCluster_mem]
    | rw [Die.modGroup_mem]
    | rw [Die.modNode_mem]
    | rw [Die.belayLog_mem]
    | rw [Die.commit_mem]
    | rw [Die.reserve_mem]
    | rw [Die.modQueue_mem]
    | intro _
    | split
    | (simp_all; done)

@[simp] theorem State.serveLogged_ok (s : State) (d idx : Nat) (t : Ticket) (w : Waiter) (h : diesOk s.dies) :
    diesOk (State.serveLogged s d idx t w).dies := by
  unfold State.serveLogged
  (try simp +contextual (maxDischargeDepth := 12) [h]) <;> (repeat' (split <;> try simp_all +contextual (maxDischargeDepth := 12)))

@[simp] theorem State.returned_ok (s : State) (c : CmdRef) (status : Nat) (payload : List Byte) (h : diesOk s.dies) :
    diesOk (State.returned s c status payload).dies := by
  unfold State.returned
  (try simp +contextual (maxDischargeDepth := 12) [h]) <;> (repeat' (split <;> try simp_all +contextual (maxDischargeDepth := 12)))

@[simp] theorem State.gathered_ok (s : State) (d : Nat) (g : Gather) (h : diesOk s.dies) :
    diesOk (State.gathered s d g).dies := by
  unfold State.gathered
  (try simp +contextual (maxDischargeDepth := 12) [h]) <;> (repeat' (split <;> try simp_all +contextual (maxDischargeDepth := 12)))

@[simp] theorem State.coreTake_ok (s : State) (d idx : Nat) (t : Ticket) (h : diesOk s.dies) :
    diesOk (State.coreTake s d idx t).dies := by
  unfold State.coreTake
  try simp only
  repeat' first
    | with_reducible assumption
    | with_reducible rfl
    | with_reducible apply State.gathered_ok
    | with_reducible apply State.gather_ok
    | with_reducible apply modify_ok
    | with_reducible apply State.modDie_ok
    | with_reducible apply State.modGroup_ok
    | with_reducible apply foldl_ok
    | with_reducible apply foldl_fst_ok
    | with_reducible apply foldl_snd_ok
    | with_reducible apply foldl_wf
    | with_reducible apply die_wf
    | rw [State.draw_dies]
    | rw [State.newId_dies]
    | rw [Die.modSched_mem]
    | rw [Die.modPort_mem]
    | rw [Die.modCore_mem]
    | rw [Die.modCluster_mem]
    | rw [Die.modGroup_mem]
    | rw [Die.modNode_mem]
    | rw [Die.belayLog_mem]
    | rw [Die.commit_mem]
    | rw [Die.reserve_mem]
    | rw [Die.modQueue_mem]
    | intro _
    | split
    | (simp_all; done)

@[simp] theorem State.assign_ok (s : State) (d : Nat) (q : Queue) (h : diesOk s.dies) :
    diesOk (State.assign s d q).dies := by
  unfold State.assign
  try simp only
  repeat' first
    | with_reducible assumption
    | with_reducible rfl
    | with_reducible apply State.serveLogged_ok
    | with_reducible apply modify_ok
    | with_reducible apply State.modDie_ok
    | with_reducible apply State.modGroup_ok
    | with_reducible apply foldl_ok
    | with_reducible apply foldl_fst_ok
    | with_reducible apply foldl_snd_ok
    | with_reducible apply foldl_wf
    | with_reducible apply die_wf
    | rw [State.draw_dies]
    | rw [State.newId_dies]
    | rw [Die.modSched_mem]
    | rw [Die.modPort_mem]
    | rw [Die.modCore_mem]
    | rw [Die.modCluster_mem]
    | rw [Die.modGroup_mem]
    | rw [Die.modNode_mem]
    | rw [Die.belayLog_mem]
    | rw [Die.commit_mem]
    | rw [Die.reserve_mem]
    | rw [Die.modQueue_mem]
    | intro _
    | split
    | (simp_all; done)

@[simp] theorem State.serveWaiters_ok (s : State) (d fuel : Nat) (h : diesOk s.dies) :
    diesOk (State.serveWaiters s d fuel).dies := by
  induction fuel generalizing s with
  | zero => exact h
  | succ fuel ih =>
    unfold State.serveWaiters
    split
    · exact h
    · exact ih _ (State.assign_ok _ _ _ h)

@[simp] theorem State.serveAll_ok (s : State) (h : diesOk s.dies) :
    diesOk (State.serveAll s).dies := by
  unfold State.serveAll
  (try simp +contextual (maxDischargeDepth := 12) [h]) <;> (repeat' (split <;> try simp_all +contextual (maxDischargeDepth := 12)))

@[simp] theorem State.takeNow_ok (s : State) (d k : Nat) (m : Msg) (q : Queue) (h : diesOk s.dies) :
    diesOk (State.takeNow s d k m q).dies := by
  unfold State.takeNow
  (try simp +contextual (maxDischargeDepth := 12) [h]) <;> (repeat' (split <;> try simp_all +contextual (maxDischargeDepth := 12)))

@[simp] theorem State.takeDeq_ok (s : State) (d k : Nat) (m : Msg) (h : diesOk s.dies) :
    diesOk (State.takeDeq s d k m).dies := by
  unfold State.takeDeq
  (try simp +contextual (maxDischargeDepth := 12) [h]) <;> (repeat' (split <;> try simp_all +contextual (maxDischargeDepth := 12)))

@[simp] theorem State.cancelWaiter_ok (s : State) (d : Nat) (m : Msg) (q : Queue) (h : diesOk s.dies) :
    diesOk (State.cancelWaiter s d m q).dies := by
  unfold State.cancelWaiter
  try simp only
  repeat' first
    | with_reducible assumption
    | with_reducible rfl
    | with_reducible apply State.stat_ok
    | with_reducible apply modify_ok
    | with_reducible apply State.modDie_ok
    | with_reducible apply State.modGroup_ok
    | with_reducible apply foldl_ok
    | with_reducible apply foldl_fst_ok
    | with_reducible apply foldl_snd_ok
    | with_reducible apply foldl_wf
    | with_reducible apply die_wf
    | rw [State.draw_dies]
    | rw [State.newId_dies]
    | rw [Die.modSched_mem]
    | rw [Die.modPort_mem]
    | rw [Die.modCore_mem]
    | rw [Die.modCluster_mem]
    | rw [Die.modGroup_mem]
    | rw [Die.modNode_mem]
    | rw [Die.belayLog_mem]
    | rw [Die.commit_mem]
    | rw [Die.reserve_mem]
    | rw [Die.modQueue_mem]
    | intro _
    | split
    | (simp_all; done)

@[simp] theorem State.takeCancel_ok (s : State) (d : Nat) (m : Msg) (h : diesOk s.dies) :
    diesOk (State.takeCancel s d m).dies := by
  unfold State.takeCancel
  try simp only
  repeat' first
    | with_reducible assumption
    | with_reducible rfl
    | with_reducible apply State.stat_ok
    | with_reducible apply State.current_ok
    | with_reducible apply State.cancelWaiter_ok
    | with_reducible apply modify_ok
    | with_reducible apply State.modDie_ok
    | with_reducible apply State.modGroup_ok
    | with_reducible apply foldl_ok
    | with_reducible apply foldl_fst_ok
    | with_reducible apply foldl_snd_ok
    | with_reducible apply foldl_wf
    | with_reducible apply die_wf
    | rw [State.draw_dies]
    | rw [State.newId_dies]
    | rw [Die.modSched_mem]
    | rw [Die.modPort_mem]
    | rw [Die.modCore_mem]
    | rw [Die.modCluster_mem]
    | rw [Die.modGroup_mem]
    | rw [Die.modNode_mem]
    | rw [Die.belayLog_mem]
    | rw [Die.commit_mem]
    | rw [Die.reserve_mem]
    | rw [Die.modQueue_mem]
    | intro _
    | split
    | (simp_all; done)

@[simp] theorem State.takeRput_ok (s : State) (d : Nat) (m : Msg) (h : diesOk s.dies) :
    diesOk (State.takeRput s d m).dies := by
  unfold State.takeRput
  try simp only
  repeat' first
    | with_reducible assumption
    | with_reducible rfl
    | with_reducible apply modify_ok
    | with_reducible apply State.modDie_ok
    | with_reducible apply State.modGroup_ok
    | with_reducible apply foldl_ok
    | with_reducible apply foldl_fst_ok
    | with_reducible apply foldl_snd_ok
    | with_reducible apply foldl_wf
    | with_reducible apply die_wf
    | rw [State.draw_dies]
    | rw [State.newId_dies]
    | rw [Die.modSched_mem]
    | rw [Die.modPort_mem]
    | rw [Die.modCore_mem]
    | rw [Die.modCluster_mem]
    | rw [Die.modGroup_mem]
    | rw [Die.modNode_mem]
    | rw [Die.belayLog_mem]
    | rw [Die.commit_mem]
    | rw [Die.reserve_mem]
    | rw [Die.modQueue_mem]
    | intro _
    | split
    | (simp_all; done)

@[simp] theorem State.endRequest_ok (s : State) (d : Nat) (r : Request) (h : diesOk s.dies) :
    diesOk (State.endRequest s d r).dies := by
  unfold State.endRequest
  (try simp +contextual (maxDischargeDepth := 12) [h]) <;> (repeat' (split <;> try simp_all +contextual (maxDischargeDepth := 12)))

@[simp] theorem State.outAnswered_ok (s : State) (d core id : Nat) (m : Msg) (h : diesOk s.dies) :
    diesOk (State.outAnswered s d core id m).dies := by
  unfold State.outAnswered
  (try simp +contextual (maxDischargeDepth := 12) [h]) <;> (repeat' (split <;> try simp_all +contextual (maxDischargeDepth := 12)))

@[simp] theorem State.drainAnswered_ok (s : State) (d core copy : Nat) (r : Request) (m : Msg) (h : diesOk s.dies) :
    diesOk (State.drainAnswered s d core copy r m).dies := by
  unfold State.drainAnswered
  try simp only
  repeat' first
    | with_reducible assumption
    | with_reducible rfl
    | with_reducible apply State.drainEnd_ok
    | with_reducible apply State.drainPut_ok
    | with_reducible apply modify_ok
    | with_reducible apply State.modDie_ok
    | with_reducible apply State.modGroup_ok
    | with_reducible apply foldl_ok
    | with_reducible apply foldl_fst_ok
    | with_reducible apply foldl_snd_ok
    | with_reducible apply foldl_wf
    | with_reducible apply die_wf
    | rw [State.draw_dies]
    | rw [State.newId_dies]
    | rw [Die.modSched_mem]
    | rw [Die.modPort_mem]
    | rw [Die.modCore_mem]
    | rw [Die.modCluster_mem]
    | rw [Die.modGroup_mem]
    | rw [Die.modNode_mem]
    | rw [Die.belayLog_mem]
    | rw [Die.commit_mem]
    | rw [Die.reserve_mem]
    | rw [Die.modQueue_mem]
    | intro _
    | split
    | (simp_all; done)

@[simp] theorem State.launchPut_ok (s : State) (d core : Nat) (l : PendLaunch) (ticket : Nat) (m : Msg) (h : diesOk s.dies) :
    diesOk (State.launchPut s d core l ticket m).dies := by
  unfold State.launchPut
  (try simp +contextual (maxDischargeDepth := 12) [h]) <;> (repeat' (split <;> try simp_all +contextual (maxDischargeDepth := 12)))

@[simp] theorem State.launchAnswered_ok (s : State) (d core id : Nat) (r : Request) (m : Msg) (h : diesOk s.dies) :
    diesOk (State.launchAnswered s d core id r m).dies := by
  unfold State.launchAnswered
  try simp only
  repeat' first
    | with_reducible assumption
    | with_reducible rfl
    | with_reducible apply State.endLaunch_ok
    | with_reducible apply State.launchPut_ok
    | with_reducible apply modify_ok
    | with_reducible apply State.modDie_ok
    | with_reducible apply State.modGroup_ok
    | with_reducible apply foldl_ok
    | with_reducible apply foldl_fst_ok
    | with_reducible apply foldl_snd_ok
    | with_reducible apply foldl_wf
    | with_reducible apply die_wf
    | rw [State.draw_dies]
    | rw [State.newId_dies]
    | rw [Die.modSched_mem]
    | rw [Die.modPort_mem]
    | rw [Die.modCore_mem]
    | rw [Die.modCluster_mem]
    | rw [Die.modGroup_mem]
    | rw [Die.modNode_mem]
    | rw [Die.belayLog_mem]
    | rw [Die.commit_mem]
    | rw [Die.reserve_mem]
    | rw [Die.modQueue_mem]
    | intro _
    | split
    | (simp_all; done)

@[simp] theorem State.coreReserve_ok (s : State) (d dst : Nat) (a : Asker) (bs : List Byte) (h : diesOk s.dies) :
    diesOk (State.coreReserve s d dst a bs).dies := by
  unfold State.coreReserve
  (try simp +contextual (maxDischargeDepth := 12) [h]) <;> (repeat' (split <;> try simp_all +contextual (maxDischargeDepth := 12)))

@[simp] theorem State.corePuts_ok (s : State) (d dst first : Nat) (bs : List Byte) (h : diesOk s.dies) :
    diesOk (State.corePuts s d dst first bs).dies := by
  unfold State.corePuts
  (try simp +contextual (maxDischargeDepth := 12) [h]) <;> (repeat' (split <;> try simp_all +contextual (maxDischargeDepth := 12)))

@[simp] theorem State.modRelays_ok (s : State) (f : List Relaying → List Relaying) (h : diesOk s.dies) :
    diesOk (State.modRelays s f).dies := by
  unfold State.modRelays
  (try simp +contextual (maxDischargeDepth := 12) [h]) <;> (repeat' (split <;> try simp_all +contextual (maxDischargeDepth := 12)))

@[simp] theorem State.relayAnswered_ok (s : State) (die : Nat) (r : Request) (m : Msg) (h : diesOk s.dies) :
    diesOk (State.relayAnswered s die r m).dies := by
  unfold State.relayAnswered
  (try simp +contextual (maxDischargeDepth := 12) [h]) <;> (repeat' (split <;> try simp_all +contextual (maxDischargeDepth := 12)))

@[simp] theorem State.replyAnswered_ok (s : State) (d : Nat) (r : Request) (m : Msg) (h : diesOk s.dies) :
    diesOk (State.replyAnswered s d r m).dies := by
  unfold State.replyAnswered
  try simp only
  repeat' first
    | with_reducible assumption
    | with_reducible rfl
    | with_reducible apply State.corePuts_ok
    | with_reducible apply modify_ok
    | with_reducible apply State.modDie_ok
    | with_reducible apply State.modGroup_ok
    | with_reducible apply foldl_ok
    | with_reducible apply foldl_fst_ok
    | with_reducible apply foldl_snd_ok
    | with_reducible apply foldl_wf
    | with_reducible apply die_wf
    | rw [State.draw_dies]
    | rw [State.newId_dies]
    | rw [Die.modSched_mem]
    | rw [Die.modPort_mem]
    | rw [Die.modCore_mem]
    | rw [Die.modCluster_mem]
    | rw [Die.modGroup_mem]
    | rw [Die.modNode_mem]
    | rw [Die.belayLog_mem]
    | rw [Die.commit_mem]
    | rw [Die.reserve_mem]
    | rw [Die.modQueue_mem]
    | intro _
    | split
    | (simp_all; done)

@[simp] theorem State.pumpRelay_ok (s : State) (die : Nat) (h : diesOk s.dies) :
    diesOk (State.pumpRelay s die).dies := by
  unfold State.pumpRelay
  (try simp +contextual (maxDischargeDepth := 12) [h]) <;> (repeat' (split <;> try simp_all +contextual (maxDischargeDepth := 12)))

@[simp] theorem State.pumpReply_ok (s : State) (d : Nat) (h : diesOk s.dies) :
    diesOk (State.pumpReply s d).dies := by
  unfold State.pumpReply
  try simp only
  repeat' first
    | with_reducible assumption
    | with_reducible rfl
    | with_reducible apply State.reply_ok
    | with_reducible apply State.coreReserve_ok
    | with_reducible apply modify_ok
    | with_reducible apply State.modDie_ok
    | with_reducible apply State.modGroup_ok
    | with_reducible apply foldl_ok
    | with_reducible apply foldl_fst_ok
    | with_reducible apply foldl_snd_ok
    | with_reducible apply foldl_wf
    | with_reducible apply die_wf
    | rw [State.draw_dies]
    | rw [State.newId_dies]
    | rw [Die.modSched_mem]
    | rw [Die.modPort_mem]
    | rw [Die.modCore_mem]
    | rw [Die.modCluster_mem]
    | rw [Die.modGroup_mem]
    | rw [Die.modNode_mem]
    | rw [Die.belayLog_mem]
    | rw [Die.commit_mem]
    | rw [Die.reserve_mem]
    | rw [Die.modQueue_mem]
    | intro _
    | split
    | (simp_all; done)

@[simp] theorem State.replyVia_ok (s : State) (d : Nat) (ref : CmdRef) (status : Nat) (payload : List Byte) (h : diesOk s.dies) :
    diesOk (State.replyVia s d ref status payload).dies := by
  unfold State.replyVia
  (try simp +contextual (maxDischargeDepth := 12) [h]) <;> (repeat' (split <;> try simp_all +contextual (maxDischargeDepth := 12)))

@[simp] theorem State.failAwaiting_ok (s : State) (die : Nat) (h : diesOk s.dies) :
    diesOk (State.failAwaiting s die).dies := by
  unfold State.failAwaiting
  (try simp +contextual (maxDischargeDepth := 12) [h]) <;> (repeat' (split <;> try simp_all +contextual (maxDischargeDepth := 12)))

@[simp] theorem State.hostAnswered_ok (s : State) (conn : Nat) (r : Request) (m : Msg) (h : diesOk s.dies) :
    diesOk (State.hostAnswered s conn r m).dies := by
  unfold State.hostAnswered
  extract_lets c0 cancel
  have hc : ∀ t : State, diesOk t.dies → diesOk (cancel t).dies := by
    intro t ht
    simp only [cancel]
    split
    · exact State.request_ok _ _ _ _ ht
    · exact ht
  split
  · exact hc _ h
  · split
    · exact h
    · split
      · exact hc _ h
      · rename_i hr
        have ht := State.withReplies_ok _ _ _ _ h _ hr
        exact State.acceptData_ok _ _ _ (foldl_ok _ (fun s p hs => State.request_ok _ _ _ _ (State.freePn_ok _ hs)) _ _ ht)

@[simp] theorem State.answered_ok (s : State) (d : Nat) (r : Request) (m : Msg) (h : diesOk s.dies) :
    diesOk (State.answered s d r m).dies := by
  unfold State.answered
  (try simp +contextual (maxDischargeDepth := 12) [h]) <;> (repeat' (split <;> try simp_all +contextual (maxDischargeDepth := 12)))

@[simp] theorem State.takeAnswer_ok (s : State) (d : Nat) (m : Msg) (h : diesOk s.dies) :
    diesOk (State.takeAnswer s d m).dies := by
  unfold State.takeAnswer
  try simp only
  repeat' first
    | with_reducible assumption
    | with_reducible rfl
    | with_reducible apply State.stat_ok
    | with_reducible apply State.delivered_ok
    | with_reducible apply State.deliver_ok
    | with_reducible apply State.answered_ok
    | with_reducible apply modify_ok
    | with_reducible apply State.modDie_ok
    | with_reducible apply State.modGroup_ok
    | with_reducible apply foldl_ok
    | with_reducible apply foldl_fst_ok
    | with_reducible apply foldl_snd_ok
    | with_reducible apply foldl_wf
    | with_reducible apply die_wf
    | rw [State.draw_dies]
    | rw [State.newId_dies]
    | rw [Die.modSched_mem]
    | rw [Die.modPort_mem]
    | rw [Die.modCore_mem]
    | rw [Die.modCluster_mem]
    | rw [Die.modGroup_mem]
    | rw [Die.modNode_mem]
    | rw [Die.belayLog_mem]
    | rw [Die.commit_mem]
    | rw [Die.reserve_mem]
    | rw [Die.modQueue_mem]
    | intro _
    | split
    | (simp_all; done)

@[simp] theorem State.failRequests_ok (s : State) (d pkg die : Nat) (h : diesOk s.dies) :
    diesOk (State.failRequests s d pkg die).dies := by
  unfold State.failRequests
  (try simp +contextual (maxDischargeDepth := 12) [h]) <;> (repeat' (split <;> try simp_all +contextual (maxDischargeDepth := 12)))

@[simp] theorem State.loseDie_ok (s : State) (d pkg die : Nat) (h : diesOk s.dies) :
    diesOk (State.loseDie s d pkg die).dies := by
  unfold State.loseDie
  extract_lets s1 s2
  have h1 : diesOk s1.dies := State.modDie_ok _ _ _ h fun x hx => by rw [Die.modPort_mem, Die.loseDie_mem]; exact hx
  have h2 : diesOk s2.dies := State.failRequests_ok _ _ _ _ h1
  split
  · exact State.failAwaiting_ok _ _ h2
  · exact h2

@[simp] theorem State.declareLost_ok (s : State) (d die inc : Nat) (h : diesOk s.dies) :
    diesOk (State.declareLost s d die inc).dies := by
  unfold State.declareLost
  try simp only
  repeat' first
    | with_reducible assumption
    | with_reducible rfl
    | with_reducible apply State.loseDie_ok
    | with_reducible apply modify_ok
    | with_reducible apply State.modDie_ok
    | with_reducible apply State.modGroup_ok
    | with_reducible apply foldl_ok
    | with_reducible apply foldl_fst_ok
    | with_reducible apply foldl_snd_ok
    | with_reducible apply foldl_wf
    | with_reducible apply die_wf
    | rw [State.draw_dies]
    | rw [State.newId_dies]
    | rw [Die.modSched_mem]
    | rw [Die.modPort_mem]
    | rw [Die.modCore_mem]
    | rw [Die.modCluster_mem]
    | rw [Die.modGroup_mem]
    | rw [Die.modNode_mem]
    | rw [Die.belayLog_mem]
    | rw [Die.commit_mem]
    | rw [Die.reserve_mem]
    | rw [Die.modQueue_mem]
    | intro _
    | split
    | (simp_all; done)

@[simp] theorem State.takeIncarn_ok (s : State) (d : Nat) (m : Msg) (h : diesOk s.dies) :
    diesOk (State.takeIncarn s d m).dies := by
  unfold State.takeIncarn
  (try simp +contextual (maxDischargeDepth := 12) [h]) <;> (repeat' (split <;> try simp_all +contextual (maxDischargeDepth := 12)))

@[simp] theorem State.broadcast_ok (s : State) (d kind : Nat) (a0 a1 : Nat) (h : diesOk s.dies) :
    diesOk (State.broadcast s d kind a0 a1).dies := by
  unfold State.broadcast
  (try simp +contextual (maxDischargeDepth := 12) [h]) <;> (repeat' (split <;> try simp_all +contextual (maxDischargeDepth := 12)))

@[simp] theorem State.sendOks_ok (s : State) (d : Nat) (b : BelaySave) (h : diesOk s.dies) :
    diesOk (State.sendOks s d b).dies := by
  unfold State.sendOks
  (try simp +contextual (maxDischargeDepth := 12) [h]) <;> (repeat' (split <;> try simp_all +contextual (maxDischargeDepth := 12)))

@[simp] theorem State.pumpBelay_ok (s : State) (d : Nat) (h : diesOk s.dies) :
    diesOk (State.pumpBelay s d).dies := by
  unfold State.pumpBelay
  try simp only
  repeat' first
    | with_reducible assumption
    | with_reducible rfl
    | with_reducible apply State.request_ok
    | with_reducible apply State.sendOks_ok
    | with_reducible apply modify_ok
    | with_reducible apply State.modDie_ok
    | with_reducible apply State.modGroup_ok
    | with_reducible apply foldl_ok
    | with_reducible apply foldl_fst_ok
    | with_reducible apply foldl_snd_ok
    | with_reducible apply foldl_wf
    | with_reducible apply die_wf
    | rw [State.draw_dies]
    | rw [State.newId_dies]
    | rw [Die.modSched_mem]
    | rw [Die.modPort_mem]
    | rw [Die.modCore_mem]
    | rw [Die.modCluster_mem]
    | rw [Die.modGroup_mem]
    | rw [Die.modNode_mem]
    | rw [Die.belayLog_mem]
    | rw [Die.commit_mem]
    | rw [Die.reserve_mem]
    | rw [Die.modQueue_mem]
    | intro _
    | split
    | (simp_all; done)

@[simp] theorem State.belaySaved_ok (s : State) (d : Nat) (h : diesOk s.dies) :
    diesOk (State.belaySaved s d).dies := by
  unfold State.belaySaved
  try simp only
  repeat' first
    | with_reducible assumption
    | with_reducible rfl
    | with_reducible apply State.sendOks_ok
    | with_reducible apply modify_ok
    | with_reducible apply State.modDie_ok
    | with_reducible apply State.modGroup_ok
    | with_reducible apply foldl_ok
    | with_reducible apply foldl_fst_ok
    | with_reducible apply foldl_snd_ok
    | with_reducible apply foldl_wf
    | with_reducible apply die_wf
    | rw [State.draw_dies]
    | rw [State.newId_dies]
    | rw [Die.modSched_mem]
    | rw [Die.modPort_mem]
    | rw [Die.modCore_mem]
    | rw [Die.modCluster_mem]
    | rw [Die.modGroup_mem]
    | rw [Die.modNode_mem]
    | rw [Die.belayLog_mem]
    | rw [Die.commit_mem]
    | rw [Die.reserve_mem]
    | rw [Die.modQueue_mem]
    | intro _
    | split
    | (simp_all; done)

@[simp] theorem State.replySvc_ok (s : State) (d : Nat) (v : Svc) (status result : Nat) (data : List Byte) (bad : List Nat) (h : diesOk s.dies) :
    diesOk (State.replySvc s d v status result data bad).dies := by
  unfold State.replySvc
  (try simp +contextual (maxDischargeDepth := 12) [h]) <;> (repeat' (split <;> try simp_all +contextual (maxDischargeDepth := 12)))

@[simp] theorem State.endSvc_ok (s : State) (d : Nat) (v : Svc) (reg : Option Nat) (status result : Nat) (data : List Byte) (bad : List Nat) (h : diesOk s.dies) :
    diesOk (State.endSvc s d v reg status result data bad).dies := by
  unfold State.endSvc
  (try simp +contextual (maxDischargeDepth := 12) [h]) <;> (repeat' (split <;> try simp_all +contextual (maxDischargeDepth := 12)))

@[simp] theorem State.performOn_ok (s : State) (d : Nat) (v : Svc) (reg : Option Nat) (sp : List Spot) (bad : List Nat) (h : diesOk s.dies) :
    diesOk (State.performOn s d v reg sp bad).dies := by
  unfold State.performOn
  (try simp +contextual (maxDischargeDepth := 12) [h]) <;> (repeat' (split <;> try simp_all +contextual (maxDischargeDepth := 12)))

@[simp] theorem State.performSvc_ok (s : State) (d : Nat) (v : Svc) (dom : Word) (prod : Producer) (reg : Option Nat) (bad : List Nat) (h : diesOk s.dies) :
    diesOk (State.performSvc s d v dom prod reg bad).dies := by
  unfold State.performSvc
  try simp only
  repeat' first
    | with_reducible assumption
    | with_reducible rfl
    | with_reducible apply Job.fault_ok
    | with_reducible apply Job.result_ok
    | with_reducible apply State.endSvc_ok
    | with_reducible apply State.performOn_ok
    | with_reducible apply Die.translate_wf
    | with_reducible apply modify_ok
    | with_reducible apply State.modDie_ok
    | with_reducible apply State.modGroup_ok
    | with_reducible apply foldl_ok
    | with_reducible apply foldl_fst_ok
    | with_reducible apply foldl_snd_ok
    | with_reducible apply foldl_wf
    | with_reducible apply die_wf
    | rw [State.draw_dies]
    | rw [State.newId_dies]
    | rw [Die.modSched_mem]
    | rw [Die.modPort_mem]
    | rw [Die.modCore_mem]
    | rw [Die.modCluster_mem]
    | rw [Die.modGroup_mem]
    | rw [Die.modNode_mem]
    | rw [Die.belayLog_mem]
    | rw [Die.commit_mem]
    | rw [Die.reserve_mem]
    | rw [Die.modQueue_mem]
    | intro _
    | split
    | (simp_all; done)

@[simp] theorem State.takeSvc_ok (s : State) (d i : Nat) (t : Ticket) (h : diesOk s.dies) :
    diesOk (State.takeSvc s d i t).dies := by
  unfold State.takeSvc
  (try simp +contextual (maxDischargeDepth := 12) [h]) <;> (repeat' (split <;> try simp_all +contextual (maxDischargeDepth := 12)))

@[simp] theorem State.keepSvc_ok (s : State) (d : Nat) (t : Ticket) (reg : Option Nat) (h : diesOk s.dies) :
    diesOk (State.keepSvc s d t reg).dies := by
  unfold State.keepSvc
  (try simp +contextual (maxDischargeDepth := 12) [h]) <;> (repeat' (split <;> try simp_all +contextual (maxDischargeDepth := 12)))

@[simp] theorem State.serveSvc_ok (s : State) (d i : Nat) (t : Ticket) (h : diesOk s.dies) :
    diesOk (State.serveSvc s d i t).dies := by
  unfold State.serveSvc
  try simp only
  repeat' first
    | with_reducible assumption
    | with_reducible rfl
    | with_reducible apply State.replySvc_ok
    | with_reducible apply State.performSvc_ok
    | with_reducible apply State.takeSvc_ok
    | with_reducible apply State.keepSvc_ok
    | with_reducible apply modify_ok
    | with_reducible apply State.modDie_ok
    | with_reducible apply State.modGroup_ok
    | with_reducible apply foldl_ok
    | with_reducible apply foldl_fst_ok
    | with_reducible apply foldl_snd_ok
    | with_reducible apply foldl_wf
    | with_reducible apply die_wf
    | rw [State.draw_dies]
    | rw [State.newId_dies]
    | rw [Die.modSched_mem]
    | rw [Die.modPort_mem]
    | rw [Die.modCore_mem]
    | rw [Die.modCluster_mem]
    | rw [Die.modGroup_mem]
    | rw [Die.modNode_mem]
    | rw [Die.belayLog_mem]
    | rw [Die.commit_mem]
    | rw [Die.reserve_mem]
    | rw [Die.modQueue_mem]
    | intro _
    | split
    | (simp_all; done)

@[simp] theorem State.decideMigrate_ok (s : State) (d : Nat) (v : Svc) (prod : Producer) (h : diesOk s.dies) :
    diesOk (State.decideMigrate s d v prod).dies := by
  unfold State.decideMigrate
  try simp only
  repeat' first
    | with_reducible assumption
    | with_reducible rfl
    | with_reducible apply Job.result_ok
    | with_reducible apply State.replySvc_ok
    | with_reducible apply State.reply_ok
    | with_reducible apply Die.putEntry_wf
    | with_reducible apply Die.translate_wf
    | with_reducible apply modify_ok
    | with_reducible apply State.modDie_ok
    | with_reducible apply State.modGroup_ok
    | with_reducible apply foldl_ok
    | with_reducible apply foldl_fst_ok
    | with_reducible apply foldl_snd_ok
    | with_reducible apply foldl_wf
    | with_reducible apply die_wf
    | rw [State.draw_dies]
    | rw [State.newId_dies]
    | rw [Die.modSched_mem]
    | rw [Die.modPort_mem]
    | rw [Die.modCore_mem]
    | rw [Die.modCluster_mem]
    | rw [Die.modGroup_mem]
    | rw [Die.modNode_mem]
    | rw [Die.belayLog_mem]
    | rw [Die.commit_mem]
    | rw [Die.reserve_mem]
    | rw [Die.modQueue_mem]
    | intro _
    | split
    | (simp_all; done)

@[simp] theorem State.serveMigrate_ok (s : State) (d i : Nat) (t : Ticket) (h : diesOk s.dies) :
    diesOk (State.serveMigrate s d i t).dies := by
  unfold State.serveMigrate
  try simp only
  repeat' first
    | with_reducible assumption
    | with_reducible rfl
    | with_reducible apply State.replySvc_ok
    | with_reducible apply State.takeSvc_ok
    | with_reducible apply State.keepSvc_ok
    | with_reducible apply State.decideMigrate_ok
    | with_reducible apply State.reply_ok
    | with_reducible apply modify_ok
    | with_reducible apply State.modDie_ok
    | with_reducible apply State.modGroup_ok
    | with_reducible apply foldl_ok
    | with_reducible apply foldl_fst_ok
    | with_reducible apply foldl_snd_ok
    | with_reducible apply foldl_wf
    | with_reducible apply die_wf
    | rw [State.draw_dies]
    | rw [State.newId_dies]
    | rw [Die.modSched_mem]
    | rw [Die.modPort_mem]
    | rw [Die.modCore_mem]
    | rw [Die.modCluster_mem]
    | rw [Die.modGroup_mem]
    | rw [Die.modNode_mem]
    | rw [Die.belayLog_mem]
    | rw [Die.commit_mem]
    | rw [Die.reserve_mem]
    | rw [Die.modQueue_mem]
    | intro _
    | split
    | (simp_all; done)

@[simp] theorem State.sendPage_ok (s : State) (d : Nat) (m : Move) (h : diesOk s.dies) :
    diesOk (State.sendPage s d m).dies := by
  unfold State.sendPage
  try simp only
  repeat' first
    | with_reducible assumption
    | with_reducible rfl
    | with_reducible apply State.request_ok
    | with_reducible apply Die.fetchLines_wf
    | with_reducible apply modify_ok
    | with_reducible apply State.modDie_ok
    | with_reducible apply State.modGroup_ok
    | with_reducible apply foldl_ok
    | with_reducible apply foldl_fst_ok
    | with_reducible apply foldl_snd_ok
    | with_reducible apply foldl_wf
    | with_reducible apply die_wf
    | rw [State.draw_dies]
    | rw [State.newId_dies]
    | rw [Die.modSched_mem]
    | rw [Die.modPort_mem]
    | rw [Die.modCore_mem]
    | rw [Die.modCluster_mem]
    | rw [Die.modGroup_mem]
    | rw [Die.modNode_mem]
    | rw [Die.belayLog_mem]
    | rw [Die.commit_mem]
    | rw [Die.reserve_mem]
    | rw [Die.modQueue_mem]
    | intro _
    | split
    | (simp_all; done)

@[simp] theorem State.placePage_ok (s : State) (d : Nat) (m : Msg) (off : Nat) (bytes : List Byte) (bad : List Nat) (h : diesOk s.dies) :
    diesOk (State.placePage s d m off bytes bad).dies := by
  unfold State.placePage
  (try simp +contextual (maxDischargeDepth := 12) [h]) <;> (repeat' (split <;> try simp_all +contextual (maxDischargeDepth := 12)))

@[simp] theorem State.takePage_ok (s : State) (d : Nat) (m : Msg) (h : diesOk s.dies) :
    diesOk (State.takePage s d m).dies := by
  unfold State.takePage
  (try simp +contextual (maxDischargeDepth := 12) [h]) <;> (repeat' (split <;> try simp_all +contextual (maxDischargeDepth := 12)))

@[simp] theorem State.takePageack_ok (s : State) (d : Nat) (m : Msg) (h : diesOk s.dies) :
    diesOk (State.takePageack s d m).dies := by
  unfold State.takePageack
  try simp only
  repeat' first
    | with_reducible assumption
    | with_reducible rfl
    | with_reducible apply State.endRequest_ok
    | with_reducible apply State.replySvc_ok
    | with_reducible apply modify_ok
    | with_reducible apply State.modDie_ok
    | with_reducible apply State.modGroup_ok
    | with_reducible apply foldl_ok
    | with_reducible apply foldl_fst_ok
    | with_reducible apply foldl_snd_ok
    | with_reducible apply foldl_wf
    | with_reducible apply die_wf
    | rw [State.draw_dies]
    | rw [State.newId_dies]
    | rw [Die.modSched_mem]
    | rw [Die.modPort_mem]
    | rw [Die.modCore_mem]
    | rw [Die.modCluster_mem]
    | rw [Die.modGroup_mem]
    | rw [Die.modNode_mem]
    | rw [Die.belayLog_mem]
    | rw [Die.commit_mem]
    | rw [Die.reserve_mem]
    | rw [Die.modQueue_mem]
    | intro _
    | split
    | (simp_all; done)

@[simp] theorem State.endCommand_ok (s : State) (d status result : Nat) (h : diesOk s.dies) :
    diesOk (State.endCommand s d status result).dies := by
  unfold State.endCommand
  try simp only
  repeat' first
    | with_reducible assumption
    | with_reducible rfl
    | with_reducible apply Job.result_ok
    | with_reducible apply State.replyVia_ok
    | with_reducible apply modify_ok
    | with_reducible apply State.modDie_ok
    | with_reducible apply State.modGroup_ok
    | with_reducible apply foldl_ok
    | with_reducible apply foldl_fst_ok
    | with_reducible apply foldl_snd_ok
    | with_reducible apply foldl_wf
    | with_reducible apply die_wf
    | rw [State.draw_dies]
    | rw [State.newId_dies]
    | rw [Die.modSched_mem]
    | rw [Die.modPort_mem]
    | rw [Die.modCore_mem]
    | rw [Die.modCluster_mem]
    | rw [Die.modGroup_mem]
    | rw [Die.modNode_mem]
    | rw [Die.belayLog_mem]
    | rw [Die.commit_mem]
    | rw [Die.reserve_mem]
    | rw [Die.modQueue_mem]
    | intro _
    | split
    | (simp_all; done)

@[simp] theorem State.argBlock_ok (s : State) (d : Nat) (h : diesOk s.dies) :
    diesOk (State.argBlock s d).2.dies := by
  unfold State.argBlock
  (try simp +contextual (maxDischargeDepth := 12) [h]) <;> (repeat' (split <;> try simp_all +contextual (maxDischargeDepth := 12)))

@[simp] theorem State.create_ok (s : State) (d index : Nat) (h : diesOk s.dies) :
    diesOk (State.create s d index).dies := by
  unfold State.create
  (try simp +contextual (maxDischargeDepth := 12) [h]) <;> (repeat' (split <;> try simp_all +contextual (maxDischargeDepth := 12)))

@[simp] theorem State.endQueue_ok (s : State) (d : Nat) (q : Queue) (h : diesOk s.dies) :
    diesOk (State.endQueue s d q).dies := by
  unfold State.endQueue
  try simp only
  repeat' first
    | with_reducible assumption
    | with_reducible rfl
    | with_reducible apply State.stat_ok
    | with_reducible apply State.delivered_ok
    | with_reducible apply modify_ok
    | with_reducible apply State.modDie_ok
    | with_reducible apply State.modGroup_ok
    | with_reducible apply foldl_ok
    | with_reducible apply foldl_fst_ok
    | with_reducible apply foldl_snd_ok
    | with_reducible apply foldl_wf
    | with_reducible apply die_wf
    | rw [State.draw_dies]
    | rw [State.newId_dies]
    | rw [Die.modSched_mem]
    | rw [Die.modPort_mem]
    | rw [Die.modCore_mem]
    | rw [Die.modCluster_mem]
    | rw [Die.modGroup_mem]
    | rw [Die.modNode_mem]
    | rw [Die.belayLog_mem]
    | rw [Die.commit_mem]
    | rw [Die.reserve_mem]
    | rw [Die.modQueue_mem]
    | intro _
    | split
    | (simp_all; done)

@[simp] theorem State.removeQueue_ok (s : State) (d index : Nat) (h : diesOk s.dies) :
    diesOk (State.removeQueue s d index).dies := by
  unfold State.removeQueue
  try simp only
  repeat' first
    | with_reducible assumption
    | with_reducible rfl
    | with_reducible apply State.delivered_ok
    | with_reducible apply State.endCommand_ok
    | with_reducible apply modify_ok
    | with_reducible apply State.modDie_ok
    | with_reducible apply State.modGroup_ok
    | with_reducible apply foldl_ok
    | with_reducible apply foldl_fst_ok
    | with_reducible apply foldl_snd_ok
    | with_reducible apply foldl_wf
    | with_reducible apply die_wf
    | rw [State.draw_dies]
    | rw [State.newId_dies]
    | rw [Die.modSched_mem]
    | rw [Die.modPort_mem]
    | rw [Die.modCore_mem]
    | rw [Die.modCluster_mem]
    | rw [Die.modGroup_mem]
    | rw [Die.modNode_mem]
    | rw [Die.belayLog_mem]
    | rw [Die.commit_mem]
    | rw [Die.reserve_mem]
    | rw [Die.modQueue_mem]
    | intro _
    | split
    | (simp_all; done)

@[simp] theorem State.destroy_ok (s : State) (d index : Nat) (h : diesOk s.dies) :
    diesOk (State.destroy s d index).dies := by
  unfold State.destroy
  (try simp +contextual (maxDischargeDepth := 12) [h]) <;> (repeat' (split <;> try simp_all +contextual (maxDischargeDepth := 12)))

@[simp] theorem State.nameinv_ok (s : State) (d : Nat) (h : diesOk s.dies) :
    diesOk (State.nameinv s d).dies := by
  unfold State.nameinv
  try simp only
  repeat' first
    | with_reducible assumption
    | with_reducible rfl
    | with_reducible apply State.endCommand_ok
    | with_reducible apply State.argBlock_ok
    | with_reducible apply modify_ok
    | with_reducible apply State.modDie_ok
    | with_reducible apply State.modGroup_ok
    | with_reducible apply foldl_ok
    | with_reducible apply foldl_fst_ok
    | with_reducible apply foldl_snd_ok
    | with_reducible apply foldl_wf
    | with_reducible apply die_wf
    | rw [State.draw_dies]
    | rw [State.newId_dies]
    | rw [Die.modSched_mem]
    | rw [Die.modPort_mem]
    | rw [Die.modCore_mem]
    | rw [Die.modCluster_mem]
    | rw [Die.modGroup_mem]
    | rw [Die.modNode_mem]
    | rw [Die.belayLog_mem]
    | rw [Die.commit_mem]
    | rw [Die.reserve_mem]
    | rw [Die.modQueue_mem]
    | intro _
    | split
    | (simp_all; done)

@[simp] theorem State.register_ok (s : State) (d : Nat) (h : diesOk s.dies) :
    diesOk (State.register s d).dies := by
  unfold State.register
  try simp only
  repeat' first
    | with_reducible assumption
    | with_reducible rfl
    | with_reducible apply State.endCommand_ok
    | with_reducible apply State.argBlock_ok
    | with_reducible apply Die.register_wf
    | with_reducible apply modify_ok
    | with_reducible apply State.modDie_ok
    | with_reducible apply State.modGroup_ok
    | with_reducible apply foldl_ok
    | with_reducible apply foldl_fst_ok
    | with_reducible apply foldl_snd_ok
    | with_reducible apply foldl_wf
    | with_reducible apply die_wf
    | rw [State.draw_dies]
    | rw [State.newId_dies]
    | rw [Die.modSched_mem]
    | rw [Die.modPort_mem]
    | rw [Die.modCore_mem]
    | rw [Die.modCluster_mem]
    | rw [Die.modGroup_mem]
    | rw [Die.modNode_mem]
    | rw [Die.belayLog_mem]
    | rw [Die.commit_mem]
    | rw [Die.reserve_mem]
    | rw [Die.modQueue_mem]
    | intro _
    | split
    | (simp_all; done)

@[simp] theorem State.revokeWaiting_ok (s : State) (d index : Nat) (h : diesOk s.dies) :
    diesOk (State.revokeWaiting s d index).dies := by
  unfold State.revokeWaiting
  try simp only
  repeat' first
    | with_reducible assumption
    | with_reducible rfl
    | with_reducible apply State.endSvc_ok
    | with_reducible apply modify_ok
    | with_reducible apply State.modDie_ok
    | with_reducible apply State.modGroup_ok
    | with_reducible apply foldl_ok
    | with_reducible apply foldl_fst_ok
    | with_reducible apply foldl_snd_ok
    | with_reducible apply foldl_wf
    | with_reducible apply die_wf
    | rw [State.draw_dies]
    | rw [State.newId_dies]
    | rw [Die.modSched_mem]
    | rw [Die.modPort_mem]
    | rw [Die.modCore_mem]
    | rw [Die.modCluster_mem]
    | rw [Die.modGroup_mem]
    | rw [Die.modNode_mem]
    | rw [Die.belayLog_mem]
    | rw [Die.commit_mem]
    | rw [Die.reserve_mem]
    | rw [Die.modQueue_mem]
    | intro _
    | split
    | (simp_all; done)

@[simp] theorem State.revoke_ok (s : State) (d index : Nat) (h : diesOk s.dies) :
    diesOk (State.revoke s d index).dies := by
  unfold State.revoke
  try simp only
  repeat' first
    | with_reducible assumption
    | with_reducible rfl
    | with_reducible apply State.endCommand_ok
    | with_reducible apply State.revokeWaiting_ok
    | with_reducible apply modify_ok
    | with_reducible apply State.modDie_ok
    | with_reducible apply State.modGroup_ok
    | with_reducible apply foldl_ok
    | with_reducible apply foldl_fst_ok
    | with_reducible apply foldl_snd_ok
    | with_reducible apply foldl_wf
    | with_reducible apply die_wf
    | rw [State.draw_dies]
    | rw [State.newId_dies]
    | rw [Die.modSched_mem]
    | rw [Die.modPort_mem]
    | rw [Die.modCore_mem]
    | rw [Die.modCluster_mem]
    | rw [Die.modGroup_mem]
    | rw [Die.modNode_mem]
    | rw [Die.belayLog_mem]
    | rw [Die.commit_mem]
    | rw [Die.reserve_mem]
    | rw [Die.modQueue_mem]
    | intro _
    | split
    | (simp_all; done)

@[simp] theorem State.connect_ok (s : State) (d : Nat) (h : diesOk s.dies) :
    diesOk (State.connect s d).dies := by
  unfold State.connect
  (try simp +contextual (maxDischargeDepth := 12) [h]) <;> (repeat' (split <;> try simp_all +contextual (maxDischargeDepth := 12)))

@[simp] theorem State.dropUnacked_ok (s : State) (c : Conn) (h : diesOk s.dies) :
    diesOk (State.dropUnacked s c).dies := by
  unfold State.dropUnacked
  try simp only
  repeat' first
    | with_reducible assumption
    | with_reducible rfl
    | with_reducible apply State.delivered_ok
    | with_reducible apply modify_ok
    | with_reducible apply State.modDie_ok
    | with_reducible apply State.modGroup_ok
    | with_reducible apply foldl_ok
    | with_reducible apply foldl_fst_ok
    | with_reducible apply foldl_snd_ok
    | with_reducible apply foldl_wf
    | with_reducible apply die_wf
    | rw [State.draw_dies]
    | rw [State.newId_dies]
    | rw [Die.modSched_mem]
    | rw [Die.modPort_mem]
    | rw [Die.modCore_mem]
    | rw [Die.modCluster_mem]
    | rw [Die.modGroup_mem]
    | rw [Die.modNode_mem]
    | rw [Die.belayLog_mem]
    | rw [Die.commit_mem]
    | rw [Die.reserve_mem]
    | rw [Die.modQueue_mem]
    | intro _
    | split
    | (simp_all; done)

@[simp] theorem State.close_ok (s : State) (d index : Nat) (h : diesOk s.dies) :
    diesOk (State.close s d index).dies := by
  unfold State.close
  (try simp +contextual (maxDischargeDepth := 12) [h]) <;> (repeat' (split <;> try simp_all +contextual (maxDischargeDepth := 12)))

@[simp] theorem State.withRiding_ok (s : State) (m : Msg) (h : diesOk s.dies) :
    diesOk (State.withRiding s m).2.dies := by
  unfold State.withRiding
  (try simp +contextual (maxDischargeDepth := 12) [h]) <;> (repeat' (split <;> try simp_all +contextual (maxDischargeDepth := 12)))

@[simp] theorem State.wholeMessage_ok (s : State) (d : Nat) (m : Msg) (bytes : List Byte) (h : diesOk s.dies) :
    diesOk (State.wholeMessage s d m bytes).dies := by
  unfold State.wholeMessage
  (try simp +contextual (maxDischargeDepth := 12) [h]) <;> (repeat' (split <;> try simp_all +contextual (maxDischargeDepth := 12)))

@[simp] theorem State.placeSave_ok (s : State) (d : Nat) (m : Msg) (off : Nat) (bytes : List Byte) (whole : Bool) (h : diesOk s.dies) :
    diesOk (State.placeSave s d m off bytes whole).2.dies := by
  unfold State.placeSave
  (try simp +contextual (maxDischargeDepth := 12) [h]) <;> (repeat' (split <;> try simp_all +contextual (maxDischargeDepth := 12)))

@[simp] theorem State.takeSave_ok (s : State) (d : Nat) (m : Msg) (h : diesOk s.dies) :
    diesOk (State.takeSave s d m).dies := by
  unfold State.takeSave
  try simp only
  repeat' first
    | with_reducible assumption
    | with_reducible rfl
    | with_reducible apply State.answer_ok
    | with_reducible apply State.placeSave_ok
    | with_reducible apply modify_ok
    | with_reducible apply State.modDie_ok
    | with_reducible apply State.modGroup_ok
    | with_reducible apply foldl_ok
    | with_reducible apply foldl_fst_ok
    | with_reducible apply foldl_snd_ok
    | with_reducible apply foldl_wf
    | with_reducible apply die_wf
    | rw [State.draw_dies]
    | rw [State.newId_dies]
    | rw [Die.modSched_mem]
    | rw [Die.modPort_mem]
    | rw [Die.modCore_mem]
    | rw [Die.modCluster_mem]
    | rw [Die.modGroup_mem]
    | rw [Die.modNode_mem]
    | rw [Die.belayLog_mem]
    | rw [Die.commit_mem]
    | rw [Die.reserve_mem]
    | rw [Die.modQueue_mem]
    | intro _
    | split
    | (simp_all; done)

@[simp] theorem State.placeFragment_ok (s : State) (d : Nat) (m : Msg) (f : Fragment) (h : diesOk s.dies) :
    diesOk (State.placeFragment s d m f).dies := by
  unfold State.placeFragment
  (try simp +contextual (maxDischargeDepth := 12) [h]) <;> (repeat' (split <;> try simp_all +contextual (maxDischargeDepth := 12)))

@[simp] theorem State.partFragment_ok (s : State) (d : Nat) (m : Msg) (f : Fragment) (h : diesOk s.dies) :
    diesOk (State.partFragment s d m f).dies := by
  unfold State.partFragment
  try simp only
  repeat' first
    | with_reducible assumption
    | with_reducible rfl
    | with_reducible apply State.stat_ok
    | with_reducible apply State.wholeMessage_ok
    | with_reducible apply State.placeFragment_ok
    | with_reducible apply modify_ok
    | with_reducible apply State.modDie_ok
    | with_reducible apply State.modGroup_ok
    | with_reducible apply foldl_ok
    | with_reducible apply foldl_fst_ok
    | with_reducible apply foldl_snd_ok
    | with_reducible apply foldl_wf
    | with_reducible apply die_wf
    | rw [State.draw_dies]
    | rw [State.newId_dies]
    | rw [Die.modSched_mem]
    | rw [Die.modPort_mem]
    | rw [Die.modCore_mem]
    | rw [Die.modCluster_mem]
    | rw [Die.modGroup_mem]
    | rw [Die.modNode_mem]
    | rw [Die.belayLog_mem]
    | rw [Die.commit_mem]
    | rw [Die.reserve_mem]
    | rw [Die.modQueue_mem]
    | intro _
    | split
    | (simp_all; done)

@[simp] theorem State.takeFragment_ok (s : State) (d : Nat) (f : Fragment) (h : diesOk s.dies) :
    diesOk (State.takeFragment s d f).dies := by
  unfold State.takeFragment
  try simp only
  repeat' first
    | with_reducible assumption
    | with_reducible rfl
    | with_reducible apply State.wholeMessage_ok
    | with_reducible apply State.partFragment_ok
    | with_reducible apply modify_ok
    | with_reducible apply State.modDie_ok
    | with_reducible apply State.modGroup_ok
    | with_reducible apply foldl_ok
    | with_reducible apply foldl_fst_ok
    | with_reducible apply foldl_snd_ok
    | with_reducible apply foldl_wf
    | with_reducible apply die_wf
    | rw [State.draw_dies]
    | rw [State.newId_dies]
    | rw [Die.modSched_mem]
    | rw [Die.modPort_mem]
    | rw [Die.modCore_mem]
    | rw [Die.modCluster_mem]
    | rw [Die.modGroup_mem]
    | rw [Die.modNode_mem]
    | rw [Die.belayLog_mem]
    | rw [Die.commit_mem]
    | rw [Die.reserve_mem]
    | rw [Die.modQueue_mem]
    | intro _
    | split
    | (simp_all; done)

@[simp] theorem State.fragmentIn_ok (s : State) (d : Nat) (f : Fragment) (h : diesOk s.dies) :
    diesOk (State.fragmentIn s d f).dies := by
  unfold State.fragmentIn
  (try simp +contextual (maxDischargeDepth := 12) [h]) <;> (repeat' (split <;> try simp_all +contextual (maxDischargeDepth := 12)))

@[simp] theorem State.frameIn_ok (s : State) (d code : Nat) (f : Option Frame424) (h : diesOk s.dies) :
    diesOk (State.frameIn s d code f).dies := by
  unfold State.frameIn
  try simp only
  repeat' first
    | with_reducible assumption
    | with_reducible rfl
    | with_reducible apply State.fragmentIn_ok
    | with_reducible apply modify_ok
    | with_reducible apply State.modDie_ok
    | with_reducible apply State.modGroup_ok
    | with_reducible apply foldl_ok
    | with_reducible apply foldl_fst_ok
    | with_reducible apply foldl_snd_ok
    | with_reducible apply foldl_wf
    | with_reducible apply die_wf
    | rw [State.draw_dies]
    | rw [State.newId_dies]
    | rw [Die.modSched_mem]
    | rw [Die.modPort_mem]
    | rw [Die.modCore_mem]
    | rw [Die.modCluster_mem]
    | rw [Die.modGroup_mem]
    | rw [Die.modNode_mem]
    | rw [Die.belayLog_mem]
    | rw [Die.commit_mem]
    | rw [Die.reserve_mem]
    | rw [Die.modQueue_mem]
    | intro _
    | split
    | (simp_all; done)

@[simp] theorem State.frameOut_ok (s : State) (d code : Nat) (h : diesOk s.dies) :
    diesOk (State.frameOut s d code).2.dies := by
  unfold State.frameOut
  (try simp +contextual (maxDischargeDepth := 12) [h]) <;> (repeat' (split <;> try simp_all +contextual (maxDischargeDepth := 12)))

@[simp] theorem State.announceLost_ok (s : State) (d lost : Nat) (h : diesOk s.dies) :
    diesOk (State.announceLost s d lost).dies := by
  unfold State.announceLost
  (try simp +contextual (maxDischargeDepth := 12) [h]) <;> (repeat' (split <;> try simp_all +contextual (maxDischargeDepth := 12)))

@[simp] theorem State.checkSector_ok (s : State) (d sec errors : Nat) (h : diesOk s.dies) :
    diesOk (State.checkSector s d sec errors).dies := by
  unfold State.checkSector
  (try simp +contextual (maxDischargeDepth := 12) [h]) <;> (repeat' (split <;> try simp_all +contextual (maxDischargeDepth := 12)))

@[simp] theorem State.performPrefetch_ok (s : State) (d core : Nat) (p : Prefetch) (h : diesOk s.dies) :
    diesOk (State.performPrefetch s d core p).dies := by
  unfold State.performPrefetch
  (try simp +contextual (maxDischargeDepth := 12) [h]) <;> (repeat' (split <;> try simp_all +contextual (maxDischargeDepth := 12)))

@[simp] theorem State.writeRecord_ok (s : State) (d k : Nat) (g : Group) (forced : Bool) (no : Nat) (h : diesOk s.dies) :
    diesOk (State.writeRecord s d k g forced no).dies := by
  unfold State.writeRecord
  extract_lets x a
  split
  · exact h
  · split
    · exact h
    · refine State.modDie_ok_of _ _ _ h fun x z e hx => ?_
      have e' : (if forced then x.engineWrite a (g.partBytes 0 partitionSize) else x).engineWrite (a + partitionSize)
        ((List.range (recordSize - partitionSize)).map (Config.saveByte no)) = z := e
      rw [← e']
      refine Die.engineWrite_wf _ _ _ ?_
      split
      · exact Die.engineWrite_wf _ _ _ hx
      · exact hx

@[simp] theorem State.saveGroup_ok (s : State) (d gid : Nat) (forced : Bool) (h : diesOk s.dies) :
    diesOk (State.saveGroup s d gid forced).dies := by
  unfold State.saveGroup
  try simp only
  repeat' first
    | with_reducible assumption
    | with_reducible rfl
    | with_reducible apply State.withdrawWaits_ok
    | with_reducible apply State.killWith_ok
    | with_reducible apply State.withdrawStreams_ok
    | with_reducible apply State.writeRecord_ok
    | with_reducible apply modify_ok
    | with_reducible apply State.modDie_ok
    | with_reducible apply State.modGroup_ok
    | with_reducible apply foldl_ok
    | with_reducible apply foldl_fst_ok
    | with_reducible apply foldl_snd_ok
    | with_reducible apply foldl_wf
    | with_reducible apply die_wf
    | rw [State.draw_dies]
    | rw [State.newId_dies]
    | rw [Die.modSched_mem]
    | rw [Die.modPort_mem]
    | rw [Die.modCore_mem]
    | rw [Die.modCluster_mem]
    | rw [Die.modGroup_mem]
    | rw [Die.modNode_mem]
    | rw [Die.belayLog_mem]
    | rw [Die.commit_mem]
    | rw [Die.reserve_mem]
    | rw [Die.modQueue_mem]
    | intro _
    | split
    | (simp_all; done)

@[simp] theorem State.saveIfIdle_ok (s : State) (d gid : Nat) (h : diesOk s.dies) :
    diesOk (State.saveIfIdle s d gid).dies := by
  unfold State.saveIfIdle
  (try simp +contextual (maxDischargeDepth := 12) [h]) <;> (repeat' (split <;> try simp_all +contextual (maxDischargeDepth := 12)))

@[simp] theorem State.stopAndSave_ok (s : State) (d gid : Nat) (forced : Bool) (h : diesOk s.dies) :
    diesOk (State.stopAndSave s d gid forced).dies := by
  unfold State.stopAndSave
  (try simp +contextual (maxDischargeDepth := 12) [h]) <;> (repeat' (split <;> try simp_all +contextual (maxDischargeDepth := 12)))

@[simp] theorem State.arriveObj_ok (s : State) (d gid : Nat) (o : ObjRef) (h : diesOk s.dies) :
    diesOk (State.arriveObj s d gid o).dies := by
  unfold State.arriveObj
  (try simp +contextual (maxDischargeDepth := 12) [h]) <;> (repeat' (split <;> try simp_all +contextual (maxDischargeDepth := 12)))

@[simp] theorem State.gatherObj_ok (s : State) (d gid : Nat) (h : diesOk s.dies) :
    diesOk (State.gatherObj s d gid).dies := by
  unfold State.gatherObj
  (try simp +contextual (maxDischargeDepth := 12) [h]) <;> (repeat' (split <;> try simp_all +contextual (maxDischargeDepth := 12)))

@[simp] theorem State.gather_ok (s : State) (d gid : Nat) (h : diesOk s.dies) :
    diesOk (State.gather s d gid).dies := by
  unfold State.gather
  (try simp +contextual (maxDischargeDepth := 12) [h]) <;> (repeat' (split <;> try simp_all +contextual (maxDischargeDepth := 12)))

@[simp] theorem barWord_ok (count : Job → Option Nat) (j : Job) (s : State) (h : diesOk s.dies) :
    diesOk (barWord count j s).dies := by
  unfold barWord
  (try simp +contextual (maxDischargeDepth := 12) [h]) <;> (repeat' (split <;> try simp_all +contextual (maxDischargeDepth := 12)))

@[simp] theorem barObjWord_ok (arrive : Bool) (j : Job) (s : State) (h : diesOk s.dies) :
    diesOk (barObjWord arrive j s).dies := by
  unfold barObjWord
  (try simp +contextual (maxDischargeDepth := 12) [h]) <;> (repeat' (split <;> try simp_all +contextual (maxDischargeDepth := 12)))

@[simp] theorem State.lastExit_ok (s : State) (d gid : Nat) (h : diesOk s.dies) :
    diesOk (State.lastExit s d gid).dies := by
  unfold State.lastExit
  (try simp +contextual (maxDischargeDepth := 12) [h]) <;> (repeat' (split <;> try simp_all +contextual (maxDischargeDepth := 12)))

@[simp] theorem exitWord_ok (j : Job) (s : State) (h : diesOk s.dies) :
    diesOk (exitWord j s).dies := by
  unfold exitWord
  (try simp +contextual (maxDischargeDepth := 12) [h]) <;> (repeat' (split <;> try simp_all +contextual (maxDischargeDepth := 12)))

@[simp] theorem Job.withObject_ok (j : Job) (s : State) (va : Nat) (lvl : Nat → Bool) (k : ObjRef → State → State) (h : diesOk s.dies) (hk : ∀ x0 x1, diesOk x1.dies → diesOk (k x0 x1).dies) :
    diesOk (Job.withObject j s va lvl k).dies := by
  unfold Job.withObject
  try simp only
  repeat' first
    | with_reducible assumption
    | with_reducible rfl
    | with_reducible apply Job.fault_ok
    | with_reducible apply Job.withAccess_ok
    | with_reducible apply Die.fetchAt_wf
    | with_reducible apply hk
    | with_reducible apply modify_ok
    | with_reducible apply State.modDie_ok
    | with_reducible apply State.modGroup_ok
    | with_reducible apply foldl_ok
    | with_reducible apply foldl_fst_ok
    | with_reducible apply foldl_snd_ok
    | with_reducible apply foldl_wf
    | with_reducible apply die_wf
    | rw [State.draw_dies]
    | rw [State.newId_dies]
    | rw [Die.modSched_mem]
    | rw [Die.modPort_mem]
    | rw [Die.modCore_mem]
    | rw [Die.modCluster_mem]
    | rw [Die.modGroup_mem]
    | rw [Die.modNode_mem]
    | rw [Die.belayLog_mem]
    | rw [Die.commit_mem]
    | rw [Die.reserve_mem]
    | rw [Die.modQueue_mem]
    | intro _
    | split
    | (simp_all; done)

@[simp] theorem cinitWord_ok (j : Job) (s : State) (h : diesOk s.dies) :
    diesOk (cinitWord j s).dies := by
  unfold cinitWord
  try simp only
  repeat' first
    | with_reducible assumption
    | with_reducible rfl
    | with_reducible apply Job.result_ok
    | with_reducible apply Job.irrevocable_ok
    | with_reducible apply Job.withObject_ok
    | with_reducible apply Die.putObject_wf
    | with_reducible apply Die.wakeDone_wf
    | with_reducible apply modify_ok
    | with_reducible apply State.modDie_ok
    | with_reducible apply State.modGroup_ok
    | with_reducible apply foldl_ok
    | with_reducible apply foldl_fst_ok
    | with_reducible apply foldl_snd_ok
    | with_reducible apply foldl_wf
    | with_reducible apply die_wf
    | rw [State.draw_dies]
    | rw [State.newId_dies]
    | rw [Die.modSched_mem]
    | rw [Die.modPort_mem]
    | rw [Die.modCore_mem]
    | rw [Die.modCluster_mem]
    | rw [Die.modGroup_mem]
    | rw [Die.modNode_mem]
    | rw [Die.belayLog_mem]
    | rw [Die.commit_mem]
    | rw [Die.reserve_mem]
    | rw [Die.modQueue_mem]
    | intro _
    | split
    | (simp_all; done)

@[simp] theorem caddWord_ok (n : Job → Nat) (j : Job) (s : State) (h : diesOk s.dies) :
    diesOk (caddWord n j s).dies := by
  unfold caddWord
  try simp only
  repeat' first
    | with_reducible assumption
    | with_reducible rfl
    | with_reducible apply Job.pass_ok
    | with_reducible apply Job.irrevocable_ok
    | with_reducible apply Job.withObject_ok
    | with_reducible apply Die.arrive_wf
    | with_reducible apply modify_ok
    | with_reducible apply State.modDie_ok
    | with_reducible apply State.modGroup_ok
    | with_reducible apply foldl_ok
    | with_reducible apply foldl_fst_ok
    | with_reducible apply foldl_snd_ok
    | with_reducible apply foldl_wf
    | with_reducible apply die_wf
    | rw [State.draw_dies]
    | rw [State.newId_dies]
    | rw [Die.modSched_mem]
    | rw [Die.modPort_mem]
    | rw [Die.modCore_mem]
    | rw [Die.modCluster_mem]
    | rw [Die.modGroup_mem]
    | rw [Die.modNode_mem]
    | rw [Die.belayLog_mem]
    | rw [Die.commit_mem]
    | rw [Die.reserve_mem]
    | rw [Die.modQueue_mem]
    | intro _
    | split
    | (simp_all; done)

@[simp] theorem cwaitWord'_ok (limit : Job → Nat) (j : Job) (s : State) (h : diesOk s.dies) :
    diesOk (cwaitWord' limit j s).dies := by
  unfold cwaitWord'
  (try simp +contextual (maxDischargeDepth := 12) [h]) <;> (repeat' (split <;> try simp_all +contextual (maxDischargeDepth := 12)))

@[simp] theorem State.cancelGroup_ok (s : State) (d gid : Nat) (h : diesOk s.dies) :
    diesOk (State.cancelGroup s d gid).dies := by
  unfold State.cancelGroup
  (try simp +contextual (maxDischargeDepth := 12) [h]) <;> (repeat' (split <;> try simp_all +contextual (maxDischargeDepth := 12)))

@[simp] theorem State.cancelCounter_ok (s : State) (d pn : Nat) (pa : ObjRef) (va : Nat) (h : diesOk s.dies) :
    diesOk (State.cancelCounter s d pn pa va).dies := by
  unfold State.cancelCounter
  try simp only
  repeat' first
    | with_reducible assumption
    | with_reducible rfl
    | with_reducible apply State.withdrawWaits_ok
    | with_reducible apply State.asynchronous_ok
    | with_reducible apply Die.putObject_wf
    | with_reducible apply Die.arrive_wf
    | with_reducible apply Die.checkSettled_wf
    | with_reducible apply Die.cancelRecords_wf
    | with_reducible apply modify_ok
    | with_reducible apply State.modDie_ok
    | with_reducible apply State.modGroup_ok
    | with_reducible apply foldl_ok
    | with_reducible apply foldl_fst_ok
    | with_reducible apply foldl_snd_ok
    | with_reducible apply foldl_wf
    | with_reducible apply die_wf
    | rw [State.draw_dies]
    | rw [State.newId_dies]
    | rw [Die.modSched_mem]
    | rw [Die.modPort_mem]
    | rw [Die.modCore_mem]
    | rw [Die.modCluster_mem]
    | rw [Die.modGroup_mem]
    | rw [Die.modNode_mem]
    | rw [Die.belayLog_mem]
    | rw [Die.commit_mem]
    | rw [Die.reserve_mem]
    | rw [Die.modQueue_mem]
    | intro _
    | split
    | (simp_all; done)

@[simp] theorem cancelWord_ok (j : Job) (s : State) (h : diesOk s.dies) :
    diesOk (cancelWord j s).dies := by
  unfold cancelWord
  (try simp +contextual (maxDischargeDepth := 12) [h]) <;> (repeat' (split <;> try simp_all +contextual (maxDischargeDepth := 12)))

@[simp] theorem Job.enterPrefetch_ok (j : Job) (s : State) (h : diesOk s.dies) :
    diesOk (Job.enterPrefetch j s).dies := by
  unfold Job.enterPrefetch
  try simp only
  repeat' first
    | with_reducible assumption
    | with_reducible rfl
    | with_reducible apply Job.mod_ok
    | with_reducible apply Job.pass_ok
    | with_reducible apply modify_ok
    | with_reducible apply State.modDie_ok
    | with_reducible apply State.modGroup_ok
    | with_reducible apply foldl_ok
    | with_reducible apply foldl_fst_ok
    | with_reducible apply foldl_snd_ok
    | with_reducible apply foldl_wf
    | with_reducible apply die_wf
    | rw [State.draw_dies]
    | rw [State.newId_dies]
    | rw [Die.modSched_mem]
    | rw [Die.modPort_mem]
    | rw [Die.modCore_mem]
    | rw [Die.modCluster_mem]
    | rw [Die.modGroup_mem]
    | rw [Die.modNode_mem]
    | rw [Die.belayLog_mem]
    | rw [Die.commit_mem]
    | rw [Die.reserve_mem]
    | rw [Die.modQueue_mem]
    | intro _
    | split
    | (simp_all; done)

@[simp] theorem prefRangeWord_ok (j : Job) (s : State) (h : diesOk s.dies) :
    diesOk (prefRangeWord j s).dies := by
  unfold prefRangeWord
  try simp only
  repeat' first
    | with_reducible assumption
    | with_reducible rfl
    | with_reducible apply Job.wait_ok
    | with_reducible apply Job.fault_ok
    | with_reducible apply State.register_ok
    | with_reducible apply Job.withObject_ok
    | with_reducible apply Job.enterPrefetch_ok
    | with_reducible apply Die.register_wf
    | with_reducible apply modify_ok
    | with_reducible apply State.modDie_ok
    | with_reducible apply State.modGroup_ok
    | with_reducible apply foldl_ok
    | with_reducible apply foldl_fst_ok
    | with_reducible apply foldl_snd_ok
    | with_reducible apply foldl_wf
    | with_reducible apply die_wf
    | rw [State.draw_dies]
    | rw [State.newId_dies]
    | rw [Die.modSched_mem]
    | rw [Die.modPort_mem]
    | rw [Die.modCore_mem]
    | rw [Die.modCluster_mem]
    | rw [Die.modGroup_mem]
    | rw [Die.modNode_mem]
    | rw [Die.belayLog_mem]
    | rw [Die.commit_mem]
    | rw [Die.reserve_mem]
    | rw [Die.modQueue_mem]
    | intro _
    | split
    | (simp_all; done)

@[simp] theorem gateWord_ok (j : Job) (s : State) (h : diesOk s.dies) :
    diesOk (gateWord j s).dies := by
  unfold gateWord
  (try simp +contextual (maxDischargeDepth := 12) [h]) <;> (repeat' (split <;> try simp_all +contextual (maxDischargeDepth := 12)))

@[simp] theorem gretWord_ok (j : Job) (s : State) (h : diesOk s.dies) :
    diesOk (gretWord j s).dies := by
  unfold gretWord
  (try simp +contextual (maxDischargeDepth := 12) [h]) <;> (repeat' (split <;> try simp_all +contextual (maxDischargeDepth := 12)))

@[simp] theorem trapWord_ok (base : Nat) (j : Job) (s : State) (h : diesOk s.dies) :
    diesOk (trapWord base j s).dies := by
  unfold trapWord
  (try simp +contextual (maxDischargeDepth := 12) [h]) <;> (repeat' (split <;> try simp_all +contextual (maxDischargeDepth := 12)))

@[simp] theorem State.leaveHandler_ok (s : State) (d gid : Nat) (tr : Trap) (fr : List Byte) (next : Bool) (h : diesOk s.dies) :
    diesOk (State.leaveHandler s d gid tr fr next).dies := by
  unfold State.leaveHandler
  (try simp +contextual (maxDischargeDepth := 12) [h]) <;> (repeat' (split <;> try simp_all +contextual (maxDischargeDepth := 12)))

@[simp] theorem tretWord_ok (j : Job) (s : State) (h : diesOk s.dies) :
    diesOk (tretWord j s).dies := by
  unfold tretWord
  (try simp +contextual (maxDischargeDepth := 12) [h]) <;> (repeat' (split <;> try simp_all +contextual (maxDischargeDepth := 12)))

@[simp] theorem yieldWord_ok (j : Job) (s : State) (h : diesOk s.dies) :
    diesOk (yieldWord j s).dies := by
  unfold yieldWord
  (try simp +contextual (maxDischargeDepth := 12) [h]) <;> (repeat' (split <;> try simp_all +contextual (maxDischargeDepth := 12)))

@[simp] theorem rdsrWord_ok (j : Job) (s : State) (h : diesOk s.dies) :
    diesOk (rdsrWord j s).dies := by
  unfold rdsrWord
  (try simp +contextual (maxDischargeDepth := 12) [h]) <;> (repeat' (split <;> try simp_all +contextual (maxDischargeDepth := 12)))

@[simp] theorem wrsrWord_ok (j : Job) (s : State) (h : diesOk s.dies) :
    diesOk (wrsrWord j s).dies := by
  unfold wrsrWord
  (try simp +contextual (maxDischargeDepth := 12) [h]) <;> (repeat' (split <;> try simp_all +contextual (maxDischargeDepth := 12)))

@[simp] theorem floatWord_ok (f : Nat → Nat → Nat → Nat) (j : Job) (s : State) (h : diesOk s.dies) :
    diesOk (floatWord f j s).dies := by
  unfold floatWord
  (try simp +contextual (maxDischargeDepth := 12) [h]) <;> (repeat' (split <;> try simp_all +contextual (maxDischargeDepth := 12)))

@[simp] theorem slotWord_ok (o : Operand) (ok : Nat → Bool) (body : SlotFmt → Job → State → State) (j : Job) (s : State) (h : diesOk s.dies) (hbody : ∀ x0 x1 x2, diesOk x2.dies → diesOk (body x0 x1 x2).dies) :
    diesOk (slotWord o ok body j s).dies := by
  unfold slotWord
  (try simp +contextual (maxDischargeDepth := 12) [h]) <;> (repeat' (split <;> try simp_all +contextual (maxDischargeDepth := 12)))

@[simp] theorem State.markEligible_ok (s : State) (d cl : Nat) (h : diesOk s.dies) :
    diesOk (State.markEligible s d cl).dies := by
  unfold State.markEligible
  (try simp +contextual (maxDischargeDepth := 12) [h]) <;> (repeat' (split <;> try simp_all +contextual (maxDischargeDepth := 12)))

@[simp] theorem State.settleTable_ok (s : State) (d cl : Nat) (h : diesOk s.dies) :
    diesOk (State.settleTable s d cl).dies := by
  unfold State.settleTable
  try simp only
  repeat' first
    | with_reducible assumption
    | with_reducible rfl
    | with_reducible apply State.pump_ok
    | with_reducible apply State.markEligible_ok
    | with_reducible apply modify_ok
    | with_reducible apply State.modDie_ok
    | with_reducible apply State.modGroup_ok
    | with_reducible apply foldl_ok
    | with_reducible apply foldl_fst_ok
    | with_reducible apply foldl_snd_ok
    | with_reducible apply foldl_wf
    | with_reducible apply die_wf
    | rw [State.draw_dies]
    | rw [State.newId_dies]
    | rw [Die.modSched_mem]
    | rw [Die.modPort_mem]
    | rw [Die.modCore_mem]
    | rw [Die.modCluster_mem]
    | rw [Die.modGroup_mem]
    | rw [Die.modNode_mem]
    | rw [Die.belayLog_mem]
    | rw [Die.commit_mem]
    | rw [Die.reserve_mem]
    | rw [Die.modQueue_mem]
    | intro _
    | split
    | (simp_all; done)

@[simp] theorem Job.post_ok (j : Job) (s : State) (op : MatOp) (h : diesOk s.dies) :
    diesOk (Job.post j s op).dies := by
  unfold Job.post
  try simp only
  repeat' first
    | with_reducible assumption
    | with_reducible rfl
    | with_reducible apply Job.mod_ok
    | with_reducible apply Job.wait_ok
    | with_reducible apply Job.result_ok
    | with_reducible apply State.settleTable_ok
    | with_reducible apply modify_ok
    | with_reducible apply State.modDie_ok
    | with_reducible apply State.modGroup_ok
    | with_reducible apply foldl_ok
    | with_reducible apply foldl_fst_ok
    | with_reducible apply foldl_snd_ok
    | with_reducible apply foldl_wf
    | with_reducible apply die_wf
    | rw [State.draw_dies]
    | rw [State.newId_dies]
    | rw [Die.modSched_mem]
    | rw [Die.modPort_mem]
    | rw [Die.modCore_mem]
    | rw [Die.modCluster_mem]
    | rw [Die.modGroup_mem]
    | rw [Die.modNode_mem]
    | rw [Die.belayLog_mem]
    | rw [Die.commit_mem]
    | rw [Die.reserve_mem]
    | rw [Die.modQueue_mem]
    | intro _
    | split
    | (simp_all; done)

@[simp] theorem mloopWord_ok (k : Nat) (count : Job → Nat) (j : Job) (s : State) (h : diesOk s.dies) :
    diesOk (mloopWord k count j s).dies := by
  unfold mloopWord
  (try simp +contextual (maxDischargeDepth := 12) [h]) <;> (repeat' (split <;> try simp_all +contextual (maxDischargeDepth := 12)))

@[simp] theorem mzeroWord_ok (j : Job) (s : State) (h : diesOk s.dies) :
    diesOk (mzeroWord j s).dies := by
  unfold mzeroWord
  (try simp +contextual (maxDischargeDepth := 12) [h]) <;> (repeat' (split <;> try simp_all +contextual (maxDischargeDepth := 12)))

@[simp] theorem Job.withRows_ok (j : Job) (s : State) (acc : Acc) (win : Bool) (z : Nat) (k : State → State) (h : diesOk s.dies) (hk : ∀ x0, diesOk x0.dies → diesOk (k x0).dies) :
    diesOk (Job.withRows j s acc win z k).dies := by
  unfold Job.withRows
  (try simp +contextual (maxDischargeDepth := 12) [h]) <;> (repeat' (split <;> try simp_all +contextual (maxDischargeDepth := 12)))

@[simp] theorem mldtWord_ok (win : Bool) (type : Nat) (j : Job) (s : State) (h : diesOk s.dies) :
    diesOk (mldtWord win type j s).dies := by
  unfold mldtWord
  (try simp +contextual (maxDischargeDepth := 12) [h]) <;> (repeat' (split <;> try simp_all +contextual (maxDischargeDepth := 12)))

@[simp] theorem mstWord_ok (win : Bool) (slot : Option DWord) (z : Nat) (j : Job) (s : State) (h : diesOk s.dies) :
    diesOk (mstWord win slot z j s).dies := by
  unfold mstWord
  (try simp +contextual (maxDischargeDepth := 12) [h]) <;> (repeat' (split <;> try simp_all +contextual (maxDischargeDepth := 12)))

@[simp] theorem Job.withSlot_ok (j : Job) (s : State) (n : Nat) (ok : Nat → Bool) (k : DWord → SlotFmt → State → State) (h : diesOk s.dies) (hk : ∀ x0 x1 x2, diesOk x2.dies → diesOk (k x0 x1 x2).dies) :
    diesOk (Job.withSlot j s n ok k).dies := by
  unfold Job.withSlot
  (try simp +contextual (maxDischargeDepth := 12) [h]) <;> (repeat' (split <;> try simp_all +contextual (maxDischargeDepth := 12)))

@[simp] theorem mstSlotWord_ok (win : Bool) (j : Job) (s : State) (h : diesOk s.dies) :
    diesOk (mstSlotWord win j s).dies := by
  unfold mstSlotWord
  (try simp +contextual (maxDischargeDepth := 12) [h]) <;> (repeat' (split <;> try simp_all +contextual (maxDischargeDepth := 12)))

@[simp] theorem Job.withVersion_ok (j : Job) (s : State) (k : State → State) (h : diesOk s.dies) (hk : ∀ x0, diesOk x0.dies → diesOk (k x0).dies) :
    diesOk (Job.withVersion j s k).dies := by
  unfold Job.withVersion
  (try simp +contextual (maxDischargeDepth := 12) [h]) <;> (repeat' (split <;> try simp_all +contextual (maxDischargeDepth := 12)))

@[simp] theorem mrdWord_ok (c : Nat) (f : Nat → Nat) (j : Job) (s : State) (h : diesOk s.dies) :
    diesOk (mrdWord c f j s).dies := by
  unfold mrdWord
  try simp only
  repeat' first
    | with_reducible assumption
    | with_reducible rfl
    | with_reducible apply Job.mod_ok
    | with_reducible apply Job.pass_ok
    | with_reducible apply Job.withVersion_ok
    | with_reducible apply modify_ok
    | with_reducible apply State.modDie_ok
    | with_reducible apply State.modGroup_ok
    | with_reducible apply foldl_ok
    | with_reducible apply foldl_fst_ok
    | with_reducible apply foldl_snd_ok
    | with_reducible apply foldl_wf
    | with_reducible apply die_wf
    | rw [State.draw_dies]
    | rw [State.newId_dies]
    | rw [Die.modSched_mem]
    | rw [Die.modPort_mem]
    | rw [Die.modCore_mem]
    | rw [Die.modCluster_mem]
    | rw [Die.modGroup_mem]
    | rw [Die.modNode_mem]
    | rw [Die.belayLog_mem]
    | rw [Die.commit_mem]
    | rw [Die.reserve_mem]
    | rw [Die.modQueue_mem]
    | intro _
    | split
    | (simp_all; done)

@[simp] theorem mrdSlotWord_ok (j : Job) (s : State) (h : diesOk s.dies) :
    diesOk (mrdSlotWord j s).dies := by
  unfold mrdSlotWord
  (try simp +contextual (maxDischargeDepth := 12) [h]) <;> (repeat' (split <;> try simp_all +contextual (maxDischargeDepth := 12)))

@[simp] theorem mverWord_ok (j : Job) (s : State) (h : diesOk s.dies) :
    diesOk (mverWord j s).dies := by
  unfold mverWord
  (try simp +contextual (maxDischargeDepth := 12) [h]) <;> (repeat' (split <;> try simp_all +contextual (maxDischargeDepth := 12)))

@[simp] theorem State.fetchK_ok (s : State) (d cl : Nat) (e : MatEntry) (k : Nat) (h : diesOk s.dies) :
    diesOk (State.fetchK s d cl e k).1.dies := by
  unfold State.fetchK
  (try simp +contextual (maxDischargeDepth := 12) [h]) <;> (repeat' (split <;> try simp_all +contextual (maxDischargeDepth := 12)))

@[simp] theorem State.fetchPass_ok (s : State) (d cl : Nat) (e : MatEntry) (h : diesOk s.dies) :
    diesOk (State.fetchPass s d cl e).dies := by
  unfold State.fetchPass
  try simp only
  repeat' first
    | with_reducible assumption
    | with_reducible rfl
    | with_reducible apply State.fetchK_ok
    | with_reducible apply Die.pinLines_wf
    | with_reducible apply modify_ok
    | with_reducible apply State.modDie_ok
    | with_reducible apply State.modGroup_ok
    | with_reducible apply foldl_ok
    | with_reducible apply foldl_fst_ok
    | with_reducible apply foldl_snd_ok
    | with_reducible apply foldl_wf
    | with_reducible apply die_wf
    | rw [State.draw_dies]
    | rw [State.newId_dies]
    | rw [Die.modSched_mem]
    | rw [Die.modPort_mem]
    | rw [Die.modCore_mem]
    | rw [Die.modCluster_mem]
    | rw [Die.modGroup_mem]
    | rw [Die.modNode_mem]
    | rw [Die.belayLog_mem]
    | rw [Die.commit_mem]
    | rw [Die.reserve_mem]
    | rw [Die.modQueue_mem]
    | intro _
    | split
    | (simp_all; done)

@[simp] theorem State.storeTile_ok (s : State) (d : Nat) (e : MatEntry) (g : Group) (slot : Option SlotFmt) (r : RowSpec) (addr : Nat) (win : Bool) (h : diesOk s.dies) :
    diesOk (State.storeTile s d e g slot r addr win).dies := by
  unfold State.storeTile
  try simp only
  repeat' first
    | with_reducible assumption
    | with_reducible rfl
    | with_reducible apply State.writeSpots_ok
    | with_reducible apply State.poisonSpots_ok
    | with_reducible apply Die.putRecord_wf
    | with_reducible apply modify_ok
    | with_reducible apply State.modDie_ok
    | with_reducible apply State.modGroup_ok
    | with_reducible apply foldl_ok
    | with_reducible apply foldl_fst_ok
    | with_reducible apply foldl_snd_ok
    | with_reducible apply foldl_wf
    | with_reducible apply die_wf
    | rw [State.draw_dies]
    | rw [State.newId_dies]
    | rw [Die.modSched_mem]
    | rw [Die.modPort_mem]
    | rw [Die.modCore_mem]
    | rw [Die.modCluster_mem]
    | rw [Die.modGroup_mem]
    | rw [Die.modNode_mem]
    | rw [Die.belayLog_mem]
    | rw [Die.commit_mem]
    | rw [Die.reserve_mem]
    | rw [Die.modQueue_mem]
    | intro _
    | split
    | (simp_all; done)

@[simp] theorem State.runStep_ok (s : State) (d cl : Nat) (e : MatEntry) (desc : List Byte) (k : Nat) (h : diesOk s.dies) :
    diesOk (State.runStep s d cl e desc k).dies := by
  unfold State.runStep
  try simp only
  repeat' first
    | with_reducible assumption
    | with_reducible rfl
    | with_reducible apply modify_ok
    | with_reducible apply State.modDie_ok
    | with_reducible apply State.modGroup_ok
    | with_reducible apply foldl_ok
    | with_reducible apply foldl_fst_ok
    | with_reducible apply foldl_snd_ok
    | with_reducible apply foldl_wf
    | with_reducible apply die_wf
    | rw [State.draw_dies]
    | rw [State.newId_dies]
    | rw [Die.modSched_mem]
    | rw [Die.modPort_mem]
    | rw [Die.modCore_mem]
    | rw [Die.modCluster_mem]
    | rw [Die.modGroup_mem]
    | rw [Die.modNode_mem]
    | rw [Die.belayLog_mem]
    | rw [Die.commit_mem]
    | rw [Die.reserve_mem]
    | rw [Die.modQueue_mem]
    | intro _
    | split
    | (simp_all; done)

@[simp] theorem State.runSteps_ok (s : State) (d cl : Nat) (e : MatEntry) (desc : List Byte) (ks : List Nat) (h : diesOk s.dies) :
    diesOk (State.runSteps s d cl e desc ks).dies := by
  induction ks generalizing s with
  | nil => exact h
  | cons k rest ih =>
    have hf := State.fetchK_ok s d cl e k h
    unfold State.runSteps
    split
    · rename_i heq
      rw [heq] at hf
      exact State.modDie_ok _ _ _ hf fun x hx => by rw [Die.modCluster_mem]; exact hx
    · rename_i heq
      rw [heq] at hf
      exact ih _ (State.modDie_ok _ _ _ (State.runStep_ok _ _ _ _ _ _ hf) fun x hx => by rw [Die.unpinPast_mem]; exact hx)

@[simp] theorem State.runPass_ok (s : State) (d cl : Nat) (e : MatEntry) (h : diesOk s.dies) :
    diesOk (State.runPass s d cl e).dies := by
  unfold State.runPass
  split
  · exact h
  · split
    · exact State.runSteps_ok _ _ _ _ _ _ h
    · exact State.modGroup_ok _ _ _ _ h
    · refine State.modGroup_ok _ _ _ _ ?_
      split
      · exact h
      · exact State.modDie_ok _ _ _ h fun x hx => Die.openLines_wf _ _ _ hx
    · exact State.storeTile_ok _ _ _ _ _ _ _ _ h

@[simp] theorem State.closePass_ok (s : State) (d cl : Nat) (e : MatEntry) (h : diesOk s.dies) :
    diesOk (State.closePass s d cl e).dies := by
  unfold State.closePass
  try simp only
  repeat' first
    | with_reducible assumption
    | with_reducible rfl
    | with_reducible apply State.settleTable_ok
    | with_reducible apply modify_ok
    | with_reducible apply State.modDie_ok
    | with_reducible apply State.modGroup_ok
    | with_reducible apply foldl_ok
    | with_reducible apply foldl_fst_ok
    | with_reducible apply foldl_snd_ok
    | with_reducible apply foldl_wf
    | with_reducible apply die_wf
    | rw [State.draw_dies]
    | rw [State.newId_dies]
    | rw [Die.modSched_mem]
    | rw [Die.modPort_mem]
    | rw [Die.modCore_mem]
    | rw [Die.modCluster_mem]
    | rw [Die.modGroup_mem]
    | rw [Die.modNode_mem]
    | rw [Die.belayLog_mem]
    | rw [Die.commit_mem]
    | rw [Die.reserve_mem]
    | rw [Die.modQueue_mem]
    | intro _
    | split
    | (simp_all; done)

/-- Every word that can wait or park keeps the dies well when it is performed. -/
theorem bodyOf_ok (i : Instr) (body : Job → State → State) (hb : bodyOf i = some body) (j : Job) (s : State)
    (h : diesOk s.dies) : diesOk (body j s).dies := by
  unfold bodyOf at hb
  split at hb <;> first | (cases hb; simp [h]; done) | (cases hb)

@[simp] theorem State.performWait_ok (s : State) (d gid : Nat) (w : Wait) (h : diesOk s.dies) :
    diesOk (State.performWait s d gid w).dies := by
  unfold State.performWait
  split
  · simp only
    split
    · exact State.modGroup_ok _ _ _ _ h
    · split
      · exact Job.enterPrefetch_ok _ _ (State.modGroup_ok _ _ _ _ h)
      · split
        · exact bodyOf_ok _ _ ‹_› _ _ (State.modGroup_ok _ _ _ _ h)
        · exact State.modGroup_ok _ _ _ _ h
  · exact h

@[simp] theorem State.performWaits_ok (s : State) (d gid : Nat) (h : diesOk s.dies) :
    diesOk (State.performWaits s d gid).dies := by
  unfold State.performWaits
  try simp only
  repeat' first
    | with_reducible assumption
    | with_reducible rfl
    | with_reducible apply State.performWait_ok
    | with_reducible apply modify_ok
    | with_reducible apply State.modDie_ok
    | with_reducible apply State.modGroup_ok
    | with_reducible apply foldl_ok
    | with_reducible apply foldl_fst_ok
    | with_reducible apply foldl_snd_ok
    | with_reducible apply foldl_wf
    | with_reducible apply die_wf
    | rw [State.draw_dies]
    | rw [State.newId_dies]
    | rw [Die.modSched_mem]
    | rw [Die.modPort_mem]
    | rw [Die.modCore_mem]
    | rw [Die.modCluster_mem]
    | rw [Die.modGroup_mem]
    | rw [Die.modNode_mem]
    | rw [Die.belayLog_mem]
    | rw [Die.commit_mem]
    | rw [Die.reserve_mem]
    | rw [Die.modQueue_mem]
    | intro _
    | split
    | (simp_all; done)

@[simp] theorem State.performSel_ok (s : State) (d gid : Nat) (sel : Wait → Bool) (h : diesOk s.dies) :
    diesOk (State.performSel s d gid sel).dies := by
  unfold State.performSel
  (try simp +contextual (maxDischargeDepth := 12) [h]) <;> (repeat' (split <;> try simp_all +contextual (maxDischargeDepth := 12)))

@[simp] theorem State.resumeCore_ok (s : State) (d core : Nat) (h : diesOk s.dies) :
    diesOk (State.resumeCore s d core).dies := by
  unfold State.resumeCore
  (try simp +contextual (maxDischargeDepth := 12) [h]) <;> (repeat' (split <;> try simp_all +contextual (maxDischargeDepth := 12)))

@[simp] theorem State.unpark_ok (s : State) (d gid : Nat) (w : ParkedWord) (h : diesOk s.dies) :
    diesOk (State.unpark s d gid w).dies := by
  unfold State.unpark
  (try simp +contextual (maxDischargeDepth := 12) [h]) <;> (repeat' (split <;> try simp_all +contextual (maxDischargeDepth := 12)))

@[simp] theorem State.runParked_ok (s : State) (d gid : Nat) (w : ParkedWord) (ts : List Nat) (h : diesOk s.dies) :
    diesOk (State.runParked s d gid w ts).dies := by
  unfold State.runParked
  split
  · exact h
  · split
    · split
      · exact h
      · exact bodyOf_ok _ _ ‹_› _ _ h
    · exact h

@[simp] theorem State.replayWord_ok (s : State) (d gid : Nat) (w : ParkedWord) (h : diesOk s.dies) :
    diesOk (State.replayWord s d gid w).dies := by
  unfold State.replayWord
  (try simp +contextual (maxDischargeDepth := 12) [h]) <;> (repeat' (split <;> try simp_all +contextual (maxDischargeDepth := 12)))

@[simp] theorem State.supply_ok (s : State) (d gid : Nat) (w : ParkedWord) (block : List Byte) (ts : List Nat) (h : diesOk s.dies) :
    diesOk (State.supply s d gid w block ts).dies := by
  unfold State.supply
  (try simp +contextual (maxDischargeDepth := 12) [h]) <;> (repeat' (split <;> try simp_all +contextual (maxDischargeDepth := 12)))

@[simp] theorem State.completeWord_ok (s : State) (d gid : Nat) (w : ParkedWord) (block : List Byte) (h : diesOk s.dies) :
    diesOk (State.completeWord s d gid w block).dies := by
  unfold State.completeWord
  (try simp +contextual (maxDischargeDepth := 12) [h]) <;> (repeat' (split <;> try simp_all +contextual (maxDischargeDepth := 12)))

@[simp] theorem State.declineWord_ok (s : State) (d gid : Nat) (w : ParkedWord) (h : diesOk s.dies) :
    diesOk (State.declineWord s d gid w).dies := by
  unfold State.declineWord
  (try simp +contextual (maxDischargeDepth := 12) [h]) <;> (repeat' (split <;> try simp_all +contextual (maxDischargeDepth := 12)))

@[simp] theorem State.unparkRow_ok (s : State) (d core : Nat) (e : StreamLog) (h : diesOk s.dies) :
    diesOk (State.unparkRow s d core e).dies := by
  unfold State.unparkRow
  (try simp +contextual (maxDischargeDepth := 12) [h]) <;> (repeat' (split <;> try simp_all +contextual (maxDischargeDepth := 12)))

@[simp] theorem State.replayRow_ok (s : State) (d core : Nat) (e : StreamLog) (h : diesOk s.dies) :
    diesOk (State.replayRow s d core e).dies := by
  unfold State.replayRow
  (try simp +contextual (maxDischargeDepth := 12) [h]) <;> (repeat' (split <;> try simp_all +contextual (maxDischargeDepth := 12)))

@[simp] theorem State.declineRow_ok (s : State) (d core : Nat) (e : StreamLog) (h : diesOk s.dies) :
    diesOk (State.declineRow s d core e).dies := by
  unfold State.declineRow
  try simp only
  repeat' first
    | with_reducible assumption
    | with_reducible rfl
    | with_reducible apply State.pump_ok
    | with_reducible apply State.unparkRow_ok
    | with_reducible apply Die.unresolvable_wf
    | with_reducible apply modify_ok
    | with_reducible apply State.modDie_ok
    | with_reducible apply State.modGroup_ok
    | with_reducible apply foldl_ok
    | with_reducible apply foldl_fst_ok
    | with_reducible apply foldl_snd_ok
    | with_reducible apply foldl_wf
    | with_reducible apply die_wf
    | rw [State.draw_dies]
    | rw [State.newId_dies]
    | rw [Die.modSched_mem]
    | rw [Die.modPort_mem]
    | rw [Die.modCore_mem]
    | rw [Die.modCluster_mem]
    | rw [Die.modGroup_mem]
    | rw [Die.modNode_mem]
    | rw [Die.belayLog_mem]
    | rw [Die.commit_mem]
    | rw [Die.reserve_mem]
    | rw [Die.modQueue_mem]
    | intro _
    | split
    | (simp_all; done)

@[simp] theorem State.promoteOne_ok (s : State) (d : Nat) (h : diesOk s.dies) :
    diesOk (State.promoteOne s d).dies := by
  unfold State.promoteOne
  try simp only
  repeat' first
    | with_reducible assumption
    | with_reducible rfl
    | with_reducible apply Die.discardRecord_wf
    | with_reducible apply Die.expand_wf
    | with_reducible apply Die.addTrans_wf
    | with_reducible apply modify_ok
    | with_reducible apply State.modDie_ok
    | with_reducible apply State.modGroup_ok
    | with_reducible apply foldl_ok
    | with_reducible apply foldl_fst_ok
    | with_reducible apply foldl_snd_ok
    | with_reducible apply foldl_wf
    | with_reducible apply die_wf
    | rw [State.draw_dies]
    | rw [State.newId_dies]
    | rw [Die.modSched_mem]
    | rw [Die.modPort_mem]
    | rw [Die.modCore_mem]
    | rw [Die.modCluster_mem]
    | rw [Die.modGroup_mem]
    | rw [Die.modNode_mem]
    | rw [Die.belayLog_mem]
    | rw [Die.commit_mem]
    | rw [Die.reserve_mem]
    | rw [Die.modQueue_mem]
    | intro _
    | split
    | (simp_all; done)

@[simp] theorem State.promote_ok (s : State) (d : Nat) (h : diesOk s.dies) :
    diesOk (State.promote s d).dies := by
  unfold State.promote
  (try simp +contextual (maxDischargeDepth := 12) [h]) <;> (repeat' (split <;> try simp_all +contextual (maxDischargeDepth := 12)))

@[simp] theorem State.takeRecord_ok (s : State) (d : Nat) (h : TaskRec × Option (Nat × Nat)) (hs : diesOk s.dies) :
    diesOk (State.takeRecord s d h).2.dies := by
  unfold State.takeRecord
  try simp only
  repeat' first
    | with_reducible assumption
    | with_reducible rfl
    | with_reducible apply modify_ok
    | with_reducible apply State.modDie_ok
    | with_reducible apply State.modGroup_ok
    | with_reducible apply foldl_ok
    | with_reducible apply foldl_fst_ok
    | with_reducible apply foldl_snd_ok
    | with_reducible apply foldl_wf
    | with_reducible apply die_wf
    | rw [State.draw_dies]
    | rw [State.newId_dies]
    | rw [Die.modSched_mem]
    | rw [Die.modPort_mem]
    | rw [Die.modCore_mem]
    | rw [Die.modCluster_mem]
    | rw [Die.modGroup_mem]
    | rw [Die.modNode_mem]
    | rw [Die.belayLog_mem]
    | rw [Die.commit_mem]
    | rw [Die.reserve_mem]
    | rw [Die.modQueue_mem]
    | intro _
    | split
    | (simp_all; done)

@[simp] theorem State.freeTrans_ok (s : State) (d txid : Nat) (h : diesOk s.dies) :
    diesOk (State.freeTrans s d txid).dies := by
  unfold State.freeTrans
  try simp only
  repeat' first
    | with_reducible assumption
    | with_reducible rfl
    | with_reducible apply State.promote_ok
    | with_reducible apply modify_ok
    | with_reducible apply State.modDie_ok
    | with_reducible apply State.modGroup_ok
    | with_reducible apply foldl_ok
    | with_reducible apply foldl_fst_ok
    | with_reducible apply foldl_snd_ok
    | with_reducible apply foldl_wf
    | with_reducible apply die_wf
    | rw [State.draw_dies]
    | rw [State.newId_dies]
    | rw [Die.modSched_mem]
    | rw [Die.modPort_mem]
    | rw [Die.modCore_mem]
    | rw [Die.modCluster_mem]
    | rw [Die.modGroup_mem]
    | rw [Die.modNode_mem]
    | rw [Die.belayLog_mem]
    | rw [Die.commit_mem]
    | rw [Die.reserve_mem]
    | rw [Die.modQueue_mem]
    | intro _
    | split
    | (simp_all; done)

@[simp] theorem State.endTrans_ok (s : State) (d : Nat) (t : TransEntry) (st : Nat) (h : diesOk s.dies) :
    diesOk (State.endTrans s d t st).dies := by
  unfold State.endTrans
  (try simp +contextual (maxDischargeDepth := 12) [h]) <;> (repeat' (split <;> try simp_all +contextual (maxDischargeDepth := 12)))

@[simp] theorem State.holdTrans_ok (s : State) (d : Nat) (t : TransEntry) (va xidx type : Nat) (pins : List Run) (h : diesOk s.dies) :
    diesOk (State.holdTrans s d t va xidx type pins).dies := by
  unfold State.holdTrans
  (try simp +contextual (maxDischargeDepth := 12) [h]) <;> (repeat' (split <;> try simp_all +contextual (maxDischargeDepth := 12)))

@[simp] theorem State.dispatchNode_ok (s : State) (d : Nat) (t : TransEntry) (ext : ExtTable) (fs : List DWord) (h : diesOk s.dies) :
    diesOk (State.dispatchNode s d t ext fs).dies := by
  unfold State.dispatchNode
  try simp only
  repeat' first
    | with_reducible assumption
    | with_reducible rfl
    | with_reducible apply Job.irrevocable_ok
    | with_reducible apply State.register_ok
    | with_reducible apply State.freeTrans_ok
    | with_reducible apply Die.stage_wf
    | with_reducible apply Die.register_wf
    | with_reducible apply modify_ok
    | with_reducible apply State.modDie_ok
    | with_reducible apply State.modGroup_ok
    | with_reducible apply foldl_ok
    | with_reducible apply foldl_fst_ok
    | with_reducible apply foldl_snd_ok
    | with_reducible apply foldl_wf
    | with_reducible apply die_wf
    | rw [State.draw_dies]
    | rw [State.newId_dies]
    | rw [Die.modSched_mem]
    | rw [Die.modPort_mem]
    | rw [Die.modCore_mem]
    | rw [Die.modCluster_mem]
    | rw [Die.modGroup_mem]
    | rw [Die.modNode_mem]
    | rw [Die.belayLog_mem]
    | rw [Die.commit_mem]
    | rw [Die.reserve_mem]
    | rw [Die.modQueue_mem]
    | intro _
    | split
    | (simp_all; done)

@[simp] theorem State.compareNode_ok (s : State) (d : Nat) (t : TransEntry) (ext : ExtTable) (fs : List DWord) (h : diesOk s.dies) :
    diesOk (State.compareNode s d t ext fs).dies := by
  unfold State.compareNode
  try simp only
  repeat' first
    | with_reducible assumption
    | with_reducible rfl
    | with_reducible apply State.endTrans_ok
    | with_reducible apply State.dispatchNode_ok
    | with_reducible apply modify_ok
    | with_reducible apply State.modDie_ok
    | with_reducible apply State.modGroup_ok
    | with_reducible apply foldl_ok
    | with_reducible apply foldl_fst_ok
    | with_reducible apply foldl_snd_ok
    | with_reducible apply foldl_wf
    | with_reducible apply die_wf
    | rw [State.draw_dies]
    | rw [State.newId_dies]
    | rw [Die.modSched_mem]
    | rw [Die.modPort_mem]
    | rw [Die.modCore_mem]
    | rw [Die.modCluster_mem]
    | rw [Die.modGroup_mem]
    | rw [Die.modNode_mem]
    | rw [Die.belayLog_mem]
    | rw [Die.commit_mem]
    | rw [Die.reserve_mem]
    | rw [Die.modQueue_mem]
    | intro _
    | split
    | (simp_all; done)

@[simp] theorem State.translateExts_ok (s : State) (d : Nat) (t : TransEntry) (list fmt : List Byte) (count : Nat) (h : diesOk s.dies) :
    diesOk (State.translateExts s d t list fmt count).dies := by
  unfold State.translateExts
  try simp only
  repeat' first
    | with_reducible assumption
    | with_reducible rfl
    | with_reducible apply State.endTrans_ok
    | with_reducible apply State.holdTrans_ok
    | with_reducible apply State.compareNode_ok
    | with_reducible apply Die.translateAll_wf
    | with_reducible apply modify_ok
    | with_reducible apply State.modDie_ok
    | with_reducible apply State.modGroup_ok
    | with_reducible apply foldl_ok
    | with_reducible apply foldl_fst_ok
    | with_reducible apply foldl_snd_ok
    | with_reducible apply foldl_wf
    | with_reducible apply die_wf
    | rw [State.draw_dies]
    | rw [State.newId_dies]
    | rw [Die.modSched_mem]
    | rw [Die.modPort_mem]
    | rw [Die.modCore_mem]
    | rw [Die.modCluster_mem]
    | rw [Die.modGroup_mem]
    | rw [Die.modNode_mem]
    | rw [Die.belayLog_mem]
    | rw [Die.commit_mem]
    | rw [Die.reserve_mem]
    | rw [Die.modQueue_mem]
    | intro _
    | split
    | (simp_all; done)

@[simp] theorem State.transRead_ok (s : State) (d : Nat) (t : TransEntry) (va n xidx : Nat) (k : List Byte → State → State) (h : diesOk s.dies) (hk : ∀ x0 x1, diesOk x1.dies → diesOk (k x0 x1).dies) :
    diesOk (State.transRead s d t va n xidx k).dies := by
  unfold State.transRead
  try simp only
  repeat' first
    | with_reducible assumption
    | with_reducible rfl
    | with_reducible apply State.endTrans_ok
    | with_reducible apply State.holdTrans_ok
    | with_reducible apply Die.procRead_wf
    | with_reducible apply hk
    | with_reducible apply modify_ok
    | with_reducible apply State.modDie_ok
    | with_reducible apply State.modGroup_ok
    | with_reducible apply foldl_ok
    | with_reducible apply foldl_fst_ok
    | with_reducible apply foldl_snd_ok
    | with_reducible apply foldl_wf
    | with_reducible apply die_wf
    | rw [State.draw_dies]
    | rw [State.newId_dies]
    | rw [Die.modSched_mem]
    | rw [Die.modPort_mem]
    | rw [Die.modCore_mem]
    | rw [Die.modCluster_mem]
    | rw [Die.modGroup_mem]
    | rw [Die.modNode_mem]
    | rw [Die.belayLog_mem]
    | rw [Die.commit_mem]
    | rw [Die.reserve_mem]
    | rw [Die.modQueue_mem]
    | intro _
    | split
    | (simp_all; done)

@[simp] theorem State.placeNew_ok (s : State) (d : Nat) (n : Node) (core slot : Nat) (h : diesOk s.dies) :
    diesOk (State.placeNew s d n core slot).dies := by
  unfold State.placeNew
  (try simp +contextual (maxDischargeDepth := 12) [h]) <;> (repeat' (split <;> try simp_all +contextual (maxDischargeDepth := 12)))

@[simp] theorem State.placeBack_ok (s : State) (d : Nat) (g : Group) (core slot : Nat) (h : diesOk s.dies) :
    diesOk (State.placeBack s d g core slot).dies := by
  unfold State.placeBack
  try simp only
  repeat' first
    | with_reducible assumption
    | with_reducible rfl
    | with_reducible apply State.killWith_ok
    | with_reducible apply State.resendWaits_ok
    | with_reducible apply State.gather_ok
    | with_reducible apply modify_ok
    | with_reducible apply State.modDie_ok
    | with_reducible apply State.modGroup_ok
    | with_reducible apply foldl_ok
    | with_reducible apply foldl_fst_ok
    | with_reducible apply foldl_snd_ok
    | with_reducible apply foldl_wf
    | with_reducible apply die_wf
    | rw [State.draw_dies]
    | rw [State.newId_dies]
    | rw [Die.modSched_mem]
    | rw [Die.modPort_mem]
    | rw [Die.modCore_mem]
    | rw [Die.modCluster_mem]
    | rw [Die.modGroup_mem]
    | rw [Die.modNode_mem]
    | rw [Die.belayLog_mem]
    | rw [Die.commit_mem]
    | rw [Die.reserve_mem]
    | rw [Die.modQueue_mem]
    | intro _
    | split
    | (simp_all; done)

@[simp] theorem State.place_ok (s : State) (d : Nat) (c : CandAt) (core slot : Nat) (h : diesOk s.dies) :
    diesOk (State.place s d c core slot).dies := by
  unfold State.place
  (try simp +contextual (maxDischargeDepth := 12) [h]) <;> (repeat' (split <;> try simp_all +contextual (maxDischargeDepth := 12)))

/-- A rebalancing move. -/
@[simp] theorem State.runMove_ok (s : State) (d : Nat) (h : diesOk s.dies) :
    ∀ r, State.runMove s d = some r → diesOk r.dies := by
  intro r hr
  unfold State.runMove at hr
  simp only [Option.map_eq_some_iff] at hr
  obtain ⟨m, -, rfl⟩ := hr
  have hm := State.modDie_ok s d (fun x => x.modSched fun y => { y with moves := y.moves.erase m }) h fun x hx => hx
  split
  · exact State.place_ok _ _ _ _ _ hm
  · exact hm

@[simp] theorem State.preempt_ok (s : State) (d gid k : Nat) (moved : Bool) (h : diesOk s.dies) :
    diesOk (State.preempt s d gid k moved).dies := by
  unfold State.preempt
  try simp only
  repeat' first
    | with_reducible assumption
    | with_reducible rfl
    | with_reducible apply State.asynchronous_ok
    | with_reducible apply modify_ok
    | with_reducible apply State.modDie_ok
    | with_reducible apply State.modGroup_ok
    | with_reducible apply foldl_ok
    | with_reducible apply foldl_fst_ok
    | with_reducible apply foldl_snd_ok
    | with_reducible apply foldl_wf
    | with_reducible apply die_wf
    | rw [State.draw_dies]
    | rw [State.newId_dies]
    | rw [Die.modSched_mem]
    | rw [Die.modPort_mem]
    | rw [Die.modCore_mem]
    | rw [Die.modCluster_mem]
    | rw [Die.modGroup_mem]
    | rw [Die.modNode_mem]
    | rw [Die.belayLog_mem]
    | rw [Die.commit_mem]
    | rw [Die.reserve_mem]
    | rw [Die.modQueue_mem]
    | intro _
    | split
    | (simp_all; done)

@[simp] theorem State.killStranded_ok (s : State) (d : Nat) (cores : List Nat) (h : diesOk s.dies) :
    diesOk (State.killStranded s d cores).dies := by
  unfold State.killStranded
  (try simp +contextual (maxDischargeDepth := 12) [h]) <;> (repeat' (split <;> try simp_all +contextual (maxDischargeDepth := 12)))

@[simp] theorem State.coreOff_ok (s : State) (d core phys cause : Nat) (alu : List Nat) (h : diesOk s.dies) :
    diesOk (State.coreOff s d core phys cause alu).dies := by
  unfold State.coreOff
  try simp only
  repeat' first
    | with_reducible assumption
    | with_reducible rfl
    | with_reducible apply State.killStranded_ok
    | with_reducible apply modify_ok
    | with_reducible apply State.modDie_ok
    | with_reducible apply State.modGroup_ok
    | with_reducible apply foldl_ok
    | with_reducible apply foldl_fst_ok
    | with_reducible apply foldl_snd_ok
    | with_reducible apply foldl_wf
    | with_reducible apply die_wf
    | rw [State.draw_dies]
    | rw [State.newId_dies]
    | rw [Die.modSched_mem]
    | rw [Die.modPort_mem]
    | rw [Die.modCore_mem]
    | rw [Die.modCluster_mem]
    | rw [Die.modGroup_mem]
    | rw [Die.modNode_mem]
    | rw [Die.belayLog_mem]
    | rw [Die.commit_mem]
    | rw [Die.reserve_mem]
    | rw [Die.modQueue_mem]
    | intro _
    | split
    | (simp_all; done)

@[simp] theorem State.clusterOff_ok (s : State) (d cl phys cause : Nat) (lost : Bool) (h : diesOk s.dies) :
    diesOk (State.clusterOff s d cl phys cause lost).dies := by
  unfold State.clusterOff
  try simp only
  repeat' first
    | with_reducible assumption
    | with_reducible rfl
    | with_reducible apply State.killStranded_ok
    | with_reducible apply Die.emptySlice_wf
    | with_reducible apply modify_ok
    | with_reducible apply State.modDie_ok
    | with_reducible apply State.modGroup_ok
    | with_reducible apply foldl_ok
    | with_reducible apply foldl_fst_ok
    | with_reducible apply foldl_snd_ok
    | with_reducible apply foldl_wf
    | with_reducible apply die_wf
    | rw [State.draw_dies]
    | rw [State.newId_dies]
    | rw [Die.modSched_mem]
    | rw [Die.modPort_mem]
    | rw [Die.modCore_mem]
    | rw [Die.modCluster_mem]
    | rw [Die.modGroup_mem]
    | rw [Die.modNode_mem]
    | rw [Die.belayLog_mem]
    | rw [Die.commit_mem]
    | rw [Die.reserve_mem]
    | rw [Die.modQueue_mem]
    | intro _
    | split
    | (simp_all; done)

@[simp] theorem State.startWidth_ok (s : State) (d code : Nat) (h : diesOk s.dies) :
    diesOk (State.startWidth s d code).dies := by
  unfold State.startWidth
  try simp only
  repeat' first
    | with_reducible assumption
    | with_reducible rfl
    | with_reducible apply modify_ok
    | with_reducible apply State.modDie_ok
    | with_reducible apply State.modGroup_ok
    | with_reducible apply foldl_ok
    | with_reducible apply foldl_fst_ok
    | with_reducible apply foldl_snd_ok
    | with_reducible apply foldl_wf
    | with_reducible apply die_wf
    | rw [State.draw_dies]
    | rw [State.newId_dies]
    | rw [Die.modSched_mem]
    | rw [Die.modPort_mem]
    | rw [Die.modCore_mem]
    | rw [Die.modCluster_mem]
    | rw [Die.modGroup_mem]
    | rw [Die.modNode_mem]
    | rw [Die.belayLog_mem]
    | rw [Die.commit_mem]
    | rw [Die.reserve_mem]
    | rw [Die.modQueue_mem]
    | intro _
    | split
    | (simp_all; done)

@[simp] theorem State.seamCode_ok (s : State) (code w : Nat) (touched : List Nat) (h : diesOk s.dies) :
    diesOk (State.seamCode s code w touched).dies := by
  unfold State.seamCode
  (try simp +contextual (maxDischargeDepth := 12) [h]) <;> (repeat' (split <;> try simp_all +contextual (maxDischargeDepth := 12)))

@[simp] theorem State.dieRetired_ok (s : State) (d : Nat) (h : diesOk s.dies) :
    diesOk (State.dieRetired s d).dies := by
  unfold State.dieRetired
  try simp only
  repeat' first
    | with_reducible assumption
    | with_reducible rfl
    | with_reducible apply State.reroute_ok
    | with_reducible apply State.seamCode_ok
    | with_reducible apply modify_ok
    | with_reducible apply State.modDie_ok
    | with_reducible apply State.modGroup_ok
    | with_reducible apply foldl_ok
    | with_reducible apply foldl_fst_ok
    | with_reducible apply foldl_snd_ok
    | with_reducible apply foldl_wf
    | with_reducible apply die_wf
    | rw [State.draw_dies]
    | rw [State.newId_dies]
    | rw [Die.modSched_mem]
    | rw [Die.modPort_mem]
    | rw [Die.modCore_mem]
    | rw [Die.modCluster_mem]
    | rw [Die.modGroup_mem]
    | rw [Die.modNode_mem]
    | rw [Die.belayLog_mem]
    | rw [Die.commit_mem]
    | rw [Die.reserve_mem]
    | rw [Die.modQueue_mem]
    | intro _
    | split
    | (simp_all; done)

@[simp] theorem State.reading_ok (s : State) (r : Thermal) (h : diesOk s.dies) :
    diesOk (State.reading s r).dies := by
  unfold State.reading
  (try simp +contextual (maxDischargeDepth := 12) [h]) <;> (repeat' (split <;> try simp_all +contextual (maxDischargeDepth := 12)))

@[simp] theorem State.keyErased_ok (s : State) (h : diesOk s.dies) :
    diesOk (State.keyErased s).dies := by
  unfold State.keyErased
  (try simp +contextual (maxDischargeDepth := 12) [h]) <;> (repeat' (split <;> try simp_all +contextual (maxDischargeDepth := 12)))

@[simp] theorem State.raiseAlarm_ok (s : State) (d level src : Nat) (h : diesOk s.dies) :
    diesOk (State.raiseAlarm s d level src).dies := by
  unfold State.raiseAlarm
  try simp only
  repeat' first
    | with_reducible assumption
    | with_reducible rfl
    | with_reducible apply State.keyErased_ok
    | with_reducible apply modify_ok
    | with_reducible apply State.modDie_ok
    | with_reducible apply State.modGroup_ok
    | with_reducible apply foldl_ok
    | with_reducible apply foldl_fst_ok
    | with_reducible apply foldl_snd_ok
    | with_reducible apply foldl_wf
    | with_reducible apply die_wf
    | rw [State.draw_dies]
    | rw [State.newId_dies]
    | rw [Die.modSched_mem]
    | rw [Die.modPort_mem]
    | rw [Die.modCore_mem]
    | rw [Die.modCluster_mem]
    | rw [Die.modGroup_mem]
    | rw [Die.modNode_mem]
    | rw [Die.belayLog_mem]
    | rw [Die.commit_mem]
    | rw [Die.reserve_mem]
    | rw [Die.modQueue_mem]
    | intro _
    | split
    | (simp_all; done)

@[simp] theorem State.selfTest_ok (s : State) (d : Nat) (h : diesOk s.dies) :
    diesOk (State.selfTest s d).dies := by
  unfold State.selfTest
  (try simp +contextual (maxDischargeDepth := 12) [h]) <;> (repeat' (split <;> try simp_all +contextual (maxDischargeDepth := 12)))

@[simp] theorem State.resetSeams_ok (s : State) (d : Nat) (h : diesOk s.dies) :
    diesOk (State.resetSeams s d).dies := by
  unfold State.resetSeams
  try simp only
  repeat' first
    | with_reducible assumption
    | with_reducible rfl
    | with_reducible apply State.seamCode_ok
    | with_reducible apply modify_ok
    | with_reducible apply State.modDie_ok
    | with_reducible apply State.modGroup_ok
    | with_reducible apply foldl_ok
    | with_reducible apply foldl_fst_ok
    | with_reducible apply foldl_snd_ok
    | with_reducible apply foldl_wf
    | with_reducible apply die_wf
    | rw [State.draw_dies]
    | rw [State.newId_dies]
    | rw [Die.modSched_mem]
    | rw [Die.modPort_mem]
    | rw [Die.modCore_mem]
    | rw [Die.modCluster_mem]
    | rw [Die.modGroup_mem]
    | rw [Die.modNode_mem]
    | rw [Die.belayLog_mem]
    | rw [Die.commit_mem]
    | rw [Die.reserve_mem]
    | rw [Die.modQueue_mem]
    | intro _
    | split
    | (simp_all; done)

@[simp] theorem State.tellLost_ok (s : State) (d : Nat) (h : diesOk s.dies) :
    diesOk (State.tellLost s d).dies := by
  unfold State.tellLost
  (try simp +contextual (maxDischargeDepth := 12) [h]) <;> (repeat' (split <;> try simp_all +contextual (maxDischargeDepth := 12)))

@[simp] theorem State.comeUp_ok (s : State) (d : Nat) (noBelay : Bool) (h : diesOk s.dies) :
    diesOk (State.comeUp s d noBelay).dies := by
  unfold State.comeUp
  try simp only
  repeat' first
    | with_reducible assumption
    | with_reducible rfl
    | with_reducible apply State.reroute_ok
    | with_reducible apply State.broadcast_ok
    | with_reducible apply State.dieRetired_ok
    | with_reducible apply State.selfTest_ok
    | with_reducible apply State.resetSeams_ok
    | with_reducible apply State.tellLost_ok
    | with_reducible apply modify_ok
    | with_reducible apply State.modDie_ok
    | with_reducible apply State.modGroup_ok
    | with_reducible apply foldl_ok
    | with_reducible apply foldl_fst_ok
    | with_reducible apply foldl_snd_ok
    | with_reducible apply foldl_wf
    | with_reducible apply die_wf
    | rw [State.draw_dies]
    | rw [State.newId_dies]
    | rw [Die.modSched_mem]
    | rw [Die.modPort_mem]
    | rw [Die.modCore_mem]
    | rw [Die.modCluster_mem]
    | rw [Die.modGroup_mem]
    | rw [Die.modNode_mem]
    | rw [Die.belayLog_mem]
    | rw [Die.commit_mem]
    | rw [Die.reserve_mem]
    | rw [Die.modQueue_mem]
    | intro _
    | split
    | (simp_all; done)

@[simp] theorem State.settleRetTable_ok (s : State) (d : Nat) (late : Bool) (h : diesOk s.dies) :
    diesOk (State.settleRetTable s d late).dies := by
  unfold State.settleRetTable
  try simp only
  repeat' first
    | with_reducible assumption
    | with_reducible rfl
    | with_reducible apply State.raiseAlarm_ok
    | with_reducible apply State.comeUp_ok
    | with_reducible apply modify_ok
    | with_reducible apply State.modDie_ok
    | with_reducible apply State.modGroup_ok
    | with_reducible apply foldl_ok
    | with_reducible apply foldl_fst_ok
    | with_reducible apply foldl_snd_ok
    | with_reducible apply foldl_wf
    | with_reducible apply die_wf
    | rw [State.draw_dies]
    | rw [State.newId_dies]
    | rw [Die.modSched_mem]
    | rw [Die.modPort_mem]
    | rw [Die.modCore_mem]
    | rw [Die.modCluster_mem]
    | rw [Die.modGroup_mem]
    | rw [Die.modNode_mem]
    | rw [Die.belayLog_mem]
    | rw [Die.commit_mem]
    | rw [Die.reserve_mem]
    | rw [Die.modQueue_mem]
    | intro _
    | split
    | (simp_all; done)

@[simp] theorem State.answerPartner_ok (s : State) (d : Nat) (h : diesOk s.dies) :
    diesOk (State.answerPartner s d).dies := by
  unfold State.answerPartner
  try simp only
  repeat' first
    | with_reducible assumption
    | with_reducible rfl
    | with_reducible apply State.settleRetTable_ok
    | with_reducible apply modify_ok
    | with_reducible apply State.modDie_ok
    | with_reducible apply State.modGroup_ok
    | with_reducible apply foldl_ok
    | with_reducible apply foldl_fst_ok
    | with_reducible apply foldl_snd_ok
    | with_reducible apply foldl_wf
    | with_reducible apply die_wf
    | rw [State.draw_dies]
    | rw [State.newId_dies]
    | rw [Die.modSched_mem]
    | rw [Die.modPort_mem]
    | rw [Die.modCore_mem]
    | rw [Die.modCluster_mem]
    | rw [Die.modGroup_mem]
    | rw [Die.modNode_mem]
    | rw [Die.belayLog_mem]
    | rw [Die.commit_mem]
    | rw [Die.reserve_mem]
    | rw [Die.modQueue_mem]
    | intro _
    | split
    | (simp_all; done)

@[simp] theorem State.checkImages_ok (s : State) (d : Nat) (kinds : List Nat) (h : diesOk s.dies) :
    diesOk (State.checkImages s d kinds).2.dies := by
  induction kinds generalizing s with
  | nil => exact h
  | cons k rest ih =>
    unfold State.checkImages
    extract_lets f s1
    have h1 : diesOk s1.dies := by
      simp only [s1]
      split
      · exact State.raiseAlarm_ok _ _ _ _ h
      · exact h
    split
    · exact h1
    · exact ih _ h1

@[simp] theorem State.coldBoot_ok (s : State) (d : Nat) (h : diesOk s.dies) : diesOk (State.coldBoot s d).dies := by
  unfold State.coldBoot
  extract_lets s1 s2 hp s3 f kinds
  have h1 : diesOk s1.dies := State.modDie_ok _ _ _ h fun x _ => rfl
  have h2 : diesOk s2.dies := State.modDie_ok _ _ _ h1 fun x hx => hx
  have h3 : diesOk s3.dies := by
    simp only [s3]
    split <;> exact h2
  have h4 := State.checkImages_ok s3 d kinds h3
  split
  · exact State.tellLost_ok _ _ (State.modDie_ok _ _ _ h3 fun x hx => hx)
  · cases hc : s3.checkImages d kinds with
    | mk ok t =>
      rw [hc] at h4
      dsimp only
      split
      · exact State.tellLost_ok _ _ (State.raiseAlarm_ok _ _ _ _ (State.modDie_ok _ _ _ h4 fun x hx => hx))
      · refine State.answerPartner_ok _ _ (State.settleRetTable_ok _ _ _ ?_)
        have h5 := State.modDie_ok t d (fun x => { x with used := kinds.filterMap f.pick }) h4 fun x hx => hx
        split
        · split <;> exact h5
        · exact h5

@[simp] theorem State.sendCheckpoint_ok (s : State) (d : Nat) (h : diesOk s.dies) :
    diesOk (State.sendCheckpoint s d).dies := by
  unfold State.sendCheckpoint
  (try simp +contextual (maxDischargeDepth := 12) [h]) <;> (repeat' (split <;> try simp_all +contextual (maxDischargeDepth := 12)))

@[simp] theorem State.flushSlices_ok (s : State) (d : Nat) (lost : Bool) (h : diesOk s.dies) :
    diesOk (State.flushSlices s d lost).dies := by
  unfold State.flushSlices
  try simp only
  repeat' first
    | with_reducible assumption
    | with_reducible rfl
    | with_reducible apply Die.evict_wf
    | with_reducible apply modify_ok
    | with_reducible apply State.modDie_ok
    | with_reducible apply State.modGroup_ok
    | with_reducible apply foldl_ok
    | with_reducible apply foldl_fst_ok
    | with_reducible apply foldl_snd_ok
    | with_reducible apply foldl_wf
    | with_reducible apply die_wf
    | rw [State.draw_dies]
    | rw [State.newId_dies]
    | rw [Die.modSched_mem]
    | rw [Die.modPort_mem]
    | rw [Die.modCore_mem]
    | rw [Die.modCluster_mem]
    | rw [Die.modGroup_mem]
    | rw [Die.modNode_mem]
    | rw [Die.belayLog_mem]
    | rw [Die.commit_mem]
    | rw [Die.reserve_mem]
    | rw [Die.modQueue_mem]
    | intro _
    | split
    | (simp_all; done)

@[simp] theorem State.resetLinks_ok (s : State) (d : Nat) (h : diesOk s.dies) :
    diesOk (State.resetLinks s d).dies := by
  unfold State.resetLinks
  try simp only
  repeat' first
    | with_reducible assumption
    | with_reducible rfl
    | with_reducible apply State.reroute_ok
    | with_reducible apply modify_ok
    | with_reducible apply State.modDie_ok
    | with_reducible apply State.modGroup_ok
    | with_reducible apply foldl_ok
    | with_reducible apply foldl_fst_ok
    | with_reducible apply foldl_snd_ok
    | with_reducible apply foldl_wf
    | with_reducible apply die_wf
    | rw [State.draw_dies]
    | rw [State.newId_dies]
    | rw [Die.modSched_mem]
    | rw [Die.modPort_mem]
    | rw [Die.modCore_mem]
    | rw [Die.modCluster_mem]
    | rw [Die.modGroup_mem]
    | rw [Die.modNode_mem]
    | rw [Die.belayLog_mem]
    | rw [Die.commit_mem]
    | rw [Die.reserve_mem]
    | rw [Die.modQueue_mem]
    | intro _
    | split
    | (simp_all; done)

@[simp] theorem State.endGroups_ok (s : State) (d : Nat) (saved : List Nat) (keep : List Nat) (h : diesOk s.dies) :
    diesOk (State.endGroups s d saved keep).dies := by
  unfold State.endGroups
  extract_lets gone s2
  have h2 : diesOk s2.dies := foldl_ok _ (fun s g hs => by
    split
    · exact State.killWith_ok _ _ _ _ hs
    · exact State.killGroup_ok _ _ _ hs) _ _ h
  exact State.modDie_ok _ _ _ h2 fun x hx => hx

@[simp] theorem State.restoreConns_ok (s : State) (conns : List Conn) (log : List LogEntry) (h : diesOk s.dies) :
    diesOk (State.restoreConns s conns log).2.dies := by
  unfold State.restoreConns
  try simp only
  repeat' first
    | with_reducible assumption
    | with_reducible rfl
    | with_reducible apply State.openBytes_ok
    | with_reducible apply modify_ok
    | with_reducible apply State.modDie_ok
    | with_reducible apply State.modGroup_ok
    | with_reducible apply foldl_ok
    | with_reducible apply foldl_fst_ok
    | with_reducible apply foldl_snd_ok
    | with_reducible apply foldl_wf
    | with_reducible apply die_wf
    | rw [State.draw_dies]
    | rw [State.newId_dies]
    | rw [Die.modSched_mem]
    | rw [Die.modPort_mem]
    | rw [Die.modCore_mem]
    | rw [Die.modCluster_mem]
    | rw [Die.modGroup_mem]
    | rw [Die.modNode_mem]
    | rw [Die.belayLog_mem]
    | rw [Die.commit_mem]
    | rw [Die.reserve_mem]
    | rw [Die.modQueue_mem]
    | intro _
    | split
    | (simp_all; done)

@[simp] theorem State.stopDie_ok (s : State) (d : Nat) (planned lost : Bool) (h : diesOk s.dies) :
    diesOk (State.stopDie s d planned lost).2.dies := by
  unfold State.stopDie
  (try simp +contextual (maxDischargeDepth := 12) [h]) <;> (repeat' (split <;> try simp_all +contextual (maxDischargeDepth := 12)))

@[simp] theorem State.restartDie_ok (s : State) (d : Nat) (planned : Bool) (keep : List Nat) (h : diesOk s.dies) :
    diesOk (State.restartDie s d planned keep).dies := by
  unfold State.restartDie
  try simp only
  repeat' first
    | with_reducible assumption
    | with_reducible rfl
    | with_reducible apply State.broadcast_ok
    | with_reducible apply State.gather_ok
    | with_reducible apply State.resetLinks_ok
    | with_reducible apply State.restoreConns_ok
    | with_reducible apply Die.restart_wf
    | with_reducible apply modify_ok
    | with_reducible apply State.modDie_ok
    | with_reducible apply State.modGroup_ok
    | with_reducible apply foldl_ok
    | with_reducible apply foldl_fst_ok
    | with_reducible apply foldl_snd_ok
    | with_reducible apply foldl_wf
    | with_reducible apply die_wf
    | rw [State.draw_dies]
    | rw [State.newId_dies]
    | rw [Die.modSched_mem]
    | rw [Die.modPort_mem]
    | rw [Die.modCore_mem]
    | rw [Die.modCluster_mem]
    | rw [Die.modGroup_mem]
    | rw [Die.modNode_mem]
    | rw [Die.belayLog_mem]
    | rw [Die.commit_mem]
    | rw [Die.reserve_mem]
    | rw [Die.modQueue_mem]
    | intro _
    | split
    | (simp_all; done)

@[simp] theorem State.warmReset_ok (s : State) (d : Nat) (lost : Bool) (h : diesOk s.dies) :
    diesOk (State.warmReset s d lost).dies := by
  unfold State.warmReset
  try simp only
  repeat' first
    | with_reducible assumption
    | with_reducible rfl
    | with_reducible apply State.stopDie_ok
    | with_reducible apply State.restartDie_ok
    | with_reducible apply modify_ok
    | with_reducible apply State.modDie_ok
    | with_reducible apply State.modGroup_ok
    | with_reducible apply foldl_ok
    | with_reducible apply foldl_fst_ok
    | with_reducible apply foldl_snd_ok
    | with_reducible apply foldl_wf
    | with_reducible apply die_wf
    | rw [State.draw_dies]
    | rw [State.newId_dies]
    | rw [Die.modSched_mem]
    | rw [Die.modPort_mem]
    | rw [Die.modCore_mem]
    | rw [Die.modCluster_mem]
    | rw [Die.modGroup_mem]
    | rw [Die.modNode_mem]
    | rw [Die.belayLog_mem]
    | rw [Die.commit_mem]
    | rw [Die.reserve_mem]
    | rw [Die.modQueue_mem]
    | intro _
    | split
    | (simp_all; done)

@[simp] theorem State.beginReset_ok (s : State) (d : Nat) (lost : Bool) (h : diesOk s.dies) :
    diesOk (State.beginReset s d lost).dies := by
  unfold State.beginReset
  (try simp +contextual (maxDischargeDepth := 12) [h]) <;> (repeat' (split <;> try simp_all +contextual (maxDischargeDepth := 12)))

@[simp] theorem State.resetDie_ok (s : State) (d : Nat) (lost : Bool) (h : diesOk s.dies) :
    diesOk (State.resetDie s d lost).dies := by
  unfold State.resetDie
  try simp only
  repeat' first
    | with_reducible assumption
    | with_reducible rfl
    | with_reducible apply State.coldBoot_ok
    | with_reducible apply State.warmReset_ok
    | with_reducible apply modify_ok
    | with_reducible apply State.modDie_ok
    | with_reducible apply State.modGroup_ok
    | with_reducible apply foldl_ok
    | with_reducible apply foldl_fst_ok
    | with_reducible apply foldl_snd_ok
    | with_reducible apply foldl_wf
    | with_reducible apply die_wf
    | rw [State.draw_dies]
    | rw [State.newId_dies]
    | rw [Die.modSched_mem]
    | rw [Die.modPort_mem]
    | rw [Die.modCore_mem]
    | rw [Die.modCluster_mem]
    | rw [Die.modGroup_mem]
    | rw [Die.modNode_mem]
    | rw [Die.belayLog_mem]
    | rw [Die.commit_mem]
    | rw [Die.reserve_mem]
    | rw [Die.modQueue_mem]
    | intro _
    | split
    | (simp_all; done)

@[simp] theorem State.preemptAll_ok (s : State) (d : Nat) (h : diesOk s.dies) :
    diesOk (State.preemptAll s d).dies := by
  unfold State.preemptAll
  try simp only
  repeat' first
    | with_reducible assumption
    | with_reducible rfl
    | with_reducible apply State.preempt_ok
    | with_reducible apply Die.place_wf
    | with_reducible apply modify_ok
    | with_reducible apply State.modDie_ok
    | with_reducible apply State.modGroup_ok
    | with_reducible apply foldl_ok
    | with_reducible apply foldl_fst_ok
    | with_reducible apply foldl_snd_ok
    | with_reducible apply foldl_wf
    | with_reducible apply die_wf
    | rw [State.draw_dies]
    | rw [State.newId_dies]
    | rw [Die.modSched_mem]
    | rw [Die.modPort_mem]
    | rw [Die.modCore_mem]
    | rw [Die.modCluster_mem]
    | rw [Die.modGroup_mem]
    | rw [Die.modNode_mem]
    | rw [Die.belayLog_mem]
    | rw [Die.commit_mem]
    | rw [Die.reserve_mem]
    | rw [Die.modQueue_mem]
    | intro _
    | split
    | (simp_all; done)

@[simp] theorem State.plannedReset_ok (s : State) (d : Nat) (h : diesOk s.dies) :
    diesOk (State.plannedReset s d).dies := by
  unfold State.plannedReset
  try simp only
  repeat' first
    | with_reducible assumption
    | with_reducible rfl
    | with_reducible apply State.restartDie_ok
    | with_reducible apply State.beginReset_ok
    | with_reducible apply State.preemptAll_ok
    | with_reducible apply modify_ok
    | with_reducible apply State.modDie_ok
    | with_reducible apply State.modGroup_ok
    | with_reducible apply foldl_ok
    | with_reducible apply foldl_fst_ok
    | with_reducible apply foldl_snd_ok
    | with_reducible apply foldl_wf
    | with_reducible apply die_wf
    | rw [State.draw_dies]
    | rw [State.newId_dies]
    | rw [Die.modSched_mem]
    | rw [Die.modPort_mem]
    | rw [Die.modCore_mem]
    | rw [Die.modCluster_mem]
    | rw [Die.modGroup_mem]
    | rw [Die.modNode_mem]
    | rw [Die.belayLog_mem]
    | rw [Die.commit_mem]
    | rw [Die.reserve_mem]
    | rw [Die.modQueue_mem]
    | intro _
    | split
    | (simp_all; done)

/-- One element of a datagram put. -/
@[simp] theorem State.putFrom_ok (s : State) (c : Conn) (ticket : Nat) (bs : List Byte) (h : diesOk s.dies) :
    diesOk (State.putFrom s c ticket bs).dies := by
  unfold State.putFrom
  simp only
  split
  · exact h
  · refine State.modDie_ok_of _ _ _ h fun x z e hx => ?_
    rw [← e, Die.modQueue_mem]
    split
    · rw [Die.belayLog_mem, Die.commit_mem]; exact die_wf _ _ h
    · rw [Die.commit_mem]; exact die_wf _ _ h

@[simp] theorem State.putHere_ok (s : State) (c : Conn) (q : Queue) (i : Incoming) (h : diesOk s.dies) :
    ∀ r, State.putHere s c q i = some r → diesOk r.dies := by
  intro r hr
  unfold State.putHere at hr
  dsimp only at hr
  split at hr
  · cases hr
  · rw [Option.map_eq_some_iff] at hr
    obtain ⟨p, hp, rfl⟩ := hr
    have ht := State.withReplies_ok _ _ _ _ (State.modDie_ok s 0
      (fun _ => ((s.die 0).reserve q.index q.gen c.dom i.els.length (s.connProducer c) 0).2) h
      fun x _ => by rw [Die.reserve_mem]; exact die_wf _ _ h) _ hp
    exact State.acceptData_ok _ _ _ (foldl_ok _ (fun s p hs => State.putFrom_ok _ _ _ _ hs) _ _ ht)

@[simp] theorem State.takeData_ok (s : State) (c : Conn) (i : Incoming) (h : diesOk s.dies) :
    diesOk (State.takeData s c i).dies := by
  unfold State.takeData
  extract_lets d
  split
  · exact h
  · split
    · rename_i q _ _
      cases hp : s.putHere c q i with
      | none => exact h
      | some r => exact State.putHere_ok _ _ _ _ h _ hp
    · split
      · exact h
      · exact State.request_ok _ _ _ _ h

@[simp] theorem State.sendElement_ok (s : State) (c : Conn) (t : Ticket) (h : diesOk s.dies) :
    diesOk (State.sendElement s c t).2.dies := by
  unfold State.sendElement
  (try simp +contextual (maxDischargeDepth := 12) [h]) <;> (repeat' (split <;> try simp_all +contextual (maxDischargeDepth := 12)))

@[simp] theorem State.resendAll_ok (s : State) (c : Conn) (e fuel : Nat) (us : List Unacked) (h : diesOk s.dies) :
    diesOk (State.resendAll s c e fuel us).dies := by
  induction fuel generalizing s us with
  | zero =>
    unfold State.resendAll; simpa using h
  | succ fuel ih =>
    unfold State.resendAll
    try simp only
    repeat' first
      | with_reducible assumption
      | with_reducible rfl
      | with_reducible apply State.sendOn_ok
      | with_reducible apply ih
      | with_reducible apply modify_ok
      | with_reducible apply State.modDie_ok
      | with_reducible apply State.modGroup_ok
      | with_reducible apply foldl_ok
      | with_reducible apply foldl_fst_ok
      | with_reducible apply foldl_snd_ok
      | with_reducible apply foldl_wf
      | with_reducible apply die_wf
      | rw [State.draw_dies]
      | rw [State.newId_dies]
      | rw [Die.modSched_mem]
      | rw [Die.modPort_mem]
      | rw [Die.modCore_mem]
      | rw [Die.modCluster_mem]
      | rw [Die.modGroup_mem]
      | rw [Die.modNode_mem]
      | rw [Die.belayLog_mem]
      | rw [Die.commit_mem]
      | rw [Die.reserve_mem]
      | rw [Die.modQueue_mem]
      | intro _
      | split
      | (simp_all; done)

@[simp] theorem crossWord_ok (source : LaneSrc → Option Nat) (other : LaneSrc → Nat) (j : Job) (s : State) (h : diesOk s.dies) :
    diesOk (crossWord source other j s).dies := by
  unfold crossWord
  (try simp +contextual (maxDischargeDepth := 12) [h]) <;> (repeat' (split <;> try simp_all +contextual (maxDischargeDepth := 12)))

@[simp] theorem bcastWord_ok (j : Job) (s : State) (h : diesOk s.dies) :
    diesOk (bcastWord j s).dies := by
  unfold bcastWord
  (try simp +contextual (maxDischargeDepth := 12) [h]) <;> (repeat' (split <;> try simp_all +contextual (maxDischargeDepth := 12)))

@[simp] theorem laneWord_ok (j : Job) (s : State) (h : diesOk s.dies) :
    diesOk (laneWord j s).dies := by
  unfold laneWord
  (try simp +contextual (maxDischargeDepth := 12) [h]) <;> (repeat' (split <;> try simp_all +contextual (maxDischargeDepth := 12)))

@[simp] theorem shflWord_ok (mode : Nat) (w : RegWord) (j : Job) (s : State) (h : diesOk s.dies) :
    diesOk (shflWord mode w j s).dies := by
  unfold shflWord
  (try simp +contextual (maxDischargeDepth := 12) [h]) <;> (repeat' (split <;> try simp_all +contextual (maxDischargeDepth := 12)))

@[simp] theorem shflShortWord_ok (mode : Nat) (w : ShortWord) (j : Job) (s : State) (h : diesOk s.dies) :
    diesOk (shflShortWord mode w j s).dies := by
  unfold shflShortWord
  (try simp +contextual (maxDischargeDepth := 12) [h]) <;> (repeat' (split <;> try simp_all +contextual (maxDischargeDepth := 12)))

@[simp] theorem voteWord_ok (w : RegWord) (j : Job) (s : State) (h : diesOk s.dies) :
    diesOk (voteWord w j s).dies := by
  unfold voteWord
  (try simp +contextual (maxDischargeDepth := 12) [h]) <;> (repeat' (split <;> try simp_all +contextual (maxDischargeDepth := 12)))

@[simp] theorem reduxWord_ok (w : RegWord) (f : List Nat → Nat) (j : Job) (s : State) (h : diesOk s.dies) :
    diesOk (reduxWord w f j s).dies := by
  unfold reduxWord
  (try simp +contextual (maxDischargeDepth := 12) [h]) <;> (repeat' (split <;> try simp_all +contextual (maxDischargeDepth := 12)))

@[simp] theorem matchWord_ok (w : RegWord) (j : Job) (s : State) (h : diesOk s.dies) :
    diesOk (matchWord w j s).dies := by
  unfold matchWord
  try simp only
  repeat' first
    | with_reducible assumption
    | with_reducible rfl
    | with_reducible apply Job.perLane_ok
    | with_reducible apply modify_ok
    | with_reducible apply State.modDie_ok
    | with_reducible apply State.modGroup_ok
    | with_reducible apply foldl_ok
    | with_reducible apply foldl_fst_ok
    | with_reducible apply foldl_snd_ok
    | with_reducible apply foldl_wf
    | with_reducible apply die_wf
    | rw [State.draw_dies]
    | rw [State.newId_dies]
    | rw [Die.modSched_mem]
    | rw [Die.modPort_mem]
    | rw [Die.modCore_mem]
    | rw [Die.modCluster_mem]
    | rw [Die.modGroup_mem]
    | rw [Die.modNode_mem]
    | rw [Die.belayLog_mem]
    | rw [Die.commit_mem]
    | rw [Die.reserve_mem]
    | rw [Die.modQueue_mem]
    | intro _
    | split
    | (simp_all; done)

@[simp] theorem packWord_ok (w : RegWord) (f : BlockFmt) (rnd : Nat) (nanz : Bool) (j : Job) (s : State) (h : diesOk s.dies) :
    diesOk (packWord w f rnd nanz j s).dies := by
  unfold packWord
  (try simp +contextual (maxDischargeDepth := 12) [h]) <;> (repeat' (split <;> try simp_all +contextual (maxDischargeDepth := 12)))

@[simp] theorem unpkWord_ok (w : RegWord) (et rnd : Nat) (sat nanz : Bool) (j : Job) (s : State) (h : diesOk s.dies) :
    diesOk (unpkWord w et rnd sat nanz j s).dies := by
  unfold unpkWord
  try simp only
  repeat' first
    | with_reducible assumption
    | with_reducible rfl
    | with_reducible apply Job.fault_ok
    | with_reducible apply Job.perLane_ok
    | with_reducible apply modify_ok
    | with_reducible apply State.modDie_ok
    | with_reducible apply State.modGroup_ok
    | with_reducible apply foldl_ok
    | with_reducible apply foldl_fst_ok
    | with_reducible apply foldl_snd_ok
    | with_reducible apply foldl_wf
    | with_reducible apply die_wf
    | rw [State.draw_dies]
    | rw [State.newId_dies]
    | rw [Die.modSched_mem]
    | rw [Die.modPort_mem]
    | rw [Die.modCore_mem]
    | rw [Die.modCluster_mem]
    | rw [Die.modGroup_mem]
    | rw [Die.modNode_mem]
    | rw [Die.belayLog_mem]
    | rw [Die.commit_mem]
    | rw [Die.reserve_mem]
    | rw [Die.modQueue_mem]
    | intro _
    | split
    | (simp_all; done)

@[simp] theorem State.accept_ok (s : State) (op : Nat) (fr : List Byte) (h : diesOk s.dies) :
    ∀ r, State.accept s op fr = some r → diesOk r.2.2.dies := by
  intro r hr
  unfold State.accept at hr
  simp only at hr
  repeat' split at hr
  all_goals (cases hr; first | exact h | done)

@[simp] theorem State.mgmtClose_ok (s : State) (m : Mgmt) (h : diesOk s.dies) :
    diesOk (State.mgmtClose s m).2.dies := by
  unfold State.mgmtClose
  (try simp +contextual (maxDischargeDepth := 12) [h]) <;> (repeat' (split <;> try simp_all +contextual (maxDischargeDepth := 12)))

/-- A device register write on one die. -/
theorem State.regWrite_ok (s : State) (e : Nat) (mc : Bool) (a n v : Nat) (h : diesOk s.dies) :
    diesOk (s.modDie e fun x => x.writeReg mc a n v).dies :=
  State.modDie_ok_of _ _ _ h fun x z e' hx => by
    have e'' : x.writeReg mc a n v = z := e'
    rw [← e'']
    exact Die.writeReg_wf _ _ _ _ _ hx

@[simp] theorem State.coreWrite_ok (s : State) (d a width v : Nat) (h : diesOk s.dies) :
    diesOk (State.coreWrite s d a width v).dies := by
  unfold State.coreWrite
  extract_lets before dies s1
  have h1 : diesOk s1.dies := foldl_ok (fun s e => s.modDie e fun x => x.writeReg true a width v)
    (fun s e hs => State.regWrite_ok s e true a width v hs) dies s h
  clear_value s1
  split
  · exact State.keyErased_ok _ (State.modDie_ok _ _ _ h1 fun x hx => by
      rw [Die.alarmed_mem, Die.logError_mem]; exact hx)
  · exact h1

@[simp] theorem State.softWrite_ok (s : State) (d a : Nat) (bs : List Byte) (h : diesOk s.dies) :
    diesOk (State.softWrite s d a bs).dies := by
  unfold State.softWrite
  (try simp +contextual (maxDischargeDepth := 12) [h]) <;> (repeat' (split <;> try simp_all +contextual (maxDischargeDepth := 12)))

@[simp] theorem State.mgmtProc_ok (s : State) (m : Mgmt) (h : diesOk s.dies) :
    diesOk (State.mgmtProc s m).2.dies := by
  unfold State.mgmtProc
  (try simp +contextual (maxDischargeDepth := 12) [h]) <;> (repeat' (split <;> try simp_all +contextual (maxDischargeDepth := 12)))

@[simp] theorem State.mgmtMap_ok (s : State) (m : Mgmt) (h : diesOk s.dies) :
    diesOk (State.mgmtMap s m).2.dies := by
  unfold State.mgmtMap
  try simp only
  repeat' first
    | with_reducible assumption
    | with_reducible rfl
    | with_reducible apply Job.fault_ok
    | with_reducible apply State.softWrite_ok
    | with_reducible apply modify_ok
    | with_reducible apply State.modDie_ok
    | with_reducible apply State.modGroup_ok
    | with_reducible apply foldl_ok
    | with_reducible apply foldl_fst_ok
    | with_reducible apply foldl_snd_ok
    | with_reducible apply foldl_wf
    | with_reducible apply die_wf
    | rw [State.draw_dies]
    | rw [State.newId_dies]
    | rw [Die.modSched_mem]
    | rw [Die.modPort_mem]
    | rw [Die.modCore_mem]
    | rw [Die.modCluster_mem]
    | rw [Die.modGroup_mem]
    | rw [Die.modNode_mem]
    | rw [Die.belayLog_mem]
    | rw [Die.commit_mem]
    | rw [Die.reserve_mem]
    | rw [Die.modQueue_mem]
    | intro _
    | split
    | (simp_all; done)

@[simp] theorem State.loadSpots_ok (s : State) (d pn : Nat) (vas : List Nat) (h : diesOk s.dies) :
    diesOk (State.loadSpots s d pn vas).2.dies := by
  unfold State.loadSpots
  try simp only
  repeat' first
    | with_reducible assumption
    | with_reducible rfl
    | with_reducible apply Die.translate_wf
    | with_reducible apply modify_ok
    | with_reducible apply State.modDie_ok
    | with_reducible apply State.modGroup_ok
    | with_reducible apply foldl_ok
    | with_reducible apply foldl_fst_ok
    | with_reducible apply foldl_snd_ok
    | with_reducible apply foldl_wf
    | with_reducible apply die_wf
    | rw [State.draw_dies]
    | rw [State.newId_dies]
    | rw [Die.modSched_mem]
    | rw [Die.modPort_mem]
    | rw [Die.modCore_mem]
    | rw [Die.modCluster_mem]
    | rw [Die.modGroup_mem]
    | rw [Die.modNode_mem]
    | rw [Die.belayLog_mem]
    | rw [Die.commit_mem]
    | rw [Die.reserve_mem]
    | rw [Die.modQueue_mem]
    | intro _
    | split
    | (simp_all; done)

@[simp] theorem State.mgmtLoad_ok (s : State) (m : Mgmt) (h : diesOk s.dies) :
    diesOk (State.mgmtLoad s m).2.dies := by
  unfold State.mgmtLoad
  try simp only
  repeat' first
    | with_reducible assumption
    | with_reducible rfl
    | with_reducible apply Job.fault_ok
    | with_reducible apply State.writeSpots_ok
    | with_reducible apply State.loadSpots_ok
    | with_reducible apply modify_ok
    | with_reducible apply State.modDie_ok
    | with_reducible apply State.modGroup_ok
    | with_reducible apply foldl_ok
    | with_reducible apply foldl_fst_ok
    | with_reducible apply foldl_snd_ok
    | with_reducible apply foldl_wf
    | with_reducible apply die_wf
    | rw [State.draw_dies]
    | rw [State.newId_dies]
    | rw [Die.modSched_mem]
    | rw [Die.modPort_mem]
    | rw [Die.modCore_mem]
    | rw [Die.modCluster_mem]
    | rw [Die.modGroup_mem]
    | rw [Die.modNode_mem]
    | rw [Die.belayLog_mem]
    | rw [Die.commit_mem]
    | rw [Die.reserve_mem]
    | rw [Die.modQueue_mem]
    | intro _
    | split
    | (simp_all; done)

@[simp] theorem State.mgmtPwrite_ok (s : State) (m : Mgmt) (h : diesOk s.dies) :
    diesOk (State.mgmtPwrite s m).2.dies := by
  unfold State.mgmtPwrite
  (try simp +contextual (maxDischargeDepth := 12) [h]) <;> (repeat' (split <;> try simp_all +contextual (maxDischargeDepth := 12)))

@[simp] theorem State.enqueueRecord_ok (s : State) (d cls : Nat) (bs : List Byte) (h : diesOk s.dies) :
    diesOk (State.enqueueRecord s d cls bs).2.dies := by
  unfold State.enqueueRecord
  try simp only
  repeat' first
    | with_reducible assumption
    | with_reducible rfl
    | with_reducible apply modify_ok
    | with_reducible apply State.modDie_ok
    | with_reducible apply State.modGroup_ok
    | with_reducible apply foldl_ok
    | with_reducible apply foldl_fst_ok
    | with_reducible apply foldl_snd_ok
    | with_reducible apply foldl_wf
    | with_reducible apply die_wf
    | rw [State.draw_dies]
    | rw [State.newId_dies]
    | rw [Die.modSched_mem]
    | rw [Die.modPort_mem]
    | rw [Die.modCore_mem]
    | rw [Die.modCluster_mem]
    | rw [Die.modGroup_mem]
    | rw [Die.modNode_mem]
    | rw [Die.belayLog_mem]
    | rw [Die.commit_mem]
    | rw [Die.reserve_mem]
    | rw [Die.modQueue_mem]
    | intro _
    | split
    | (simp_all; done)

@[simp] theorem State.mgmtEnqueue_ok (s : State) (m : Mgmt) (h : diesOk s.dies) :
    diesOk (State.mgmtEnqueue s m).2.dies := by
  unfold State.mgmtEnqueue
  try simp only
  repeat' first
    | with_reducible assumption
    | with_reducible rfl
    | with_reducible apply State.enqueueRecord_ok
    | with_reducible apply modify_ok
    | with_reducible apply State.modDie_ok
    | with_reducible apply State.modGroup_ok
    | with_reducible apply foldl_ok
    | with_reducible apply foldl_fst_ok
    | with_reducible apply foldl_snd_ok
    | with_reducible apply foldl_wf
    | with_reducible apply die_wf
    | rw [State.draw_dies]
    | rw [State.newId_dies]
    | rw [Die.modSched_mem]
    | rw [Die.modPort_mem]
    | rw [Die.modCore_mem]
    | rw [Die.modCluster_mem]
    | rw [Die.modGroup_mem]
    | rw [Die.modNode_mem]
    | rw [Die.belayLog_mem]
    | rw [Die.commit_mem]
    | rw [Die.reserve_mem]
    | rw [Die.modQueue_mem]
    | intro _
    | split
    | (simp_all; done)

@[simp] theorem State.mgmtReg_ok (s : State) (m : Mgmt) (h : diesOk s.dies) :
    diesOk (State.mgmtReg s m).2.dies := by
  unfold State.mgmtReg
  try simp only
  repeat' first
    | with_reducible assumption
    | with_reducible rfl
    | with_reducible apply Job.fault_ok
    | with_reducible apply State.coreWrite_ok
    | with_reducible apply modify_ok
    | with_reducible apply State.modDie_ok
    | with_reducible apply State.modGroup_ok
    | with_reducible apply foldl_ok
    | with_reducible apply foldl_fst_ok
    | with_reducible apply foldl_snd_ok
    | with_reducible apply foldl_wf
    | with_reducible apply die_wf
    | rw [State.draw_dies]
    | rw [State.newId_dies]
    | rw [Die.modSched_mem]
    | rw [Die.modPort_mem]
    | rw [Die.modCore_mem]
    | rw [Die.modCluster_mem]
    | rw [Die.modGroup_mem]
    | rw [Die.modNode_mem]
    | rw [Die.belayLog_mem]
    | rw [Die.commit_mem]
    | rw [Die.reserve_mem]
    | rw [Die.modQueue_mem]
    | intro _
    | split
    | (simp_all; done)

@[simp] theorem State.mgmtReset_ok (s : State) (m : Mgmt) (h : diesOk s.dies) :
    diesOk (State.mgmtReset s m).2.dies := by
  unfold State.mgmtReset
  (try simp +contextual (maxDischargeDepth := 12) [h]) <;> (repeat' (split <;> try simp_all +contextual (maxDischargeDepth := 12)))

@[simp] theorem State.mgmtFreq_ok (s : State) (m : Mgmt) (h : diesOk s.dies) :
    diesOk (State.mgmtFreq s m).2.dies := by
  unfold State.mgmtFreq
  (try simp +contextual (maxDischargeDepth := 12) [h]) <;> (repeat' (split <;> try simp_all +contextual (maxDischargeDepth := 12)))

@[simp] theorem State.mgmtRead_ok (s : State) (m : Mgmt) (h : diesOk s.dies) :
    diesOk (State.mgmtRead s m).2.dies := by
  unfold State.mgmtRead
  repeat' split
  all_goals exact h

@[simp] theorem State.mgmtAttest_ok (s : State) (m : Mgmt) (h : diesOk s.dies) :
    diesOk (State.mgmtAttest s m).2.dies := by
  unfold State.mgmtAttest
  (try simp +contextual (maxDischargeDepth := 12) [h]) <;> (repeat' (split <;> try simp_all +contextual (maxDischargeDepth := 12)))

@[simp] theorem State.mgmtResult_ok (s : State) (m : Mgmt) (h : diesOk s.dies) :
    diesOk (State.mgmtResult s m).2.dies := by
  unfold State.mgmtResult
  try simp only
  repeat' first
    | with_reducible assumption
    | with_reducible rfl
    | with_reducible apply State.mgmtClose_ok
    | with_reducible apply State.mgmtProc_ok
    | with_reducible apply State.mgmtMap_ok
    | with_reducible apply State.mgmtLoad_ok
    | with_reducible apply State.mgmtPwrite_ok
    | with_reducible apply State.mgmtEnqueue_ok
    | with_reducible apply State.mgmtReg_ok
    | with_reducible apply State.mgmtReset_ok
    | with_reducible apply State.mgmtFreq_ok
    | with_reducible apply State.mgmtRead_ok
    | with_reducible apply State.mgmtAttest_ok
    | with_reducible apply modify_ok
    | with_reducible apply State.modDie_ok
    | with_reducible apply State.modGroup_ok
    | with_reducible apply foldl_ok
    | with_reducible apply foldl_fst_ok
    | with_reducible apply foldl_snd_ok
    | with_reducible apply foldl_wf
    | with_reducible apply die_wf
    | rw [State.draw_dies]
    | rw [State.newId_dies]
    | rw [Die.modSched_mem]
    | rw [Die.modPort_mem]
    | rw [Die.modCore_mem]
    | rw [Die.modCluster_mem]
    | rw [Die.modGroup_mem]
    | rw [Die.modNode_mem]
    | rw [Die.belayLog_mem]
    | rw [Die.commit_mem]
    | rw [Die.reserve_mem]
    | rw [Die.modQueue_mem]
    | intro _
    | split
    | (simp_all; done)

@[simp] theorem State.mgmtQueue_ok (s : State) (m : Mgmt) (h : diesOk s.dies) :
    diesOk (State.mgmtQueue s m).dies := by
  unfold State.mgmtQueue
  (try simp +contextual (maxDischargeDepth := 12) [h]) <;> (repeat' (split <;> try simp_all +contextual (maxDischargeDepth := 12)))

@[simp] theorem State.performMgmt_ok (s : State) (m : Mgmt) (h : diesOk s.dies) :
    diesOk (State.performMgmt s m).dies := by
  unfold State.performMgmt
  try simp only
  repeat' first
    | with_reducible assumption
    | with_reducible rfl
    | with_reducible apply State.replyVia_ok
    | with_reducible apply State.mgmtResult_ok
    | with_reducible apply State.mgmtQueue_ok
    | with_reducible apply modify_ok
    | with_reducible apply State.modDie_ok
    | with_reducible apply State.modGroup_ok
    | with_reducible apply foldl_ok
    | with_reducible apply foldl_fst_ok
    | with_reducible apply foldl_snd_ok
    | with_reducible apply foldl_wf
    | with_reducible apply die_wf
    | rw [State.draw_dies]
    | rw [State.newId_dies]
    | rw [Die.modSched_mem]
    | rw [Die.modPort_mem]
    | rw [Die.modCore_mem]
    | rw [Die.modCluster_mem]
    | rw [Die.modGroup_mem]
    | rw [Die.modNode_mem]
    | rw [Die.belayLog_mem]
    | rw [Die.commit_mem]
    | rw [Die.reserve_mem]
    | rw [Die.modQueue_mem]
    | intro _
    | split
    | (simp_all; done)

@[simp] theorem State.endUnknown_ok (s : State) (d : Nat) (h : diesOk s.dies) :
    diesOk (State.endUnknown s d).dies := by
  unfold State.endUnknown
  (try simp +contextual (maxDischargeDepth := 12) [h]) <;> (repeat' (split <;> try simp_all +contextual (maxDischargeDepth := 12)))

@[simp] theorem pairWord_ok (sop : Nat) (p : PairWord) (j : Job) (s : State) (h : diesOk s.dies) :
    diesOk (pairWord sop p j s).dies := by
  unfold pairWord
  (try simp +contextual (maxDischargeDepth := 12) [h]) <;> (repeat' (split <;> try simp_all +contextual (maxDischargeDepth := 12)))

@[simp] theorem State.strikeCore_ok (s : State) (d core cause : Nat) (lanes : List Nat) (h : diesOk s.dies) :
    diesOk (State.strikeCore s d core cause lanes).dies := by
  unfold State.strikeCore
  (try simp +contextual (maxDischargeDepth := 12) [h]) <;> (repeat' (split <;> try simp_all +contextual (maxDischargeDepth := 12)))

@[simp] theorem State.strikeRope_ok (s : State) (d core : Nat) (lanes : BitVec 32) (h : diesOk s.dies) :
    diesOk (State.strikeRope s d core lanes).dies := by
  unfold State.strikeRope
  try simp only
  repeat' first
    | with_reducible assumption
    | with_reducible rfl
    | with_reducible apply State.strikeCore_ok
    | with_reducible apply modify_ok
    | with_reducible apply State.modDie_ok
    | with_reducible apply State.modGroup_ok
    | with_reducible apply foldl_ok
    | with_reducible apply foldl_fst_ok
    | with_reducible apply foldl_snd_ok
    | with_reducible apply foldl_wf
    | with_reducible apply die_wf
    | rw [State.draw_dies]
    | rw [State.newId_dies]
    | rw [Die.modSched_mem]
    | rw [Die.modPort_mem]
    | rw [Die.modCore_mem]
    | rw [Die.modCluster_mem]
    | rw [Die.modGroup_mem]
    | rw [Die.modNode_mem]
    | rw [Die.belayLog_mem]
    | rw [Die.commit_mem]
    | rw [Die.reserve_mem]
    | rw [Die.modQueue_mem]
    | intro _
    | split
    | (simp_all; done)

@[simp] theorem State.strikeGroup_ok (s : State) (d gid : Nat) (h : diesOk s.dies) :
    diesOk (State.strikeGroup s d gid).2.dies := by
  unfold State.strikeGroup
  (try simp +contextual (maxDischargeDepth := 12) [h]) <;> (repeat' (split <;> try simp_all +contextual (maxDischargeDepth := 12)))

@[simp] theorem State.strike_ok (s : State) (d : Nat) (e : Strike) (h : diesOk s.dies) :
    diesOk (State.strike s d e).dies := by
  unfold State.strike
  split
  · exact h
  · split
    · exact State.modGroup_ok _ _ _ _ h
    · exact State.modGroup_ok _ _ _ _ h
    · exact State.strikeGroup_ok _ _ _ h
    · exact State.strikeGroup_ok _ _ _ h
    · rename_i gid
      have hg := State.strikeGroup_ok s d gid h
      split
      · rename_i hp; rw [hp] at hg; exact State.strikeCore_ok _ _ _ _ _ hg
      · rename_i hp; rw [hp] at hg; exact hg
    · exact State.killNode_ok _ _ _ _ h
    · exact State.modDie_ok _ _ _ h fun x hx => hx
    · exact State.modDie_ok _ _ _ h fun x hx => hx
    · exact State.modDie_ok _ _ _ h fun x hx => hx
    · exact State.modDie_ok _ _ _ h fun x hx => hx
    · exact State.modGroup_ok _ _ _ _ h
    · exact State.modDie_ok _ _ _ h fun x hx => hx
    · split
      · exact State.strikeRope_ok _ _ _ _ h
      · exact h

@[simp] theorem State.nextTurn_ok (s : State) (h : diesOk s.dies) :
    diesOk (State.nextTurn s).2.dies := by
  unfold State.nextTurn
  (try simp +contextual (maxDischargeDepth := 12) [h]) <;> (repeat' (split <;> try simp_all +contextual (maxDischargeDepth := 12)))

@[simp] theorem State.reapDie_ok (s : State) (d : Nat) (h : diesOk s.dies) :
    diesOk (State.reapDie s d).dies := by
  unfold State.reapDie
  try simp only
  repeat' first
    | with_reducible assumption
    | with_reducible rfl
    | with_reducible apply State.killNode_ok
    | with_reducible apply modify_ok
    | with_reducible apply State.modDie_ok
    | with_reducible apply State.modGroup_ok
    | with_reducible apply foldl_ok
    | with_reducible apply foldl_fst_ok
    | with_reducible apply foldl_snd_ok
    | with_reducible apply foldl_wf
    | with_reducible apply die_wf
    | rw [State.draw_dies]
    | rw [State.newId_dies]
    | rw [Die.modSched_mem]
    | rw [Die.modPort_mem]
    | rw [Die.modCore_mem]
    | rw [Die.modCluster_mem]
    | rw [Die.modGroup_mem]
    | rw [Die.modNode_mem]
    | rw [Die.belayLog_mem]
    | rw [Die.commit_mem]
    | rw [Die.reserve_mem]
    | rw [Die.modQueue_mem]
    | intro _
    | split
    | (simp_all; done)

@[simp] theorem State.markAll_ok (s : State) (d : Nat) (h : diesOk s.dies) :
    diesOk (State.markAll s d).dies := by
  unfold State.markAll
  (try simp +contextual (maxDischargeDepth := 12) [h]) <;> (repeat' (split <;> try simp_all +contextual (maxDischargeDepth := 12)))

@[simp] theorem State.followUp_ok (s : State) (h : diesOk s.dies) :
    diesOk (State.followUp s).dies := by
  unfold State.followUp
  (try simp +contextual (maxDischargeDepth := 12) [h]) <;> (repeat' (split <;> try simp_all +contextual (maxDischargeDepth := 12)))

end Sys2Proof.Machine
end

