-- ==== Sys2Proof/Laws/Issue.lean ====
section
/-! SUPPORT. How a word's issue and a step end in an outcome. -/

namespace Sys2Proof.Machine

/-- A finish is the next state itself. -/
@[simp] theorem finish_next (s : State) : s.finish = .next s := rfl

/-- A step ends as its follow-up says where nothing has touched an Unpopulated address. -/
theorem settle_next (s : State) (h : s.followUp.hole = none) : s.settle = .next s.followUp := by
  unfold State.settle
  simp only [h]

/-- What a next state says of the end of a step. -/
theorem settle_eq_next (s t : State) : s.settle = .next t ↔ s.followUp.hole = none ∧ t = s.followUp := by
  unfold State.settle
  dsimp only
  cases s.followUp.hole with
  | none => simp [eq_comm]
  | some a => simp

/-- The end of a step is never a refusal. -/
theorem settle_ne_refused (s : State) (r : Refusal) : s.settle ≠ .refused r := by
  unfold State.settle
  dsimp only
  split <;> simp

/-- A word whose checks pass: its outcome is its body's state. -/
theorem issueWord_run {i : Instr} {s : State} {j : Job} {t : State} (body : Job → State → State)
    (h : s.prepared i i.view i.sig = .run j t) : issueWord i s body = .next (body j t) := by
  unfold issueWord
  rw [h]
  rfl

/-- A P word whose checks pass: its outcome is its body's state. -/
theorem issuePair_run {sop : Nat} {p : PairWord} {s : State} {j : Job} {t : State} (body : Job → State → State)
    (h : s.prepared default (.pair sop p) (fun _ => p.vop.sig p.vector) = .run j t) : issuePair sop p s body = .next (body j t) := by
  unfold issuePair
  rw [h]
  rfl

/-- Two changes of a die that agree on that die give the same state. -/
theorem State.modDie_congr (s : State) (d : Nat) (f g : Die → Die) (h : f (s.die d) = g (s.die d)) : s.modDie d f = s.modDie d g := by
  unfold State.modDie State.die at *
  congr 1
  apply List.ext_getElem?
  intro k
  simp only [List.getElem?_modify]
  by_cases hk : d = k
  · subst hk
    cases hx : s.dies[d]? with
    | none => rfl
    | some x =>
      have : (s.dies[d]?).getD default = x := by rw [hx]; rfl
      simp_all [List.getD_eq_getElem?_getD]
  · simp [hk]

end Sys2Proof.Machine
end

