-- ==== Sys2Proof/Tests/Slice0.lean ====
section
/-! SUPPORT. Tests: words that the spec writes out, ill-formed terms that the checks refuse, single steps with results from
the spec's own rules, and, for every row of the statements' tables, a state and operands that meet its hypotheses. -/

namespace Sys2Proof.Tests
open Sys2Proof.Machine Sys2Proof.Claims

set_option Elab.async false

/-! ## A small state -/

/-- The machine right after reset with one group of one warp that stands at address 0 of process 0, whose turn it is. -/
def lab : State := { State.reset.withFetchWord 64 0 with cur := ⟨0, 0, 0, 0⟩ }

/-- It with a change of die 0. -/
def labDie (f : Die → Die) : State := lab.modDie 0 f

/-- It with a change of its one group. -/
def labGroup (f : Group → Group) : State := labDie fun d => { d with groups := d.groups.map f }

/-- Lanes 0 to 31 of a group hold a value in a v-register. -/
def setV (n v : Nat) (g : Group) : Group := (List.range 32).foldl (fun g t => g.setWord (g.vWord t n) ⟨BitVec.ofNat 32 v, false⟩) g

/-- A guard that always holds. -/
def pt : Guard := ⟨false, 7⟩

/-- n words of the group's window, from an offset that is a multiple of 4, hold the bytes of a number. -/
def setW (off n v : Nat) (g : Group) : Group :=
  (List.range n).foldr (fun i g => g.setWord (off / 4 + i) ⟨BitVec.ofNat 32 (v / 2 ^ (32 * i)), false⟩) g

/-- A page of data at address 0x10000 and one of synchronisation objects at 0x20000: its object i is a counter of level
i mod 5 (a barrier object for 0), with TARGET 2 and, from object 5 on, DONE, and from object 10 on a pending arrival. -/
def labPages : List (Nat × List Byte) :=
  [(0x14008, toBytes 16 (1 * 2 ^ 60 + 0x30000 + 7 + (4 * 2 ^ 60 + 0x40000 + 3) * 2 ^ 64)),
   (0x40000, (List.range 15).flatMap fun i =>
     toBytes 32 (2 * 2 ^ 32 + i % 5 * 2 ^ 136 + (if 5 ≤ i ∧ i % 5 ≠ 0 then 2 ^ 139 else 0) + (if 10 ≤ i then 2 ^ 144 + 1 else 0)))]

/-- The extent table of a node whose one extent, of mode RW, holds the data page. -/
def labExt : ExtTable := ⟨[⟨1, false, 0, 0x10000, 0x10000⟩], [], [⟨0x10000, 0x10000, 0x30000, 0, 1, ⟨false, 0, false, none, 1⟩⟩]⟩

/-- The scratchpad starts here. -/
def scratch : Nat := 0x4000

/-- An MLOOP descriptor of two types, with operands in the data page. -/
def desc (a b : Nat) : Nat :=
  let sc := fun (t : Nat) => if 0x20 ≤ t then 0x18000 else 0
  0x10000 + 0x11000 * 2 ^ 64 + sc a * 2 ^ 128 + sc b * 2 ^ 192 + 32 * 2 ^ 256 + 32 * 2 ^ 288 + a * 2 ^ 480 + b * 2 ^ 488

/-- A layout record of two rows of 32 bytes in the data page, and a ring of slots of n bytes. -/
def layout (n : Nat) : Nat :=
  0x10000 + 64 * 2 ^ 64 + 2 * 2 ^ 256 + 2 ^ 272 + 2 ^ 288 + 32 * 2 ^ 304 + (scratch + 2048) * 2 ^ 320 + n * 2 ^ 352 + 2 * 2 ^ 384
    + 32 * 2 ^ 416

/-- A layout record of a queue form. -/
def layoutQ (n : Nat) : Nat := (scratch + 2048) * 2 ^ 320 + n * 2 ^ 352 + 2 * 2 ^ 384

/-- The group with descriptors, layout records and a task record in its scratchpad, one extent, format slots, handles (odd
ones bound), a dispatch table of 16 entries in the data page, and two threads with one return address each. -/
def furnish (g : Group) : Group :=
  let g := setW scratch 128 ((List.zipIdx [desc 0x10 0x11, desc 0x14 0x15, desc 0x20 0x23, desc 0x10 0x01, layout 64, layout 63, layoutQ 64,
    layoutQ 63]).foldl (fun v x => v + x.1 * 2 ^ (512 * x.2)) 0) g
  { g with
    ctx := { g.ctx with
      ext := labExt, fs := [0x12, 0x13, 0x20, 0x21, 0, 0, 0, 0], tlen := 16, tbase := 0x10000
      handles := (List.range 16).map fun i => ⟨i % 2 == 1, BitVec.ofNat 32 i, if i % 4 = 3 then 4 else 0, i, 0⟩ }
    threads := (g.threads.take 2).map fun h => { h with depth := 1 } }

/-- The small state with pages and a furnished group. -/
def rich : State := labDie fun d =>
  let d := labPages.foldl (fun d p => d.place p.1 p.2) d
  { d with groups := d.groups.map furnish }

/-- It with a change of its one group. -/
def richGroup (f : Group → Group) : State := rich.modDie 0 fun d => { d with groups := d.groups.map f }

/-- The operands of the four kinds of word. -/
structure Words where
  w : RegWord
  v : WideWord
  u : ShortWord
  p : PairWord
deriving DecidableEq, Repr, Inhabited

/-- Words of the three F forms on the same operands. -/
def ops (d a b c : Operand) (imm : Nat := 0) (mod : Nat := 0) (lit : Option DWord := none) : Words :=
  let m := BitVec.ofNat 2 mod
  let n := BitVec.ofNat 16 imm
  ⟨⟨pt, m, d, a, b, c, n, lit⟩, ⟨pt, m, d, a, BitVec.ofNat 32 imm⟩, ⟨pt, m, d, a, c, n, lit⟩, ⟨pt, 0, 0, 0, .mov, .v 0, .v 0, .v 0⟩⟩

/-- A state meets the hypotheses of a row. -/
def meets (c : Claim) (s : State) : Bool :=
  match c.checks s with
  | .run j t => c.ok j t
  | _ => false

/-- Every row of a table has its hypotheses met: each entry names rows, and a word and a state for them. -/
def covered (table : Words → List Claim) (l : List (List Nat × Words × State)) : Bool :=
  (l.all fun x => x.1.all fun k => ((table x.2.1)[k]?).any fun c => meets c x.2.2)
    && (List.range (table default).length).all fun k => l.any fun x => x.1.contains k

/-! ## The hypotheses of the tables about words are met -/

/-- v0, s0, p0, mt0 and a handle as operands. -/
def v0 : Operand := .v 0
def s0 : Operand := .s 0
def p0 : Operand := .p 0
def mt0 : Operand := .mt 0

/-- Words with a source A of 8 literal bytes. -/
def litA (d b c : Operand) (lit : DWord) (imm : Nat := 0) : Words := ops d .lit b c imm 0 lit

/-- Words of which one is a scalar pair. -/
def pairs : Words := { ops v0 v0 v0 v0 with p := ⟨pt, 0, 0, 0, .mov, v0, v0, v0⟩ }

/-- One row of a copy. -/
def aCopy (kind : CopyKind) : Copy :=
  { id := 5, gid := 2, depth := 0, kind, lay := { (default : Layout) with nslot := 2 }, off := 0, slot := 0, pn := 0, dom := none, vqn := none, done := [],
    parked := [], next := 1, cnt := 4, free := [1], busy := false, delivered := [0], closing := false, status := 0, grant := none, retry := false, putDue := none }

/-- The furnished state with a copy in core 0. -/
def copying (kind : CopyKind) : State :=
  rich.modDie 0 fun d => d.modCore 0 fun c => { c with copies := [{ aCopy kind with gid := (d.groups.map Group.gid).headD 0 }] }

/-- A trap of warp 0. -/
def aTrap (cause : Nat) : Trap := ⟨cause, 0, false, [], 8, 0, false⟩

/-- A gate frame with nothing saved. -/
def aGate : GateFrame := { (default : GateFrame) with depths := [0], pcs := [0x40], preds := [0], wdlimit := 26 }

/-- The furnished state with 1 in s0. -/
def one : State := richGroup fun g => g.setSreg 0 0 ⟨1, false⟩

theorem cover_integer : covered (fun o => integerTable o.w o.v o.u) [(List.range 21, ops v0 v0 v0 v0, rich)] := by decide +kernel
theorem cover_logic : covered (fun o => logicTable o.w o.v o.u) [(List.range 32, ops v0 v0 v0 v0, rich)] := by decide +kernel
theorem cover_predicate : covered (fun o => predicateTable o.w o.v o.u)
    [([0], ops p0 v0 v0 v0, rich), ([1, 2], ops v0 v0 v0 p0, rich), ([3], ops p0 p0 p0 v0, rich), ([4, 5, 6, 7, 9], ops v0 v0 v0 v0, rich),
     ([8], ops v0 v0 v0 v0 1, rich)] := by decide +kernel
theorem cover_float : covered (fun o => floatTable o.w)
    [([0, 1, 2, 3, 4, 5] ++ (List.range 13).map (· + 8) ++ (List.range 7).map (· + 23), ops v0 v0 v0 v0, rich), ([6, 7, 21, 22], ops p0 v0 v0 v0, rich)] := by
  decide +kernel
theorem cover_convert : covered (fun o => convertTable o.w)
    [([0, 1], ops v0 v0 v0 v0, rich), ([2], ops v0 v0 v0 v0 0x1313, rich), ([3], ops v0 v0 v0 v0 0x0112, rich), ([4], ops v0 v0 v0 v0 0x1205, rich),
     ([5], ops v0 v0 v0 v0 0x0101, rich), ([6, 7], ops v0 v0 v0 (.fs 0) 1, rich)] := by decide +kernel
theorem cover_lane : covered (fun o => laneTable o.w o.u)
    [([0, 1], ops v0 v0 s0 v0, rich), ([10], ops v0 p0 v0 v0, rich), (List.range' 2 8 ++ [11, 12, 13], ops v0 v0 v0 v0, rich)] := by decide +kernel
theorem cover_block : covered (fun o => blockTable o.w)
    [([0, 1, 2, 3, 5, 6, 7, 8], ops v0 v0 v0 v0 0x1200, rich), ([4, 9], ops v0 v0 v0 (.fs 2) 0x1200, rich)] := by decide +kernel
theorem cover_pair : covered (fun o => pairTable o.p) [(List.range 46, pairs, rich)] := by decide +kernel
theorem cover_pair_branch : covered (fun o => pairBranchTable o.p) [([1, 2], pairs, rich), ([0, 3], pairs, one)] := by decide +kernel
theorem cover_branch : covered (fun o => branchTable o.w o.v)
    [([0, 1, 2, 7], ops v0 v0 v0 v0, rich), ([4, 5], ops v0 s0 v0 v0, rich), ([3, 6], ops v0 s0 v0 v0, one)] := by decide +kernel
theorem cover_call : covered (fun o => callTable o.w o.v)
    [(List.range 5, ops v0 v0 v0 v0, rich), ([5], ops v0 v0 v0 v0, richGroup fun g => { g with threads := g.threads.map fun h => { h with depth := 0 } })] := by
  decide +kernel
theorem cover_wait : covered (fun o => waitTable o.w)
    [([0, 1, 2, 4, 5], ops v0 v0 v0 v0, rich), ([3], ops p0 v0 v0 v0, rich),
     ([6], ops v0 v0 v0 v0, richGroup fun g => { g with trap := some (aTrap Cause.preempt), preemptDue := some 0, saveRec := some 1 })] := by decide +kernel
theorem cover_window : covered (fun o => windowTable o.w) [(List.range 14, ops v0 v0 v0 v0, rich)] := by decide +kernel
theorem cover_memory : covered (fun o => memoryTable o.w) [(List.range 15, litA v0 v0 v0 0x10000, rich)] := by decide +kernel
theorem cover_counter : covered (fun o => counterTable o.w o.v)
    [([0], litA s0 s0 v0 0x20140, rich), ([1], litA s0 s0 v0 0x20000, rich), ([2], litA s0 .ones v0 0x20000, rich), ([3], litA v0 s0 v0 0x20020, rich),
     ([4], ops v0 s0 v0 v0, richGroup fun g => g.setSreg 0 0 ⟨0x20020, false⟩), ([5, 14, 15], litA s0 v0 v0 0x200C0, rich),
     ([6], litA s0 v0 v0 0x20020, rich), ([7], litA s0 s0 v0 0x200C0, rich), ([8], litA s0 s0 v0 0x20020, rich), ([9, 13], litA v0 v0 v0 0x20020, rich),
     ([10], ops v0 s0 s0 s0, rich), ([11], ops v0 s0 s0 .lit 0 0 (some 0x20020), rich), ([12], ops v0 v0 v0 v0, rich)] := by decide +kernel
theorem cover_queue : covered (fun o => queueTable o.w o.v)
    [([0], ops (.h 0) s0 v0 v0, rich), ([1], ops s0 (.h 0) s0 s0, rich), ([2], ops s0 (.h 9) s0 s0, rich), ([3], ops s0 (.h 7) s0 s0, rich),
     ([8], ops s0 (.h 0) v0 v0, rich), ([9], litA s0 v0 v0 0x4000, rich), ([10], litA s0 (.h 0) v0 0x4000, rich),
     ([11, 13, 15, 17], ops s0 (.h 0) s0 v0, rich), ([12, 14, 16, 18], ops s0 (.h 7) s0 v0, rich),
     ([4, 6], ops s0 (.h 0) .lit v0 6 0 (some 0x4000), rich), ([5, 7], ops s0 (.h 7) .lit v0 6 0 (some 0x4000), rich)] := by decide +kernel
theorem cover_tile : covered (fun o => tileTable o.w o.u)
    [([0, 6], ops s0 mt0 s0 .lit 0 0 (some 0x4000), rich), ([1, 3, 5, 7, 9, 11], ops s0 mt0 s0 s0, rich), ([2, 8], ops s0 mt0 s0 .lit 0 0 (some 0x4040), rich),
     ([4, 10], ops s0 mt0 s0 .lit 0 0 (some 0x4080), rich), ([12], ops s0 mt0 v0 v0, rich), ([13, 16], ops s0 mt0 s0 .lit 1 0 (some 0x10000), rich),
     ([14, 17], ops s0 mt0 s0 s0 1, rich), ([15], ops s0 mt0 s0 .lit 0 0 (some 0x10000), rich), ([18, 19, 20], ops v0 mt0 s0 s0, rich),
     ([21], ops s0 mt0 s0 v0, rich)] := by decide +kernel
theorem cover_stream : covered (fun o => streamTable o.w)
    [([0, 2], litA s0 s0 s0 0x4100, rich), ([1, 3], litA s0 s0 s0 0x4140, rich), ([4, 6], litA s0 (.h 0) s0 0x4180, rich),
     ([5, 7], litA s0 (.h 0) s0 0x4100, rich), ([8], ops v0 s0 s0 v0, rich), ([12], ops v0 v0 v0 v0 1, rich), ([13], ops s0 v0 v0 v0, rich),
     ([15], ops s0 s0 v0 v0, rich), ([9], litA v0 s0 v0 5 1, copying .fillQueue), ([10], litA v0 s0 v0 5, copying .fillQueue),
     ([11], litA v0 .ones v0 5, copying .fillQueue), ([14], ops s0 v0 v0 v0, copying .fill), ([16], ops s0 s0 v0 v0, copying .fill)] := by decide +kernel
theorem cover_system : covered (fun o => systemTable o.w)
    ((List.range 19).map (fun n => ([n + 6], ops v0 v0 v0 v0 n, rich)) ++
     [([0, 1, 2, 3], ops v0 v0 v0 v0, rich), ([25], litA v0 v0 v0 8 0x0B, rich), ([26], litA v0 v0 v0 8 0x0F, rich), ([27], litA v0 v0 v0 8 0x10, rich),
      ([28], litA v0 v0 v0 16 0x12, rich), ([29], litA v0 v0 v0 0 0x12, rich), ([4], ops v0 v0 v0 v0, richGroup fun g => { g with trap := some (aTrap Cause.trap) }),
      ([5], ops v0 v0 v0 v0 2, richGroup fun g => { g with trap := some (aTrap Cause.trap), gates := [aGate] })]) := by decide +kernel

/-! ## The hypotheses of the tables about device steps are met -/

/-- Every row of a table of device steps has its hypotheses met by its state. -/
def occurs (l : List EventClaim) (states : List State) : Bool :=
  l.length == states.length && (l.zip states).all fun x => x.1.ok x.2

/-- A microsecond. -/
def us : Nat := 1000000

/-- A die that has run for n µs. -/
def later (n : Nat) (d : Die) : Die := { d with ps := n * us }

/-- The small state without the belay partner of die 0. -/
def noPartner : State := lab.modDie 4 fun d => { d with phase := .down }

/-- The small state while its checkpoint for a planned reset is on its way, and once it is there. -/
def beginning (q : List BelaySave) : State := labDie fun d => { d with resetDue := true, stopped := some [], belayQ := q }

theorem occur_boot : occurs (bootTable 0)
    [lab, labDie fun d => { later 2000000 d with phase := .mirror }, labDie fun d => { d with flash := { d.flash with mirrorDue := true } },
     labDie fun d => { d with cpDue := true }, noPartner, noPartner.modDie 0 fun d => { d with resetDue := true }, lab,
     labDie fun d => { d with resetDue := true, sched := { d.sched with saven := 1 } },
     labDie fun d => { d with resetDue := true, groups := [] }, beginning [⟨.entry (.settled 1), []⟩], beginning []] := by decide +kernel

/-- The small state with two mismatches of roped issue in cluster 0. -/
def repeated : State := labDie fun d => d.modCluster 0 fun k => { k with repeats := 2 }

/-- The tables cover the causes of a unit, the seams and the ridge ports; the rows of a slice are below. -/
theorem occur_failure : occurs ((failureTable 0 0 1 0 1 126 []).take 1 ++ ((failureTable 0 0 3 0 1 126 []).drop 1).take 1
      ++ ((failureTable 0 0 2 0 1 126 []).drop 3).take 4 ++ (failureTable 0 0 2 16 1 126 []).drop 7)
    [lab, repeated, labDie fun d => { d with memctl := { d.memctl with chUncorr := [(0, 64)] } }, lab,
     labDie fun d => d.modLink 0 fun l => { l with changing := some 2 },
     labDie fun d => d.modLink 0 fun l => { l with changing := some 0 },
     labDie fun d => d.modLink 16 fun l => { l with changing := some 0 }, lab, lab, labDie fun d => { d with freqTo := some 1 },
     labDie fun d => { d with freqRunning := true, freqTo := some 1 }, lab, labDie fun d => { d with tj := 100 }, lab, lab, lab, lab] := by decide +kernel

/-- Whether a slice can tell its dirty lines is a function without a body (log entry 9), so one of the two rows of its loss applies. -/
theorem occur_slice : ((failureTable 0 0 2 0 1 126 [])[1]?.any fun c => c.ok lab) ∨ ((failureTable 0 0 2 0 1 126 [])[2]?.any fun c => c.ok lab) := by
  have h : (up 0 lab && (clusterNamed 0 0 lab).any fun l => !(lab.die 0).clusterOffline l) = true := by decide +kernel
  rcases e : Config.freeLost lab.draw.1 <;> simp_all [failureTable]

theorem occur_controller : occurs (controllerTable 0 0x30000 0 5 7 5 7 0 0 0 0)
    [rich, rich, rich, rich, rich, labDie fun d => d.place 0x30000 (toBytes 8 (2 ^ 60 + 2 ^ 11)), rich, rich, rich,
     labDie fun d => d.modCore 0 fun c => { c with prefetchQ := [.op 5], prefetches := [{ (default : Prefetch) with id := 5, gid := 65 }] }] := by
  decide +kernel

/-- An invalidation under way. -/
def invalidating (v : Nat) : State := labDie fun d => { d with space := { d.space with xinv := some (BitVec.ofNat 64 v) } }

/-- An invalidation of everything, while a counter of a page that is no longer mapped has a pending arrival. -/
def unmapping : State := (invalidating (2 ^ 63)).modDie 0 fun d =>
  { d.place 0x40140 (toBytes 32 (2 ^ 144)) with owing := [⟨0, 0x90000, ⟨⟨false, 0, false, none, 1⟩, 0x40140⟩⟩] }

theorem occur_space : occurs (spaceTable 0 0xF000000010000 8 5 0 1)
    [lab, invalidating 1, invalidating (2 ^ 62), invalidating (2 ^ 63), unmapping, invalidating 1, { lab with dies := lab.dies.map (later 60000) }] := by decide +kernel

/-- A NOP that has issued. -/
def anIssue : Issued := { (default : Issued) with i := .nop default }

/-- A parked word whose answer waits. -/
def parked (code : Nat) : State := labGroup fun g =>
  { g with log := [{ (default : ParkedWord) with x := anIssue, threads := [0], answer := some (code, []) }]
           threads := g.threads.map fun h => { h with wait := some (.fault 0) } }

/-- A parked row whose answer waits. -/
def parkedRow (code : Nat) : State := labDie fun d => d.modCore 0 fun c =>
  { c with copies := [{ aCopy .fill with gid := 65, parked := [0] }], slog := [{ (default : StreamLog) with copy := 5, answer := some code }] }

theorem occur_answer : occurs (answerTable 0 0 65 0) [parked 1, parked 2, parked 3, parkedRow 1, parkedRow 2, parkedRow 3, lab] := by decide +kernel

/-- A record of one group of one warp with 16 registers. -/
def aRecord : TaskRec :=
  { (default : TaskRec) with words := [0, BitVec.ofNat 64 (1 + 2 ^ 16 + 2 ^ 32 + 2 ^ 50), 0x11, 0, 0, 0, 0, 0, 0, 0, 0, 0, 0, 0, 0, 0] }

/-- The small state with a change of its scheduler, of its node, or with a record in translation. -/
def labSched (f : Sched → Sched) : State := labDie fun d => d.modSched f
def labNode (f : Node → Node) : State := labSched fun x => { x with nodes := x.nodes.map f }
def labTrans (w5 : DWord) (waiting : Bool) (answer : Option Nat) : State :=
  labSched fun x => { x with trans := [⟨0, { aRecord with words := aRecord.words.set 5 w5 }, waiting, answer, [], none⟩] }

/-- Every thread has exited. -/
def ended (g : Group) : Group := { g with threads := g.threads.map fun h => { h with exited := true } }

/-- An outbound operation of the group is under way. -/
def busyCore (d : Die) : Die := d.modCore 0 fun c => { c with outOps := [{ (default : OutOp) with dst := ⟨65, 0, 0, .s 0⟩ }] }

/-- Two threads wait. -/
def waitsFor (w : Wait) (g : Group) : Group := { g with threads := (g.threads.take 2).map fun h => { h with wait := some w } }

/-- A die of one core whose eight slots hold groups that have waited for 2 ms, and a node with a group more. -/
def swapping : State := labDie fun d =>
  { d with
    conf := { d.conf with bootClass := 2 ^ 18 + 2 ^ 26, clmap := 0x81 :: List.replicate 31 0 }
    groups := (List.range 8).flatMap fun k => d.groups.map fun g =>
      { waitsFor (.qwait anIssue) g with gid := 65 + k, slot := k, tiles := [], resPs := 2000 * us }
    sched := { d.sched with saven := 1, nodes := d.sched.nodes.map fun n => { n with total := 2 } } }

/-- A pipeline of two stages, of which the second has need and no group. -/
def stages : State := labDie fun d =>
  { later 10 d with
    sched := { d.sched with
      saven := 1
      nodes := d.sched.nodes.flatMap fun n =>
        [{ n with total := 9, stage := some ⟨7, 0, some (999, 0), none, 0, 4, true⟩ },
         { n with nid := 70, total := 9, stage := some ⟨7, 1, none, none, 0, 4, true⟩ }] } }

theorem occur_schedule : occurs (scheduleTable 0 0 65 64)
    [labSched fun x => { x with again := [aRecord] }, labTrans 0 false none, labTrans (17 * 2 ^ 59) false none, labTrans 0 true (some 1),
     labTrans 0 true (some 2), labSched fun x => { x with moves := [⟨1, 0, 99, 64⟩] }, labNode fun n => { n with total := 2 }, labGroup ended,
     (labGroup ended).modDie 0 busyCore, labGroup fun g => { g with phase := .tracked },
     labGroup fun g => { g with phase := .tracked, dead := true }, labNode fun n => { n with committing := true }, labNode fun n => { n with committing := true }, labNode fun n => { n with turning := true }, swapping,
     (labDie (later 2000)).modGroup 0 65 fun g => { waitsFor (.qwait anIssue) g with phase := .swapped 0 false },
     labGroup fun g => { g with preemptDue := some 0, saveRec := some 0 }, labDie (later 10), stages] := by decide +kernel

theorem occur_limit : occurs (limitTable 0 65 0 0 1)
    [labGroup fun g => { g with wdcount := [(0, 2 ^ 26)] },
     (labDie (later 100)).modGroup 0 65 fun g => { g with trap := some (aTrap Cause.watchdog) }, labGroup fun g => { g with poisonDue := some 0 },
     lab, lab, labGroup (waitsFor (.cwait anIssue ⟨default, 0x40000⟩ 0x20000 (some 0))), labGroup fun g => { g with gates := [{ aGate with ending := some 0 }] },
     labGroup fun g => { g with gates := [{ aGate with deadline := some 0 }] },
     labGroup fun g => { g with
       cairns := [{ (default : Cairn) with filed := [default] }], threads := g.threads.map fun h => { h with warp := none } }] := by decide +kernel

/-- A cluster's table with one entry. -/
def labTable (running : Option Nat) (pinWait : Bool) (op : MatOp) : State :=
  (labGroup fun g => { g with tiles := [default, default] }).modDie 0 fun d => d.modCluster 0 fun k =>
    { k with table := [{ (default : MatEntry) with id := 5, gid := 65, version := 1, op }], running, pinWait }

/-- An MLOOP of 65 steps. -/
def longLoop : MatOp := .mloop 65 (toBytes 64 (desc 0x10 0x11))

/-- A copy of one row of 32 bytes. -/
def labCopy (f : Copy → Copy) : State :=
  labDie fun d => d.modCore 0 fun c => { c with
    copies := [f { aCopy .fill with
      gid := 65, lay := { (default : Layout) with base := 0x10000, cnt1 := 1, cnt2 := 1, cnt3 := 1, rowb := 32, slotb := 64, nslot := 2 } }] }

/-- A launch at the head of its queue. -/
def labLaunch (retry : Bool) : State := labDie fun d => d.modCore 0 fun c =>
  { c with launches := [{ (default : PendLaunch) with id := 5, words := aRecord.words, dst := ⟨65, 0, 0, .s 0⟩, retry }], outQ := [.op 5] }

theorem occur_engine : occurs (engineTable 0 0 0 5 0)
    [labTable none false .mzero, labTable (some 5) false .mzero, labTable (some 5) false longLoop, labTable (some 5) true longLoop,
     labCopy id, labCopy fun c => { c with kind := .drain }, labCopy fun c => { c with kind := .fillQueue },
     labCopy fun c => { c with kind := .drainQueue }, labCopy fun c => { c with kind := .drainQueue, retry := true }, labLaunch false,
     labLaunch true] := by decide +kernel

/-- A message of a kind to queue 16. -/
def aMsg (kind : Nat) : Msg := { (default : Msg) with kind, inc := 1, qidx := 16, qgen := 1, mlen := 16, bytes := List.replicate 16 0 }

/-- A queue of 16 elements of 16 bytes, and a ticket of one. -/
def aQueue : Queue :=
  { (default : Queue) with index := 16, gen := 1, esize := 4, slots := 16, maxres := 8, life := 100, ownEnq := true, ownDeq := true }
def aTicket (st : TicketState) : Ticket := { (default : Ticket) with st, bytes := List.replicate 16 0 }

/-- A port with queues and messages. -/
def port (qs : List Queue) (inbox : List Msg) : State := labDie fun d => d.modPort fun p => { p with queues := qs, inbox := inbox }

/-- The answer to a SAVE. -/
def saved (m : Msg) : State := (port [] [aMsg Kind.saveack]).modDie 0 fun d => d.modPort fun p => { p with requests := [⟨0, 0, 0, .save, m, 0⟩] }

theorem occur_message : occurs (messageTable 0 0 16 0)
    [port [] [{ aMsg Kind.resv with inc := 0 }], port [] [aMsg Kind.resv], port [aQueue] [{ aMsg Kind.resv with arg0 := 1 }],
     port [] [{ aMsg Kind.put with inc := 0 }], port [{ aQueue with tickets := [aTicket .granted] }] [aMsg Kind.put],
     port [aQueue] [{ aMsg Kind.deq with arg0 := 1 }], port [] [{ aMsg Kind.cancel with inc := 0 }], port [] [aMsg Kind.cancel],
     port [aQueue] [{ aMsg Kind.cancel with arg0 := 1 }], port [aQueue] [aMsg Kind.cancel], port [] [aMsg Kind.rput],
     port [] [aMsg Kind.grant], port [] [aMsg Kind.stat], port [] [aMsg Kind.deliver], port [] [aMsg Kind.retry], port [] [aMsg Kind.probe],
     port [] [{ aMsg Kind.incarn with sdie := 1, arg0 := 1 }], port [] [{ aMsg Kind.incarn with sdie := 1, arg0 := 2 }],
     port [] [aMsg Kind.lostdie], port [] [{ aMsg Kind.lostdie with arg0 := 1 }], port [] [aMsg Kind.save],
     saved { aMsg Kind.save with arg1 := 1 }, saved (aMsg Kind.save),
     port [] [aMsg Kind.page], port [] [aMsg Kind.pageack],
     port [{ aQueue with tickets := [aTicket .committed], waiters := [default] }] [], lab] := by decide +kernel

/-- An element of the memory-service queue, a ticket of it, and a state with that one in the queue. -/
def svcElement (op : Nat) (va : Nat := 0x10000) : List Byte := toBytes 128 (op + (if op = 4 then 0 else 8) * 2 ^ 8 + va * 2 ^ 64)
def svcTicket (bytes : List Byte) : Ticket := { aTicket .committed with bytes := bytes, prod := ⟨0, 1, 1⟩ }
def serving (t : Ticket) : State := rich.modDie 0 fun d => (d.place 0x50000 (toBytes 16 (2 ^ 63))).modPort fun p =>
  { p with qntroot := 0x50001, queues := [{ aQueue with index := 2, ckind := 3, tickets := [t] }] }
def service (op : Nat) (va : Nat := 0x10000) : State := serving (svcTicket (svcElement op va))

/-- A request waits. -/
def waitingSvc (op : Nat) : State :=
  rich.modDie 0 fun d => d.modPort fun p => { p with waiting := [{ (default : WaitingSvc) with bytes := svcElement op }] }

/-- A request of a domain that is not its process's, with a registration for it in a state, if any. -/
def foreign (op : Nat) (st : Option Nat) : State :=
  (serving { svcTicket (svcElement op) with dom := 5 }).modDie 0 fun d => d.modPort fun p =>
    { p with registrations := (st.toList).map fun k => ⟨9, k, 0, 5, 0x10000, 0x10000, 7, 0⟩ }

/-- An earlier request of the same producer waits. -/
def behind (s : State) : State := s.modDie 0 fun d => d.modPort fun p => { p with waiting := [{ (default : WaitingSvc) with prod := ⟨0, 1, 1⟩ }] }

/-- The page of a request's address is another die's, or permits nothing; a word of the data page is poisoned. -/
def elsewhere (op : Nat) : State := (service op 0x30000).modDie 0 fun d => d.place 0x14018 (toBytes 8 (2 * 2 ^ 60 + 2 ^ 16))
def barred (op : Nat) : State := (service op 0x30000).modDie 0 fun d => d.place 0x14018 (toBytes 8 (2 ^ 60 + 0x30000))
def poisoned (op : Nat) : State := (service op).modDie 0 fun d => { d with poisonSec := [0x1800] }

/-- The states of a request that is refused, that may be performed but for its page, and that is admitted or waits. -/
def refusals (op : Nat) : List State :=
  [serving { svcTicket (svcElement op) with bad := [0] }, service op (if op = 3 then 1 else 0x1003F),
   (service op).modDie 0 fun d => d.modPort fun p => { p with qntroot := 0 }, foreign op (some 2), foreign op none]
def misplaced (op : Nat) : List State := [service op (2 ^ 60), service op 0x90000000, elsewhere op, barred op]
def admissions (op : Nat) : List State := [foreign op (some 1), behind (service op), behind (foreign op (some 1))]

theorem occur_service : occurs (serviceTable 0 0)
    ([1, 2, 3, 4, 4].map service ++
      [rich.modDie 0 fun d => d.modPort fun p => { p with moves := [{ (default : Move) with frame := 0x30000, toDie := 1 }] }, waitingSvc 1,
       waitingSvc 4] ++ [1, 2, 3].flatMap refusals ++ (misplaced 1 ++ [service 1] ++ misplaced 2 ++ [service 2] ++ misplaced 3 ++ [poisoned 3, service 3])
      ++ [1, 2, 3].flatMap admissions) := by decide +kernel

/-- A command of an index in progress, with registration 17 in a state. -/
def command (op block : Nat) (index : Nat := 17) (st : Nat := 1) : State := labDie fun d => d.modPort fun p =>
  { p with
    cmds := [⟨BitVec.ofNat 64 (op * 2 ^ 56 + index * 2 ^ 32), some (toBytes 64 block), none⟩]
    registrations := [⟨17, st, 0, 0, 0, 0, 0, 0⟩] }

/-- A command while queue 17 has a ticket. -/
def onQueue (op block : Nat) (st : TicketState) : State := (command op block).modDie 0 fun d => d.modPort fun p =>
  { p with queues := [{ aQueue with index := 17, gen := 1, ckind := 4, tickets := [aTicket st] }] }

/-- CONNECT from port 10 to port 9 of host 7, with queue 17 both ways. -/
def connecting : State := (command 6 (7 + 9 * 2 ^ 128 + 10 * 2 ^ 144 + (qid lab.pkg 0 17 1).toNat * (2 ^ 192 + 2 ^ 256))).modDie 0 fun d =>
  d.modPort fun p => { p with queues := [{ aQueue with index := 17, gen := 1, ckind := 4, ownEnq := true, ownDeq := true }] }

/-- A connection of index 17. -/
def closing (state : Nat) : State :=
  let s := command 7 0
  { s with host := { s.host with conns := [{ (default : Conn) with index := 17, state := state }] } }

/-- REGISTER of 64 bytes from 0, and the state in which the table holds some entries. -/
def registering : State := command 4 (2 ^ 134)
def holding (l : List Registration) : State := registering.modDie 0 fun d => d.modPort fun p => { p with registrations := l }

theorem occur_command : occurs ((commandTable 0 17).take 2 ++ (destroyRows 0 5).take 1 ++ (destroyRows 0 17).drop 1 ++ (nameRows 0).take 2
      ++ (nameRows 0).drop 3 ++ revokeRows 0 17 ++ (connectRows 1 17).take 1 ++ (connectRows 0 17).drop 1)
    [command 1 (4 * 2 ^ 57 + 16 * 2 ^ 40 + 8 * 2 ^ 33 + 100 * 2 ^ 17), command 1 0, command 2 0 5, command 2 0, onQueue 2 0 .committed,
     (onQueue 2 0 .taken).modDie 0 fun d => d.modPort fun p => { p with queues := p.queues.map fun q => { q with ckind := 0 } },
     command 3 0, command 4 1, registering, (command 5 0).modDie 0 fun d => d.modPort fun p => { p with registrations := [] },
     command 5 0 17 2, command 5 0, (command 5 0).modDie 0 fun d => d.modPort fun p => { p with registrations := [⟨17, 1, 0, 0, 0, 0, 0, 1⟩] },
     { command 6 0 with dies := (lab.dies.set 1 ((command 6 0).die 0)) }, command 6 0, connecting, command 7 0, closing 1, closing 0] := by
  decide +kernel

theorem holding_die (l : List Registration) : (holding l).die 0 = (registering.die 0).modPort fun p => { p with registrations := l } := by
  have n : 0 < registering.dies.length := by decide +kernel
  simp [holding, State.die, State.modDie, List.getD_eq_getElem?_getD, List.getElem?_eq_getElem n]

theorem holding_block (l : List Registration) : (holding l).argBlock 0 = ((2 ^ 134, false), holding l) := by
  have h : (registering.die 0).port.cmds.head?.bind PortCmd.block = some (toBytes 64 (2 ^ 134)) := by decide +kernel
  have e : ofBytes (toBytes 64 (2 ^ 134)) = 2 ^ 134 := by decide +kernel
  simp only [State.argBlock, holding_die, Die.modPort, h, e]

theorem holding_registers (l : List Registration) : (commanded 0 4 none (holding l) && (blockOf 0 (holding l)).any recordGood) = true := by
  have g : recordGood (2 ^ 134) = true := by decide +kernel
  simp only [commanded, Die.command, holding_die, Die.modPort, blockOf, holding_block, Option.any_some, g, Bool.and_true, Bool.false_eq_true,
    if_false]
  decide +kernel

theorem holding_keeps (l : List Registration) : ((afterBlock 0 (holding l)).die 0).port.registrations = l := by
  simp only [afterBlock, holding_block, holding_die, Die.modPort]

/-- The row of REGISTER where every index is taken. -/
theorem occur_register {l : List Registration} (h : ∀ i ∈ List.range 4096, l.any fun r => r.index == i) :
    (nameRows 0)[2]?.any fun c => c.ok (holding l) := by
  have e : freeEntry 0 (holding l) = none := by
    unfold freeEntry
    rw [holding_keeps, List.find?_eq_none]
    intro i hi
    simp [h i hi]
  simp only [nameRows, List.getElem?_cons_succ, List.getElem?_cons_zero, Option.any_some, e, Option.isNone_none, holding_registers,
    Bool.and_true]

theorem all_taken (n : Nat) : ∀ i ∈ List.range n, ((List.range n).map fun i => (⟨i, 1, 0, 0, 0, 0, 0, 0⟩ : Registration)).any fun r => r.index == i := by
  intro i hi
  simpa using hi

/-- A flit to send at the other end of seam 0. -/
def seamFlit : State := lab.modDie 1 fun d => d.modLink 0 fun l => { l with txq := [(false, 5)], credit0 := 5, credit1 := 5 }

theorem occur_link : occurs ((linkTable 0 0 0 1 3 5 0 []).take 2 ++ ((linkTable 0 16 0 1 3 5 0 []).drop 2).take 7 ++ (linkTable 0 0 0 1 3 5 0 []).drop 9)
    [seamFlit, seamFlit, lab, lab, lab, lab, labDie fun d => (later 50 d).modPort fun p => { p with reassembly := [default] },
     labDie fun d => (later 10000 d).modPort fun p => { p with doneRecs := [default] },
     labDie fun d => (later 5000 d).modPort fun p => { p with transit := [(default, 0)] }, labDie (later 100),
     { lab with dies := lab.dies.map (later 2000) },
     labDie fun d => (later 2000 d).modPort fun p => { p with requests := [⟨0, 5, 0, .save, default, 0⟩] }] := by decide +kernel

/-- A number's bytes, most significant first. -/
def netBytes (n x : Nat) : List Byte := (toBytes n x).reverse

/-- The frame of a datagram from port 9 of host 7 to a port of the package's host port (R420): Ethernet, IPv6, UDP. -/
def frame (dport : BitVec 16) (bs : List Byte) : List Byte :=
  let ends := netBytes 16 7 ++ netBytes 16 lab.host.unicast.toNat
  let len := netBytes 2 (8 + bs.length)
  let udp := fun (sum : List Byte) => netBytes 2 9 ++ netBytes 2 dport.toNat ++ len ++ sum ++ bs
  let sum := 0xFFFF - onesSum 0 (ends ++ [0, 0] ++ len ++ [0, 0, 0, 17] ++ udp [0, 0])
  let body := List.replicate 12 0 ++ [0x86, 0xDD, 0x60, 0, 0, 0] ++ len ++ [17, 64] ++ ends ++ udp (netBytes 2 sum)
  body ++ toBytes 4 (crc32 body)

/-- A connection on queue 16. -/
def aConn : Conn :=
  { (default : Conn) with
    index := 3, peer := 7, pport := 9, lport := 10, inq := qid lab.pkg 0 16 1, outq := qid lab.pkg 0 16 1, cwnd := 65536, rwin := 65536
    rto := 1000 * us }
def connected (f : Conn → Conn) (q : Queue) : State :=
  let s := port [q] []
  { s with host := { s.host with conns := [f aConn] } }

/-- A datagram with elements of 16 bytes. -/
def transport (type n : Nat) : List Byte :=
  frame 10 (toBytes 32 (type * 2 ^ 248 + 3 * 2 ^ 224 + 65536 * 2 ^ 96 + n * 2 ^ 80) ++ List.replicate (16 * n) 0)

/-- An element that was sent at time 0. -/
def wasSent : Unacked := ⟨0, 0, List.replicate 16 0, 0, false⟩

set_option maxRecDepth 100000 in
theorem occur_host : occurs ((hostTable (transport 1 1) 3 0).take 3 ++ (hostTable (transport 2 0) 3 lab.host.unicast).drop 3)
    [connected id aQueue, connected id { aQueue with maxres := 0 },
     (connected (fun c => { c with inq := qid lab.pkg 1 16 1 }) aQueue).modDie 1 fun d => d.modPort fun p => { p with queues := [aQueue] },
     connected id aQueue, connected (fun c => { c with ackDue := 1 }) aQueue,
     connected id { aQueue with ckind := 4, tickets := [aTicket .committed] },
     connected (fun c => { c with unacked := [wasSent], timeouts := 7, rto := 0 }) aQueue,
     connected (fun c => { c with unacked := [wasSent], rto := 0 }) aQueue, lab] := by decide +kernel

/-- A management command with its MAC, and a state with a session under a key of 64 bytes 1. -/
def command421 (op : Nat) (payload : List Byte) (mac : Nat) : List Byte :=
  frame lab.host.mgmtPort (toBytes 32 (op + payload.length * 2 ^ 32 + 5 * 2 ^ 64) ++ payload ++ toBig 64 mac)
def session (s : State) : State := { s with host := { s.host with sessionKey := some (List.replicate 64 1) } }
def tables : State := labDie fun d => { d with space := { d.space with procbase := 0x8001 }, port := { d.port with qntroot := 0x10001 } }

/-- Die 0 at alarm level 3, where READ needs no MAC (R431). -/
def locked : State := labDie fun d => { d with alarm := 3 }

/-- A command that die 0's management core has taken from queue 7 and performs next, with its datagram. -/
def performing (op : Nat) (payload : List Byte) (s : State) : List Byte × State :=
  (command421 op payload 0, s.modDie 0 fun d => { d with mgmtIn := [⟨op, 0, 5, payload, []⟩] })

/-- The rows of the management commands from row 2 on that perform one, each with its datagram and state. -/
def performances : List (List Byte × State) :=
  [performing 0x0B [] lab, performing 2 (List.replicate 27 0) tables, performing 3 (toBytes 20 (2 ^ 80 + 0x10000 * 2 ^ 16)) rich,
   performing 5 (toBytes 11 (0x10000 * 2 ^ 16)) rich, performing 0x0D (toBytes 9 0x30000) lab, performing 4 (toBytes 72 (2 ^ 56)) lab,
   performing 6 (toBytes 129 0) lab, performing 0x0C (toBytes 18 (1 + 8 * 2 ^ 8 + 0xF000000010000 * 2 ^ 16)) lab,
   performing 0x0C (toBytes 18 (8 * 2 ^ 8 + 0xF000000010000 * 2 ^ 16)) lab, performing 7 [] lab, performing 0x0A [1] lab, performing 9 [0] locked,
   performing 9 [1] locked, performing 9 [2, 0] locked, performing 9 [3] locked, performing 8 (List.replicate 64 0) lab,
   performing 8 (List.replicate 64 0) (labDie fun d => { d with flash := { d.flash with identity := false } })]

/-- The commands as they are accepted. The MACs were computed outside the model, with the Python library's HMAC-SHA-512. -/
def commands : List (List Byte × State) :=
  [(command421 2 (List.replicate 27 0)
     0x6abb7c4b08d888b610c33b332b205b26369d2e33504c16e5950f5b2a96602162dc4e03f0f5a03edca98b81a87c84ada89b460bccb9a637d977e6b4d0f7885281, session lab),
   (command421 3 (toBytes 20 (2 ^ 80 + 0x10000 * 2 ^ 16))
     0x96a1e58780395ffef988142056e549551f3fc5ddba273eb0031163f1bcba7694192d2a9eadfb1abd19294f05662005421f23f03ddd3a20c1e60b85021054d6d1, session lab),
   (command421 4 (toBytes 72 (2 ^ 56))
     0x1bdf557697355f0a89eb357340fd134e6250b443feda7569e9a7ae4c6b209eed18506c5cb83555ccfdceea5c3c71255f5728ee24cf3d39a0308a7ff8f6bc407d, session lab),
   (command421 5 (toBytes 11 (0x10000 * 2 ^ 16))
     0xd10a9c68555681117bae1afdc050e96accd977acacc2dc95ee4edbfe0e5a213c9ecb19f836c3a6aeb590258752b4ad3933a966b72f561ca27615a5e0c6ee4a69, session lab),
   (command421 6 (toBytes 129 0)
     0xba7e2c21c5c8881d3d687a38a5e37ef1a012abe19b1233db09469e5782c1480b37dab6c027ade32155ea28c22b3595f2e2f8dd372eb3556c5b6f68c780b7a5e8, session lab),
   (command421 7 []
     0xafe3116571c29d9410840b53bad33f853d4e4b13fe40806429a1f923745fe30fa3c1fe56114a582e6e1385c66606cbe534189977a225f262bfc666a27d327371, session lab),
   (command421 8 (List.replicate 64 0)
     0x4a3a6c276f794fa2113254a8f3f5d34861ceda4d338d1cdc663ba89f4ec781bc76907321c826f0c9bfe48be461986ede4a49267f0f2d34a2a1b85a553c09acba, session lab),
   (command421 9 [0] 0, locked),
   (command421 0x0A [1]
     0x2ec7666e0db03ebbedeb94bb6247477ddf6b1713588c7e4e4033aa9f8c74860ac7413a01ac8609e72a2a724b530edf5b015af512bcc20875021ab9ffb0f4018c, session lab),
   (command421 0x0B []
     0xcc452830e8d33f6d73059809750798609ee697b4fea7d99080ad592e5f8a7c846a60c7a9ab4a3c88ee4e7c07b9191ebaaebff0455cea73634b274e868cc36668, session lab),
   (command421 0x0C (toBytes 18 (8 * 2 ^ 8 + 0xF000000010000 * 2 ^ 16))
     0x96770ac6a1114384fab37650b8cada4d54d41cd1d2da81a0861daa9ce026834f74564d814617b62c4b5f8ddce23741f408898ac0a520001a8590fa9d44daac5e, session lab),
   (command421 0x0D (toBytes 9 0x30000)
     0x24bbb29bb054b0ae32e8bf8295584854200299ab921d709766018c44e5b06e8a6badf288a71930008ad1a8212c405238bcdca28dd8d2c3fbcf84a0eebc31d09e, session lab)]

/-- Each row from a place of the table on, with its datagram and state. -/
noncomputable def mgmtRows (n : Nat) (l : List (List Byte × State)) : List EventClaim :=
  l.zipIdx.map fun x => (mgmtTable x.1.1).getD (x.2 + n) ⟨.tamper, fun _ => false, id⟩

set_option maxRecDepth 100000 in
theorem occur_mgmt : occurs (mgmtRows 2 performances) (performances.map Prod.snd) := by decide +kernel

set_option maxRecDepth 100000 in
theorem occur_accept : occurs (mgmtRows 19 commands) (commands.map Prod.snd) := by decide +kernel

theorem mgmt_rows : (mgmtTable []).length = 2 + performances.length + commands.length := by decide +kernel

/-- The wrapped key and signature of a session. -/
def opening : List Byte := command421 1 (List.replicate 1024 0) 0

set_option maxRecDepth 100000 in
theorem opening_accepted : (lab.accept 1 opening).any fun x => x.1.payload.length == 1024 := by decide +kernel

/-- Whether a signature verifies is a function without a body (log entry 7), so one of the two rows of SESSION applies. -/
theorem one_session_row {fr : List Byte} {s : State} (h : (s.accept 1 fr).any fun x => x.1.payload.length == 1024) :
    (sessionOpens fr s).isSome ∨ (sessionRefused fr s).isSome := by
  obtain ⟨x, h, n⟩ := (Option.any_eq_true ..).mp h
  simp only [sessionOpens, sessionRefused, h, Option.filter, n, Bool.true_and]
  cases Config.sessionSigOk x.2.2.host.operatorKey (x.1.payload.take 512 ++ toBytes 8 x.1.seq) (x.1.payload.drop 512) <;> simp

theorem occur_session : (sessionOpens opening lab).isSome ∨ (sessionRefused opening lab).isSome := one_session_row opening_accepted

/-! ## Decoding: a word of every opcode, written from the layouts of R200 and R201, the operand codes of R206 and the map of
R212; and of every scalar opcode (R205, R207) -/

/-- Each word decodes to its instruction, which is well formed and encodes to it. -/
noncomputable def reads (l : List (Nat × Instr)) : Bool := l.all fun x => decodeTableWord 64 x.1 == some x.2 && x.2.encode == [BitVec.ofNat 64 x.1] && x.2.bad == none

/-- A word of the register form that always runs. -/
def r (mod : BitVec 2) (d a b c : Operand) (imm : BitVec 16) : RegWord := ⟨pt, mod, d, a, b, c, imm, none⟩

theorem decode_row_0 : reads
    [(0x1C01060408000000, .iadd (r 1 (.v 6) (.v 4) (.v 8) (.v 0) 0)), (0x1C04030405000000, .isub (r 0 (.v 3) (.v 4) (.v 5) (.v 0) 0)),
     (0x1C08030405000000, .iaddc (r 0 (.v 3) (.v 4) (.v 5) (.v 0) 0)), (0x1C0C030405000000, .imul (r 0 (.v 3) (.v 4) (.v 5) (.v 0) 0)),
     (0x1C12838485000000, .imulh (r 2 (.s 3) (.s 4) (.s 5) (.v 0) 0)), (0x1C14060905080000, .imad (r 0 (.v 6) (.v 9) (.v 5) (.v 8) 0)),
     (0x1C18060905080000, .imadw (r 0 (.v 6) (.v 9) (.v 5) (.v 8) 0)), (0x1C1E838485000000, .imin (r 2 (.s 3) (.s 4) (.s 5) (.v 0) 0)),
     (0x1C22838485000000, .imax (r 2 (.s 3) (.s 4) (.s 5) (.v 0) 0)), (0x1C24030500000000, .iabs (r 0 (.v 3) (.v 5) (.v 0) (.v 0) 0)),
     (0x1C28030500000000, .ineg (r 0 (.v 3) (.v 5) (.v 0) (.v 0) 0)), (0x1C2C060905080000, .isad (r 0 (.v 6) (.v 9) (.v 5) (.v 8) 0)),
     (0x1C30060405000003, .lea (r 0 (.v 6) (.v 4) (.v 5) (.v 0) 3)), (0x1C34030405000000, .and (r 0 (.v 3) (.v 4) (.v 5) (.v 0) 0)),
     (0x1C38030405000000, .or (r 0 (.v 3) (.v 4) (.v 5) (.v 0) 0)), (0x1C3C030405000000, .xor (r 0 (.v 3) (.v 4) (.v 5) (.v 0) 0))] := by decide +kernel

theorem decode_row_1 : reads
    [(0x1C40030405000000, .andn (r 0 (.v 3) (.v 4) (.v 5) (.v 0) 0)), (0x1C44030405000000, .orn (r 0 (.v 3) (.v 4) (.v 5) (.v 0) 0)),
     (0x1C48030500000000, .not (r 0 (.v 3) (.v 5) (.v 0) (.v 0) 0)),
     (0x1C4C0304050701E8, .lop3 (r 0 (.v 3) (.v 4) (.v 5) (.v 7) 0x1E8)),
     (0x1C50030405000000, .shl (r 0 (.v 3) (.v 4) (.v 5) (.v 0) 0)), (0x1C54030405000000, .shr (r 0 (.v 3) (.v 4) (.v 5) (.v 0) 0)),
     (0x1C58030405000000, .sar (r 0 (.v 3) (.v 4) (.v 5) (.v 0) 0)), (0x1C5C030405000000, .rol (r 0 (.v 3) (.v 4) (.v 5) (.v 0) 0)),
     (0x1C60060905080000, .shf (r 0 (.v 6) (.v 9) (.v 5) (.v 8) 0)), (0x1C64030500000000, .popc (r 0 (.v 3) (.v 5) (.v 0) (.v 0) 0)),
     (0x1C68030500000000, .clz (r 0 (.v 3) (.v 5) (.v 0) (.v 0) 0)), (0x1C6C030500000000, .ctz (r 0 (.v 3) (.v 5) (.v 0) (.v 0) 0)),
     (0x1C71060800000000, .brev (r 1 (.v 6) (.v 8) (.v 0) (.v 0) 0)), (0x1C76838485000000, .bfx (r 2 (.s 3) (.s 4) (.s 5) (.v 0) 0)),
     (0x1C78060905080000, .bfi (r 0 (.v 6) (.v 9) (.v 5) (.v 8) 0)), (0x1C7C060905080000, .prmt (r 0 (.v 6) (.v 9) (.v 5) (.v 8) 0))] := by decide +kernel

theorem decode_row_2 : reads
    [(0x1C80030489ABCDEF, .iaddWide ⟨pt, 0, (.v 3), (.v 4), 0x89ABCDEF⟩),
     (0x1C84030489ABCDEF, .isubWide ⟨pt, 0, (.v 3), (.v 4), 0x89ABCDEF⟩),
     (0x1C88030489ABCDEF, .iaddcWide ⟨pt, 0, (.v 3), (.v 4), 0x89ABCDEF⟩),
     (0x1C8C030489ABCDEF, .imulWide ⟨pt, 0, (.v 3), (.v 4), 0x89ABCDEF⟩),
     (0x1C94030400078001, .imadShort ⟨pt, 0, (.v 3), (.v 4), (.v 7), 0x8001, none⟩),
     (0x1C9A060500088001, .imadwShort ⟨pt, 2, (.v 6), (.v 5), (.v 8), 0x8001, none⟩),
     (0x1C9C030489ABCDEF, .iminWide ⟨pt, 0, (.v 3), (.v 4), 0x89ABCDEF⟩),
     (0x1CA0030489ABCDEF, .imaxWide ⟨pt, 0, (.v 3), (.v 4), 0x89ABCDEF⟩),
     (0x1CAC030400078001, .isadShort ⟨pt, 0, (.v 3), (.v 4), (.v 7), 0x8001, none⟩),
     (0x1CB006047FFFFFF8, .leaWide ⟨pt, 0, (.v 6), (.v 4), 0x7FFFFFF8⟩),
     (0x1CB4030489ABCDEF, .andWide ⟨pt, 0, (.v 3), (.v 4), 0x89ABCDEF⟩),
     (0x1CB8030489ABCDEF, .orWide ⟨pt, 0, (.v 3), (.v 4), 0x89ABCDEF⟩),
     (0x1CBC030489ABCDEF, .xorWide ⟨pt, 0, (.v 3), (.v 4), 0x89ABCDEF⟩)] := by decide +kernel

theorem decode_row_3 : reads
    [(0x1CC0030489ABCDEF, .andnWide ⟨pt, 0, (.v 3), (.v 4), 0x89ABCDEF⟩),
     (0x1CC4030489ABCDEF, .ornWide ⟨pt, 0, (.v 3), (.v 4), 0x89ABCDEF⟩),
     (0x1CCAC20405C3000C, .icmp (r 2 (.p 2) (.v 4) (.v 5) (.p 3) 0x0C)), (0x1CCC030405C10000, .sel (r 0 (.v 3) (.v 4) (.v 5) (.p 1) 0)),
     (0x1CD0030489ABCDEF, .shlWide ⟨pt, 0, (.v 3), (.v 4), 0x89ABCDEF⟩),
     (0x1CD4030489ABCDEF, .shrWide ⟨pt, 0, (.v 3), (.v 4), 0x89ABCDEF⟩),
     (0x1CD8030489ABCDEF, .sarWide ⟨pt, 0, (.v 3), (.v 4), 0x89ABCDEF⟩),
     (0x1CDC030489ABCDEF, .rolWide ⟨pt, 0, (.v 3), (.v 4), 0x89ABCDEF⟩),
     (0x1CE0030400078001, .shfShort ⟨pt, 0, (.v 3), (.v 4), (.v 7), 0x8001, none⟩),
     (0x1CE4C1C2C3000006, .pset (r 0 (.p 1) (.p 2) (.p 3) (.v 0) 6)), (0x1CE8030000000000, .pmov (r 0 (.v 3) (.v 0) (.v 0) (.v 0) 0)),
     (0x1CEC030400C58001, .selShort ⟨pt, 0, (.v 3), (.v 4), (.p 5), 0x8001, none⟩),
     (0x1CF4030489ABCDEF, .bfxWide ⟨pt, 0, (.v 3), (.v 4), 0x89ABCDEF⟩),
     (0x1CF8030400078001, .bfiShort ⟨pt, 0, (.v 3), (.v 4), (.v 7), 0x8001, none⟩),
     (0x1CFC030400073210, .prmtShort ⟨pt, 0, (.v 3), (.v 4), (.v 7), 0x3210, none⟩)] := by decide +kernel

theorem decode_row_4 : reads
    [(0x1D00030405000000, .faddF32 (r 0 (.v 3) (.v 4) (.v 5) (.v 0) 0)),
     (0x1D04030405000000, .fsubF32 (r 0 (.v 3) (.v 4) (.v 5) (.v 0) 0)),
     (0x1D08030405000000, .fmulF32 (r 0 (.v 3) (.v 4) (.v 5) (.v 0) 0)),
     (0x1D0E030405070000, .ffmaF32 (r 2 (.v 3) (.v 4) (.v 5) (.v 7) 0)),
     (0x1D10030405000000, .fminF32 (r 0 (.v 3) (.v 4) (.v 5) (.v 0) 0)),
     (0x1D14030405000000, .fmaxF32 (r 0 (.v 3) (.v 4) (.v 5) (.v 0) 0)),
     (0x1D18C10405C2000F, .fcmpF32 (r 0 (.p 1) (.v 4) (.v 5) (.p 2) 0x0F)),
     (0x1D1CC10500000155, .fclassF32 (r 0 (.p 1) (.v 5) (.v 0) (.v 0) 0x155)),
     (0x1D21030500000000, .frcpF32 (r 1 (.v 3) (.v 5) (.v 0) (.v 0) 0)),
     (0x1D25030500000000, .frsqF32 (r 1 (.v 3) (.v 5) (.v 0) (.v 0) 0)),
     (0x1D29030500000000, .fsqrtF32 (r 1 (.v 3) (.v 5) (.v 0) (.v 0) 0)),
     (0x1D2D030500000000, .fexp2F32 (r 1 (.v 3) (.v 5) (.v 0) (.v 0) 0)),
     (0x1D31030500000000, .flog2F32 (r 1 (.v 3) (.v 5) (.v 0) (.v 0) 0)),
     (0x1D35030500000000, .frndF32 (r 1 (.v 3) (.v 5) (.v 0) (.v 0) 0)),
     (0x1D38030405000000, .fscaleF32 (r 0 (.v 3) (.v 4) (.v 5) (.v 0) 0)),
     (0x1D3D030405070000, .ffmaF16x2 (r 1 (.v 3) (.v 4) (.v 5) (.v 7) 0))] := by decide +kernel

theorem decode_row_5 : reads
    [(0x1D40060408000000, .faddF64 (r 0 (.v 6) (.v 4) (.v 8) (.v 0) 0)),
     (0x1D44060408000000, .fsubF64 (r 0 (.v 6) (.v 4) (.v 8) (.v 0) 0)),
     (0x1D48060408000000, .fmulF64 (r 0 (.v 6) (.v 4) (.v 8) (.v 0) 0)),
     (0x1D4E0604080A0000, .ffmaF64 (r 2 (.v 6) (.v 4) (.v 8) (.v 10) 0)),
     (0x1D50060408000000, .fminF64 (r 0 (.v 6) (.v 4) (.v 8) (.v 0) 0)),
     (0x1D54060408000000, .fmaxF64 (r 0 (.v 6) (.v 4) (.v 8) (.v 0) 0)),
     (0x1D58C10408000006, .fcmpF64 (r 0 (.p 1) (.v 4) (.v 8) (.v 0) 0x06)),
     (0x1D5CC10800000155, .fclassF64 (r 0 (.p 1) (.v 8) (.v 0) (.v 0) 0x155)),
     (0x1D63060800000000, .frcpF64 (r 3 (.v 6) (.v 8) (.v 0) (.v 0) 0)),
     (0x1D67060800000000, .frsqF64 (r 3 (.v 6) (.v 8) (.v 0) (.v 0) 0)),
     (0x1D6B060800000000, .fsqrtF64 (r 3 (.v 6) (.v 8) (.v 0) (.v 0) 0)),
     (0x1D6F060800000000, .fexp2F64 (r 3 (.v 6) (.v 8) (.v 0) (.v 0) 0)),
     (0x1D73060800000000, .flog2F64 (r 3 (.v 6) (.v 8) (.v 0) (.v 0) 0)),
     (0x1D77060800000000, .frndF64 (r 3 (.v 6) (.v 8) (.v 0) (.v 0) 0)),
     (0x1D78060405000000, .fscaleF64 (r 0 (.v 6) (.v 4) (.v 5) (.v 0) 0)),
     (0x1D7D030405070000, .ffmaBf16x2 (r 1 (.v 3) (.v 4) (.v 5) (.v 7) 0))] := by decide +kernel

theorem decode_row_6 : reads
    [(0x1D80060500001213, .cvtFF (r 0 (.v 6) (.v 5) (.v 0) (.v 0) 0x1213)),
     (0x1D84030600000412, .cvtIF (r 0 (.v 3) (.v 6) (.v 0) (.v 0) 0x0412)),
     (0x1D89030600001303, .cvtFI (r 1 (.v 3) (.v 6) (.v 0) (.v 0) 0x1303)),
     (0x1D8C030500000201, .cvtII (r 0 (.v 3) (.v 5) (.v 0) (.v 0) 0x0201)),
     (0x1D90030500DC0012, .cvtsTo (r 0 (.v 3) (.v 5) (.v 0) (.fs 2) 0x12)),
     (0x1D94030500DC0012, .cvtsFrom (r 0 (.v 3) (.v 5) (.v 0) (.fs 2) 0x12)),
     (0x1D98030500001200, .packMx4 (r 0 (.v 3) (.v 5) (.v 0) (.v 0) 0x1200)),
     (0x1D9C030500001200, .packMx8e4 (r 0 (.v 3) (.v 5) (.v 0) (.v 0) 0x1200)),
     (0x1DA0030500001200, .packMx8e5 (r 0 (.v 3) (.v 5) (.v 0) (.v 0) 0x1200)),
     (0x1DA4030500001113, .packK4 (r 0 (.v 3) (.v 5) (.v 0) (.v 0) 0x1113)),
     (0x1DA8030500E01210, .packSlot (r 0 (.v 3) (.v 5) (.v 0) (.fs 6) 0x1210)),
     (0x1DAC030500001210, .unpkMx4 (r 0 (.v 3) (.v 5) (.v 0) (.v 0) 0x1210)),
     (0x1DB0030500001210, .unpkMx8e4 (r 0 (.v 3) (.v 5) (.v 0) (.v 0) 0x1210)),
     (0x1DB4030500001210, .unpkMx8e5 (r 0 (.v 3) (.v 5) (.v 0) (.v 0) 0x1210)),
     (0x1DB8030500001210, .unpkK4 (r 0 (.v 3) (.v 5) (.v 0) (.v 0) 0x1210)),
     (0x1DBC030500E01200, .unpkSlot (r 0 (.v 3) (.v 5) (.v 0) (.fs 6) 0x1200))] := by decide +kernel

theorem decode_row_7 : reads
    [(0x1DC0030500000000, .mov (r 0 (.v 3) (.v 5) (.v 0) (.v 0) 0)), (0x1DC4030089ABCDEF, .movi ⟨pt, 0, (.v 3), (.v 0), 0x89ABCDEF⟩),
     (0x1DC8030589000000, .bcast (r 0 (.v 3) (.v 5) (.s 9) (.v 0) 0)), (0x1DCC030589000000, .lane (r 0 (.v 3) (.v 5) (.s 9) (.v 0) 0)),
     (0x1DD0030405000004, .shflIdx (r 0 (.v 3) (.v 4) (.v 5) (.v 0) 4)),
     (0x1DD4030405070002, .shflRise (r 0 (.v 3) (.v 4) (.v 5) (.v 7) 2)),
     (0x1DD8030405070002, .shflFall (r 0 (.v 3) (.v 4) (.v 5) (.v 7) 2)),
     (0x1DDC030405000004, .shflXor (r 0 (.v 3) (.v 4) (.v 5) (.v 0) 4)),
     (0x1DE0030400000511, .shflIdxShort ⟨pt, 0, (.v 3), (.v 4), (.v 0), 0x511, none⟩),
     (0x1DE4030400070204, .shflRiseShort ⟨pt, 0, (.v 3), (.v 4), (.v 7), 0x204, none⟩),
     (0x1DE8030400070204, .shflFallShort ⟨pt, 0, (.v 3), (.v 4), (.v 7), 0x204, none⟩),
     (0x1DEC030400000511, .shflXorShort ⟨pt, 0, (.v 3), (.v 4), (.v 0), 0x511, none⟩),
     (0x1DF003C200000009, .vote (r 0 (.v 3) (.p 2) (.v 0) (.v 0) 9)),
     (0x1DF6030500000013, .reduxInt (r 2 (.v 3) (.v 5) (.v 0) (.v 0) 0x13)),
     (0x1DF9060800000016, .reduxFloat (r 1 (.v 6) (.v 8) (.v 0) (.v 0) 0x16)),
     (0x1DFC030500000001, .matchLanes (r 0 (.v 3) (.v 5) (.v 0) (.v 0) 1))] := by decide +kernel

theorem decode_row_8 : reads
    [(0x1E01030685008004, .ldB (r 1 (.v 3) (.v 6) (.s 5) (.v 0) 0x8004)),
     (0x1E05030685008004, .ldBI8 (r 1 (.v 3) (.v 6) (.s 5) (.v 0) 0x8004)),
     (0x1E09030685008004, .ldH (r 1 (.v 3) (.v 6) (.s 5) (.v 0) 0x8004)),
     (0x1E0D030685008004, .ldHI16 (r 1 (.v 3) (.v 6) (.s 5) (.v 0) 0x8004)),
     (0x1E11030685008004, .ldW (r 1 (.v 3) (.v 6) (.s 5) (.v 0) 0x8004)), (0x1E140685E2000008, .ldD (r 0 (.v 6) (.s 5) .zero (.v 0) 8)),
     (0x1E1A088605000010, .ldQ (r 2 (.v 8) (.s 6) (.v 5) (.v 0) 0x10)),
     (0x1E1D000605078004, .stB (r 1 (.v 0) (.v 6) (.v 5) (.v 7) 0x8004)),
     (0x1E21000605078004, .stH (r 1 (.v 0) (.v 6) (.v 5) (.v 7) 0x8004)),
     (0x1E25000605078004, .stW (r 1 (.v 0) (.v 6) (.v 5) (.v 7) 0x8004)), (0x1E280085E2060008, .stD (r 0 (.v 0) (.s 5) .zero (.v 6) 8)),
     (0x1E2E008605080010, .stQ (r 2 (.v 0) (.s 6) (.v 5) (.v 8) 0x10)),
     (0x1E30030605070F08, .atomW (r 0 (.v 3) (.v 6) (.v 5) (.v 7) 0x0F08)),
     (0x1E3406880A000081, .atomD (r 0 (.v 6) (.s 8) (.v 10) (.v 0) 0x81)),
     (0x1E38000000000004, .fence (r 0 (.v 0) (.v 0) (.v 0) (.v 0) 4)),
     (0x1E3C000605000040, .pref (r 0 (.v 0) (.v 6) (.v 5) (.v 0) 0x40))] := by decide +kernel

theorem decode_row_9 : reads
    [(0x1E40030605008004, .ldBWin (r 0 (.v 3) (.v 6) (.v 5) (.v 0) 0x8004)),
     (0x1E44030605008004, .ldBI8Win (r 0 (.v 3) (.v 6) (.v 5) (.v 0) 0x8004)),
     (0x1E48030605008004, .ldHWin (r 0 (.v 3) (.v 6) (.v 5) (.v 0) 0x8004)),
     (0x1E4C030605008004, .ldHI16Win (r 0 (.v 3) (.v 6) (.v 5) (.v 0) 0x8004)),
     (0x1E50030605008004, .ldWWin (r 0 (.v 3) (.v 6) (.v 5) (.v 0) 0x8004)),
     (0x1E54060585000008, .ldDWin (r 0 (.v 6) (.v 5) (.s 5) (.v 0) 8)),
     (0x1E58080585000008, .ldQWin (r 0 (.v 8) (.v 5) (.s 5) (.v 0) 8)),
     (0x1E5C000605078004, .stBWin (r 0 (.v 0) (.v 6) (.v 5) (.v 7) 0x8004)),
     (0x1E60000605078004, .stHWin (r 0 (.v 0) (.v 6) (.v 5) (.v 7) 0x8004)),
     (0x1E64000605078004, .stWWin (r 0 (.v 0) (.v 6) (.v 5) (.v 7) 0x8004)),
     (0x1E68000585060008, .stDWin (r 0 (.v 0) (.v 5) (.s 5) (.v 6) 8)),
     (0x1E6C000585080008, .stQWin (r 0 (.v 0) (.v 5) (.s 5) (.v 8) 8)),
     (0x1E70030605000002, .atomWWin (r 0 (.v 3) (.v 6) (.v 5) (.v 0) 2)),
     (0x1E740605080A0007, .atomDWin (r 0 (.v 6) (.v 5) (.v 8) (.v 10) 7)),
     (0x1E78008586870000, .prefRange (r 0 (.v 0) (.s 5) (.s 6) (.s 7) 0))] := by decide +kernel

theorem decode_row_A : reads
    [(0x1E80000000000002, .bar (r 0 (.v 0) (.v 0) (.v 0) (.v 0) 2)),
     (0x1E84008500000001, .barCount (r 0 (.v 0) (.s 5) (.v 0) (.v 0) 1)),
     (0x1E88838500000000, .barObject (r 0 (.s 3) (.s 5) (.v 0) (.v 0) 0)),
     (0x1E8C838500000000, .barObjectArrive (r 0 (.s 3) (.s 5) (.v 0) (.v 0) 0)),
     (0x1E90838586870002, .cinit (r 0 (.s 3) (.s 5) (.s 6) (.s 7) 2)), (0x1E94008586000000, .cadd (r 0 (.v 0) (.s 5) (.s 6) (.v 0) 0)),
     (0x1E98008400000005, .caddWide ⟨pt, 0, (.v 0), (.s 4), 5⟩), (0x1E9C838500000000, .cwait (r 0 (.s 3) (.s 5) (.v 0) (.v 0) 0)),
     (0x1EA0838586000000, .cwaitLimit (r 0 (.s 3) (.s 5) (.s 6) (.v 0) 0)),
     (0x1EA4008500000000, .cancel (r 0 (.v 0) (.s 5) (.v 0) (.v 0) 0)),
     (0x1EA8E28100000000, .launch (r 0 .zero (.s 1) (.v 0) (.v 0) 0)),
     (0x1EAC8381CC000000, .launchQueue (r 0 (.s 3) (.s 1) (.h 4) (.v 0) 0))] := by decide +kernel

theorem decode_row_B : reads
    [(0x1EC0CC8500000000, .qbind (r 0 (.h 4) (.s 5) (.v 0) (.v 0) 0)), (0x1EC483CC86000000, .qres (r 0 (.s 3) (.h 4) (.s 6) (.v 0) 0)),
     (0x1EC894CB00000004, .qresWide ⟨pt, 0, (.s 20), (.h 3), 4⟩), (0x1ECC83CC86870000, .qput (r 0 (.s 3) (.h 4) (.s 6) (.s 7) 0)),
     (0x1ED083CC86000009, .qget (r 0 (.s 3) (.h 4) (.s 6) (.v 0) 9)), (0x1ED483CC86000009, .qwait (r 0 (.s 3) (.h 4) (.s 6) (.v 0) 9)),
     (0x1ED883CC00000000, .qstat (r 0 (.s 3) (.h 4) (.v 0) (.v 0) 0)),
     (0x1EDC83CC86000000, .qcancelGrant (r 0 (.s 3) (.h 4) (.s 6) (.v 0) 0)),
     (0x1EE083CC86000000, .qcancelWait (r 0 (.s 3) (.h 4) (.s 6) (.v 0) 0))] := by decide +kernel

theorem decode_row_C : reads
    [(0x1F000000FFFFFFFC, .bra ⟨pt, 0, (.v 0), (.v 0), 0xFFFFFFFC⟩), (0x1F040000FFFFFFFC, .braU ⟨pt, 0, (.v 0), (.v 0), 0xFFFFFFFC⟩),
     (0x1F080000FFFFFFFC, .bray ⟨pt, 0, (.v 0), (.v 0), 0xFFFFFFFC⟩), (0x1F0C0087FFFFFFFC, .bruNz ⟨pt, 0, (.v 0), (.s 7), 0xFFFFFFFC⟩),
     (0x1F100087FFFFFFFC, .bruZ ⟨pt, 0, (.v 0), (.s 7), 0xFFFFFFFC⟩), (0x1F14000600000000, .jmp (r 0 (.v 0) (.v 6) (.v 0) (.v 0) 0)),
     (0x1F18000500000000, .jtab (r 0 (.v 0) (.v 5) (.v 0) (.v 0) 0)), (0x1F1C0000FFFFFFFC, .call ⟨pt, 0, (.v 0), (.v 0), 0xFFFFFFFC⟩),
     (0x1F20000600000000, .callRegister (r 0 (.v 0) (.v 6) (.v 0) (.v 0) 0)),
     (0x1F24000500000000, .callt (r 0 (.v 0) (.v 5) (.v 0) (.v 0) 0)), (0x1F28000000000000, .ret (r 0 (.v 0) (.v 0) (.v 0) (.v 0) 0)),
     (0x1F2C000500000000, .reform (r 0 (.v 0) (.v 5) (.v 0) (.v 0) 0)), (0x1F30000000000000, .exit (r 0 (.v 0) (.v 0) (.v 0) (.v 0) 0)),
     (0x1F34C10506008004, .wait (r 0 (.p 1) (.v 5) (.v 6) (.v 0) 0x8004)),
     (0x1F38000500000000, .sleep (r 0 (.v 0) (.v 5) (.v 0) (.v 0) 0)), (0x1F3C000000000000, .nop (r 0 (.v 0) (.v 0) (.v 0) (.v 0) 0))] := by decide +kernel

theorem decode_row_D : reads
    [(0x1F4083D985860000, .mloopB16 (r 0 (.s 3) (.mt 1) (.s 5) (.s 6) 0)),
     (0x1F4483D985860000, .mloopB8 (r 0 (.s 3) (.mt 1) (.s 5) (.s 6) 0)),
     (0x1F4883D985860000, .mloopB4 (r 0 (.s 3) (.mt 1) (.s 5) (.s 6) 0)),
     (0x1F4C99D9009A0002, .mloopB16Short ⟨pt, 0, (.s 25), (.mt 1), (.s 26), 2, none⟩),
     (0x1F5099D9009A0002, .mloopB8Short ⟨pt, 0, (.s 25), (.mt 1), (.s 26), 2, none⟩),
     (0x1F5499D9009A0002, .mloopB4Short ⟨pt, 0, (.s 25), (.mt 1), (.s 26), 2, none⟩),
     (0x1F5883D900000000, .mzero (r 0 (.s 3) (.mt 1) (.v 0) (.v 0) 0)),
     (0x1F5C83D985860012, .mldt (r 0 (.s 3) (.mt 1) (.s 5) (.s 6) 0x12)),
     (0x1F6083D985860030, .mldtWin (r 0 (.s 3) (.mt 1) (.s 5) (.s 6) 0x30)),
     (0x1F6483D985860000, .mst (r 0 (.s 3) (.mt 1) (.s 5) (.s 6) 0)),
     (0x1F6883D985860005, .mstSlot (r 0 (.s 3) (.mt 1) (.s 5) (.s 6) 5)),
     (0x1F6C83D985860005, .mstWinSlot (r 0 (.s 3) (.mt 1) (.s 5) (.s 6) 5)),
     (0x1F7003D985860004, .mrdF32 (r 0 (.v 3) (.mt 1) (.s 5) (.s 6) 4)),
     (0x1F7403D985860054, .mrdSlot (r 0 (.v 3) (.mt 1) (.s 5) (.s 6) 0x54)),
     (0x1F7804D985860002, .mrdA80 (r 0 (.v 4) (.mt 1) (.s 5) (.s 6) 2)),
     (0x1F7C83D985000000, .mver (r 0 (.s 3) (.mt 1) (.s 5) (.v 0) 0))] := by decide +kernel

theorem decode_row_E : reads
    [(0x1F80838586870000, .sfill (r 0 (.s 3) (.s 5) (.s 6) (.s 7) 0)),
     (0x1F848385CE870000, .sfillQueue (r 0 (.s 3) (.s 5) (.h 6) (.s 7) 0)),
     (0x1F88838586870000, .sdrain (r 0 (.s 3) (.s 5) (.s 6) (.s 7) 0)),
     (0x1F8C8385CE870000, .sdrainQueue (r 0 (.s 3) (.s 5) (.h 6) (.s 7) 0)),
     (0x1F90008586000001, .srel (r 0 (.v 0) (.s 5) (.s 6) (.v 0) 1)),
     (0x1F94000000000015, .sjoin (r 0 (.v 0) (.v 0) (.v 0) (.v 0) 0x15)),
     (0x1F98830000000000, .swait (r 0 (.s 3) (.v 0) (.v 0) (.v 0) 0)),
     (0x1F9C838500000000, .swaitCount (r 0 (.s 3) (.s 5) (.v 0) (.v 0) 0)),
     (0x1FA00000000000A5, .gate (r 0 (.v 0) (.v 0) (.v 0) (.v 0) 0xA5)),
     (0x1FA4000000000000, .gret (r 0 (.v 0) (.v 0) (.v 0) (.v 0) 0)),
     (0x1FA800000000A55A, .trap (r 0 (.v 0) (.v 0) (.v 0) (.v 0) 0xA55A)),
     (0x1FAC000000000002, .tret (r 0 (.v 0) (.v 0) (.v 0) (.v 0) 2)), (0x1FB0000000000000, .yield (r 0 (.v 0) (.v 0) (.v 0) (.v 0) 0)),
     (0x1FB4060000000101, .rdsr (r 0 (.v 6) (.v 0) (.v 0) (.v 0) 0x101)),
     (0x1FB800850000010F, .wrsr (r 0 (.v 0) (.s 5) (.v 0) (.v 0) 0x10F)),
     (0x1FBC00000000A55A, .brk (r 0 (.v 0) (.v 0) (.v 0) (.v 0) 0xA55A))] := by decide +kernel

/-- A P word with fadd v9, v10, v12 in its vector slot. -/
def q (sdst ssa : BitVec 6) (ssb : BitVec 8) : PairWord := ⟨pt, sdst, ssa, ssb, .fadd, .v 9, .v 10, .v 12⟩

theorem decode_pairs : reads
    [(0x5C08450640090A0C, .scalarIadd (q 33 5 6)), (0x5C18458540090A0C, .scalarIaddImm (q 33 5 133)),
     (0x5C28450640090A0C, .scalarIsub (q 33 5 6)), (0x5C38458540090A0C, .scalarIsubImm (q 33 5 133)),
     (0x5C48450640090A0C, .scalarImul (q 33 5 6)), (0x5C58458540090A0C, .scalarImulImm (q 33 5 133)),
     (0x5C68450640090A0C, .scalarImulh (q 33 5 6)), (0x5C78450640090A0C, .scalarImulhN64 (q 33 5 6)),
     (0x5C88450640090A0C, .scalarImin (q 33 5 6)), (0x5C98458540090A0C, .scalarIminImm (q 33 5 133)),
     (0x5CA8450640090A0C, .scalarImax (q 33 5 6)), (0x5CB8458540090A0C, .scalarImaxImm (q 33 5 133)),
     (0x5CC8450640090A0C, .scalarIminN64 (q 33 5 6)), (0x5CD8450640090A0C, .scalarImaxN64 (q 33 5 6)),
     (0x5CE8450040090A0C, .scalarIabs (q 33 5 0)), (0x5CF8450040090A0C, .scalarIneg (q 33 5 0)),
     (0x5D08450640090A0C, .scalarAnd (q 33 5 6)), (0x5D18458540090A0C, .scalarAndImm (q 33 5 133)),
     (0x5D28450640090A0C, .scalarOr (q 33 5 6)), (0x5D38458540090A0C, .scalarOrImm (q 33 5 133)),
     (0x5D48450640090A0C, .scalarXor (q 33 5 6)), (0x5D58458540090A0C, .scalarXorImm (q 33 5 133)),
     (0x5D68450640090A0C, .scalarAndn (q 33 5 6)), (0x5D78450040090A0C, .scalarNot (q 33 5 0)),
     (0x5D88450640090A0C, .scalarShl (q 33 5 6)), (0x5D98458540090A0C, .scalarShlImm (q 33 5 133)),
     (0x5DA8450640090A0C, .scalarShr (q 33 5 6)), (0x5DB8458540090A0C, .scalarShrImm (q 33 5 133)),
     (0x5DC8450640090A0C, .scalarSar (q 33 5 6)), (0x5DD8458540090A0C, .scalarSarImm (q 33 5 133)),
     (0x5DE8450640090A0C, .scalarRol (q 33 5 6)), (0x5DF8458540090A0C, .scalarRolImm (q 33 5 133)),
     (0x5E08450040090A0C, .scalarPopc (q 33 5 0)), (0x5E18450040090A0C, .scalarClz (q 33 5 0)),
     (0x5E28450040090A0C, .scalarCtz (q 33 5 0)), (0x5E38450040090A0C, .scalarBrev (q 33 5 0)),
     (0x5E48450040090A0C, .scalarMov (q 33 5 0)), (0x5E58408540090A0C, .scalarMovi (q 33 0 133)),
     (0x5E68450640090A0C, .scalarIcmpEq (q 33 5 6)), (0x5E78450640090A0C, .scalarIcmpLt (q 33 5 6)),
     (0x5E88450640090A0C, .scalarIcmpLtN64 (q 33 5 6)), (0x5E98458540090A0C, .scalarIcmpEqImm (q 33 5 133)),
     (0x5EA8458540090A0C, .scalarIcmpLtImm (q 33 5 133)), (0x5EB8458540090A0C, .scalarIcmpLtN64Imm (q 33 5 133)),
     (0x5EC005FE40090A0C, .scalarBruNz (q 0 5 254)), (0x5ED005FE40090A0C, .scalarBruZ (q 0 5 254)),
     (0x5EE8450640090A0C, .scalarIcmpNe (q 33 5 6)), (0x5EF8458540090A0C, .scalarIcmpNeImm (q 33 5 133))] := by decide +kernel

/-! ## What is no word (R213, R216) -/

/-- Why a word that stands alone does not decode. -/
noncomputable def why (w : DWord) : Option Bad :=
  match decodeWords w none with
  | .ok _ => none
  | .error b => some b

/-- R216's neighbouring words, and words for the other checks of R213. -/
theorem words_refused :
    why 0x5C10C31040090A0E = some .bank ∧ why 0x1C1F050608000000 = some .operand ∧ why 0x1C000506C2000000 = some .operand
      ∧ why 0x1C00810682000000 = some .operand ∧ why 0x0090000000000000 = some .opcode ∧ why 0x5E5144FF40090A0C = some .unused
      ∧ why 0x5E5140FF40090A0C = none ∧ why 0x5C10C31005090A0C = some .opcode ∧ why 0x5F00C31040090A0C = some .opcode
      ∧ why 0x5EC0431040090A0C = some .unused ∧ why 0x5C10C31040890A0C = some .operand ∧ why 0xDC00000000000000 = some .format
      ∧ why 0x9C010204EE000000 = some .truncated ∧ why 0x1C02030405000000 = some .modifier ∧ why 0x1C00030405000001 = some .unused
      ∧ why 0x1C00030405060000 = some .unused := by decide +kernel

/-- An ill-formed term for each check of R213 on terms. -/
theorem terms_refused :
    (Instr.iadd (r 2 (.v 3) (.v 4) (.v 5) (.v 0) 0)).bad = some .modifier ∧ (Instr.imin (r 3 (.v 5) (.v 6) (.v 8) (.v 0) 0)).bad = some .operand
      ∧ (Instr.nop (r 0 (.v 1) (.v 0) (.v 0) (.v 0) 0)).bad = some .unused
      ∧ (Instr.scalarIaddImm ⟨pt, 3, 3, 16, .fadd, .v 9, .v 10, .v 14⟩).bad = some .bank
      ∧ ¬(Instr.lop3 (r 0 (.v 3) (.v 4) (.v 5) (.v 7) 0x2E8)).WellFormed := by decide +kernel

/-- A word of format 10 is cut short without its literal; with it, it decodes and encodes back (R199, R202, R216). -/
theorem literal_word : decodeTableWord 128 0x0000000123456789_9C010204EE000000 = some (.iadd { r 1 (.v 2) (.v 4) .lit (.v 0) 0 with lit := some 0x123456789 })
    ∧ (Instr.iadd { r 1 (.v 2) (.v 4) .lit (.v 0) 0 with lit := some 0x123456789 }).encode = [0x9C010204EE000000, 0x123456789] := by decide +kernel

/-! ## Single steps -/

/-- What a word leaves of the group of `lab`, with a change of the group before. -/
noncomputable def after (i : Instr) (f : Group → Group) : Option Group :=
  match exec i (labGroup f) with
  | .next s => s.group? 0 65
  | _ => none

/-- A v-register of a thread. -/
def Group.vreg (g : Group) (t n : Nat) : Nat := (g.word (g.vWord t n)).val.toNat

/-- R243: addition wraps. -/
theorem test_iadd_wraps : (after (.iadd (r 0 (.v 3) (.v 1) (.v 2) (.v 0) 0)) fun g => setV 2 2 (setV 1 0xFFFFFFFF g)).map (fun g => (Group.vreg g 31 3, (g.thread 31).pc))
    = some (1, 8) := by decide +kernel

/-- R244: the carry goes through p6. -/
theorem test_iaddc_carry : (after (.iaddc (r 0 (.v 3) (.v 1) (.v 1) (.v 0) 0)) fun g => setV 1 0x80000000 g).map (fun g => (Group.vreg g 0 3, (g.thread 0).pred 6))
    = some (0, true) := by decide +kernel

/-- R243: the absolute value of the most negative number is itself. -/
theorem test_iabs_min : (after (.iabs (r 0 (.v 3) (.v 1) (.v 0) (.v 0) 0)) fun g => setV 1 0x80000000 g).map (fun g => Group.vreg g 5 3) = some 0x80000000 := by
  decide +kernel

/-- R246: a shift amount is taken mod 32. -/
theorem test_shr_by_33 : (after (.shr (r 0 (.v 3) (.v 1) (.v 2) (.v 0) 0)) fun g => setV 2 33 (setV 1 8 g)).map (fun g => Group.vreg g 0 3) = some 4 := by
  decide +kernel

/-- R255, R225: 1 + 2^−24 is a tie, which goes to the even 1. -/
theorem test_fadd_tie : (after (.faddF32 (r 0 (.v 3) (.v 1) (.v 2) (.v 0) 0)) fun g => setV 2 0x33800000 (setV 1 0x3F800000 g)).map (fun g => Group.vreg g 0 3)
    = some 0x3F800000 := by decide +kernel

/-- R256: FEXP2(3.0) = 8.0 and FLOG2(0.25) = −2.0. -/
theorem test_fexp2_of_3 : (after (.fexp2F32 (r 0 (.v 3) (.v 1) (.v 0) (.v 0) 0)) fun g => setV 1 0x40400000 g).map (fun g => Group.vreg g 0 3)
    = some 0x41000000 := by decide +kernel
theorem test_flog2_of_quarter : (after (.flog2F32 (r 0 (.v 3) (.v 1) (.v 0) (.v 0) 0)) fun g => setV 1 0x3E800000 g).map (fun g => Group.vreg g 0 3)
    = some 0xC0000000 := by decide +kernel

/-- R205: both slots read before either writes, so fadd v9, v10, v12 beside iadd s3, s3, 16 leaves 16 in s3. -/
theorem test_pair : (after (.scalarIaddImm ⟨pt, 3, 3, 16, .iadd, .v 9, .s 3, .v 12⟩) fun g => setV 12 5 (g.setSreg 0 3 ⟨7, false⟩)).map
    (fun g => ((g.sreg 0 3).val, Group.vreg g 0 9)) = some (23, 12) := by decide +kernel

/-- The first step of the example of chapter 9: a call from a warp of four threads, of which two are guarded (R277). Lanes 0
and 1 go to 0x300 at depth 1 and keep 0x208; lanes 2 and 3 go to 0x208. -/
theorem test_call : (after (.call ⟨⟨false, 1⟩, 0, .v 0, .v 0, 0x20⟩) fun g =>
      { g with threads := (g.threads.take 4).mapIdx fun k h => { h with pc := 0x200, preds := if k < 2 then 2 else 0 } }).map
    (fun g => ((List.range 4).map fun t => ((g.thread t).pc, (g.thread t).depth), ofBytes (g.window (g.b2 + 8) 8).1))
    = some ([(0x300, 1), (0x300, 1), (0x208, 0), (0x208, 0)], 0x208) := by decide +kernel

/-- FIPS 180-4: the SHA-512 of "abc". -/
theorem test_sha512_abc : fromBig (sha512 [0x61, 0x62, 0x63])
    = 0xddaf35a193617abacc417349ae20413112e6fa4e89a97ea20a9eeee64b55d39a2192992a274fc1a836ba3c23a3feebbd454d4423643ce80e2a9ac94fa54ca49f := by
  decide +kernel

/-- The CRC-32 of "123456789", the check value of IEEE 802.3's CRC. -/
theorem test_crc32 : crc32 [0x31, 0x32, 0x33, 0x34, 0x35, 0x36, 0x37, 0x38, 0x39] = 0xCBF43926 := by decide +kernel

/-! ## The hypotheses of the other statements are met -/

/-- The state that fetches a NOP (0xCF) next. -/
def nopNext : State := State.reset.withFetchWord 64 0x1F3C000000000000

/-- StepRunsDecoded: the first place that core 0 looks at has threads at address 0, whose word is fetched clean, decodes, and waits
for nothing. -/
theorem witness_step_runs_decoded : (match nopNext.nextTurn with
    | (.issue d core, u) =>
      let v := u.resumeCore d core
      (u.die d).phase == .up && !(u.die d).paused && match ((v.die d).core core).places with
        | p :: _ => match (v.die d).groupAt core (p / 8) with
          | some g => match (g.clearY (p % 8)).select (p % 8), v.fetchWord d core (g.clearY (p % 8)).ctx.pn 0 with
            | first :: more, (.ok x, t) => ((g.clearY (p % 8)).thread first).pc == 0 && match decodeWords (BitVec.ofNat 64 x) (some (BitVec.ofNat 64 (x / 2 ^ 64))) with
              | .ok i => i == .nop (r 0 (.v 0) (.v 0) (.v 0) (.v 0) 0)
                && !(Instr.touches i (g.clearY (p % 8)) (p % 8) (first :: more)).any (g.clearY (p % 8)).isPending
                && !((g.clearY (p % 8)).parked (p % 8) && !(g.clearY (p % 8)).trap.isSome && i.view.heldByPark)
                && ((t.die d).core core).portFree p ((i.sig ((g.clearY (p % 8)).slot64 i i.fields)).bankMask i.fields) i.view.memRow
              | .error _ => false
            | _, _ => false
          | none => false
        | [] => false
    | _ => false) = true := by decide +kernel

/-- StepKeepsInv and ResetInv: that state has the invariant, and its step, which runs the NOP (R282), answers a next state. -/
theorem witness_step_keeps_inv : (match step nopNext with
    | .next s => nopNext.hole.isNone && nopNext.dies.length == 8 && nopNext.dies.all (fun x => Memory.wf x.mem) && (s.group? 0 65).any fun g => (g.thread 31).pc == 8
    | _ => false) = true := by decide +kernel

/-- StepRunsDeviceStep, with a step that carries a request, one of an engine and one of a unit. -/
theorem witness_step_runs_device_step :
    (State.nextTurn { lab with agenda := [.event (.hbmZero 0 0)] }).1 = .event (.hbmZero 0 0) ∧ (Instr.hbmZero 0 0).view = .step ∧ asked (.hbmZero 0 0) = true
      ∧ (State.nextTurn { lab with agenda := [.event (.matrixPassEnd 0 0)] }).1 = .event (.matrixPassEnd 0 0) ∧ engineDie (.matrixPassEnd 0 0) = some 0
      ∧ (lab.die 0).paused = false ∧ (State.nextTurn { lab with agenda := [.event (.xinvAll 0)] }).1 = .event (.xinvAll 0)
      ∧ unitDie (.xinvAll 0) = some 0 ∧ (lab.die 0).stopped = none := by decide +kernel

/-- The issue of a word by warp 0 of a state: idle 0, trap 1 with its cause, skip 2, run 3. -/
def issue (i : Instr) (s : State) : Nat × Nat :=
  match checksOf i s with
  | .idle => (0, 0)
  | .trap _ _ c _ => (1, c)
  | .skip _ _ => (2, 0)
  | .run _ _ => (3, 0)

/-- EveryWordIsChecked: each way in which an issue can end. -/
theorem witness_every_word_is_checked :
    issue (.nop (r 0 v0 v0 v0 v0 0)) State.reset = (0, 0) ∧ issue (.nop { r 0 v0 v0 v0 v0 0 with guard := ⟨true, 7⟩ }) lab = (2, 0)
      ∧ issue (.iadd (r 2 v0 v0 v0 v0 0)) lab = (1, Cause.illegal)
      ∧ issue (.imin { r 3 (.v 4) (.v 6) (.v 8) v0 0 with guard := ⟨true, 7⟩ }) (labGroup fun g => { g with ctx := { g.ctx with frame := { g.ctx.frame with regs := 7 } } })
        = (1, Cause.register)
      ∧ issue (.mov (r 0 v0 s0 v0 v0 0)) (labGroup fun g => g.setSreg 0 0 ⟨1, true⟩) = (1, Cause.poison)
      ∧ issue (.nop (r 0 v0 v0 v0 v0 0)) lab = (3, 0) := by decide +kernel

/-- WordIssues: a NOP in the small state. -/
theorem witness_word_issues : (match (lab.die lab.cur.d).groupAt lab.cur.core lab.cur.slot with
    | some g =>
      let i := Instr.nop (r 0 v0 v0 v0 v0 0)
      let h := g.clearY lab.cur.warp
      let sig := sigOf i (h.slot64 i i.view.fields)
      match h.select lab.cur.warp with
      | first :: more =>
        ((first :: more).filter fun t => (h.thread t).guard i.view.fields.guard) == first :: more && i.view != .step && i.view.bad sig == none
          && !sig.unallocated i.view.fields h.ctx.frame.regs (if h.ctx.tilesOk then h.tiles.length else 0) && sig.legal
          && !h.anyBadS (i.view.scalarSources lab.cur.warp) && (first :: more).all fun t => !h.consumes (i.view.ownSources sig) i.view.fields lab.cur.warp t
      | [] => false
    | none => false) = true := by decide +kernel

/-- UnassignedWordsRefused: a word for each of its four cases. -/
theorem witness_unassigned :
    let a : DWord := 0xC000000000000000
    let b : DWord := 0x1FC0000000000000
    let c : DWord := 0x7F00000000000000
    let e : DWord := 0x9C80030400000001
    bits a.toNat 63 62 = 3 ∧ (bits b.toNat 63 62 = 0 ∧ opcodeForm (bits b.toNat 57 50) = none) ∧ (bits c.toNat 63 62 = 1 ∧ bits c.toNat 57 52 = 0x30)
      ∧ bits e.toNat 63 62 = 2 ∧ opcodeForm (bits e.toNat 57 50) = some .wide := by decide +kernel

/-- A job that runs in a state, and that state. -/
def running (i : Instr) (s : State) : Option (Job × State) :=
  match checksOf i s with
  | .run j t => some (j, t)
  | _ => none

/-- ResultReachesRegisters: the second register of a pair at the end of the registers. -/
theorem witness_result_reaches : (running (.iadd (r 1 (.v 126) v0 v0 v0 0)) lab).any (fun (j, s) =>
    (s.group? j.d j.gid).isSome && j.f.dst == .v 126 && j.act == List.range 32 && j.x.lanes.length == 32 && (j.sig.dst.width + 31) / 32 == 2
      && (j.group s).ctx.frame.regs == 128) = true := by decide +kernel

/-- WindowStoreFrame: 4 bytes from each lane to one offset, where no lane but the last is uncovered; 16 bytes to offsets 16 apart,
where every lane's last byte stands at the edge of the next lane's; and no thread in WAIT. The loads and the atomics have their
hypotheses met in cover_window. -/
theorem witness_window_store : (running (.stWWin (r 0 v0 (.v 1) v0 (.v 2) 0)) rich).any (fun (j, s) =>
      windowOpen j s 4 true (windowOff j) && j.x.lanes.length == 2 && noWait (j.group s)) = true
    ∧ (running (.stQWin (r 0 v0 (.v 1) v0 (.v 4) 0)) (richGroup fun g => g.setWord (g.vWord 1 1) ⟨16, false⟩)).any (fun (j, s) =>
      windowOpen j s 16 true (windowOff j) && j.x.lanes.map (windowOff j) == [0, 16] && noWait (j.group s)) = true := by decide +kernel

/-- A line of the data page, at address 0x30000 + 64 k. -/
def aLine (k : Nat) : LineRef := ⟨0x30000 + 64 * k, ⟨false, 0, false, none, 1⟩, none⟩

/-- A store of a value to the last byte of the first line by the node of the small state. -/
def stored (v : Byte) (d : Die) : Die := d.storeLine ⟨0, 0, 0, 64, 0⟩ (aLine 0) [(63, v)]

/-- The state in which the node's writes are tentative. -/
def tentative (s : State) : State :=
  s.modDie 0 fun d => { d with sched := { d.sched with nodes := d.sched.nodes.map fun n => { n with revocable := true } } }

/-- A dirty line. -/
def dirtyLine : L2Line :=
  { (default : L2Line) with line := 0x30000, valid := BitVec.allOnes 64, dirty := BitVec.allOnes 64, data := 5 }

/-- LineStoreFrame: a line that is in memory alone, in a slice with room; another line of the page stands beside it. -/
theorem witness_line_store : plainLine (aLine 0) ∧ plainLine (aLine 1) ∧ roomFor (rich.die 0) (aLine 0) ∧ placesApart (rich.die 0) 64 := by
  refine ⟨by unfold plainLine; decide +kernel, by unfold plainLine; decide +kernel, ⟨0, 1, by decide, by decide, by decide, ?_⟩, ?_⟩
  · rw [show (rich.die 0).l2 = [] by decide +kernel]; simp
  · intro n h
    rw [show (rich.die 0).node? 64 = some ((((rich.die 0).node? 64)).getD default) by decide +kernel] at h
    rw [← Option.some.inj h]; decide +kernel

/-- The same where the line stands in its slice, and where the node's writes are tentative and its copy stands there. -/
theorem witness_line_store_again : standsThere (stored 1 (rich.die 0)) 64 (aLine 0) ∧ standsThere (stored 1 ((tentative rich).die 0)) 64 (aLine 0)
    ∧ ((tentative rich).die 0).tentative 64 = true := by
  unfold standsThere; decide +kernel

/-- EvictWritesBack: every byte of the line's two sectors is valid and dirty, and neither sector is bad. -/
theorem witness_evict :
    let d := rich.die 0
    Memory.wf d.mem = true ∧ dirtyLine.node = none ∧ dirtyLine.pres = none ∧ dirtyLine.line % 64 = 0 ∧ dirtyLine.dirty.toNat.testBit 63 = true
      ∧ dirtyLine.valid.toNat.testBit 63 = true ∧ dirtyLine.mark.toNat.testBit 1 = false ∧ d.sectorBad (dirtyLine.line / 32 + 1) = false := by decide +kernel

/-- Every place of a store is in a line that stands in its slice. -/
def inPlace (d : Die) (nid : Nat) (l : LaneSpots) : Bool :=
  l.spots.all fun k => match k with
    | .line r i => i < 64 && r.pres == none && r.attr.afmt == none && r.addr % 64 == 0 && (d.l2Find r).isSome && (d.tentOf nid r).isNone
    | .reg _ => false

theorem inPlace_gives {d : Die} {nid : Nat} {l : LaneSpots} (h : inPlace d nid l = true) :
    ∀ k ∈ l.spots, ∃ r i, k = .line r i ∧ i < 64 ∧ plainLine r ∧ (d.l2Find r).isSome = true ∧ d.tentOf nid r = none := by
  intro k hk
  have h := List.all_eq_true.mp h k hk
  cases k with
  | reg a => simp at h
  | line r i =>
    simp only [Bool.and_eq_true, decide_eq_true_eq, beq_iff_eq, Option.isNone_iff_eq_none] at h
    exact ⟨r, i, rfl, h.1.1.1.1.1, ⟨h.1.1.1.1.2, h.1.1.1.2, h.1.1.2⟩, h.1.2, h.2⟩

/-- The furnished state in which the first line of the data page has come in. -/
def lined : State := rich.modDie 0 (stored 1)

/-- MemoryStoreFrame: 4 bytes from each of the two lanes to one address, whose line stands in its slice: the store, the load and the
atomic. -/
theorem witness_memory_store : (running (.stW ⟨pt, 0, v0, .lit, v0, .v 2, 0, some 0x10000⟩) lined).any (fun (j, s) =>
      let p := storePlaces j s 4
      granted (checked j s .store 4 1 j.x.lanes (address j)) && !hostSees j p.2 4 p.1 && !(p.2.die j.d).tentative (j.group p.2).node
        && j.alive p.2 && p.1.length == 2 && p.1.all (inPlace (p.2.die j.d) (j.group p.2).node)) = true
    ∧ (running (.ldW ⟨pt, 0, v0, .lit, v0, v0, 0, some 0x10000⟩) lined).any (fun (j, s) =>
      let p := readPlaces j s 4
      meets (loadMem (.ldW ⟨pt, 0, v0, .lit, v0, v0, 0, some 0x10000⟩) ⟨pt, 0, v0, .lit, v0, v0, 0, some 0x10000⟩ 4 false) lined
        && p.1.length == 2 && p.1.all (inPlace (p.2.die j.d) (j.group p.2).node)) = true
    ∧ (running (.atomW ⟨pt, 0, v0, .lit, v0, v0, 0x907, some 0x10000⟩) lined).any (fun (j, s) =>
      let p := atomPlaces j s 4
      meets (atomMem (.atomW ⟨pt, 0, v0, .lit, v0, v0, 0x907, some 0x10000⟩) ⟨pt, 0, v0, .lit, v0, v0, 0x907, some 0x10000⟩ 32) lined
        && !hostSees j p.2 4 p.1 && !(p.2.die j.d).tentative (j.group p.2).node && j.alive p.2 && p.1.length == 2
        && p.1.all (inPlace (p.2.die j.d) (j.group p.2).node) && predOut j == [1]) = true := by decide +kernel

/-- PoisonSectors: a poison sector, and one that poison is to come to, of a channel that is online. -/
theorem witness_poison_sector :
    let d := { rich.die 0 with poisonSec := [0x1800] }
    Memory.wf d.mem = true ∧ d.sectorBad 0x1800 = true ∧ d.channelOffline (d.channelOf (32 * 0x1800)) = false ∧ (List.replicate 32 (7 : Byte)).length = 32 := by
  decide +kernel

/-- PreciseTrapDelivered and TrapRoundTrip: the group of the small state, with a handler. -/
def handled : State := labGroup fun g => { g with ctx := { g.ctx with handler := 0x400 } }

theorem witness_trap_delivered : (handled.group? 0 65).any (fun g => g.trap.isNone && g.ctx.handler != 0 && (g.members 0).length == 32
      && (g.members 0).all fun t => (g.thread t).wait.isNone && (g.thread t).susp.isNone && (g.thread t).suspEnd.isNone) = true
    ∧ ((handled.group? 0 65).any fun g => (g.members 0).all fun t => (g.members 0).all fun u => t % 32 != u % 32 || t == u) = true
    ∧ Cause.trap ≠ Cause.poison ∧ Cause.trap < 2 ^ 16 ∧ (aTrap Cause.trap).lanes.Nodup := by decide +kernel

/-- PreciseCauseKills: a group without a handler, and one in its handler. -/
theorem witness_cause_kills :
    ((lab.group? 0 65).any fun g => g.trap == none && g.ctx.handler == 0 && g.gateDepth == 0) = true
      ∧ (((labGroup fun g => { g with trap := some (aTrap Cause.trap) }).group? 0 65).any fun g => g.trap.isSome && g.poisonDue == none) = true := by
  decide +kernel

/-- EpochStamps: an ANCHORED leaf of an old epoch and one of this epoch, with a count of each, where EPOCH is 256 + 5. -/
theorem witness_epoch_stamps :
    let d := { lab.die 0 with space := { (lab.die 0).space with epoch := 261 } }
    let old := 3 * 2 ^ 60 + 4 * 2 ^ 52 + 4 * 2 ^ 24 + 2 * 2 ^ 12
    let now := 3 * 2 ^ 60 + 5 * 2 ^ 52 + 5 * 2 ^ 24 + 2 * 2 ^ 12
    leafType old = 3 ∧ bits old 31 24 ≠ d.space.epoch.toNat % 256 ∧ bits old 59 52 ≠ d.space.epoch.toNat % 256 ∧ leafType now = 3
      ∧ bits now 31 24 = d.space.epoch.toNat % 256 ∧ bits now 59 52 = d.space.epoch.toNat % 256 ∧ d.moveCount now = 2 := by decide +kernel

/-- EligibleElements: two producers, of which one has a granted ticket before its committed one; and a waiter. -/
def twoProducers : Queue :=
  { aQueue with
    waiters := [default]
    tickets := [{ aTicket .granted with num := 0, prod := ⟨0, 0, 1⟩ }, { aTicket .committed with num := 1, prod := ⟨0, 0, 1⟩ },
      { aTicket .committed with num := 2, prod := ⟨0, 0, 2⟩ }] }

theorem witness_eligible :
    twoProducers.tickets.Pairwise (fun a b => ticketBefore a.num b.num = true) ∧ (∀ t ∈ twoProducers.tickets, t.num < 2 ^ 48)
      ∧ (twoProducers.eligible.map Ticket.num) = [2] ∧ ((port [twoProducers] []).die 0).queue? 16 = some twoProducers := by decide +kernel

/-- WindowLocations: a group with one entry of the return stack. -/
theorem witness_window_locations : (lab.group? 0 65).any (fun g => g.ctx.frame.base % 4 == 0 && 0 < g.ctx.frame.rse) = true := by decide +kernel

/-- Lop3Bits: bit 9 is set. -/
theorem witness_lop3_bits : bits (0x200 : BitVec 16).toNat 15 9 ≠ 0 := by decide +kernel

end Sys2Proof.Tests
end

section
/-! PROOFS. The epoch stamps of a page entry (R66). -/

namespace Sys2Proof.Machine

/-- R37, R66: rights, the access's kind and the service flag have no say in an ANCHORED leaf's cause; its AEPOCH alone decides. -/
theorem Die.leafCause_anchored (d : Die) (svc : Bool) (acc : Acc) {e : Nat} (h : leafType e = 3) :
    d.leafCause svc acc e = if bits e 31 24 = d.epoch8 then Cause.anchored else Cause.remote := by
  simp only [Die.leafCause, h]

/-- A MEPOCH of another epoch makes the page's count zero (R66). -/
theorem Die.moveCount_stale (d : Die) {e : Nat} (h : bits e 59 52 ≠ d.epoch8) : d.moveCount e = 0 := if_neg h

/-- A MEPOCH that equals the epoch modulo 256 leaves the page's count MIG (R66). -/
theorem Die.moveCount_current (d : Die) {e : Nat} (h : bits e 59 52 = d.epoch8) : d.moveCount e = bits e 13 12 := if_pos h

/-- Settles O57: each stamp is held against EPOCH mod 256 alone, an ANCHORED leaf's AEPOCH in its cause and MEPOCH in the count. -/
theorem epochStamps : Obligations.EpochStamps := by
  intro d svc acc e
  refine ⟨fun anchored stale => ?_, fun anchored current => ?_, d.moveCount_stale, d.moveCount_current⟩
  · rw [d.leafCause_anchored svc acc anchored, if_neg]
    exact stale
  · rw [d.leafCause_anchored svc acc anchored, if_pos]
    exact current

end Sys2Proof.Machine
end

section
/-! PROOFS. The order in which a queue's elements are eligible and served (R118), and the management core's queue, whose elements no
waiter is served (R120, R422). -/

namespace Sys2Proof.Machine

/-! ## Ticket order -/

/-- Of two ticket numbers at most one comes before the other (R115). -/
theorem ticketBefore_asymm {a b : Nat} (ha : a < 2 ^ 48) (hb : b < 2 ^ 48) (h : ticketBefore a b = true) : ticketBefore b a = false := by
  simp only [ticketBefore, Bool.and_eq_true, bne_iff_ne, decide_eq_true_eq, Bool.and_eq_false_iff, decide_eq_false_iff_not] at h ⊢
  omega

/-- The tickets stand in the order of their numbers modulo 2^48 (R115). -/
structure Queue.Rising (q : Queue) : Prop where
  pairwise : q.tickets.Pairwise fun a b => ticketBefore a.num b.num = true
  bound : ∀ t ∈ q.tickets, t.num < 2 ^ 48

/-- The tickets with a smaller number than one of the queue's are those that stand before it. -/
theorem Queue.Rising.before_iff_mem {q : Queue} (h : q.Rising) {l r : List Ticket} {t : Ticket} (hq : q.tickets = l ++ t :: r) {e : Ticket}
    (he : e ∈ q.tickets) : ticketBefore e.num t.num = true ↔ e ∈ l := by
  have ht : t ∈ q.tickets := by simp [hq]
  obtain ⟨-, htr, hlt⟩ := List.pairwise_append.mp (hq ▸ h.pairwise)
  refine ⟨fun hb => ?_, fun hl => hlt e hl t List.mem_cons_self⟩
  have hcases : e ∈ l ∨ e = t ∨ e ∈ r := by simpa [hq] using he
  rcases hcases with hl | rfl | hr
  · exact hl
  · simp [ticketBefore] at hb
  · have hte := List.rel_of_pairwise_cons htr hr
    simp [ticketBefore_asymm (h.bound t ht) (h.bound e he) hte] at hb

/-- Modulo 2^48 "before" is not transitive by itself; among the tickets of one queue it is. -/
theorem Queue.Rising.before_trans {q : Queue} (h : q.Rising) {f e t : Ticket} (hf : f ∈ q.tickets) (he : e ∈ q.tickets) (ht : t ∈ q.tickets)
    (hfe : ticketBefore f.num e.num = true) (het : ticketBefore e.num t.num = true) : ticketBefore f.num t.num = true := by
  obtain ⟨l, r, hq⟩ := List.append_of_mem ht
  have hel : e ∈ l := (h.before_iff_mem hq he).mp het
  obtain ⟨l', m, rfl⟩ := List.append_of_mem hel
  have hqe : q.tickets = l' ++ e :: (m ++ t :: r) := by simp [hq]
  have hf' : f ∈ l' := (h.before_iff_mem hqe hf).mp hfe
  exact (h.before_iff_mem hq hf).mpr (by simp [hf'])

/-! ## Eligible elements -/

/-- The tickets before one hold it back when one of them is its producer's and still GRANTED. -/
theorem heldBack_iff (earlier : List Ticket) (t : Ticket) : heldBack earlier t = true ↔ ∃ e ∈ earlier, e.prod = t.prod ∧ e.st = .granted := by
  simp [heldBack]

/-- The eligible elements keep the order of the tickets. -/
theorem eligibleFrom_sublist (earlier rest : List Ticket) : (eligibleFrom earlier rest).Sublist rest := by
  induction rest generalizing earlier with
  | nil => exact .slnil
  | cons t ts ih =>
    unfold eligibleFrom
    split
    · exact (ih _).cons_cons t
    · exact (ih _).cons t

/-- An element is eligible where it stands COMMITTED and is not held back by the tickets before it. -/
theorem mem_eligibleFrom_iff (earlier rest : List Ticket) (t : Ticket) :
    t ∈ eligibleFrom earlier rest ↔ ∃ l r, rest = l ++ t :: r ∧ t.st = .committed ∧ heldBack (earlier ++ l) t = false := by
  induction rest generalizing earlier with
  | nil => simp [eligibleFrom]
  | cons u us ih =>
    have hsplit : (∃ l r, u :: us = l ++ t :: r ∧ t.st = .committed ∧ heldBack (earlier ++ l) t = false)
        ↔ (u = t ∧ t.st = .committed ∧ heldBack earlier t = false) ∨ t ∈ eligibleFrom (earlier ++ [u]) us := by
      rw [ih]
      constructor
      · rintro ⟨_ | ⟨v, l⟩, r, hl, hst, hb⟩
        · exact .inl ⟨(List.cons.inj hl).1, hst, by simpa using hb⟩
        · obtain ⟨rfl, rfl⟩ := List.cons.inj hl
          exact .inr ⟨l, r, rfl, hst, by simpa using hb⟩
      · rintro (⟨rfl, hst, hb⟩ | ⟨l, r, rfl, hst, hb⟩)
        · exact ⟨[], us, rfl, hst, by simpa using hb⟩
        · exact ⟨u :: l, r, rfl, hst, by simpa using hb⟩
    rw [hsplit, eligibleFrom]
    split
    next hu =>
      have hu' : u.st = .committed ∧ heldBack earlier u = false := by simpa using hu
      rw [List.mem_cons]
      refine or_congr_left ⟨?_, fun h => h.1.symm⟩
      rintro rfl
      exact ⟨rfl, hu'⟩
    next hu =>
      refine (or_iff_right ?_).symm
      rintro ⟨rfl, hst, hb⟩
      simp [hst, hb] at hu

/-- R118: an element is eligible exactly when it is COMMITTED and no smaller ticket of its producer is GRANTED. -/
theorem Queue.Rising.mem_eligible_iff {q : Queue} (h : q.Rising) (t : Ticket) :
    t ∈ q.eligible ↔
      t ∈ q.tickets ∧ t.st = .committed ∧ ¬∃ e ∈ q.tickets, ticketBefore e.num t.num = true ∧ e.prod = t.prod ∧ e.st = .granted := by
  have hheld : ∀ {l r}, q.tickets = l ++ t :: r →
      (heldBack l t = true ↔ ∃ e ∈ q.tickets, ticketBefore e.num t.num = true ∧ e.prod = t.prod ∧ e.st = .granted) := by
    intro l r hq
    rw [heldBack_iff]
    refine exists_congr fun e => ⟨fun ⟨hl, hg⟩ => ?_, fun ⟨he, hb, hg⟩ => ⟨(h.before_iff_mem hq he).mp hb, hg⟩⟩
    have he : e ∈ q.tickets := by simp [hq, hl]
    exact ⟨he, (h.before_iff_mem hq he).mpr hl, hg⟩
  rw [Queue.eligible, mem_eligibleFrom_iff]
  constructor
  · rintro ⟨l, r, hq, hst, hb⟩
    exact ⟨by simp [hq], hst, by simpa [← hheld hq] using hb⟩
  · rintro ⟨ht, hst, hb⟩
    obtain ⟨l, r, hq⟩ := List.append_of_mem ht
    exact ⟨l, r, hq, hst, by simpa [← hheld hq] using hb⟩

/-- The first eligible element has the smallest ticket of them all. -/
theorem Queue.Rising.head_smallest {q : Queue} (h : q.Rising) {t u : Ticket} (ht : q.eligible.head? = some t) (hu : u ∈ q.eligible) :
    u = t ∨ ticketBefore t.num u.num = true := by
  obtain ⟨rest, hrest⟩ := List.head?_eq_some_iff.mp ht
  have hp := h.pairwise.sublist (eligibleFrom_sublist [] q.tickets)
  rw [← Queue.eligible, hrest] at hp
  exact (List.mem_cons.mp (hrest ▸ hu)).imp_right fun hu => List.rel_of_pairwise_cons hp hu

/-- Elements of one producer are served in ticket order: before the first eligible element it has none COMMITTED or GRANTED. -/
theorem Queue.Rising.head_first_of_producer {q : Queue} (h : q.Rising) {t e : Ticket} (ht : q.eligible.head? = some t) (he : e ∈ q.tickets)
    (hprod : e.prod = t.prod) (hbefore : ticketBefore e.num t.num = true) : e.st ≠ .committed ∧ e.st ≠ .granted := by
  obtain ⟨htq, -, hfree⟩ := (h.mem_eligible_iff t).mp (List.mem_of_head? ht)
  refine ⟨fun hst => ?_, fun hst => hfree ⟨e, he, hbefore, hprod, hst⟩⟩
  have hnot : e ∉ q.eligible := fun hel => by
    rcases h.head_smallest ht hel with rfl | hte
    · simp [ticketBefore] at hbefore
    · simp [ticketBefore_asymm (h.bound t htq) (h.bound e he) hte] at hbefore
  have hheld : ∃ f ∈ q.tickets, ticketBefore f.num e.num = true ∧ f.prod = e.prod ∧ f.st = .granted :=
    Classical.not_not.mp fun hno => hnot ((h.mem_eligible_iff e).mpr ⟨he, hst, hno⟩)
  obtain ⟨f, hf, hfe, hfp, hg⟩ := hheld
  exact hfree ⟨f, hf, h.before_trans hf he htq hfe hbefore, hfp.trans hprod, hg⟩

/-! ## Who is served -/

/-- A waiter of a queue that the management core does not consume is served the first eligible element (R122). -/
theorem State.assign_to_waiter (s : State) (d : Nat) {q : Queue} {t : Ticket} {w : Waiter} {ws : List Waiter} (hk : q.ckind ≠ 5)
    (hw : q.waiters = w :: ws) (ht : q.eligible.head? = some t) :
    s.assign d q = (s.modDie d fun x => x.modQueue q.index fun p => { p with waiters := ws }).serveLogged d q.index t w := by
  obtain ⟨rest, hrest⟩ := List.head?_eq_some_iff.mp ht
  simp only [State.assign, hrest, if_neg hk, hw]

/-- The management core takes the first eligible element of its queue, whatever waiters the queue has (R120, R422). -/
theorem State.assign_to_core (s : State) (d : Nat) {q : Queue} {t : Ticket} (hk : q.ckind = 5) (ht : q.eligible.head? = some t) :
    s.assign d q = s.coreTake d q.index t := by
  obtain ⟨rest, hrest⟩ := List.head?_eq_some_iff.mp ht
  simp only [State.assign, hrest, if_pos hk]

/-- What `Obligations.EligibleElements` says holds of every queue that the management core does not consume (R118). -/
theorem Queue.Rising.served_in_ticket_order {q : Queue} (h : q.Rising) (hk : q.ckind ≠ 5) :
    (∀ t, t ∈ q.eligible ↔
        t ∈ q.tickets ∧ t.st = .committed ∧ ¬∃ e ∈ q.tickets, ticketBefore e.num t.num = true ∧ e.prod = t.prod ∧ e.st = .granted)
      ∧ (∀ t, q.eligible.head? = some t → ∀ u ∈ q.eligible, u = t ∨ ticketBefore t.num u.num = true)
      ∧ (∀ (s : State) (d : Nat) (t : Ticket) (w : Waiter) (ws : List Waiter),
          q.waiters = w :: ws → q.eligible.head? = some t →
            s.assign d q = (s.modDie d fun x => x.modQueue q.index fun p => { p with waiters := ws }).serveLogged d q.index t w)
      ∧ ∀ t, q.eligible.head? = some t → ∀ e ∈ q.tickets, e.prod = t.prod → ticketBefore e.num t.num = true →
          e.st ≠ .committed ∧ e.st ≠ .granted :=
  ⟨h.mem_eligible_iff, fun _ ht _ hu => h.head_smallest ht hu, fun s d _ _ _ hw ht => s.assign_to_waiter d hk hw ht,
    fun _ ht _ he hprod hbefore => h.head_first_of_producer ht he hprod hbefore⟩

/-! ## The management core's queue with a waiter -/

/-- A committed element of queue 7, put by die 1's management core. -/
def coreElement : Ticket := { (default : Ticket) with st := .committed, prod := ⟨0, 1, corePid⟩, bytes := List.replicate 128 0 }

/-- Queue 7 as R106 describes it, with this element and with a waiter. -/
def coreQueue : Queue := { Queue.device 7 5 7 256 64 0 false 0 0 with tickets := [coreElement], waiters := [default] }

/-- The package after reset, with that queue as the one queue of die 0. -/
def coreWaited : State := State.reset.modDie 0 fun x => x.modPort fun p => { p with queues := [coreQueue] }

/-- The waiters of queue 7 of die 0. -/
def State.coreWaiters (s : State) : Option (List Waiter) := ((s.die 0).queue? 7).map Queue.waiters

/-- When the core takes the element, the waiter stays. -/
theorem coreTake_leaves_waiter : (coreWaited.coreTake 0 7 coreElement).coreWaiters = some [default] := by decide +kernel

/-- When the element goes to the waiter, no waiter is left. -/
theorem serveLogged_leaves_no_waiter :
    ((coreWaited.modDie 0 fun x => x.modQueue 7 fun p => { p with waiters := [] }).serveLogged 0 7 coreElement default).coreWaiters = some [] := by
  decide +kernel

/-- Refutes O58: the clause on the first waiter is stated of every queue with one, and of the management core's queue (R120) it fails:
the core takes the element there (R422), and the waiter stays. The other clauses, and this one for every other queue, are
`Queue.Rising.served_in_ticket_order`; no DEQ is admitted to the core's queue, so the counterexample gives it a waiter by hand. -/
theorem not_eligibleElements : ¬ Obligations.EligibleElements := by
  intro h
  obtain ⟨-, -, served, -⟩ := h coreQueue (List.pairwise_singleton _ _) (by decide)
  have hhead : coreQueue.eligible.head? = some coreElement := by decide
  have hserved := served coreWaited 0 coreElement default [] rfl hhead
  have hcore := coreWaited.assign_to_core 0 (q := coreQueue) rfl hhead
  have hsame : some [default] = some ([] : List Waiter) := by
    calc some [default] = (coreWaited.coreTake 0 7 coreElement).coreWaiters := coreTake_leaves_waiter.symm
      _ = (coreWaited.assign 0 coreQueue).coreWaiters := congrArg State.coreWaiters hcore.symm
      _ = some [] := (congrArg State.coreWaiters hserved).trans serveLogged_leaves_no_waiter
  exact absurd hsame (by decide)

end Sys2Proof.Machine
end

section
/-! PROOFS. The values of the four-bit codes of an mx4 block (R222, R224). -/

namespace Sys2Proof.Machine

/-- A number given in units of its own exponent. -/
theorem Val.units_own (neg cut : Bool) (m : Nat) (e : Int) : (Val.num neg m e cut).units e = if neg then -(m : Int) else m := by
  simp only [Val.units, Int.sub_self, Int.toNat_zero, Nat.pow_zero, Nat.mul_one]

/-- The magnitudes of R222 in halves, as integers. -/
theorem magnitude_e2m1_cast {i : Nat} (hi : i < 8) : (magnitude 1 i : Int) = ([0, 1, 2, 3, 4, 6, 8, 12] : List Int).getD i 0 := by
  decide +revert

/-- Of the eight magnitudes of R222 the first alone is zero. -/
theorem magnitude_e2m1_ne_zero_iff {i : Nat} (hi : i < 8) : magnitude 1 i ≠ 0 ↔ i ≠ 0 := by
  decide +revert

/-- The top bit of a four-bit code. -/
theorem testBit_three_of_four_bits {c : Nat} (hc : c < 16) : c.testBit 3 = decide (8 ≤ c) := by
  rw [Nat.testBit_eq_decide_div_mod_eq, decide_eq_decide]
  omega

/-- A code is negative by bit 3, and the code 8, whose magnitude is zero, reads as +0 (R222, R224). -/
theorem e2m1_sign {c : Nat} (hc : c < 16) : (decide (8 ≤ c) && magnitude 1 (c % 8) != 0) = (c.testBit 3 && c != 8) := by
  have hzero := magnitude_e2m1_ne_zero_iff (Nat.mod_lt c (by decide : 8 > 0))
  rw [testBit_three_of_four_bits hc, Bool.eq_iff_iff]
  simp only [Bool.and_eq_true, decide_eq_true_eq, bne_iff_ne, hzero]
  omega

/-- An mx4 code is a number of halves: its sign and its magnitude, whatever KTYPE says (R221, R222, R224). -/
theorem BlockFmt.codeValue_mx4 (k : Nat) {c : Nat} (hc : c < 16) :
    BlockFmt.codeValue ⟨0x20, k⟩ c = .num (c.testBit 3 && c != 8) (magnitude 1 (c % 8)) (-1) false := by
  rw [← e2m1_sign hc]
  simp only [BlockFmt.codeValue, fourValue, Nat.mod_eq_of_lt hc, Nat.one_ne_zero, if_false]

/-- Settles O56: a code is a number, so neither an infinity nor a NaN, and its sign and its magnitude in halves are those of R222;
at the code 8, where the sign is not bit 3, the magnitude is zero. -/
theorem e2M1Values : Obligations.E2M1Values := by
  intro c k hc
  rw [BlockFmt.codeValue_mx4 k hc]
  refine ⟨rfl, rfl, rfl, ?_⟩
  rw [Val.units_own, ← magnitude_e2m1_cast (Nat.mod_lt c (by decide : 8 > 0))]
  by_cases h8 : c = 8
  · subst h8
    rfl
  · rw [bne_iff_ne.mpr h8, Bool.and_true]
    cases c.testBit 3 with
    | false => exact (Int.one_mul _).symm
    | true => exact Int.neg_eq_neg_one_mul _

end Sys2Proof.Machine
end

section
/-! PROOFS. LOP3: the bits of its result and its reserved bits (R247). -/

namespace Sys2Proof

/-! ## Bits and reserved bits -/

/-- A number's bits below w are those of the number mod 2^w. -/
theorem bit_mod_two_pow {w i : Nat} (x : Nat) (h : i < w) : bit (x % 2 ^ w) i = bit x i := by
  simp only [bit, Nat.testBit_mod_two_pow, h, decide_true, Bool.true_and]

/-- A number below 2^l has no bits from l up. -/
theorem bits_eq_zero_of_lt {x h l : Nat} (hx : x < 2 ^ l) : bits x h l = 0 := by
  rw [bits, Nat.shiftRight_eq_zero x l hx, Nat.zero_mod]

/-- A word that passes the checks of R213 has zero in its unused fields and its reserved sub-modifier bits. -/
theorem View.idleOk_of_bad_eq_none {g : Sig} {v : View} (h : v.bad g = none) : g.idleOk v.fields = true := by
  unfold View.bad at h
  split at h
  · exact nomatch h
  split at h
  · exact nomatch h
  split at h
  · exact nomatch h
  next hidle => simpa only [Bool.not_eq_true', Bool.not_eq_false] using hidle

/-- Of the bits 15:0 a well-formed word sets none that its description does not define. -/
theorem Instr.land_imm_of_wellFormed {i : Instr} (h : i.WellFormed) : i.fields.imm &&& (i.sig false).imm = i.fields.imm := by
  have hidle := View.idleOk_of_bad_eq_none h
  simp only [Sig.idleOk, Bool.and_eq_true, beq_iff_eq] at hidle
  exact hidle.2

end Sys2Proof

namespace Sys2Proof.Machine
open Sys2Proof.Claims

/-! ## Numbers given bit by bit -/

/-- A further bit at the top adds its own power of two. -/
theorem ofBits_append_singleton (bs : List Bool) (b : Bool) : ofBits (bs ++ [b]) = ofBits bs + b.toNat * 2 ^ bs.length := by
  induction bs with
  | nil => simp only [List.nil_append, ofBits, List.length_nil, Nat.pow_zero, Nat.mul_one, Nat.mul_zero, Nat.add_zero, Nat.zero_add]
  | cons c cs ih =>
    have htop : 2 * (b.toNat * 2 ^ cs.length) = b.toNat * 2 ^ (cs.length + 1) := by rw [Nat.pow_succ', Nat.mul_left_comm]
    simp only [List.cons_append, ofBits, ih, List.length_cons, Nat.mul_add, htop, Nat.add_assoc]

/-- The sum of a test's bits is the number with those bits. -/
theorem fromBits_eq_ofBits (w : Nat) (f : Nat → Bool) : fromBits w f = ofBits ((List.range w).map f) := by
  induction w with
  | zero => rfl
  | succ w ih =>
    rw [fromBits] at ih
    simp only [fromBits, List.range_succ, List.foldl_append, List.foldl_cons, List.foldl_nil, List.map_append, List.map_cons, List.map_nil,
      ofBits_append_singleton, List.length_map, List.length_range, ih]

/-! ## Words of the integer unit -/

/-- A row about an integer word holds where the word's function, of the sources mod 2^w, gives the row's value in every lane. -/
theorem eachLane_holds_of_aluWord {i : Instr} {m : BitVec 2} {f : Nat → Bool → Nat → Nat → Nat → Nat} {g : LaneSrc → Nat}
    (hexec : ∀ s, exec i s = issueWord i s (aluWord m f))
    (hvalue : ∀ l : LaneSrc, f (opw m) m[1] (l.a.toNat % 2 ^ opw m) (l.b.toNat % 2 ^ opw m) (l.c.toNat % 2 ^ opw m) = g l) :
    (eachLane i g).Holds := by
  intro s j t hrun _
  calc exec i s = issueWord i s (aluWord m f) := hexec s
    _ = .next (aluWord m f j t) := issueWord_run _ hrun
    _ = .next (j.perLane t g) := congrArg (Host.Outcome.next ∘ j.perLane t) (funext hvalue)

/-! ## LOP3 -/

/-- LOP3 at width w reads its sources mod 2^w (R240), of which no bit below w differs. -/
theorem lop3_mod_two_pow (w a b c tt : Nat) (inv : Bool) :
    lop3 w (a % 2 ^ w) (b % 2 ^ w) (c % 2 ^ w) tt inv
      = fromBits w fun i => bit tt ((bit a i).toNat + 2 * (bit b i).toNat + 4 * (bit c i).toNat) != inv := by
  rw [fromBits_eq_ofBits, lop3]
  refine congrArg ofBits (List.map_congr_left fun i hi => ?_)
  have hi : i < w := List.mem_range.mp hi
  rw [bit_mod_two_pow a hi, bit_mod_two_pow b hi, bit_mod_two_pow c hi]

/-- A well-formed LOP3 word has nothing in the reserved bits 15:9: its description defines the nine bits of TT and INV (R247). -/
theorem lop3_wellFormed_bits {w : RegWord} (h : (Instr.lop3 w).WellFormed) : bits w.imm.toNat 15 9 = 0 := by
  have himm : w.imm.toNat &&& 0x1FF = w.imm.toNat := Instr.land_imm_of_wellFormed h
  have hle : w.imm.toNat &&& 0x1FF ≤ 0x1FF := Nat.and_le_right
  exact bits_eq_zero_of_lt (by omega)

/-- Settles O60: LOP3 reads TT from bits 7:0 and INV from bit 8, and the bits above them are the reserved ones. -/
theorem lop3Bits : Obligations.Lop3Bits := by
  intro w
  have hinv : w.imm[8] = bit w.imm.toNat 8 := BitVec.getElem_eq_testBit_toNat w.imm 8 (by decide)
  refine ⟨eachLane_holds_of_aluWord (fun _ => rfl) fun l => ?_, fun hres h => hres (lop3_wellFormed_bits h)⟩
  rw [hinv]
  exact lop3_mod_two_pow _ _ _ _ _ _

end Sys2Proof.Machine
end

section
/-! PROOFS. Every step keeps eight dies with canonical memories. -/

namespace Sys2Proof.Machine

/-! ## Outcomes that keep the dies -/

/-- Whatever state the outcome goes on with, the package in it has eight dies with canonical memories. -/
def KeepsDies (o : Host.Outcome State Fault Refusal) : Prop := ∀ t, o = .next t → diesOk t.dies

/-- A step that ends keeps the dies where the state it ends in has them. -/
@[simp] theorem keepsDies_next (s : State) : KeepsDies (.next s) ↔ diesOk s.dies := by
  simp [KeepsDies]

section
variable {s : State} {d : Nat}

/-- A choice of outcomes. -/
theorem keepsDies_ite {c : Prop} [Decidable c] {a b : Host.Outcome State Fault Refusal} (ha : KeepsDies a) (hb : KeepsDies b) :
    KeepsDies (if c then a else b) := by
  split <;> assumption

/-- A change of one die that keeps its memory canonical. -/
theorem keepsDies_modDie {f : Die → Die} (hf : ∀ x, Memory.wf x.mem = true → Memory.wf (f x).mem = true) (h : diesOk s.dies) :
    KeepsDies (s.modDie d f).finish :=
  (keepsDies_next _).2 (State.modDie_ok s d f h hf)

/-- A word keeps the dies where its own effect does. -/
theorem issueWord_keepsDies {i : Instr} {body : Job → State → State} (hb : ∀ j s, diesOk s.dies → diesOk (body j s).dies)
    (h : diesOk s.dies) : KeepsDies (issueWord i s body) :=
  (keepsDies_next _).2 (prepared_perform_ok s i i.view i.sig body h hb)

/-- A P word keeps them where the effect of its two slots does. -/
theorem issuePair_keepsDies {sop : Nat} {p : PairWord} (h : diesOk s.dies) : KeepsDies (issuePair sop p s (pairWord sop p)) := by
  unfold issuePair
  rw [finish_next, keepsDies_next]
  exact prepared_perform_ok s _ _ _ _ h (pairWord_ok sop p)

/-- A message taken from the inbox. -/
theorem takeMsg_keepsDies {k kind : Nat} {f : State → Msg → State} (hf : ∀ s m, diesOk s.dies → diesOk (f s m).dies)
    (h : diesOk s.dies) : KeepsDies (s.takeMsg d k kind f) := by
  unfold State.takeMsg
  split <;> simp [h, hf]

/-- A step of a die that is up. -/
theorem whenUp_keepsDies {f : State → State} (hf : ∀ s, diesOk s.dies → diesOk (f s).dies)
    (h : diesOk s.dies) : KeepsDies (s.whenUp d f) := by
  unfold State.whenUp
  split <;> simp [h, hf]

/-- A step of the memory controller, which an access to an Unpopulated address ends (R40). -/
theorem whenUp_hole_keepsDies {a : Nat} {unpopulated : State → Prop} [DecidablePred unpopulated] {f : State → State}
    (hf : ∀ s, diesOk s.dies → diesOk (f s).dies) (h : diesOk s.dies) :
    KeepsDies (s.whenUp d fun s => if unpopulated s then { s with hole := some a } else f s) :=
  whenUp_keepsDies (fun s h => by
    split
    · exact h
    · exact hf s h) h

/-- A step of an invalidation. -/
theorem xinvStep_keepsDies {is : DWord → Bool} (h : diesOk s.dies) : KeepsDies (s.xinvStep d is) :=
  whenUp_keepsDies (fun s h => State.modDie_ok s d _ h fun x hx => by split <;> (try split) <;> simpa using hx) h

/-- A step of the memory service. -/
theorem svcStep_keepsDies {k : Nat} {ops : Nat → Bool} (h : diesOk s.dies) : KeepsDies (s.svcStep d k ops) := by
  unfold State.svcStep
  (repeat' split) <;> simp [h]

/-- A port command. -/
theorem commandStep_keepsDies {op : Nat} {index : Option Nat} {f : State → State} (hf : ∀ s, diesOk s.dies → diesOk (f s).dies)
    (h : diesOk s.dies) : KeepsDies (s.commandStep d op index f) := by
  unfold State.commandStep
  (repeat' split) <;> simp [h, hf]

/-- An answer to a translation notice. -/
theorem transAnswer_keepsDies {txid code : Nat} {f : State → TransEntry → State} (hf : ∀ s t, diesOk s.dies → diesOk (f s t).dies)
    (h : diesOk s.dies) : KeepsDies (s.transAnswer d txid code f) := by
  unfold State.transAnswer
  (repeat' split) <;> simp [h, hf]

/-- An answer to a parked word or row. -/
theorem answerStep_keepsDies {strm : Bool} {log code : Nat} {row : State → Nat → StreamLog → State}
    {word : State → Nat → ParkedWord → List Byte → State} (hr : ∀ s n e, diesOk s.dies → diesOk (row s n e).dies)
    (hw : ∀ s n w b, diesOk s.dies → diesOk (word s n w b).dies) (h : diesOk s.dies) :
    KeepsDies (s.answerStep d strm log code row word) := by
  unfold State.answerStep
  (repeat' split) <;> simp [h, hr, hw]

/-- A management command, when it is accepted and when its die performs it. -/
theorem mgmt_keepsDies {op : Nat} {fr : List Byte} (h : diesOk s.dies) : KeepsDies (s.mgmt op fr) := by
  unfold State.mgmt
  split
  · simp [h]
  · split
    · simp [h]
    · next m r s' heq => exact (keepsDies_next _).2 (State.modRelays_ok _ _ (State.accept_ok s op fr h _ heq))

end

/-! ## The steps of the device

Whatever branch a step takes, the state that it ends in comes from operations that keep the dies. -/

theorem execColdBoot_keepsDies {d : Nat} {s : State} (h : diesOk s.dies) : KeepsDies (execColdBoot d s) := by
  unfold execColdBoot
  (repeat' split) <;> simp [h]

theorem execBelayMirrorTimeout_keepsDies {d : Nat} {s : State} (h : diesOk s.dies) : KeepsDies (execBelayMirrorTimeout d s) := by
  unfold execBelayMirrorTimeout
  (repeat' split) <;> simp [h]

theorem execMirrorRewrite_keepsDies {d : Nat} {s : State} (h : diesOk s.dies) : KeepsDies (execMirrorRewrite d s) := by
  unfold execMirrorRewrite
  dsimp only
  refine keepsDies_ite ((keepsDies_next s).2 h) ((keepsDies_next _).2 ?_)
  exact State.request_ok _ _ _ _ (State.modDie_ok s d _ h fun _ hx => hx)

theorem execUnitOffline_keepsDies {d kind unit cause : Nat} {s : State} (h : diesOk s.dies) :
    KeepsDies (execUnitOffline d kind unit cause s) := by
  unfold execUnitOffline
  refine keepsDies_ite ((keepsDies_next s).2 h) ?_
  split
  · split
    · exact keepsDies_ite ((keepsDies_next s).2 h) ((keepsDies_next _).2 (State.coreOff_ok s d _ _ _ _ h))
    · exact (keepsDies_next s).2 h
  · split
    · refine keepsDies_ite ((keepsDies_next s).2 h) ((keepsDies_next _).2 ?_)
      have hc := fun lost l => State.clusterOff_ok s.draw.2 d l unit cause lost h
      split
      · exact State.resetDie_ok _ d true (hc _ _)
      · exact hc _ _
    · exact (keepsDies_next s).2 h
  · split
    · refine keepsDies_ite ((keepsDies_next s).2 h) (keepsDies_modDie (fun x hx => ?_) h)
      simpa using hx
    · exact (keepsDies_next s).2 h
  · exact (keepsDies_next s).2 h

theorem execSeamWidthChange_keepsDies {d link : Nat} {s : State} (h : diesOk s.dies) : KeepsDies (execSeamWidthChange d link s) := by
  unfold execSeamWidthChange
  (repeat' split) <;> simp [h]

theorem execSeamWidthChangeDone_keepsDies {d link : Nat} {s : State} (h : diesOk s.dies) :
    KeepsDies (execSeamWidthChangeDone d link s) := by
  unfold execSeamWidthChangeDone
  split
  · exact (keepsDies_next s).2 h
  · split
    · exact (keepsDies_next s).2 h
    · extract_lets s1 s2
      have h1 : diesOk s1.dies := foldl_ok _ (fun s e h => by
        split
        · exact State.modDie_ok s e _ h fun x hx => by simpa using hx
        · exact h) _ s h
      have h2 : diesOk s2.dies := by
        unfold s2
        split
        · exact State.seamCode_ok s1 _ _ _ h1
        · exact h1
      refine keepsDies_ite ((keepsDies_next _).2 h2) (keepsDies_ite ?_ ?_)
      · exact (keepsDies_next _).2 (State.reroute_ok s2 _ h2)
      · exact (keepsDies_next _).2 (State.emptyLink_ok _ d link (State.reroute_ok s2 _ h2))

theorem execRidgeRetrain_keepsDies {d port : Nat} {trained : Bool} {s : State} (h : diesOk s.dies) :
    KeepsDies (execRidgeRetrain d port trained s) := by
  unfold execRidgeRetrain
  (repeat' split) <;> simp [h]

theorem execEpochBoundary_keepsDies  {s : State} (h : diesOk s.dies) : KeepsDies (execEpochBoundary s) := by
  unfold execEpochBoundary
  dsimp only
  split
  · refine (keepsDies_next _).2 ⟨by simpa using h.1, fun x hx => ?_⟩
    obtain ⟨y, hy, rfl⟩ := List.mem_map.mp hx
    split
    · exact y.nextEpoch_mem ▸ h.2 y hy
    · exact h.2 y hy
  · exact (keepsDies_next s).2 h

theorem execRegisterWrite_keepsDies {d addr size : Nat} {value : DWord} {s : State} (h : diesOk s.dies) :
    KeepsDies (execRegisterWrite d addr size value s) := by
  unfold execRegisterWrite
  exact whenUp_keepsDies (fun s h => by
    split
    · exact State.regWrite_ok s _ _ _ _ _ h
    · exact h) h

theorem execXinvComplete_keepsDies {d : Nat} {s : State} (h : diesOk s.dies) : KeepsDies (execXinvComplete d s) := by
  unfold execXinvComplete
  exact whenUp_keepsDies (fun s h => State.modDie_ok s _ _ h fun x hx => by
    split
    · split <;> simpa using hx
    · exact hx) h

theorem execZpClear_keepsDies {d entry : Nat} {s : State} (h : diesOk s.dies) : KeepsDies (execZpClear d entry s) := by
  unfold execZpClear
  exact whenUp_hole_keepsDies (fun s h => by
    dsimp only
    split
    · exact State.modDie_ok s _ _ h fun x hx => Die.engineWrite_wf x _ _ hx
    · exact h) h

theorem execZeroBackground_keepsDies {d line : Nat} {s : State} (h : diesOk s.dies) : KeepsDies (execZeroBackground d line s) := by
  unfold execZeroBackground
  exact whenUp_keepsDies (fun s h => State.modDie_ok s _ _ h fun x hx => Die.zeroLine_wf x _ hx) h

theorem execReplay_keepsDies {d : Nat} {strm : Bool} {log : Nat} {s : State} (h : diesOk s.dies) : KeepsDies (execReplay d strm log s) := by
  unfold execReplay
  exact answerStep_keepsDies (fun s _ e h => State.replayRow_ok s _ _ e h) (fun s _ w _ h => State.replayWord_ok s _ _ w h) h

theorem execComplete_keepsDies {d : Nat} {strm : Bool} {log : Nat} {s : State} (h : diesOk s.dies) :
    KeepsDies (execComplete d strm log s) := by
  unfold execComplete
  exact answerStep_keepsDies (fun s _ e h => State.declineRow_ok s _ _ e h) (fun s _ w b h => State.completeWord_ok s _ _ w b h) h

theorem execDecline_keepsDies {d : Nat} {strm : Bool} {log : Nat} {s : State} (h : diesOk s.dies) :
    KeepsDies (execDecline d strm log s) := by
  unfold execDecline
  exact answerStep_keepsDies (fun s _ e h => State.declineRow_ok s _ _ e h) (fun s _ w _ h => State.declineWord_ok s _ _ w h) h

theorem execTranslationRetry_keepsDies {d txid : Nat} {s : State} (h : diesOk s.dies) : KeepsDies (execTranslationRetry d txid s) := by
  unfold execTranslationRetry
  exact transAnswer_keepsDies (fun s _ h => State.modDie_ok s _ _ h fun _ hx => hx) h

theorem execTranslationFail_keepsDies {d txid : Nat} {s : State} (h : diesOk s.dies) : KeepsDies (execTranslationFail d txid s) := by
  unfold execTranslationFail
  exact transAnswer_keepsDies (fun s t h => State.endTrans_ok s _ t _ h) h

theorem execMemsvcRead_keepsDies {d k : Nat} {s : State} (h : diesOk s.dies) : KeepsDies (execMemsvcRead d k s) := by
  unfold execMemsvcRead
  exact svcStep_keepsDies h

theorem execMemsvcWrite_keepsDies {d k : Nat} {s : State} (h : diesOk s.dies) : KeepsDies (execMemsvcWrite d k s) := by
  unfold execMemsvcWrite
  exact svcStep_keepsDies h

theorem execMemsvcAtom_keepsDies {d k : Nat} {s : State} (h : diesOk s.dies) : KeepsDies (execMemsvcAtom d k s) := by
  unfold execMemsvcAtom
  exact svcStep_keepsDies h

theorem execMigrate_keepsDies {d k : Nat} {s : State} (h : diesOk s.dies) : KeepsDies (execMigrate d k s) := by
  unfold execMigrate
  (repeat' split) <;> simp [h]

theorem execMigratePageSend_keepsDies {d k : Nat} {s : State} (h : diesOk s.dies) : KeepsDies (execMigratePageSend d k s) := by
  unfold execMigratePageSend
  (repeat' split) <;> simp [h]

theorem execMoveEndResume_keepsDies {d k : Nat} {s : State} (h : diesOk s.dies) : KeepsDies (execMoveEndResume d k s) := by
  unfold execMoveEndResume
  dsimp only
  split
  · exact (keepsDies_next s).2 h
  · have hw := State.modDie_ok s d (fun x => x.modPort fun p => { p with waiting := p.waiting.filter fun x => x.id != k }) h fun _ hx => hx
    refine keepsDies_ite ((keepsDies_next s).2 h) ((keepsDies_next _).2 ?_)
    split
    · exact State.decideMigrate_ok _ _ _ _ hw
    · exact State.performSvc_ok _ _ _ _ _ _ _ hw

theorem execPresenceResume_keepsDies {d gid warp : Nat} {s : State} (h : diesOk s.dies) : KeepsDies (execPresenceResume d gid warp s) := by
  unfold execPresenceResume
  (repeat' split) <;> simp [h]

theorem execTilePinReleaseResume_keepsDies {d cluster : Nat} {s : State} (h : diesOk s.dies) :
    KeepsDies (execTilePinReleaseResume d cluster s) := by
  unfold execTilePinReleaseResume
  dsimp only
  (repeat' split) <;> simp [h]

theorem execBulkPrefetch_keepsDies {d core : Nat} {s : State} (h : diesOk s.dies) : KeepsDies (execBulkPrefetch d core s) := by
  unfold execBulkPrefetch
  dsimp only
  (repeat' split) <;> simp [h]

theorem execHbmRead_keepsDies {d addr badSymbols : Nat} {s : State} (h : diesOk s.dies) : KeepsDies (execHbmRead d addr badSymbols s) := by
  unfold execHbmRead
  exact whenUp_keepsDies (fun s h => State.checkSector_ok s _ _ _ h) h

theorem execHbmWrite_keepsDies {d addr : Nat} {mask : BitVec 32} {data : BitVec 256} {s : State} (h : diesOk s.dies) :
    KeepsDies (execHbmWrite d addr mask data s) := by
  unfold execHbmWrite
  exact whenUp_hole_keepsDies (fun s h => State.modDie_ok s _ _ h fun x hx => Die.writeSector_wf x _ _ _ hx) h

theorem execHbmZero_keepsDies {d addr : Nat} {s : State} (h : diesOk s.dies) : KeepsDies (execHbmZero d addr s) := by
  unfold execHbmZero
  dsimp only
  exact whenUp_hole_keepsDies (fun s h => State.modDie_ok s _ _ h fun x hx => (x.zeroFrame_mem _ _ _).symm ▸ hx) h

theorem execHbmAread_keepsDies (d frame asub afmt blk : Nat) {s : State} (h : diesOk s.dies) :
    KeepsDies (execHbmAread d frame asub afmt blk s) := by
  unfold execHbmAread
  exact whenUp_hole_keepsDies (fun _ h => h) h

theorem execHbmAwrite_keepsDies {d frame asub afmt blk : Nat} {mask : DWord} {data : BitVec 512} {s : State} (h : diesOk s.dies) :
    KeepsDies (execHbmAwrite d frame asub afmt blk mask data s) := by
  unfold execHbmAwrite
  exact whenUp_hole_keepsDies (fun s h => State.modDie_ok s _ _ h fun x hx => Die.awrite_wf x _ _ _ _ _ _ hx) h

theorem execPatrolScrub_keepsDies {d stack badSymbols : Nat} {s : State} (h : diesOk s.dies) :
    KeepsDies (execPatrolScrub d stack badSymbols s) := by
  unfold execPatrolScrub
  dsimp only
  refine keepsDies_ite ((keepsDies_next s).2 h) ((keepsDies_next _).2 ?_)
  refine State.modDie_ok_of _ d _ (State.checkSector_ok s d _ _ h) fun x z (hz : x.scrubNext stack = z) hx => ?_
  rwa [← hz, Die.scrubNext_mem]

theorem execDeq_keepsDies {d k : Nat} {s : State} (h : diesOk s.dies) : KeepsDies (execDeq d k s) := by
  unfold execDeq
  (repeat' split) <;> simp [h]

theorem execLostdie_keepsDies {d k : Nat} {s : State} (h : diesOk s.dies) : KeepsDies (execLostdie d k s) := by
  unfold execLostdie
  exact takeMsg_keepsDies (fun s m h => by
    split
    · exact h
    · exact State.declareLost_ok s _ _ _ h) h

theorem execSaveack_keepsDies {d k : Nat} {s : State} (h : diesOk s.dies) : KeepsDies (execSaveack d k s) := by
  unfold execSaveack
  exact takeMsg_keepsDies (fun s m h => by
    split
    · next r _ =>
      have hr := State.endRequest_ok s d r h
      split
      · exact State.belaySaved_ok _ _ hr
      · exact hr
    · exact h) h

theorem execElementAssign_keepsDies {d index : Nat} {s : State} (h : diesOk s.dies) : KeepsDies (execElementAssign d index s) := by
  unfold execElementAssign
  (repeat' split) <;> simp [h]

theorem execTicketExpiry_keepsDies {d index ticket : Nat} {s : State} (h : diesOk s.dies) :
    KeepsDies (execTicketExpiry d index ticket s) := by
  unfold execTicketExpiry
  simp [h]

theorem execIncompleteMessageDiscard_keepsDies {d k : Nat} {s : State} (h : diesOk s.dies) :
    KeepsDies (execIncompleteMessageDiscard d k s) := by
  unfold execIncompleteMessageDiscard
  split
  · exact (keepsDies_next s).2 h
  · refine keepsDies_ite ((keepsDies_next s).2 h) ((keepsDies_next _).2 ?_)
    exact State.answer_ok _ _ _ _ _ _ (State.modDie_ok s d _ h fun _ hx => hx)

theorem execDoneRecordExpiry_keepsDies {d k : Nat} {s : State} (h : diesOk s.dies) : KeepsDies (execDoneRecordExpiry d k s) := by
  unfold execDoneRecordExpiry
  split
  · exact (keepsDies_next s).2 h
  · exact keepsDies_ite ((keepsDies_next s).2 h) (keepsDies_modDie (fun _ hx => hx) h)

theorem execTransitSpillDiscard_keepsDies {d k : Nat} {s : State} (h : diesOk s.dies) : KeepsDies (execTransitSpillDiscard d k s) := by
  unfold execTransitSpillDiscard
  split
  · exact (keepsDies_next s).2 h
  · exact keepsDies_ite ((keepsDies_next s).2 h) (keepsDies_modDie (fun _ hx => hx) h)

theorem execProbeSend_keepsDies {d link : Nat} {s : State} (h : diesOk s.dies) : KeepsDies (execProbeSend d link s) := by
  unfold execProbeSend
  (repeat' split) <;> simp [h]

theorem execDieLost_keepsDies {d lost : Nat} {s : State} (h : diesOk s.dies) : KeepsDies (execDieLost d lost s) := by
  unfold execDieLost
  (repeat' split) <;> simp [h]

theorem execTargetLostTimeout_keepsDies {d pkg die : Nat} {s : State} (h : diesOk s.dies) :
    KeepsDies (execTargetLostTimeout d pkg die s) := by
  unfold execTargetLostTimeout
  dsimp only
  (repeat' split) <;> simp [h]

theorem execHostData_keepsDies {fr : List Byte} {s : State} (h : diesOk s.dies) : KeepsDies (execHostData fr s) := by
  unfold execHostData
  (repeat' split) <;> simp [h]

theorem execHostAck_keepsDies {fr : List Byte} {s : State} (h : diesOk s.dies) : KeepsDies (execHostAck fr s) := by
  unfold execHostAck
  (repeat' split) <;> simp [h]

theorem execHostAckSend_keepsDies {conn : Nat} {s : State} (h : diesOk s.dies) : KeepsDies (execHostAckSend conn s) := by
  unfold execHostAckSend
  (repeat' split) <;> simp [h]

theorem execHostDataSend_keepsDies {conn : Nat} {s : State} (h : diesOk s.dies) : KeepsDies (execHostDataSend conn s) := by
  unfold execHostDataSend
  split
  · exact (keepsDies_next s).2 h
  · split
    · exact (keepsDies_next s).2 h
    · split
      · exact (keepsDies_next s).2 h
      · next _ c _ _ _ _ _ t _ =>
        exact (keepsDies_next _).2 (State.modConn_ok _ _ _ (State.sendOn_ok _ _ _ _ _ (State.sendElement_ok s c t h)))

theorem execRtoTimeout_keepsDies {conn : Nat} {s : State} (h : diesOk s.dies) : KeepsDies (execRtoTimeout conn s) := by
  unfold execRtoTimeout
  dsimp only
  (repeat' split) <;> simp [h]

theorem execNeighbourDiscovery_keepsDies {target : BitVec 128} {s : State} (h : diesOk s.dies) :
    KeepsDies (execNeighbourDiscovery target s) := by
  unfold execNeighbourDiscovery
  (repeat' split) <;> simp [h]

theorem execStagedCommit_keepsDies {d node : Nat} {s : State} (h : diesOk s.dies) : KeepsDies (execStagedCommit d node s) := by
  unfold execStagedCommit
  exact keepsDies_modDie (fun x hx => by
    split
    · exact Die.commitNode_wf x node hx
    · exact hx) h

theorem execCommitComplete_keepsDies {d node : Nat} {s : State} (h : diesOk s.dies) : KeepsDies (execCommitComplete d node s) := by
  unfold execCommitComplete
  exact keepsDies_modDie (fun x hx => by
    split
    · exact hx
    · split
      · exact hx
      · simp only [Die.dropNode_mem]
        refine Die.dropOwed_wf _ _ ?_
        split
        · exact hx
        · exact Die.arrive_wf x _ _ _ _ hx) h

theorem execIrrevocableResume_keepsDies {d node : Nat} {s : State} (h : diesOk s.dies) : KeepsDies (execIrrevocableResume d node s) := by
  unfold execIrrevocableResume
  split
  · exact (keepsDies_next s).2 h
  · refine keepsDies_ite ((keepsDies_next s).2 h) (keepsDies_modDie (fun x hx => Die.checkSettled_wf x node hx) ?_)
    refine foldl_ok _ (fun s gid h => State.gather_ok _ _ _ (State.performSel_ok s d gid _ h)) _ _ ?_
    exact State.modDie_ok s d _ h fun x hx => (Die.turnIrrevocable_mem _ node).symm ▸ Die.commitNode_wf x node hx

theorem execCheckpoint_keepsDies {d : Nat} {s : State} (h : diesOk s.dies) : KeepsDies (execCheckpoint d s) := by
  unfold execCheckpoint
  (repeat' split) <;> simp [h]

theorem execRecordTake_keepsDies {d : Nat} {s : State} (h : diesOk s.dies) : KeepsDies (execRecordTake d s) := by
  unfold execRecordTake
  refine keepsDies_ite ((keepsDies_next s).2 h) ?_
  have hp := State.promote_ok s d h
  refine keepsDies_ite ((keepsDies_next _).2 hp) ?_
  split
  · exact (keepsDies_next _).2 hp
  · next r _ =>
    have hr := State.modDie_ok _ d (fun x => x.reachGate r.1) hp fun x hx => Die.reachGate_wf x _ hx
    refine keepsDies_ite ((keepsDies_next _).2 hr) ?_
    have ht := State.takeRecord_ok _ d r hr
    have hc := fun rec => State.modDie_ok _ d (fun _ => (Die.checkRecord _ rec).2) ht
      fun _ _ => Die.checkRecord_wf _ rec (die_wf _ d ht)
    dsimp only
    split
    · exact (keepsDies_next _).2 (hc _)
    · exact keepsDies_modDie (fun x hx => Die.discardRecord_wf x _ _ hx) (hc _)
    · exact (keepsDies_next _).2 (State.promote_ok _ d (State.modDie_ok _ d _ (hc _) fun x hx => Die.passStages_wf x _ hx))

theorem execTranslate_keepsDies {d txid : Nat} {s : State} (h : diesOk s.dies) : KeepsDies (execTranslate d txid s) := by
  unfold execTranslate
  split
  · exact (keepsDies_next s).2 h
  · next t _ =>
    refine keepsDies_ite ((keepsDies_next s).2 h) ?_
    refine keepsDies_ite ((keepsDies_next _).2 (State.endTrans_ok s d t _ h)) ((keepsDies_next _).2 ?_)
    exact State.transRead_ok s d t _ _ _ _ h fun list s h =>
      State.transRead_ok s d t _ _ _ _ h fun fmt s h => State.translateExts_ok s d t list fmt _ h

theorem execGroupPlace_keepsDies {d : Nat} {s : State} (h : diesOk s.dies) : KeepsDies (execGroupPlace d s) := by
  unfold execGroupPlace
  refine keepsDies_ite ((keepsDies_next s).2 h) ?_
  split
  · next s' hs => exact (keepsDies_next s').2 (State.runMove_ok s d h s' hs)
  · (repeat' split) <;> simp [h]

theorem execSlotFree_keepsDies {d gid : Nat} {s : State} (h : diesOk s.dies) : KeepsDies (execSlotFree d gid s) := by
  unfold execSlotFree
  dsimp only
  split
  · exact (keepsDies_next s).2 h
  · next g _ =>
    have hx := die_wf s d h
    refine keepsDies_ite ((keepsDies_next s).2 h) (keepsDies_modDie (fun _ _ => ?_) h)
    split
    · exact Die.completeGroup_wf _ g (by simpa using hx)
    · simpa using hx

theorem execTrackerDrain_keepsDies {d gid : Nat} {s : State} (h : diesOk s.dies) : KeepsDies (execTrackerDrain d gid s) := by
  unfold execTrackerDrain
  dsimp only
  split
  · exact (keepsDies_next s).2 h
  · next g _ =>
    have hx := die_wf s d h
    refine keepsDies_ite ((keepsDies_next s).2 h) (keepsDies_modDie (fun _ _ => ?_) h)
    split
    · exact Die.checkSettled_wf _ _ (by simpa using hx)
    · exact Die.completeGroup_wf _ g hx

theorem execRebalance_keepsDies {d : Nat} {s : State} (h : diesOk s.dies) : KeepsDies (execRebalance d s) := by
  unfold execRebalance
  dsimp only
  refine keepsDies_ite ((keepsDies_next s).2 h) ?_
  have hb := State.modDie_ok s d (fun x => x.modSched fun y => { y with balanceAt := x.ps }) h fun _ hx => hx
  split
  · exact (keepsDies_next _).2 (State.preempt_ok _ _ _ _ _ (State.modDie_ok _ d _ hb fun _ hx => hx))
  · exact (keepsDies_next _).2 hb

theorem execWatchdog_keepsDies {d gid warp : Nat} {s : State} (h : diesOk s.dies) : KeepsDies (execWatchdog d gid warp s) := by
  unfold execWatchdog
  (repeat' split) <;> simp [h]

theorem execWatchdogKill_keepsDies {d gid : Nat} {s : State} (h : diesOk s.dies) : KeepsDies (execWatchdogKill d gid s) := by
  unfold execWatchdogKill
  (repeat' split) <;> simp [h]

theorem execCairnForm_keepsDies {d gid : Nat} {s : State} (h : diesOk s.dies) : KeepsDies (execCairnForm d gid s) := by
  unfold execCairnForm
  (repeat' split) <;> simp [h]

theorem execWaitLimit_keepsDies {d gid thread : Nat} {s : State} (h : diesOk s.dies) : KeepsDies (execWaitLimit d gid thread s) := by
  unfold execWaitLimit
  (repeat' split) <;> simp [h]

theorem execSleepEnd_keepsDies {d gid thread : Nat} {s : State} (h : diesOk s.dies) : KeepsDies (execSleepEnd d gid thread s) := by
  unfold execSleepEnd
  (repeat' split) <;> simp [h]

theorem execCwaitTimeout_keepsDies {d gid warp : Nat} {s : State} (h : diesOk s.dies) : KeepsDies (execCwaitTimeout d gid warp s) := by
  unfold execCwaitTimeout
  split
  · exact (keepsDies_next s).2 h
  · dsimp only
    split
    · exact (keepsDies_next _).2 (State.modGroup_ok s d gid _ h)
    · exact (keepsDies_next s).2 h

theorem execPendingLaunchDrain_keepsDies {d core : Nat} {s : State} (h : diesOk s.dies) : KeepsDies (execPendingLaunchDrain d core s) := by
  unfold execPendingLaunchDrain
  (repeat' split) <;> simp [h]

theorem execLaunchReserveRetry_keepsDies {d core : Nat} {s : State} (h : diesOk s.dies) : KeepsDies (execLaunchReserveRetry d core s) := by
  unfold execLaunchReserveRetry
  (repeat' split) <;> simp [h]

theorem execMatrixPassGrant_keepsDies {d cluster : Nat} {s : State} (h : diesOk s.dies) : KeepsDies (execMatrixPassGrant d cluster s) := by
  have hm := State.markEligible_ok s d cluster h
  unfold execMatrixPassGrant
  dsimp only
  split
  · exact (keepsDies_next _).2 (State.fetchPass_ok _ _ _ _ (State.modDie_ok _ d _ hm fun _ hx => hx))
  · exact (keepsDies_next _).2 hm

theorem execMatrixPassEnd_keepsDies {d cluster : Nat} {s : State} (h : diesOk s.dies) : KeepsDies (execMatrixPassEnd d cluster s) := by
  unfold execMatrixPassEnd
  dsimp only
  (repeat' split) <;> simp [h]

theorem execStreamFillRow_keepsDies {d core copy row : Nat} {s : State} (h : diesOk s.dies) :
    KeepsDies (execStreamFillRow d core copy row s) := by
  unfold execStreamFillRow
  simp [h]

theorem execStreamDrainRow_keepsDies {d core copy row : Nat} {s : State} (h : diesOk s.dies) :
    KeepsDies (execStreamDrainRow d core copy row s) := by
  unfold execStreamDrainRow
  simp [h]

theorem execStreamSlotDeq_keepsDies {d core copy : Nat} {s : State} (h : diesOk s.dies) : KeepsDies (execStreamSlotDeq d core copy s) := by
  unfold execStreamSlotDeq
  dsimp only
  (repeat' split) <;> simp [h]

theorem execDrainQueuePut_keepsDies {d core copy : Nat} {s : State} (h : diesOk s.dies) : KeepsDies (execDrainQueuePut d core copy s) := by
  unfold execDrainQueuePut
  dsimp only
  (repeat' split) <;> simp [h]

theorem execDrainReserveRetry_keepsDies {d core copy : Nat} {s : State} (h : diesOk s.dies) :
    KeepsDies (execDrainReserveRetry d core copy s) := by
  unfold execDrainReserveRetry
  (repeat' split) <;> simp [h]

theorem execGretComplete_keepsDies {d gid : Nat} {s : State} (h : diesOk s.dies) : KeepsDies (execGretComplete d gid s) := by
  unfold execGretComplete
  (repeat' split) <;> simp [h]

theorem execGateTimeout_keepsDies {d gid level : Nat} {s : State} (h : diesOk s.dies) : KeepsDies (execGateTimeout d gid level s) := by
  unfold execGateTimeout
  split
  · exact (keepsDies_next s).2 h
  · refine keepsDies_ite ((keepsDies_next s).2 h) (keepsDies_ite ((keepsDies_next _).2 ?_) ((keepsDies_next s).2 h))
    exact State.modGroup_ok _ d gid _ (State.closeStreams_ok _ d gid level (State.withdrawWaits_ok s d gid level h))

theorem execSwapOut_keepsDies {d : Nat} {s : State} (h : diesOk s.dies) : KeepsDies (execSwapOut d s) := by
  unfold execSwapOut
  dsimp only
  (repeat' split) <;> simp [h]

theorem execSwapRestorable_keepsDies {d gid : Nat} {s : State} (h : diesOk s.dies) : KeepsDies (execSwapRestorable d gid s) := by
  unfold execSwapRestorable
  dsimp only
  simp [h]

theorem execPreemptForcedSave_keepsDies {d gid : Nat} {s : State} (h : diesOk s.dies) : KeepsDies (execPreemptForcedSave d gid s) := by
  unfold execPreemptForcedSave
  dsimp only
  (repeat' split) <;> simp [h]

theorem execPoisonHandlerTimeout_keepsDies {d gid : Nat} {s : State} (h : diesOk s.dies) :
    KeepsDies (execPoisonHandlerTimeout d gid s) := by
  unfold execPoisonHandlerTimeout
  (repeat' split) <;> simp [h]

theorem execWarmReset_keepsDies {d : Nat} {planned : Bool} {s : State} (h : diesOk s.dies) : KeepsDies (execWarmReset d planned s) := by
  unfold execWarmReset
  refine keepsDies_ite ((keepsDies_next s).2 h) (keepsDies_ite ((keepsDies_next _).2 (State.coldBoot_ok s d h)) ?_)
  exact keepsDies_ite ((keepsDies_next _).2 (State.plannedReset_ok s d h)) ((keepsDies_next _).2 (State.warmReset_ok _ d _ h))

theorem execFreqChange_keepsDies {d point : Nat} {s : State} (h : diesOk s.dies) : KeepsDies (execFreqChange d point s) := by
  unfold execFreqChange
  dsimp only
  (repeat' split) <;> simp [h]

theorem execFreqChangeDone_keepsDies {d : Nat} {s : State} (h : diesOk s.dies) : KeepsDies (execFreqChangeDone d s) := by
  unfold execFreqChangeDone
  simp [h]

theorem execThermalCheck_keepsDies {readings : List Thermal} {s : State} (h : diesOk s.dies) : KeepsDies (execThermalCheck readings s) := by
  have hr := foldl_ok State.reading (fun s r h => State.reading_ok s r h) readings s h
  have hc : ∀ (total : Nat) (s : State) (d : Nat), diesOk s.dies →
      diesOk (if 115 ≤ (s.die d).tj.toNat ∧ (s.die d).freqPoint = 2 then (s.modDie d fun x => (x.retire 7 0 0 6).stop).dieRetired d
        else s.modDie d fun x => x.coolDown total).dies := fun total s d h => by
    split
    · exact State.dieRetired_ok _ d (State.modDie_ok s d _ h fun x hx => by simpa using hx)
    · exact State.modDie_ok s d _ h fun x hx => by simpa using hx
  unfold execThermalCheck
  dsimp only
  split
  · exact (keepsDies_next _).2 (foldl_ok _ (hc _) _ _ hr)
  · refine keepsDies_modDie (fun x hx => ?_) (foldl_ok _ (hc _) _ _ hr)
    split
    · exact hx
    · simpa using hx

theorem execLinkFrame_keepsDies {d link : Nat} {rx : LinkRx} {s : State} (h : diesOk s.dies) : KeepsDies (execLinkFrame d link rx s) := by
  unfold execLinkFrame
  refine keepsDies_ite ((keepsDies_next s).2 h) (keepsDies_ite ?_ (keepsDies_ite ((keepsDies_next s).2 h) ?_))
  · refine keepsDies_ite ((keepsDies_next s).2 h) ?_
    have hf := State.frameOut_ok s (seamPeer d link) link h
    split
    · next heq => exact (keepsDies_next _).2 (State.frameIn_ok _ d link _ (by rw [heq] at hf; exact hf))
    · next heq => exact (keepsDies_next _).2 (State.frameIn_ok _ d link _ (by rw [heq] at hf; exact hf))
    · exact (keepsDies_next s).2 h
  · have hf := State.frameOut_ok s d link h
    split
    · exact (keepsDies_next s).2 h
    · exact (keepsDies_next _).2 (State.frameIn_ok _ d link _ hf)
    · exact (keepsDies_next _).2 (State.frameIn_ok _ d link _ hf)

theorem execLinkReplayTimeout_keepsDies {d link : Nat} {s : State} (h : diesOk s.dies) : KeepsDies (execLinkReplayTimeout d link s) := by
  unfold execLinkReplayTimeout
  simp [h]

theorem execMgmtSession_keepsDies {fr : List Byte} {s : State} (h : diesOk s.dies) : KeepsDies (execMgmtSession fr s) := by
  unfold execMgmtSession
  split
  · exact (keepsDies_next s).2 h
  · next m r s' heq =>
    have ha : diesOk s'.dies := State.accept_ok s _ _ h _ heq
    refine keepsDies_ite ((keepsDies_next _).2 (State.reply_ok s' r _ _ ha)) (keepsDies_ite ((keepsDies_next _).2 ?_) ?_)
    · refine State.reply_ok _ r _ _ ?_
      split
      · exact State.raiseAlarm_ok _ _ _ _ (State.raiseAlarm_ok _ _ _ _ ha)
      · exact State.raiseAlarm_ok _ _ _ _ ha
    · split
      · exact (keepsDies_next _).2 (State.reply_ok _ r _ _ ha)
      · exact (keepsDies_next _).2 (State.reply_ok _ _ _ _ ha)

theorem execTamper_keepsDies  {s : State} (h : diesOk s.dies) : KeepsDies (execTamper s) := by
  unfold execTamper
  rw [finish_next, keepsDies_next]
  exact foldl_ok _ (fun s d h => State.raiseAlarm_ok s d _ _ h) _ s h

theorem execGlitch_keepsDies {d : Nat} {s : State} (h : diesOk s.dies) : KeepsDies (execGlitch d s) := by
  unfold execGlitch
  exact (keepsDies_next _).2 (State.raiseAlarm_ok _ d _ _ (State.modDie_ok s d _ h fun _ hx => hx))

theorem execTemperatureAlarm_keepsDies {d : Nat} {celsius : Int} {s : State} (h : diesOk s.dies) :
    KeepsDies (execTemperatureAlarm d celsius s) := by
  unfold execTemperatureAlarm
  rw [finish_next, keepsDies_next]
  split
  · exact State.raiseAlarm_ok s _ _ _ h
  · exact h

theorem execFrameAlignmentFound_keepsDies {d link offset : Nat} {s : State} (h : diesOk s.dies) :
    KeepsDies (execFrameAlignmentFound d link offset s) := by
  unfold execFrameAlignmentFound
  simp [h]

theorem execUnsignedPersistentWrite_keepsDies {d : Nat} {s : State} (h : diesOk s.dies) : KeepsDies (execUnsignedPersistentWrite d s) := by
  unfold execUnsignedPersistentWrite
  simp [h]

/-! ## Every instruction -/

/-- PMOV moves predicates to a register or from one. -/
theorem execPmov_keepsDies {w : RegWord} {s : State} (h : diesOk s.dies) : KeepsDies (execPmov w s) :=
  issueWord_keepsDies (fun j s h => by
    split
    · exact predsFrom_ok _ j s h
    · exact predsTo_ok j s h) h

/-- Every word and every step of the device keeps eight dies with canonical memories. -/
theorem exec_keepsDies (i : Instr) {s : State} (h : diesOk s.dies) : KeepsDies (exec i s) := by
  cases i with
  | iadd | isub | imul | imulh | imad | imin | imax | iabs | ineg | isad | and | or | xor | andn | orn | not | lop3 | shl | shr | sar | rol
    | shf | popc | clz | ctz | brev | bfx | bfi | iaddWide | isubWide | imulWide | imadShort | iminWide | imaxWide | isadShort | andWide |
    orWide | xorWide | andnWide | ornWide | icmp | sel | shlWide | shrWide | sarWide | rolWide | shfShort | selShort | bfxWide | bfiShort |
    mov | movi =>
    exact issueWord_keepsDies (aluWord_ok _ _) h
  | iaddc | iaddcWide => exact issueWord_keepsDies (carryWord_ok _) h
  | imadw | lea | prmt | imadwShort | leaWide | pset | prmtShort => exact issueWord_keepsDies (fixedWord_ok _) h
  | pmov => exact execPmov_keepsDies h
  | faddF32 | fsubF32 | fmulF32 | ffmaF32 | fminF32 | fmaxF32 | fcmpF32 | fclassF32 | frcpF32 | frsqF32 | fsqrtF32 | fexp2F32 | flog2F32 |
    frndF32 | fscaleF32 | ffmaF16x2 | faddF64 | fsubF64 | fmulF64 | ffmaF64 | fminF64 | fmaxF64 | fcmpF64 | fclassF64 | frcpF64 | frsqF64 |
    fsqrtF64 | fexp2F64 | flog2F64 | frndF64 | fscaleF64 | ffmaBf16x2 | cvtFF | cvtIF | cvtFI | cvtII =>
    exact issueWord_keepsDies (floatWord_ok _) h
  | cvtsTo | cvtsFrom => exact issueWord_keepsDies (fun j s h => slotWord_ok _ _ _ j s h fun _ j s h => floatWord_ok _ j s h) h
  | packMx4 | packMx8e4 | packMx8e5 | packK4 => exact issueWord_keepsDies (packWord_ok _ _ _ _) h
  | packSlot => exact issueWord_keepsDies (fun j s h => slotWord_ok _ _ _ j s h fun _ j s h => packWord_ok _ _ _ _ j s h) h
  | unpkMx4 | unpkMx8e4 | unpkMx8e5 | unpkK4 => exact issueWord_keepsDies (unpkWord_ok _ _ _ _ _) h
  | unpkSlot => exact issueWord_keepsDies (fun j s h => slotWord_ok _ _ _ j s h fun _ j s h => unpkWord_ok _ _ _ _ _ j s h) h
  | bcast => exact issueWord_keepsDies bcastWord_ok h
  | lane => exact issueWord_keepsDies laneWord_ok h
  | shflIdx | shflRise | shflFall | shflXor => exact issueWord_keepsDies (shflWord_ok _ _) h
  | shflIdxShort | shflRiseShort | shflFallShort | shflXorShort => exact issueWord_keepsDies (shflShortWord_ok _ _) h
  | vote => exact issueWord_keepsDies (voteWord_ok _) h
  | reduxInt | reduxFloat => exact issueWord_keepsDies (reduxWord_ok _ _) h
  | matchLanes => exact issueWord_keepsDies (matchWord_ok _) h
  | ldB | ldBI8 | ldH | ldHI16 | ldW | ldD | ldQ => exact issueWord_keepsDies (loadWord_ok _ _ _) h
  | stB | stH | stW | stD | stQ => exact issueWord_keepsDies (storeWord_ok _ _) h
  | atomW | atomD => exact issueWord_keepsDies (atomWord_ok _ _) h
  | fence | nop => exact issueWord_keepsDies Job.pass_ok h
  | pref => exact issueWord_keepsDies (prefWord_ok _) h
  | ldBWin | ldBI8Win | ldHWin | ldHI16Win | ldWWin | ldDWin | ldQWin => exact issueWord_keepsDies (loadWindow_ok _ _) h
  | stBWin | stHWin | stWWin | stDWin | stQWin => exact issueWord_keepsDies (storeWindow_ok _) h
  | atomWWin | atomDWin => exact issueWord_keepsDies (atomWindow_ok _) h
  | prefRange => exact issueWord_keepsDies prefRangeWord_ok h
  | bar | barCount => exact issueWord_keepsDies (barWord_ok _) h
  | barObject | barObjectArrive => exact issueWord_keepsDies (barObjWord_ok _) h
  | cinit => exact issueWord_keepsDies cinitWord_ok h
  | cadd | caddWide => exact issueWord_keepsDies (caddWord_ok _) h
  | cwait | cwaitLimit => exact issueWord_keepsDies (cwaitWord'_ok _) h
  | cancel => exact issueWord_keepsDies cancelWord_ok h
  | launch | launchQueue => exact issueWord_keepsDies (launchWord_ok _) h
  | qbind => exact issueWord_keepsDies qbindWord_ok h
  | qres | qresWide => exact issueWord_keepsDies (qresWord_ok _) h
  | qput => exact issueWord_keepsDies qputWord_ok h
  | qget | qwait => exact issueWord_keepsDies (deqWord_ok _) h
  | qstat => exact issueWord_keepsDies qstatWord_ok h
  | qcancelGrant | qcancelWait => exact issueWord_keepsDies (qcancelWord_ok _) h
  | bra => exact issueWord_keepsDies (braWord_ok _) h
  | braU => exact issueWord_keepsDies (braUWord_ok _) h
  | bray => exact issueWord_keepsDies (brayWord_ok _) h
  | bruNz | bruZ => exact issueWord_keepsDies (bruWord_ok _ _) h
  | jmp => exact issueWord_keepsDies jmpWord_ok h
  | jtab => exact issueWord_keepsDies jtabWord_ok h
  | call => exact issueWord_keepsDies (fun j s h => callWord_ok _ j s h) h
  | callRegister => exact issueWord_keepsDies (callWord_ok _) h
  | callt => exact issueWord_keepsDies calltWord_ok h
  | ret => exact issueWord_keepsDies retWord_ok h
  | reform => exact issueWord_keepsDies reformWord_ok h
  | exit => exact issueWord_keepsDies exitWord_ok h
  | wait => exact issueWord_keepsDies (waitWord_ok _) h
  | sleep => exact issueWord_keepsDies sleepWord_ok h
  | mloopB16 | mloopB8 | mloopB4 | mloopB16Short | mloopB8Short | mloopB4Short => exact issueWord_keepsDies (mloopWord_ok _ _) h
  | mzero => exact issueWord_keepsDies mzeroWord_ok h
  | mldt | mldtWin => exact issueWord_keepsDies (mldtWord_ok _ _) h
  | mst => exact issueWord_keepsDies (mstWord_ok _ _ _) h
  | mstSlot | mstWinSlot => exact issueWord_keepsDies (mstSlotWord_ok _) h
  | mrdF32 | mrdA80 => exact issueWord_keepsDies (mrdWord_ok _ _) h
  | mrdSlot => exact issueWord_keepsDies mrdSlotWord_ok h
  | mver => exact issueWord_keepsDies mverWord_ok h
  | sfill | sdrain => exact issueWord_keepsDies (copyWord_ok _) h
  | sfillQueue | sdrainQueue => exact issueWord_keepsDies (queueCopyWord_ok _) h
  | srel => exact issueWord_keepsDies srelWord_ok h
  | sjoin => exact issueWord_keepsDies sjoinWord_ok h
  | swait | swaitCount => exact issueWord_keepsDies (swaitWord_ok _) h
  | gate => exact issueWord_keepsDies gateWord_ok h
  | gret => exact issueWord_keepsDies gretWord_ok h
  | trap | brk => exact issueWord_keepsDies (trapWord_ok _) h
  | tret => exact issueWord_keepsDies tretWord_ok h
  | yield => exact issueWord_keepsDies yieldWord_ok h
  | rdsr => exact issueWord_keepsDies rdsrWord_ok h
  | wrsr => exact issueWord_keepsDies wrsrWord_ok h
  | scalarIadd | scalarIaddImm | scalarIsub | scalarIsubImm | scalarImul | scalarImulImm | scalarImulh | scalarImulhN64 | scalarImin |
    scalarIminImm | scalarImax | scalarImaxImm | scalarIminN64 | scalarImaxN64 | scalarIabs | scalarIneg | scalarAnd | scalarAndImm | scalarOr
    | scalarOrImm | scalarXor | scalarXorImm | scalarAndn | scalarNot | scalarShl | scalarShlImm | scalarShr | scalarShrImm | scalarSar |
    scalarSarImm | scalarRol | scalarRolImm | scalarPopc | scalarClz | scalarCtz | scalarBrev | scalarMov | scalarMovi | scalarIcmpEq |
    scalarIcmpEqImm | scalarIcmpLt | scalarIcmpLtImm | scalarIcmpLtN64 | scalarIcmpLtN64Imm | scalarIcmpNe | scalarIcmpNeImm | scalarBruNz |
    scalarBruZ =>
    exact issuePair_keepsDies h
  | coldBoot => exact execColdBoot_keepsDies h
  | belayMirrorTimeout => exact execBelayMirrorTimeout_keepsDies h
  | mirrorRewrite => exact execMirrorRewrite_keepsDies h
  | unitOffline => exact execUnitOffline_keepsDies h
  | seamWidthChange => exact execSeamWidthChange_keepsDies h
  | seamWidthChangeDone => exact execSeamWidthChangeDone_keepsDies h
  | ridgeRetrain => exact execRidgeRetrain_keepsDies h
  | epochBoundary => exact execEpochBoundary_keepsDies h
  | registerWrite => exact execRegisterWrite_keepsDies h
  | xinvPage | xinvProcess | xinvAll => exact xinvStep_keepsDies h
  | xinvComplete => exact execXinvComplete_keepsDies h
  | zpClear => exact execZpClear_keepsDies h
  | zeroBackground => exact execZeroBackground_keepsDies h
  | replay => exact execReplay_keepsDies h
  | complete => exact execComplete_keepsDies h
  | decline => exact execDecline_keepsDies h
  | translationRetry => exact execTranslationRetry_keepsDies h
  | translationFail => exact execTranslationFail_keepsDies h
  | memsvcRead => exact execMemsvcRead_keepsDies h
  | memsvcWrite => exact execMemsvcWrite_keepsDies h
  | memsvcAtom => exact execMemsvcAtom_keepsDies h
  | migrate => exact execMigrate_keepsDies h
  | migratePageSend => exact execMigratePageSend_keepsDies h
  | moveEndResume => exact execMoveEndResume_keepsDies h
  | presenceResume => exact execPresenceResume_keepsDies h
  | tilePinReleaseResume => exact execTilePinReleaseResume_keepsDies h
  | bulkPrefetch => exact execBulkPrefetch_keepsDies h
  | hbmRead => exact execHbmRead_keepsDies h
  | hbmWrite => exact execHbmWrite_keepsDies h
  | hbmZero => exact execHbmZero_keepsDies h
  | hbmAread d frame asub afmt blk => exact execHbmAread_keepsDies d frame asub afmt blk h
  | hbmAwrite => exact execHbmAwrite_keepsDies h
  | patrolScrub => exact execPatrolScrub_keepsDies h
  | create => exact commandStep_keepsDies (fun s h => State.create_ok s _ _ h) h
  | destroy => exact commandStep_keepsDies (fun s h => State.destroy_ok s _ _ h) h
  | nameinv => exact commandStep_keepsDies (fun s h => State.nameinv_ok s _ h) h
  | register => exact commandStep_keepsDies (fun s h => State.register_ok s _ h) h
  | revoke => exact commandStep_keepsDies (fun s h => State.revoke_ok s _ _ h) h
  | connect => exact commandStep_keepsDies (fun s h => State.connect_ok s _ h) h
  | close => exact commandStep_keepsDies (fun s h => State.close_ok s _ _ h) h
  | resv => exact takeMsg_keepsDies (fun s m h => State.takeResv_ok s _ m h) h
  | grant | stat | deliver | retry => exact takeMsg_keepsDies (fun s m h => State.takeAnswer_ok s _ m h) h
  | put => exact takeMsg_keepsDies (fun s m h => State.takePut_ok s _ m h) h
  | deq => exact execDeq_keepsDies h
  | cancelMessage => exact takeMsg_keepsDies (fun s m h => State.takeCancel_ok s _ m h) h
  | probe => exact takeMsg_keepsDies (fun _ _ h => h) h
  | incarn => exact takeMsg_keepsDies (fun s m h => State.takeIncarn_ok s _ m h) h
  | lostdie => exact execLostdie_keepsDies h
  | page => exact takeMsg_keepsDies (fun s m h => State.takePage_ok s _ m h) h
  | pageack => exact takeMsg_keepsDies (fun s m h => State.takePageack_ok s _ m h) h
  | rput => exact takeMsg_keepsDies (fun s m h => State.takeRput_ok s _ m h) h
  | save => exact takeMsg_keepsDies (fun s m h => State.takeSave_ok s _ m h) h
  | saveack => exact execSaveack_keepsDies h
  | elementAssign => exact execElementAssign_keepsDies h
  | ticketExpiry => exact execTicketExpiry_keepsDies h
  | incompleteMessageDiscard => exact execIncompleteMessageDiscard_keepsDies h
  | doneRecordExpiry => exact execDoneRecordExpiry_keepsDies h
  | transitSpillDiscard => exact execTransitSpillDiscard_keepsDies h
  | probeSend => exact execProbeSend_keepsDies h
  | dieLost => exact execDieLost_keepsDies h
  | targetLostTimeout => exact execTargetLostTimeout_keepsDies h
  | hostData => exact execHostData_keepsDies h
  | hostAck => exact execHostAck_keepsDies h
  | hostAckSend => exact execHostAckSend_keepsDies h
  | hostDataSend => exact execHostDataSend_keepsDies h
  | rtoTimeout => exact execRtoTimeout_keepsDies h
  | neighbourDiscovery => exact execNeighbourDiscovery_keepsDies h
  | stagedCommit => exact execStagedCommit_keepsDies h
  | commitComplete => exact execCommitComplete_keepsDies h
  | irrevocableResume => exact execIrrevocableResume_keepsDies h
  | checkpoint => exact execCheckpoint_keepsDies h
  | recordTake => exact execRecordTake_keepsDies h
  | translate => exact execTranslate_keepsDies h
  | groupPlace => exact execGroupPlace_keepsDies h
  | slotFree => exact execSlotFree_keepsDies h
  | trackerDrain => exact execTrackerDrain_keepsDies h
  | rebalance => exact execRebalance_keepsDies h
  | watchdog => exact execWatchdog_keepsDies h
  | watchdogKill => exact execWatchdogKill_keepsDies h
  | cairnForm => exact execCairnForm_keepsDies h
  | waitLimit => exact execWaitLimit_keepsDies h
  | sleepEnd => exact execSleepEnd_keepsDies h
  | cwaitTimeout => exact execCwaitTimeout_keepsDies h
  | pendingLaunchDrain => exact execPendingLaunchDrain_keepsDies h
  | launchReserveRetry => exact execLaunchReserveRetry_keepsDies h
  | matrixPassGrant => exact execMatrixPassGrant_keepsDies h
  | matrixPassEnd => exact execMatrixPassEnd_keepsDies h
  | streamFillRow => exact execStreamFillRow_keepsDies h
  | streamDrainRow => exact execStreamDrainRow_keepsDies h
  | streamSlotDeq => exact execStreamSlotDeq_keepsDies h
  | drainQueuePut => exact execDrainQueuePut_keepsDies h
  | drainReserveRetry => exact execDrainReserveRetry_keepsDies h
  | gretComplete => exact execGretComplete_keepsDies h
  | gateTimeout => exact execGateTimeout_keepsDies h
  | swapOut => exact execSwapOut_keepsDies h
  | swapRestorable => exact execSwapRestorable_keepsDies h
  | preemptForcedSave => exact execPreemptForcedSave_keepsDies h
  | poisonHandlerTimeout => exact execPoisonHandlerTimeout_keepsDies h
  | warmReset => exact execWarmReset_keepsDies h
  | freqChange => exact execFreqChange_keepsDies h
  | freqChangeDone => exact execFreqChangeDone_keepsDies h
  | thermalCheck => exact execThermalCheck_keepsDies h
  | linkFrame => exact execLinkFrame_keepsDies h
  | linkReplayTimeout => exact execLinkReplayTimeout_keepsDies h
  | mgmtSession => exact execMgmtSession_keepsDies h
  | mgmtProc | mgmtMap | mgmtQueue | mgmtLoad | mgmtEnqueue | mgmtReset | mgmtAttest | mgmtRead | mgmtFreq | mgmtClose | mgmtReg |
    mgmtPwrite =>
    exact mgmt_keepsDies h
  | tamper => exact execTamper_keepsDies h
  | glitch => exact execGlitch_keepsDies h
  | temperatureAlarm => exact execTemperatureAlarm_keepsDies h
  | frameAlignmentFound => exact execFrameAlignmentFound_keepsDies h
  | unsignedPersistentWrite => exact execUnsignedPersistentWrite_keepsDies h

/-! ## Turns -/

/-- The state that an issue turn comes to. -/
def Picked.state : Picked → State
  | .word _ s | .over s | .skip s => s

theorem State.tryPlace_ok (s : State) (d core place : Nat) (h : diesOk s.dies) : diesOk (s.tryPlace d core place).state.dies := by
  unfold State.tryPlace
  dsimp only
  split
  · exact h
  · split
    · exact h
    · next ts _ =>
      have hf := fun pn pc => State.fetchWord_ok s d core pn pc h
      split
      · exact hf _ _
      · split
        · split
          · exact hf _ _
          · exact State.park_ok _ d _ _ _ _ _ _ _ _ (hf _ _)
        · exact Job.fault_ok _ _ _ _ _ (hf _ _)
      · split
        · exact Job.fault_ok _ _ _ _ _ (hf _ _)
        · split
          · exact hf _ _
          · split
            · exact hf _ _
            · split
              · exact hf _ _
              · exact State.modDie_ok _ d _ (hf _ _) fun _ hx => hx

theorem State.tryPlaces_ok (s : State) (d core : Nat) (places : List Nat) (h : diesOk s.dies) :
    diesOk (s.tryPlaces d core places).state.dies := by
  induction places generalizing s with
  | nil => exact State.modDie_ok s d _ h fun _ hx => hx
  | cons p rest ih =>
    have hp := State.tryPlace_ok s d core p h
    unfold State.tryPlaces
    split
    · next heq => exact ih _ (by rw [heq] at hp; exact hp)
    · exact hp

theorem State.pickWord_ok (s : State) (d core : Nat) (h : diesOk s.dies) : diesOk (s.pickWord d core).state.dies := by
  unfold State.pickWord
  split
  · exact h
  · exact State.tryPlaces_ok _ d core _ (State.resumeCore_ok s d core h)

theorem State.turn_keepsDies (s : State) (free : Bool) (t : Turn) (h : diesOk s.dies) : KeepsDies (s.turn free t) := by
  cases t with
  | issue d core =>
    have hp := State.pickWord_ok s d core h
    unfold State.turn
    dsimp only
    split
    · next i s' heq => exact exec_keepsDies i (by rw [heq] at hp; exact hp)
    · next s' heq => exact (keepsDies_next s').2 (by rw [heq] at hp; exact hp)
    · next s' heq => exact (keepsDies_next s').2 (by rw [heq] at hp; exact hp)
  | time d clocks => exact (keepsDies_next _).2 (State.passTime_ok s d clocks h)
  | event i => exact keepsDies_ite (exec_keepsDies i h) ((keepsDies_next s).2 h)
  | strike d e => exact (keepsDies_next _).2 (State.strike_ok s d e h)

/-! ## Steps -/

/-- Where the end of a step answers a next state, no access to an Unpopulated address stands open in it, and its dies are those of
the follow-up. -/
theorem settled_keepsInv {o : Host.Outcome State Fault Refusal} {t : State} (ho : KeepsDies o) (ht : settled o = .next t) : t.Inv := by
  cases o with
  | next s =>
    obtain ⟨hhole, ht⟩ := (settle_eq_next s t).1 ht
    rw [ht]
    exact ⟨hhole, State.followUp_ok s ((keepsDies_next s).1 ho)⟩
  | fault f => cases ht
  | refused r => cases ht

/-- Settles O7: a step is a turn, which keeps the dies whatever it is, and its end, which a touched Unpopulated address turns into a
fault. -/
theorem stepKeepsInv : Obligations.StepKeepsInv := by
  intro s t ⟨_, hdies⟩ hstep
  exact settled_keepsInv (State.turn_keepsDies _ _ _ (State.nextTurn_ok s hdies)) hstep

end Sys2Proof.Machine
end

section
/-! PROOFS. Words, numbers and bytes: a word's number holds its fields, and decoding and encoding are inverse (O2 to O4). -/

namespace Sys2Proof

/-- The instruction that the opcode map assigns to a word of a form (R201, R207, R212). -/
noncomputable def View.instr (v : View) : Option Instr :=
  match v with
  | .reg op w => if op < 256 ∧ opcodeForm op = some .register then regInstr op w else none
  | .wide op w => if op < 256 ∧ opcodeForm op = some .wide then wideInstr op w else none
  | .short op w => if op < 256 ∧ opcodeForm op = some .short then shortInstr op w else none
  | .pair sop p => if sop < 64 then pairInstr sop p else none
  | .step => none

/-- The map assigns every instruction that is a word to its own opcode and form. -/
theorem Instr.view_instr (i : Instr) : i.view.instr = match i.view with
    | .step => none
    | _ => some i := by
  cases i <;> rfl

set_option maxRecDepth 4000 in
theorem view_of_regInstr {op : Nat} {w : RegWord} {i : Instr} (h : regInstr op w = some i) : i.view = .reg op w := by
  unfold regInstr at h
  split at h <;> cases h <;> rfl

theorem view_of_wideInstr {op : Nat} {w : WideWord} {i : Instr} (h : wideInstr op w = some i) : i.view = .wide op w := by
  unfold wideInstr at h
  split at h <;> cases h <;> rfl

theorem view_of_shortInstr {op : Nat} {w : ShortWord} {i : Instr} (h : shortInstr op w = some i) : i.view = .short op w := by
  unfold shortInstr at h
  split at h <;> cases h <;> rfl

theorem view_of_pairInstr {sop : Nat} {p : PairWord} {i : Instr} (h : pairInstr sop p = some i) : i.view = .pair sop p := by
  unfold pairInstr at h
  split at h <;> cases h <;> rfl

theorem bits_eq_div_mod (x h l : Nat) : bits x h l = x / 2 ^ l % 2 ^ (h + 1 - l) := by
  rw [bits, Nat.shiftRight_eq_div_pow]

theorem toNat_add_zeroExtend {w : Nat} (n : BitVec w) (k : BitVec 8) (h : k.toNat + 2 ^ w ≤ 256) :
    (k + n.zeroExtend 8).toNat = k.toNat + n.toNat := by
  have hn := n.isLt
  rw [BitVec.toNat_add, BitVec.zeroExtend, BitVec.toNat_setWidth, Nat.mod_eq_of_lt (a := n.toNat) (by omega), Nat.mod_eq_of_lt (by omega)]

/-- The operand codes of R206 as numbers. -/
theorem Operand.code_toNat (o : Operand) : o.code.toNat = match o with
    | .v n => n.toNat
    | .s n => 0x80 + n.toNat
    | .p n => 0xC0 + n.toNat
    | .h n => 0xC8 + n.toNat
    | .mt n => 0xD8 + n.toNat
    | .fs n => 0xDA + n.toNat
    | .zero => 0xE2
    | .laneNo => 0xE3
    | .warpNo => 0xE4
    | .rowNo => 0xE5
    | .ones => 0xE6
    | .lit => 0xEE := by
  cases o with
  | v n => exact BitVec.toNat_setWidth_of_le (by decide)
  | s n => exact toNat_add_zeroExtend n _ (by decide)
  | p n => exact toNat_add_zeroExtend n _ (by decide)
  | h n => exact toNat_add_zeroExtend n _ (by decide)
  | mt n => exact toNat_add_zeroExtend n _ (by decide)
  | fs n => exact toNat_add_zeroExtend n _ (by decide)
  | zero | laneNo | warpNo | rowNo | ones | lit => rfl

theorem Operand.ofCode_code (o : Operand) : Operand.ofCode o.code.toNat = some o := by
  cases o with
  | v n => exact (by decide : ∀ n : BitVec 7, ofCode (code (.v n)).toNat = some (.v n)) n
  | s n => exact (by decide : ∀ n : BitVec 6, ofCode (code (.s n)).toNat = some (.s n)) n
  | p n => exact (by decide : ∀ n : BitVec 3, ofCode (code (.p n)).toNat = some (.p n)) n
  | h n => exact (by decide : ∀ n : BitVec 4, ofCode (code (.h n)).toNat = some (.h n)) n
  | mt n => exact (by decide : ∀ n : BitVec 1, ofCode (code (.mt n)).toNat = some (.mt n)) n
  | fs n => exact (by decide : ∀ n : BitVec 3, ofCode (code (.fs n)).toNat = some (.fs n)) n
  | zero | laneNo | warpNo | rowNo | ones | lit => rfl

theorem Operand.code_of_ofCode {c : Nat} {o : Operand} (hc : c < 256) (h : Operand.ofCode c = some o) : o.code.toNat = c :=
  (by decide +kernel : ∀ c < 256, ∀ o ∈ Operand.ofCode c, o.code.toNat = c) c hc o h

theorem VOp.ofCode_code (o : VOp) : VOp.ofCode o.code.toNat = some o := by
  cases o <;> rfl

theorem VOp.code_of_ofCode {c : Nat} {o : VOp} (h : VOp.ofCode c = some o) : o.code.toNat = c := by
  unfold VOp.ofCode at h
  split at h <;> cases h <;> rfl

theorem guardOf_eq {x : Nat} {neg : Bool} {pred : BitVec 3} (h : bits x 61 58 = neg.toNat * 8 + pred.toNat) :
    guardOf x = ⟨neg, pred⟩ := by
  have hp := pred.isLt
  have hn := neg.toNat_lt
  rw [bits_eq_div_mod] at h
  have hneg : bit x 61 = neg := by
    rw [bit, Nat.testBit_eq_decide_div_mod_eq]
    cases neg with
    | false =>
      rw [Bool.toNat_false] at h
      exact decide_eq_false (by omega)
    | true =>
      rw [Bool.toNat_true] at h
      exact decide_eq_true (by omega)
  have hpred : BitVec.ofNat 3 (bits x 60 58) = pred := by
    apply BitVec.eq_of_toNat_eq
    rw [bits_eq_div_mod, BitVec.toNat_ofNat]
    omega
  rw [guardOf, hneg, hpred]

theorem Guard.code_guardOf (x : Nat) : (guardOf x).code = bits x 61 58 * 2 ^ 58 := by
  rw [guardOf, Guard.code, bit, Nat.testBit_eq_decide_div_mod_eq]
  simp only [bits_eq_div_mod, BitVec.toNat_ofNat, decide_eq_true_eq]
  split <;> omega

theorem ofBytes_toBytes (n x : Nat) : ofBytes (toBytes n x) = x % 256 ^ n := by
  induction n generalizing x with
  | zero => simp [toBytes, ofBytes, Nat.mod_one]
  | succ n ih => rw [toBytes, ofBytes, ih, Nat.pow_succ' (m := 256), Nat.mod_mul, BitVec.toNat_ofNat]

theorem length_toBytes (n x : Nat) : (toBytes n x).length = n := by
  induction n generalizing x with
  | zero => rfl
  | succ n ih => rw [toBytes, List.length_cons, ih]

theorem toBytes_ofBytes (bs : List Byte) : toBytes bs.length (ofBytes bs) = bs := by
  induction bs with
  | nil => rfl
  | cons b bs ih =>
    have hb := b.isLt
    rw [List.length_cons, toBytes, ofBytes, show (b.toNat + 256 * ofBytes bs) / 256 = ofBytes bs by omega, ih]
    congr 1
    apply BitVec.eq_of_toNat_eq
    rw [BitVec.toNat_ofNat]
    omega

theorem ofBytes_lt (bs : List Byte) : ofBytes bs < 256 ^ bs.length := by
  induction bs with
  | nil => decide
  | cons b bs ih =>
    have hb := b.isLt
    rw [ofBytes, List.length_cons, Nat.pow_succ]
    omega

theorem Guard.code_eq (g : Guard) : g.code = (g.neg.toNat * 8 + g.pred.toNat) * 2 ^ 58 := by
  obtain ⟨neg, pred⟩ := g
  cases neg <;> simp only [Guard.code, Bool.toNat_false, Bool.toNat_true, if_true, Bool.false_eq_true, if_false] <;> omega

theorem Guard.code_lt (g : Guard) : g.neg.toNat * 8 + g.pred.toNat < 16 := by
  have hp := g.pred.isLt
  have hn := g.neg.toNat_lt
  omega

/-- The number that a word's fields make (R200, R205); a device step has none. -/
def View.number (v : View) : Nat :=
  match v with
  | .reg op w =>
    fmtCode w.lit + w.guard.code + op * 2 ^ 50 + w.mod.toNat * 2 ^ 48 + w.dst.code.toNat * 2 ^ 40
      + w.sa.code.toNat * 2 ^ 32 + w.sb.code.toNat * 2 ^ 24 + w.sc.code.toNat * 2 ^ 16 + w.imm.toNat
  | .wide op w =>
    w.guard.code + op * 2 ^ 50 + w.mod.toNat * 2 ^ 48 + w.dst.code.toNat * 2 ^ 40
      + w.sa.code.toNat * 2 ^ 32 + w.imm.toNat
  | .short op w =>
    fmtCode w.lit + w.guard.code + op * 2 ^ 50 + w.mod.toNat * 2 ^ 48 + w.dst.code.toNat * 2 ^ 40
      + w.sa.code.toNat * 2 ^ 32 + w.sc.code.toNat * 2 ^ 16 + w.imm.toNat
  | .pair sop p =>
    2 ^ 62 + p.guard.code + sop * 2 ^ 52 + p.sdst.toNat * 2 ^ 46 + p.ssa.toNat * 2 ^ 40
      + p.ssb.toNat * 2 ^ 32 + p.vop.code.toNat * 2 ^ 24 + p.vdst.code.toNat * 2 ^ 16 + p.vsa.code.toNat * 2 ^ 8
      + p.vsb.code.toNat
  | .step => 0

theorem Instr.encode_eq {i : Instr} (h : i.view ≠ .step) : i.encode = BitVec.ofNat 64 i.view.number :: i.view.fields.lit.toList := by
  unfold Instr.encode
  cases hv : i.view with
  | step => exact absurd hv h
  | _ => simp only [View.number, View.fields, Option.toList_none]

/-- FMT as a number: 1 for a P word, 2 with a literal, else 0 (R199, R205). -/
def View.fmt (v : View) : Nat :=
  match v with
  | .pair .. => 1
  | v => if v.fields.lit.isSome then 2 else 0

theorem View.fmt_lt (v : View) : v.fmt < 4 := by
  unfold View.fmt
  repeat' split
  all_goals decide

/-- A number with the fields of an F word at the places of R200: FMT, guard, opcode, MOD, DST, SA and bits 31:0. -/
structure FieldsAt (x f : Nat) (g : Guard) (op : Nat) (mod : BitVec 2) (dst sa : Operand) (low : Nat) : Prop where
  fmt : bits x 63 62 = f
  guard : guardOf x = g
  opcode : bits x 57 50 = op
  mod : BitVec.ofNat 2 (bits x 49 48) = mod
  dst : bits x 47 40 = dst.code.toNat
  sa : bits x 39 32 = sa.code.toNat
  low : x % 2 ^ 32 = low

/-- The fields of a sum of fields. -/
theorem fieldsAt_sum {f op low : Nat} (g : Guard) (mod : BitVec 2) (dst sa : Operand) (hf : f < 4) (hop : op < 256) (hl : low < 2 ^ 32) :
    FieldsAt (f * 2 ^ 62 + g.code + op * 2 ^ 50 + mod.toNat * 2 ^ 48 + dst.code.toNat * 2 ^ 40 + sa.code.toNat * 2 ^ 32 + low)
      f g op mod dst sa low := by
  have hg := g.code_lt
  have hm := mod.isLt
  have hd := dst.code.isLt
  have ha := sa.code.isLt
  rw [g.code_eq]
  constructor
  case guard =>
    refine guardOf_eq ?_
    rw [bits_eq_div_mod]
    omega
  case mod =>
    apply BitVec.eq_of_toNat_eq
    rw [bits_eq_div_mod, BitVec.toNat_ofNat]
    omega
  case low => omega
  all_goals
    rw [bits_eq_div_mod]
    omega

/-- FMT of an F word. -/
theorem fmtCode_eq (v : View) (h : ∀ sop p, v ≠ .pair sop p) : fmtCode v.fields.lit = v.fmt * 2 ^ 62 := by
  unfold fmtCode View.fmt
  cases v with
  | pair sop p => exact absurd rfl (h sop p)
  | _ =>
    dsimp only
    split <;> rfl

theorem reg_fieldsAt {op : Nat} (hop : op < 256) (w : RegWord) :
    FieldsAt (View.reg op w).number (View.reg op w).fmt w.guard op w.mod w.dst w.sa
      (w.sb.code.toNat * 2 ^ 24 + w.sc.code.toNat * 2 ^ 16 + w.imm.toNat) := by
  have hb := w.sb.code.isLt
  have hc := w.sc.code.isLt
  have hi := w.imm.isLt
  have hf : fmtCode w.lit = (View.reg op w).fmt * 2 ^ 62 := fmtCode_eq (.reg op w) (fun _ _ h => nomatch h)
  have h := fieldsAt_sum w.guard w.mod w.dst w.sa (View.fmt_lt (.reg op w)) hop
    (low := w.sb.code.toNat * 2 ^ 24 + w.sc.code.toNat * 2 ^ 16 + w.imm.toNat) (by omega)
  rwa [← hf, ← Nat.add_assoc, ← Nat.add_assoc] at h

theorem wide_fieldsAt {op : Nat} (hop : op < 256) (w : WideWord) :
    FieldsAt (View.wide op w).number 0 w.guard op w.mod w.dst w.sa w.imm.toNat := by
  have h := fieldsAt_sum w.guard w.mod w.dst w.sa (f := 0) (by decide) hop w.imm.isLt
  rwa [Nat.zero_mul, Nat.zero_add] at h

theorem short_fieldsAt {op : Nat} (hop : op < 256) (w : ShortWord) :
    FieldsAt (View.short op w).number (View.short op w).fmt w.guard op w.mod w.dst w.sa (w.sc.code.toNat * 2 ^ 16 + w.imm.toNat) := by
  have hc := w.sc.code.isLt
  have hi := w.imm.isLt
  have hf : fmtCode w.lit = (View.short op w).fmt * 2 ^ 62 := fmtCode_eq (.short op w) (fun _ _ h => nomatch h)
  have h := fieldsAt_sum w.guard w.mod w.dst w.sa (View.fmt_lt (.short op w)) hop
    (low := w.sc.code.toNat * 2 ^ 16 + w.imm.toNat) (by omega)
  rwa [← hf, ← Nat.add_assoc] at h

section
variable {x f op : Nat} {i : Instr}

theorem decodeReg_of_fieldsAt {w : RegWord} (h : FieldsAt x f w.guard op w.mod w.dst w.sa
      (w.sb.code.toNat * 2 ^ 24 + w.sc.code.toNat * 2 ^ 16 + w.imm.toNat)) (hi : regInstr op w = some i) :
    decodeReg op x w.lit = .ok i := by
  have hb := w.sb.code.isLt
  have hc := w.sc.code.isLt
  have hm := w.imm.isLt
  have hlow := h.low
  have hsb : bits x 31 24 = w.sb.code.toNat := by rw [bits_eq_div_mod]; omega
  have hsc : bits x 23 16 = w.sc.code.toNat := by rw [bits_eq_div_mod]; omega
  have himm : BitVec.ofNat 16 x = w.imm := by apply BitVec.eq_of_toNat_eq; rw [BitVec.toNat_ofNat]; omega
  simp only [decodeReg, h.dst, h.sa, hsb, hsc, Operand.ofCode_code, h.guard, h.mod, himm, hi]

theorem decodeWide_of_fieldsAt {w : WideWord} (h : FieldsAt x f w.guard op w.mod w.dst w.sa w.imm.toNat) (hi : wideInstr op w = some i) :
    decodeWide op x none = .ok i := by
  have himm : BitVec.ofNat 32 x = w.imm := by
    apply BitVec.eq_of_toNat_eq
    rw [BitVec.toNat_ofNat, h.low]
  simp only [decodeWide, h.dst, h.sa, Operand.ofCode_code, h.guard, h.mod, himm, hi]

theorem decodeShort_of_fieldsAt {w : ShortWord} (h : FieldsAt x f w.guard op w.mod w.dst w.sa (w.sc.code.toNat * 2 ^ 16 + w.imm.toNat))
    (hi : shortInstr op w = some i) : decodeShort op x w.lit = .ok i := by
  have hc := w.sc.code.isLt
  have hm := w.imm.isLt
  have hlow := h.low
  have hsb : bits x 31 24 = 0 := by rw [bits_eq_div_mod]; omega
  have hsc : bits x 23 16 = w.sc.code.toNat := by rw [bits_eq_div_mod]; omega
  have himm : BitVec.ofNat 16 x = w.imm := by apply BitVec.eq_of_toNat_eq; rw [BitVec.toNat_ofNat]; omega
  simp only [decodeShort, h.dst, h.sa, hsb, hsc, Operand.ofCode_code, h.guard, h.mod, himm, hi, if_true]
end

/-- A number with the fields of a P word at the places of R205. -/
structure PairFieldsAt (x sop : Nat) (p : PairWord) : Prop where
  fmt : bits x 63 62 = 1
  guard : guardOf x = p.guard
  sop : bits x 57 52 = sop
  sdst : BitVec.ofNat 6 (bits x 51 46) = p.sdst
  ssa : BitVec.ofNat 6 (bits x 45 40) = p.ssa
  ssb : BitVec.ofNat 8 (bits x 39 32) = p.ssb
  vop : bits x 31 24 = p.vop.code.toNat
  vdst : bits x 23 16 = p.vdst.code.toNat
  vsa : bits x 15 8 = p.vsa.code.toNat
  vsb : bits x 7 0 = p.vsb.code.toNat

theorem pairFieldsAt_of_eq {x sop : Nat} (p : PairWord) (hs : sop < 64) (hx : x = (View.pair sop p).number) : PairFieldsAt x sop p := by
  have hg := p.guard.code_lt
  have h1 := p.sdst.isLt
  have h2 := p.ssa.isLt
  have h3 := p.ssb.isLt
  have h4 := p.vop.code.isLt
  have h5 := p.vdst.code.isLt
  have h6 := p.vsa.code.isLt
  have h7 := p.vsb.code.isLt
  rw [View.number, p.guard.code_eq] at hx
  constructor
  case guard =>
    have hbits : bits x 61 58 = p.guard.neg.toNat * 8 + p.guard.pred.toNat := by
      rw [bits_eq_div_mod]
      omega
    exact guardOf_eq hbits
  case sdst | ssa | ssb =>
    apply BitVec.eq_of_toNat_eq
    rw [bits_eq_div_mod, BitVec.toNat_ofNat]
    omega
  all_goals
    rw [bits_eq_div_mod]
    omega

theorem decodePair_of_pairFieldsAt {x sop : Nat} {p : PairWord} {i : Instr} (h : PairFieldsAt x sop p) (hi : pairInstr sop p = some i) :
    decodePair x = .ok i := by
  simp only [decodePair, h.guard, h.sop, h.sdst, h.ssa, h.ssb, h.vop, h.vdst, h.vsa, h.vsb, VOp.ofCode_code, Operand.ofCode_code, hi]

/-! ### A word's number decodes to the word -/

theorem Instr.instr_of_view {i : Instr} {v : View} (hv : i.view = v) (h : v ≠ .step) : v.instr = some i := by
  have hi := i.view_instr
  rw [hv] at hi
  cases v with
  | step => exact absurd rfl h
  | _ => exact hi

theorem View.reg_of_instr {op : Nat} {w : RegWord} {i : Instr} (h : (View.reg op w).instr = some i) :
    op < 256 ∧ opcodeForm op = some .register ∧ regInstr op w = some i := by
  rw [View.instr] at h
  split at h
  case isTrue ho => exact ⟨ho.1, ho.2, h⟩
  case isFalse => nomatch h

theorem View.wide_of_instr {op : Nat} {w : WideWord} {i : Instr} (h : (View.wide op w).instr = some i) :
    op < 256 ∧ opcodeForm op = some .wide ∧ wideInstr op w = some i := by
  rw [View.instr] at h
  split at h
  case isTrue ho => exact ⟨ho.1, ho.2, h⟩
  case isFalse => nomatch h

theorem View.short_of_instr {op : Nat} {w : ShortWord} {i : Instr} (h : (View.short op w).instr = some i) :
    op < 256 ∧ opcodeForm op = some .short ∧ shortInstr op w = some i := by
  rw [View.instr] at h
  split at h
  case isTrue ho => exact ⟨ho.1, ho.2, h⟩
  case isFalse => nomatch h

theorem View.pair_of_instr {sop : Nat} {p : PairWord} {i : Instr} (h : (View.pair sop p).instr = some i) :
    sop < 64 ∧ pairInstr sop p = some i := by
  rw [View.instr] at h
  split at h
  case isTrue ho => exact ⟨ho, h⟩
  case isFalse => nomatch h

/-- FMT of an F word is not that of a P word. -/
theorem View.fmt_ne_one {v : View} (h : ∀ sop p, v ≠ .pair sop p) : v.fmt ≠ 1 := by
  unfold View.fmt
  split
  case h_1 sop p => exact absurd rfl (h sop p)
  case h_2 => split <;> decide

/-- The number of a word holds FMT at its top and decodes to the word, its literal beside it. -/
theorem decodeForm_number {i : Instr} (h : i.view ≠ .step) :
    bits i.view.number 63 62 = i.view.fmt ∧ decodeForm i.view.number i.view.fields.lit = .ok i := by
  unfold decodeForm
  cases hv : i.view with
  | step => exact absurd hv h
  | pair sop p =>
    obtain ⟨hs, hi⟩ := View.pair_of_instr (Instr.instr_of_view hv fun h => View.noConfusion h)
    have hf := pairFieldsAt_of_eq p hs rfl
    exact ⟨hf.fmt, by rw [if_pos hf.fmt]; exact decodePair_of_pairFieldsAt hf hi⟩
  | reg op w =>
    obtain ⟨ho, hform, hi⟩ := View.reg_of_instr (Instr.instr_of_view hv fun h => View.noConfusion h)
    have hf := reg_fieldsAt ho w
    refine ⟨hf.fmt, ?_⟩
    rw [hf.fmt, if_neg (View.fmt_ne_one (v := .reg op w) fun _ _ h => View.noConfusion h), hf.opcode, hform]
    exact decodeReg_of_fieldsAt hf hi
  | wide op w =>
    obtain ⟨ho, hform, hi⟩ := View.wide_of_instr (Instr.instr_of_view hv fun h => View.noConfusion h)
    have hf := wide_fieldsAt ho w
    refine ⟨hf.fmt, ?_⟩
    rw [hf.fmt, if_neg (by decide), hf.opcode, hform]
    exact decodeWide_of_fieldsAt hf hi
  | short op w =>
    obtain ⟨ho, hform, hi⟩ := View.short_of_instr (Instr.instr_of_view hv fun h => View.noConfusion h)
    have hf := short_fieldsAt ho w
    refine ⟨hf.fmt, ?_⟩
    rw [hf.fmt, if_neg (View.fmt_ne_one (v := .short op w) fun _ _ h => View.noConfusion h), hf.opcode, hform]
    exact decodeShort_of_fieldsAt hf hi

theorem fmtCode_le (lit : Option DWord) : fmtCode lit ≤ 2 ^ 63 := by
  unfold fmtCode
  split <;> omega

theorem Instr.number_lt {i : Instr} (h : i.view ≠ .step) : i.view.number < 2 ^ 64 := by
  cases hv : i.view with
  | step => exact absurd hv h
  | pair sop p =>
    obtain ⟨hs, -⟩ := View.pair_of_instr (Instr.instr_of_view hv fun h => View.noConfusion h)
    have hg := p.guard.code_lt
    have h1 := p.sdst.isLt
    have h2 := p.ssa.isLt
    have h3 := p.ssb.isLt
    have h4 := p.vop.code.isLt
    have h5 := p.vdst.code.isLt
    have h6 := p.vsa.code.isLt
    have h7 := p.vsb.code.isLt
    rw [View.number, p.guard.code_eq]
    omega
  | reg op w =>
    obtain ⟨ho, -⟩ := View.reg_of_instr (Instr.instr_of_view hv fun h => View.noConfusion h)
    have hg := w.guard.code_lt
    have hl := fmtCode_le w.lit
    have h1 := w.mod.isLt
    have h2 := w.dst.code.isLt
    have h3 := w.sa.code.isLt
    have h4 := w.sb.code.isLt
    have h5 := w.sc.code.isLt
    have h6 := w.imm.isLt
    rw [View.number, w.guard.code_eq]
    omega
  | wide op w =>
    obtain ⟨ho, -⟩ := View.wide_of_instr (Instr.instr_of_view hv fun h => View.noConfusion h)
    have hg := w.guard.code_lt
    have h1 := w.mod.isLt
    have h2 := w.dst.code.isLt
    have h3 := w.sa.code.isLt
    have h6 := w.imm.isLt
    rw [View.number, w.guard.code_eq]
    omega
  | short op w =>
    obtain ⟨ho, -⟩ := View.short_of_instr (Instr.instr_of_view hv fun h => View.noConfusion h)
    have hg := w.guard.code_lt
    have hl := fmtCode_le w.lit
    have h1 := w.mod.isLt
    have h2 := w.dst.code.isLt
    have h3 := w.sa.code.isLt
    have h5 := w.sc.code.isLt
    have h6 := w.imm.isLt
    rw [View.number, w.guard.code_eq]
    omega

/-- The first word of an instruction. -/
def Instr.head (i : Instr) : DWord := BitVec.ofNat 64 i.view.number

theorem Instr.head_toNat {i : Instr} (h : i.view ≠ .step) : i.head.toNat = i.view.number := by
  rw [Instr.head, BitVec.toNat_ofNat, Nat.mod_eq_of_lt (i.number_lt h)]

/-- FMT 10 stands exactly on a word with a literal (R199). -/
theorem View.fmt_eq_two_iff {v : View} : v.fmt = 2 ↔ ∃ l, v.fields.lit = some l := by
  cases v with
  | pair sop p => exact ⟨fun h => (nomatch h), fun ⟨_, h⟩ => nomatch h⟩
  | _ =>
    rw [← Option.isSome_iff_exists]
    simp only [View.fmt]
    split <;> simp_all

/-- The first word of a well-formed instruction decodes to it where the word after it is its literal, if it has one. -/
theorem decodeWords_head {i : Instr} {next : Option DWord} (h : i.view ≠ .step) (hi : i.WellFormed)
    (hn : ∀ l, i.view.fields.lit = some l → next = some l) : decodeWords i.head next = .ok i := by
  obtain ⟨hfmt, hform⟩ := decodeForm_number h
  have hlt := i.view.fmt_lt
  have hne : i.view.fmt ≠ 3 := by
    unfold View.fmt
    repeat' split
    all_goals decide
  unfold decodeWords
  rw [i.head_toNat h, hfmt, if_neg hne]
  cases hlit : i.view.fields.lit with
  | none =>
    have h2 : i.view.fmt ≠ 2 := fun h2 => by
      obtain ⟨l, hl⟩ := View.fmt_eq_two_iff.1 h2
      rw [hlit] at hl
      nomatch hl
    rw [hlit] at hform
    rw [if_neg h2]
    simp only [hform, hi]
  | some l =>
    rw [hlit] at hform
    rw [if_pos (View.fmt_eq_two_iff.2 ⟨l, hlit⟩), hn l hlit]
    simp only [hform, hi]

/-! ### Bytes and words -/

/-- The word that the first eight bytes of a list make, where it has so many (R5). -/
def firstWord (bs : List Byte) : Option DWord := if bs.length < 8 then none else some (BitVec.ofNat 64 (ofBytes (bs.take 8)))

theorem ofNat_ofBytes_toBytes (w : DWord) : BitVec.ofNat 64 (ofBytes (toBytes 8 w.toNat)) = w := by
  apply BitVec.eq_of_toNat_eq
  have hw := w.isLt
  rw [ofBytes_toBytes, BitVec.toNat_ofNat]
  omega

theorem firstWord_toBytes (w : DWord) (tail : List Byte) : firstWord (toBytes 8 w.toNat ++ tail) = some w := by
  have hlen := length_toBytes 8 w.toNat
  rw [firstWord, if_neg (by rw [List.length_append]; omega), List.take_left' hlen, ofNat_ofBytes_toBytes]

/-- Decoding a word's bytes is decoding the word with the word that follows it. -/
theorem decode_toBytes (w : DWord) (tail : List Byte) :
    decode (toBytes 8 w.toNat ++ tail) = (decodeWords w (firstWord tail)).map fun i => (i, tail.drop (wordLength w - 8)) := by
  have hlen := length_toBytes 8 w.toNat
  have hnext : (if (toBytes 8 w.toNat ++ tail).length < 16 then none
      else some (BitVec.ofNat 64 (ofBytes (((toBytes 8 w.toNat ++ tail).drop 8).take 8)))) = firstWord tail := by
    rw [firstWord, List.drop_left' hlen, List.length_append, hlen]
    simp only [show (8 + tail.length < 16) = (tail.length < 8) by rw [eq_iff_iff]; omega]
  have hdrop : (toBytes 8 w.toNat ++ tail).drop (wordLength w) = tail.drop (wordLength w - 8) := by
    rw [List.drop_append, hlen, List.drop_of_length_le, List.nil_append]
    rw [hlen, wordLength]
    split <;> omega
  unfold decode
  rw [if_neg (by rw [List.length_append]; omega)]
  dsimp only
  rw [hnext, List.take_left' hlen, ofNat_ofBytes_toBytes, hdrop]
  cases decodeWords w (firstWord tail) <;> rfl

/-- Eight bytes or more are the bytes of their first word and what follows them. -/
theorem exists_toBytes_append {bs : List Byte} (h : ¬ bs.length < 8) : ∃ (w : DWord) (tail : List Byte), bs = toBytes 8 w.toNat ++ tail := by
  have hlen : (bs.take 8).length = 8 := by rw [List.length_take]; omega
  have hlt := ofBytes_lt (bs.take 8)
  have hback := toBytes_ofBytes (bs.take 8)
  rw [hlen] at hlt hback
  refine ⟨BitVec.ofNat 64 (ofBytes (bs.take 8)), bs.drop 8, ?_⟩
  rw [BitVec.toNat_ofNat, Nat.mod_eq_of_lt (by omega), hback, List.take_append_drop]

theorem Instr.bytes_eq {i : Instr} (h : i.view ≠ .step) :
    i.bytes = toBytes 8 i.head.toNat ++ i.view.fields.lit.toList.flatMap fun l => toBytes 8 l.toNat := by
  rw [Instr.bytes, Instr.encode_eq h, List.flatMap_cons, Instr.head]

theorem wordLength_head {i : Instr} (h : i.view ≠ .step) : wordLength i.head = if i.view.fmt = 2 then 16 else 8 := by
  rw [wordLength, i.head_toNat h, (decodeForm_number h).1]

/-- Settles O2: the fields of a word's number stand at their places, and the opcode map inverts the view. -/
theorem decodeEncode : Obligations.DecodeEncode := by
  unfold Obligations.DecodeEncode
  intro i rest h hi
  rw [Instr.bytes_eq h, List.append_assoc, decode_toBytes, wordLength_head h]
  cases hlit : i.view.fields.lit with
  | none =>
    have h2 : i.view.fmt ≠ 2 := fun h2 => by
      obtain ⟨l, hl⟩ := View.fmt_eq_two_iff.1 h2
      rw [hlit] at hl
      nomatch hl
    rw [decodeWords_head h hi (by rw [hlit]; exact nofun), if_neg h2]
    rfl
  | some l =>
    have hflat : [l].flatMap (fun l => toBytes 8 l.toNat) = toBytes 8 l.toNat := by simp
    rw [if_pos (View.fmt_eq_two_iff.2 ⟨l, hlit⟩), Option.toList_some, hflat, firstWord_toBytes,
      decodeWords_head h hi (fun m hm => hlit.symm.trans hm), List.drop_left' (length_toBytes 8 l.toNat)]
    rfl

/-! ### What decodes is the word itself -/

/-- What a decoded word must be: it is its own number, with the literal that it was given. -/
def Instr.Reads (i : Instr) (x : Nat) (lit : Option DWord) : Prop := i.view ≠ .step ∧ i.view.number = x ∧ i.view.fields.lit = lit

theorem Instr.reads_of_view {i : Instr} {v : View} {x : Nat} {lit : Option DWord} (hv : i.view = v) (hs : v ≠ .step)
    (hlit : v.fields.lit = lit) (hx : v.number = x) : i.Reads x lit := by
  rw [← hv] at hs hlit hx
  exact ⟨hs, hx, hlit⟩

theorem bits_lt (x h l : Nat) : bits x h l < 2 ^ (h + 1 - l) := by
  rw [bits_eq_div_mod]
  exact Nat.mod_lt _ (Nat.two_pow_pos _)

/-- A number is the sum of its fields of R200. -/
theorem eq_sum_fields {x f : Nat} (hx : x < 2 ^ 64) (hf : bits x 63 62 = f) :
    f * 2 ^ 62 + bits x 61 58 * 2 ^ 58 + bits x 57 50 * 2 ^ 50 + bits x 49 48 * 2 ^ 48 + bits x 47 40 * 2 ^ 40
      + bits x 39 32 * 2 ^ 32 + x % 2 ^ 32 = x := by
  subst hf
  simp only [bits_eq_div_mod]
  omega

/-- A number from a field up is what stands above the field, and the field. -/
theorem div_eq_bits (x : Nat) {h l : Nat} (hl : l ≤ h + 1) : x / 2 ^ l = x / 2 ^ (h + 1) * 2 ^ (h + 1 - l) + bits x h l := by
  have hp : 2 ^ (h + 1) = 2 ^ l * 2 ^ (h + 1 - l) := by rw [← Nat.pow_add, Nat.add_sub_cancel' hl]
  rw [bits_eq_div_mod, hp, ← Nat.div_div_eq_div_mul, Nat.div_add_mod']

/-- A number is the sum of its fields of R205. -/
theorem eq_sum_pairFields {x : Nat} (hx : x < 2 ^ 64) (hf : bits x 63 62 = 1) :
    2 ^ 62 + bits x 61 58 * 2 ^ 58 + bits x 57 52 * 2 ^ 52 + bits x 51 46 * 2 ^ 46 + bits x 45 40 * 2 ^ 40
      + bits x 39 32 * 2 ^ 32 + bits x 31 24 * 2 ^ 24 + bits x 23 16 * 2 ^ 16 + bits x 15 8 * 2 ^ 8 + bits x 7 0 = x := by
  have h1 := div_eq_bits x (h := 61) (l := 58) (by decide)
  have h2 := div_eq_bits x (h := 57) (l := 52) (by decide)
  have h3 := div_eq_bits x (h := 51) (l := 46) (by decide)
  have h4 := div_eq_bits x (h := 45) (l := 40) (by decide)
  have h5 := div_eq_bits x (h := 39) (l := 32) (by decide)
  have h6 := div_eq_bits x (h := 31) (l := 24) (by decide)
  have h7 := div_eq_bits x (h := 23) (l := 16) (by decide)
  have h8 := div_eq_bits x (h := 15) (l := 8) (by decide)
  have h9 := div_eq_bits x (h := 7) (l := 0) (by decide)
  have htop : x / 2 ^ 62 = 1 := by
    rw [bits_eq_div_mod] at hf
    omega
  rw [htop] at h1
  rw [h1] at h2
  rw [h2] at h3
  rw [h3] at h4
  rw [h4] at h5
  rw [h5] at h6
  rw [h6] at h7
  rw [h7] at h8
  rw [h8, Nat.pow_zero, Nat.div_one] at h9
  omega

theorem toNat_ofNat_of_lt {n x : Nat} (h : x < 2 ^ n) : (BitVec.ofNat n x).toNat = x := by
  rw [BitVec.toNat_ofNat, Nat.mod_eq_of_lt h]

/-- The low word of an F word is the sum of its three fields. -/
theorem low_eq_sum (x : Nat) : bits x 31 24 * 2 ^ 24 + bits x 23 16 * 2 ^ 16 + x % 2 ^ 16 = x % 2 ^ 32 := by
  simp only [bits_eq_div_mod]
  omega

theorem fmtCode_eq_of_fmt {x : Nat} {lit : Option DWord} (hf : bits x 63 62 = if lit.isSome then 2 else 0) : fmtCode lit = bits x 63 62 * 2 ^ 62 := by
  rw [fmtCode, hf]
  split <;> rfl

section
variable {x : Nat} {lit : Option DWord} {i : Instr}

theorem reads_of_decodeReg (hx : x < 2 ^ 64) (hf : bits x 63 62 = if lit.isSome then 2 else 0)
    (h : decodeReg (bits x 57 50) x lit = .ok i) : i.Reads x lit := by
  unfold decodeReg at h
  split at h
  case h_1 d a b c hd ha hb hc =>
    split at h
    case h_1 hi =>
      cases h
      refine Instr.reads_of_view (view_of_regInstr hi) (fun h => View.noConfusion h) rfl ?_
      have hsum := eq_sum_fields hx rfl
      rw [View.number, Guard.code_guardOf, Operand.code_of_ofCode (bits_lt ..) hd, Operand.code_of_ofCode (bits_lt ..) ha,
        Operand.code_of_ofCode (bits_lt ..) hb, Operand.code_of_ofCode (bits_lt ..) hc, fmtCode_eq_of_fmt hf]
      dsimp only
      rw [toNat_ofNat_of_lt (n := 2) (bits_lt x 49 48), BitVec.toNat_ofNat, Nat.add_assoc _ (bits x 31 24 * _), Nat.add_assoc _ (bits x 31 24 * _ + _), low_eq_sum, hsum]
    case h_2 => cases h
  case h_2 => cases h

theorem reads_of_decodeWide (hx : x < 2 ^ 64) (hf : bits x 63 62 = if lit.isSome then 2 else 0)
    (h : decodeWide (bits x 57 50) x lit = .ok i) : i.Reads x lit := by
  unfold decodeWide at h
  split at h
  case h_1 d a hd ha =>
    split at h
    case h_1 hi =>
      cases h
      refine Instr.reads_of_view (view_of_wideInstr hi) (fun h => View.noConfusion h) rfl ?_
      have hsum := eq_sum_fields hx hf
      rw [View.number, Guard.code_guardOf, Operand.code_of_ofCode (bits_lt ..) hd, Operand.code_of_ofCode (bits_lt ..) ha]
      dsimp only
      rw [toNat_ofNat_of_lt (n := 2) (bits_lt x 49 48), BitVec.toNat_ofNat]
      rw [Option.isSome_none, if_neg (by decide), Nat.zero_mul, Nat.zero_add] at hsum
      exact hsum
    case h_2 => cases h
  case h_2 => cases h

theorem reads_of_decodeShort (hx : x < 2 ^ 64) (hf : bits x 63 62 = if lit.isSome then 2 else 0)
    (h : decodeShort (bits x 57 50) x lit = .ok i) : i.Reads x lit := by
  unfold decodeShort at h
  split at h
  case h_1 d a c hd ha hc =>
    split at h
    case h_1 hi =>
      split at h
      case isTrue hb =>
        cases h
        refine Instr.reads_of_view (view_of_shortInstr hi) (fun h => View.noConfusion h) rfl ?_
        have hsum := eq_sum_fields hx rfl
        have hlow := low_eq_sum x
        rw [hb, Nat.zero_mul, Nat.zero_add] at hlow
        rw [View.number, Guard.code_guardOf, Operand.code_of_ofCode (bits_lt ..) hd, Operand.code_of_ofCode (bits_lt ..) ha,
          Operand.code_of_ofCode (bits_lt ..) hc, fmtCode_eq_of_fmt hf]
        dsimp only
        rw [toNat_ofNat_of_lt (n := 2) (bits_lt x 49 48), BitVec.toNat_ofNat, Nat.add_assoc _ (bits x 23 16 * _), hlow, hsum]
      case isFalse => cases h
    case h_2 => cases h
  case h_2 => cases h

theorem reads_of_decodePair (hx : x < 2 ^ 64) (hf : bits x 63 62 = 1) (h : decodePair x = .ok i) : i.Reads x none := by
  unfold decodePair at h
  split at h
  case h_1 => cases h
  case h_2 o ho =>
    split at h
    case h_1 d a b hd ha hb =>
      split at h
      case h_1 hi =>
        cases h
        refine Instr.reads_of_view (view_of_pairInstr hi) (fun h => View.noConfusion h) rfl ?_
        rw [View.number, Guard.code_guardOf, VOp.code_of_ofCode ho, Operand.code_of_ofCode (bits_lt ..) hd,
          Operand.code_of_ofCode (bits_lt ..) ha, Operand.code_of_ofCode (bits_lt ..) hb]
        dsimp only
        rw [toNat_ofNat_of_lt (n := 6) (bits_lt x 51 46), toNat_ofNat_of_lt (n := 6) (bits_lt x 45 40),
          toNat_ofNat_of_lt (n := 8) (bits_lt x 39 32), eq_sum_pairFields hx hf]
      case h_2 => cases h
    case h_2 => cases h

theorem reads_of_decodeForm (hx : x < 2 ^ 64) (hf : bits x 63 62 = 1 ∧ lit = none ∨ bits x 63 62 = if lit.isSome then 2 else 0)
    (h : decodeForm x lit = .ok i) : i.Reads x lit := by
  unfold decodeForm at h
  split at h
  case isTrue h1 =>
    obtain ⟨-, hlit⟩ | hf := hf
    · rw [hlit]
      exact reads_of_decodePair hx h1 h
    · rw [h1] at hf
      split at hf <;> cases hf
  case isFalse h1 =>
    replace hf := hf.resolve_left fun hp => h1 hp.1
    split at h
    case h_1 => cases h
    case h_2 => exact reads_of_decodeReg hx hf h
    case h_3 => exact reads_of_decodeWide hx hf h
    case h_4 => exact reads_of_decodeShort hx hf h
end

/-- What two words decode to is well formed and reads as they do. -/
theorem reads_of_decodeWords {w : DWord} {next : Option DWord} {i : Instr} (h : decodeWords w next = .ok i) :
    i.WellFormed ∧ ∃ lit, i.Reads w.toNat lit ∧ ∀ l, lit = some l → next = some l := by
  have hx := w.isLt
  have hlt : bits w.toNat 63 62 < 4 := bits_lt ..
  unfold decodeWords at h
  dsimp only at h
  split at h
  case isTrue => cases h
  case isFalse h3 =>
    split at h
    case isTrue h2 =>
      split at h
      case h_2 => cases h
      case h_1 l =>
        split at h
        case h_2 => cases h
        case h_1 j hj =>
          split at h
          case h_2 => cases h
          case h_1 hbad =>
            cases h
            exact ⟨hbad, some l, reads_of_decodeForm hx (.inr h2) hj, fun m hm => hm⟩
    case isFalse h2 =>
      split at h
      case h_2 => cases h
      case h_1 j hj =>
        split at h
        case h_2 => cases h
        case h_1 hbad =>
          cases h
          refine ⟨hbad, none, reads_of_decodeForm hx ?_ hj, fun m hm => nomatch hm⟩
          have h01 : bits w.toNat 63 62 = 1 ∨ bits w.toNat 63 62 = 0 := by omega
          exact h01.imp_left fun h1 => ⟨h1, rfl⟩

theorem Instr.head_of_reads {i : Instr} {w : DWord} {lit : Option DWord} (h : i.Reads w.toNat lit) : i.head = w := by
  rw [Instr.head, h.2.1, BitVec.ofNat_toNat, BitVec.setWidth_eq]

/-- The bytes after a word begin with the word that they make. -/
theorem eq_append_of_firstWord {bs : List Byte} {l : DWord} (h : firstWord bs = some l) : bs = toBytes 8 l.toNat ++ bs.drop 8 := by
  by_cases hlen : bs.length < 8
  · rw [firstWord, if_pos hlen] at h
    nomatch h
  · obtain ⟨w, tail, rfl⟩ := exists_toBytes_append hlen
    rw [firstWord_toBytes] at h
    cases h
    rw [List.drop_left' (length_toBytes 8 l.toNat)]

/-- Settles O3: the fields that decoding reads sum to the word again. -/
theorem encodeDecode : Obligations.EncodeDecode := by
  unfold Obligations.EncodeDecode
  intro bs rest i h
  by_cases hlen : bs.length < 8
  · rw [decode, if_pos hlen] at h
    cases h
  obtain ⟨w, tail, rfl⟩ := exists_toBytes_append hlen
  rw [decode_toBytes] at h
  cases hd : decodeWords w (firstWord tail) with
  | error b =>
    rw [hd] at h
    cases h
  | ok j =>
    rw [hd] at h
    cases h
    obtain ⟨hwf, lit, hr, hnext⟩ := reads_of_decodeWords hd
    have hhead := Instr.head_of_reads hr
    have hword := wordLength_head hr.1
    rw [hhead] at hword
    refine ⟨hwf, hr.1, ?_⟩
    rw [Instr.bytes_eq hr.1, hhead, List.append_assoc, hword]
    congr 1
    cases hlit : lit with
    | none =>
      have h2 : i.view.fmt ≠ 2 := fun h2 => by
        obtain ⟨l, hl⟩ := View.fmt_eq_two_iff.1 h2
        rw [hr.2.2, hlit] at hl
        nomatch hl
      rw [hr.2.2, hlit, if_neg h2]
      rfl
    | some l =>
      have hl : i.view.fields.lit = some l := hr.2.2.trans hlit
      rw [hl, if_pos (View.fmt_eq_two_iff.2 ⟨l, hl⟩), Option.toList_some, List.flatMap_singleton]
      exact eq_append_of_firstWord (hnext l hlit)

/-! ### Words that decode to nothing -/

theorem pairInstr_eq_none {sop : Nat} (p : PairWord) (h : 0x30 ≤ sop) : pairInstr sop p = none := by
  unfold pairInstr
  split
  case h_49 => rfl
  all_goals omega

/-- Settles O4. -/
theorem unassignedWordsRefused : Obligations.UnassignedWordsRefused := by
  unfold Obligations.UnassignedWordsRefused
  intro w next
  refine ⟨fun h => ?_, fun h ho => ?_, fun h hs => ?_, fun h ho => ?_⟩
  · simp only [decodeWords, h, if_true]
  · simp only [decodeWords, decodeForm, h, ho]
    rfl
  · have hpair : ∃ b, decodePair w.toNat = .error b := by
      unfold decodePair
      split
      · exact ⟨_, rfl⟩
      · split
        · rw [pairInstr_eq_none _ hs]
          exact ⟨_, rfl⟩
        · exact ⟨_, rfl⟩
    obtain ⟨b, hb⟩ := hpair
    exact ⟨b, by simp [decodeWords, decodeForm, h, hb]⟩
  · cases next with
    | none => exact ⟨.truncated, by simp [decodeWords, h]⟩
    | some l => exact ⟨.operand, by simp [decodeWords, decodeForm, decodeWide, h, ho]⟩
end Sys2Proof
end

section
/-! PROOFS. The words that each active lane computes: integer, logic, compare, float, conversion, lane and block words (O12 to O18). -/

namespace Sys2Proof.Machine
open Sys2Proof.Claims

/-! ## Rows of word tables -/

/-- A row about an F word holds where the word's body, in a job and a state that the row admits, gives the row's state. -/
theorem word_holds {i : Instr} {body next : Job → State → State} {ok : Job → State → Bool} (hexec : ∀ s, exec i s = issueWord i s body)
    (h : ∀ j t, ok j t = true → body j t = next j t) : (word i ok next).Holds := by
  intro s j t hrun hok
  calc exec i s = issueWord i s body := hexec s
    _ = .next (body j t) := issueWord_run _ hrun
    _ = .next (next j t) := congrArg Host.Outcome.next (h j t hok)

/-- A row holds where every lane's value of the word's body is the row's. -/
theorem eachLaneOf_holds {i : Instr} {ok : Job → State → Bool} {f g : Job → State → LaneSrc → Nat}
    (hexec : ∀ s, exec i s = issueWord i s fun j s => j.perLane s (f j s)) (h : ∀ j t, ok j t = true → ∀ l, f j t l = g j t l) :
    (eachLaneOf i ok g).Holds :=
  word_holds hexec fun j t hok => congrArg (j.perLane t) (funext (h j t hok))

/-- A row about a word with operands of fixed widths holds where the word's function gives the row's value in every lane. -/
theorem eachLane_holds_of_fixedWord {i : Instr} {f : Nat → Nat → Nat → Nat} {g : LaneSrc → Nat} (hexec : ∀ s, exec i s = issueWord i s (fixedWord f))
    (hvalue : ∀ l : LaneSrc, f l.a.toNat l.b.toNat l.c.toNat = g l) : (eachLane i g).Holds :=
  eachLaneOf_holds hexec fun _ _ _ => hvalue

/-! ## Integers of the operating width (R240) -/

theorem low_natCast (m : BitVec 2) (n : Nat) : low m n = n % 2 ^ opw m := by
  rw [low]
  norm_cast

theorem wrapInt_natCast (n x : Nat) : wrapInt n x = x % 2 ^ n := by
  rw [wrapInt]
  norm_cast

theorem un_lt (m : BitVec 2) (x : BitVec 128) : un m x < 2 ^ opw m := Nat.mod_lt _ (Nat.two_pow_pos _)

theorem un_mod (m : BitVec 2) (x : BitVec 128) : un m x % 2 ^ opw m = un m x := Nat.mod_eq_of_lt (un_lt m x)

theorem signedOf_un (m : BitVec 2) (x : BitVec 128) : signedOf (opw m) (un m x) = sgn m x := by
  rw [signedOf, sgn, un_mod]
  split <;> split <;> omega

theorem readInt_un (m : BitVec 2) (x : BitVec 128) : readInt (opw m) m[1] (un m x) = num m x := by
  rw [readInt, num, un_mod, signedOf_un]
  rfl

/-- A source's number, signed or not, is the source mod 2^w. -/
theorem low_num (m : BitVec 2) (x : BitVec 128) : low m (num m x) = un m x := by
  have hn := low_natCast m (un m x)
  rw [un_mod] at hn
  unfold num
  split
  · exact hn
  split
  · rw [low, Int.sub_emod_right]
    exact hn
  · exact hn

theorem iadd_un (m : BitVec 2) (a b : Nat) : iadd (opw m) a b = low m (a + b) := by
  rw [iadd, ← Int.natCast_add, low_natCast]

theorem imul_un (m : BitVec 2) (a b : Nat) : imul (opw m) a b = low m (a * b) := by
  rw [imul, ← Int.natCast_mul, low_natCast]

theorem imad_un (m : BitVec 2) (a b c : Nat) : imad (opw m) a b c = low m (a * b + c) := by
  rw [imad, ← Int.natCast_mul, ← Int.natCast_add, low_natCast]

/-- IMULH: the upper half of the product's two halves is the product divided by 2^w, mod 2^w. -/
theorem imulh_un (m : BitVec 2) (x y : BitVec 128) : imulh (opw m) m[1] (un m x) (un m y) = low m (num m x * num m y / 2 ^ opw m) := by
  rw [imulh, readInt_un, readInt_un, low, wrapInt]
  generalize num m x * num m y = p
  have hw : (0 : Int) < 2 ^ opw m := Int.pow_pos (by decide)
  have hp : (2 : Int) ^ (2 * opw m) = 2 ^ opw m * 2 ^ opw m := by rw [Nat.two_mul, Int.pow_add]
  have hmod := Int.emod_nonneg p (b := 2 ^ opw m * 2 ^ opw m) (Int.ne_of_gt (Int.mul_pos hw hw))
  apply Int.ofNat_inj.1
  push_cast
  rw [hp, Int.toNat_of_nonneg hmod, Int.toNat_of_nonneg (Int.emod_nonneg _ (Int.ne_of_gt hw))]
  have hdiv : p / (2 ^ opw m * 2 ^ opw m) = p / 2 ^ opw m / 2 ^ opw m := (Int.ediv_ediv_of_nonneg (Int.le_of_lt hw)).symm
  rw [Int.emod_def, hdiv, Int.emod_def, Int.mul_assoc, Int.sub_mul_ediv_left _ _ (Int.ne_of_gt hw)]

theorem iminmax_un (m : BitVec 2) (x y : BitVec 128) (isMax : Bool) :
    iminmax (opw m) m[1] isMax (un m x) (un m y) = low m (if isMax then max (num m x) (num m y) else min (num m x) (num m y)) := by
  unfold iminmax
  rw [readInt_un, readInt_un]
  cases isMax with
  | false =>
    simp only [Bool.false_eq_true, if_false]
    split
    case isTrue h => rw [Int.min_eq_right (Int.le_of_lt h), low_num]
    case isFalse h => rw [Int.min_eq_left (Int.not_lt.1 h), low_num]
  | true =>
    simp only [if_true]
    split
    case isTrue h => rw [Int.max_eq_right (Int.le_of_lt h), low_num]
    case isFalse h => rw [Int.max_eq_left (Int.not_lt.1 h), low_num]

theorem iabs_un (m : BitVec 2) (x : BitVec 128) : iabs (opw m) (un m x) = low m (sgn m x).natAbs := by
  rw [iabs, signedOf_un, low_natCast]

theorem isad_un (m : BitVec 2) (x y : BitVec 128) (c : Nat) :
    isad (opw m) m[1] (un m x) (un m y) c = low m ((num m x - num m y).natAbs + c) := by
  rw [isad, readInt_un, readInt_un, ← Int.natCast_add, low_natCast]

theorem signedOf_congr {n x y : Nat} (h : x % 2 ^ n = y % 2 ^ n) : signedOf n x = signedOf n y := by
  rw [signedOf, signedOf, h]

/-- Any number that is b mod 2^64 serves LEA for b. -/
theorem lea_wrapInt (a sh : Nat) (b : Int) : lea a (wrapInt 64 b) sh = ((a + b * 2 ^ sh) % 2 ^ 64 : Int).toNat := by
  rw [lea, wrapInt]
  apply Int.ofNat_inj.1
  rw [Int.natCast_emod, Int.natCast_add, Int.natCast_mul, Int.natCast_pow, Int.natCast_pow]
  rw [Int.toNat_of_nonneg (Int.emod_nonneg _ (by decide)), Int.toNat_of_nonneg (Int.emod_nonneg _ (by decide)), Int.cast_ofNat_Int,
    Int.add_emod, Int.mul_emod, Int.emod_emod, ← Int.mul_emod, ← Int.add_emod]

theorem wrapInt_signedOf (n x : Nat) : wrapInt n (signedOf n x) = x % 2 ^ n := by
  unfold signedOf
  split
  · rw [wrapInt_natCast, Nat.mod_mod]
  · rw [wrapInt, Int.sub_emod_right, ← wrapInt, wrapInt_natCast, Nat.mod_mod]

/-- LEA's index: the register as it is at 64 bits, sign-extended at 32 (R245). -/
theorem wrapInt_lea_index (m : BitVec 2) (b : BitVec 128) :
    wrapInt 64 (signedOf (opw m) b.toNat) = wrapInt 64 (if m[0] then (b.toNat % 2 ^ 64 : Int) else sgn m b) := by
  cases hm : m[0] with
  | false =>
    rw [← signedOf_un, signedOf_congr (y := un m b)]
    · rfl
    · rw [un_mod, un]
  | true =>
    have hw : opw m = 64 := by rw [opw, hm]; rfl
    have hb : ((b.toNat : Int) % 2 ^ 64) = ((b.toNat % 2 ^ 64 : Nat) : Int) := by norm_cast
    rw [hw, wrapInt_signedOf, if_pos rfl, hb, wrapInt_natCast, Nat.mod_mod]

/-- Settles O12: each function of the integer unit is the row's formula on the sources mod 2^w. -/
theorem integerWords : Obligations.IntegerWords := by
  intro w v u
  simp only [integerTable, List.forall_mem_cons]
  refine ⟨?iadd, ?iaddWide, ?isub, ?isubWide, ?imul, ?imulWide, ?imulh, ?imad, ?imadShort, ?imadw, ?imadwShort, ?imin, ?iminWide, ?imax, ?imaxWide,
    ?iabs, ?ineg, ?isad, ?isadShort, ?lea, ?leaWide, List.forall_mem_nil _⟩
  case iadd => exact eachLane_holds_of_aluWord (fun _ => rfl) fun l => iadd_un ..
  case iaddWide => exact eachLane_holds_of_aluWord (fun _ => rfl) fun l => iadd_un ..
  case isub | isubWide => exact eachLane_holds_of_aluWord (fun _ => rfl) fun l => rfl
  case imul | imulWide => exact eachLane_holds_of_aluWord (fun _ => rfl) fun l => imul_un ..
  case imulh => exact eachLane_holds_of_aluWord (fun _ => rfl) fun l => imulh_un ..
  case imad | imadShort => exact eachLane_holds_of_aluWord (fun _ => rfl) fun l => imad_un ..
  case imadw | imadwShort =>
    refine eachLane_holds_of_fixedWord (fun _ => rfl) fun l => ?_
    rfl
  case imin | iminWide => exact eachLane_holds_of_aluWord (fun _ => rfl) fun l => iminmax_un _ _ _ false
  case imax | imaxWide => exact eachLane_holds_of_aluWord (fun _ => rfl) fun l => iminmax_un _ _ _ true
  case iabs => exact eachLane_holds_of_aluWord (fun _ => rfl) fun l => iabs_un ..
  case ineg => exact eachLane_holds_of_aluWord (fun _ => rfl) fun l => rfl
  case isad | isadShort => exact eachLane_holds_of_aluWord (fun _ => rfl) fun l => isad_un ..
  case lea =>
    refine eachLane_holds_of_fixedWord (fun _ => rfl) fun l => ?_
    rw [wrapInt_lea_index, lea_wrapInt]
  case leaWide =>
    refine eachLane_holds_of_fixedWord (fun _ => rfl) fun l => ?_
    rw [lea, Nat.pow_zero, Nat.mul_one]
open Sys2Proof.Claims

/-! ## Bits of the operating width (R246 to R248) -/

theorem testBit_ofBits (bs : List Bool) (i : Nat) : (ofBits bs).testBit i = bs.getD i false := by
  induction bs generalizing i with
  | nil => simp [ofBits]
  | cons b bs ih =>
    have hb : b.toNat < 2 := Bool.toNat_lt b
    rw [ofBits]
    cases i with
    | zero => rw [Nat.testBit_zero, List.getD_cons_zero, Nat.add_mul_mod_self_left, Nat.mod_eq_of_lt hb]; cases b <;> rfl
    | succ i => rw [Nat.testBit_succ, Nat.add_mul_div_left _ _ (by decide), Nat.div_eq_of_lt hb, Nat.zero_add, ih, List.getD_cons_succ]

/-- The bits of a number given by its bits below w. -/
theorem testBit_fromBits (w i : Nat) (f : Nat → Bool) : (fromBits w f).testBit i = (decide (i < w) && f i) := by
  rw [fromBits_eq_ofBits, testBit_ofBits]
  by_cases h : i < w <;> simp [h]

/-- A number is the one with given bits below w where it has no others. -/
theorem eq_fromBits {w x : Nat} {f : Nat → Bool} (h : ∀ i, x.testBit i = (decide (i < w) && f i)) : x = fromBits w f :=
  Nat.eq_of_testBit_eq fun i => (h i).trans (testBit_fromBits w i f).symm

theorem testBit_un (m : BitVec 2) (x : BitVec 128) (i : Nat) : (un m x).testBit i = (decide (i < opw m) && bit x.toNat i) := by
  rw [un, Nat.testBit_mod_two_pow, bit]

theorem testBit_inot {w x : Nat} (i : Nat) : (inot w x).testBit i = (decide (i < w) && !x.testBit i) := by
  have hlt : x % 2 ^ w < 2 ^ w := Nat.mod_lt _ (Nat.two_pow_pos w)
  rw [inot, Nat.sub_sub, Nat.add_comm 1, Nat.testBit_two_pow_sub_succ hlt, Nat.testBit_mod_two_pow]
  by_cases h : i < w <;> simp [h]

theorem land_un (m : BitVec 2) (x y : BitVec 128) : Nat.land (un m x) (un m y) = fromBits (opw m) fun i => bit x.toNat i && bit y.toNat i := by
  refine eq_fromBits fun i => ?_
  rw [show Nat.land (un m x) (un m y) = un m x &&& un m y from rfl, Nat.testBit_and, testBit_un, testBit_un]
  by_cases h : i < opw m <;> simp [h]

theorem lor_un (m : BitVec 2) (x y : BitVec 128) : Nat.lor (un m x) (un m y) = fromBits (opw m) fun i => bit x.toNat i || bit y.toNat i := by
  refine eq_fromBits fun i => ?_
  rw [show Nat.lor (un m x) (un m y) = un m x ||| un m y from rfl, Nat.testBit_or, testBit_un, testBit_un]
  by_cases h : i < opw m <;> simp [h]

theorem xor_un (m : BitVec 2) (x y : BitVec 128) : Nat.xor (un m x) (un m y) = fromBits (opw m) fun i => bit x.toNat i != bit y.toNat i := by
  refine eq_fromBits fun i => ?_
  rw [show Nat.xor (un m x) (un m y) = un m x ^^^ un m y from rfl, Nat.testBit_xor, testBit_un, testBit_un]
  by_cases h : i < opw m <;> simp [h]

theorem iandn_un (m : BitVec 2) (x y : BitVec 128) : iandn (opw m) (un m x) (un m y) = fromBits (opw m) fun i => bit x.toNat i && !bit y.toNat i := by
  refine eq_fromBits fun i => ?_
  rw [iandn, show Nat.land (un m x) (inot (opw m) (un m y)) = un m x &&& inot (opw m) (un m y) from rfl, Nat.testBit_and, testBit_inot, testBit_un,
    testBit_un]
  by_cases h : i < opw m <;> simp [h]

theorem iorn_un (m : BitVec 2) (x y : BitVec 128) : iorn (opw m) (un m x) (un m y) = fromBits (opw m) fun i => bit x.toNat i || !bit y.toNat i := by
  refine eq_fromBits fun i => ?_
  rw [iorn, show Nat.lor (un m x) (inot (opw m) (un m y)) = un m x ||| inot (opw m) (un m y) from rfl, Nat.testBit_or, testBit_inot, testBit_un,
    testBit_un]
  by_cases h : i < opw m <;> simp [h]

theorem inot_un (m : BitVec 2) (x : BitVec 128) : inot (opw m) (un m x) = fromBits (opw m) fun i => !bit x.toNat i := by
  refine eq_fromBits fun i => ?_
  rw [testBit_inot, testBit_un]
  by_cases h : i < opw m <;> simp [h]

theorem ishl_un (m : BitVec 2) (a b : Nat) : ishl (opw m) a b = low m (a * 2 ^ (b % opw m)) := by
  rw [ishl, ← low_natCast]
  norm_cast

theorem isar_un (m : BitVec 2) (x : BitVec 128) (b : Nat) : isar (opw m) (un m x) b = low m (sgn m x / 2 ^ (b % opw m)) := by
  rw [isar, signedOf_un]
  rfl

theorem ishf_un (m : BitVec 2) (a b c : Nat) : ishf (opw m) a b c = low m ((c * 2 ^ opw m + a) / 2 ^ (b % (2 * opw m))) := by
  rw [ishf, ← low_natCast]
  norm_cast

theorem popc_un (m : BitVec 2) (x : BitVec 128) : popc (opw m) (un m x) = (List.range (opw m)).countP (bit x.toNat) := by
  rw [popc, ← List.countP_eq_length_filter]
  refine List.countP_congr fun i hi => ?_
  rw [un, bit_mod_two_pow _ (List.mem_range.1 hi)]

theorem opw_pos (m : BitVec 2) : 0 < opw m := by
  unfold opw
  split <;> decide

theorem find?_congr_mem {α : Type} {p q : α → Bool} {l : List α} (h : ∀ x ∈ l, p x = q x) : l.find? p = l.find? q := by
  induction l with
  | nil => rfl
  | cons x xs ih =>
    rw [List.find?_cons, List.find?_cons, h x List.mem_cons_self, ih fun y hy => h y (List.mem_cons_of_mem _ hy)]

theorem ctz_un (m : BitVec 2) (x : BitVec 128) : ctz (opw m) (un m x) = ((List.range (opw m)).find? (bit x.toNat)).getD (opw m) := by
  have hfind : (List.range (opw m)).find? (bit (un m x)) = (List.range (opw m)).find? (bit x.toNat) :=
    find?_congr_mem fun i hi => bit_mod_two_pow x.toNat (List.mem_range.1 hi)
  rw [ctz, hfind]

theorem brev_un (m : BitVec 2) (x : BitVec 128) : brev (opw m) (un m x) = fromBits (opw m) fun i => bit x.toNat (opw m - 1 - i) := by
  have hw := opw_pos m
  rw [brev, fromBits_eq_ofBits]
  refine congrArg ofBits (List.map_congr_left fun i hi => ?_)
  rw [un, bit_mod_two_pow _ (by omega)]

/-- ROL: bit i of the rotated number is bit (i − r) mod w of the source. -/
theorem irol_un (m : BitVec 2) (x : BitVec 128) (b : Nat) :
    irol (opw m) (un m x) b = fromBits (opw m) fun i => bit x.toNat ((i + opw m - b % opw m) % opw m) := by
  have hw := opw_pos m
  have hr := Nat.mod_lt b hw
  have hx := un_lt m x
  rw [irol]
  refine eq_fromBits fun i => ?_
  generalize b % opw m = r at hr ⊢
  have hhigh : un m x / 2 ^ (opw m - r) < 2 ^ r := by
    rw [Nat.div_lt_iff_lt_mul (Nat.two_pow_pos _), ← Nat.pow_add, Nat.add_sub_cancel' (Nat.le_of_lt hr)]
    exact hx
  rw [Nat.testBit_mod_two_pow, Nat.mul_comm, Nat.testBit_two_pow_mul_add _ hhigh]
  by_cases hi : i < opw m
  · simp only [hi, decide_true, Bool.true_and]
    split
    case isTrue h =>
      rw [Nat.testBit_div_two_pow, testBit_un, Nat.mod_eq_of_lt (by omega)]
      simp only [show i + (opw m - r) < opw m by omega, decide_true, Bool.true_and]
      congr 1
      omega
    case isFalse h =>
      rw [testBit_un, show i + opw m - r = i - r + opw m by omega, Nat.add_mod_right, Nat.mod_eq_of_lt (by omega)]
      simp only [show i - r < opw m by omega, decide_true, Bool.true_and]
  · simp [hi]

theorem bits_eq_mod (x h : Nat) : bits x h 0 = x % 2 ^ (h + 1) := by
  rw [bits, Nat.shiftRight_zero, Nat.sub_zero]

/-- Bits below the operating width read the same in a source and in the source mod 2^w. -/
theorem bits_un (m : BitVec 2) (x : BitVec 128) {h l : Nat} (hl : l ≤ h + 1) (hh : h < 32) : bits (un m x) h l = bits x.toNat h l := by
  have hw : 32 ≤ opw m := by unfold opw; split <;> decide
  apply Nat.eq_of_testBit_eq
  intro i
  simp only [bits, Nat.testBit_mod_two_pow, Nat.testBit_shiftRight, testBit_un]
  by_cases hi : i < h + 1 - l
  · simp [hi, show l + i < opw m by omega, bit]
  · simp [hi]

theorem bfi_un (m : BitVec 2) (x y z : BitVec 128) :
    bfi (opw m) (un m x) (un m y) (un m z) = fromBits (opw m) fun i =>
      if bits y.toNat 7 0 ≤ i ∧ i < bits y.toNat 7 0 + bits y.toNat 15 8 then bit x.toNat (i - bits y.toNat 7 0) else bit z.toNat i := by
  rw [bfi, fromBits_eq_ofBits, bits_un m y (by decide) (by decide), bits_un m y (by decide) (by decide)]
  refine congrArg ofBits (List.map_congr_left fun i hi => ?_)
  have hi := List.mem_range.1 hi
  have hcond : (bits y.toNat 7 0 ≤ i ∧ i < bits y.toNat 7 0 + min (bits y.toNat 15 8) (opw m))
      ↔ bits y.toNat 7 0 ≤ i ∧ i < bits y.toNat 7 0 + bits y.toNat 15 8 := by omega
  simp only [hcond, un, bit_mod_two_pow _ hi, bit_mod_two_pow _ (show i - bits y.toNat 7 0 < opw m by omega)]

/-- BFX: a field whose top bit is clear is the field, and any other is the field less 2^n, mod 2^w. -/
theorem bfx_un (m : BitVec 2) (x : BitVec 128) (b : Nat) : bfx (opw m) m[1] (un m x) b = field m (num m x) b := by
  rw [bfx, field]
  dsimp only
  split
  case isTrue => rfl
  case isFalse h0 =>
    rw [readInt_un]
    generalize hn : min (bits b 15 8) (opw m) = n at h0 ⊢
    have hp : (0 : Int) < 2 ^ n := Int.pow_pos (by decide)
    generalize num m x / 2 ^ bits b 7 0 = y
    have h1 := Int.emod_nonneg y (Int.ne_of_gt hp)
    have h2 := Int.emod_lt_of_pos y hp
    obtain ⟨f, hf⟩ := Int.eq_ofNat_of_zero_le h1
    rw [hf] at h2 ⊢
    have hlt : f < 2 ^ n := by exact_mod_cast h2
    rw [Int.toNat_natCast, signedOf, Nat.mod_eq_of_lt hlt]
    cases m[1] with
    | true => rfl
    | false =>
      simp only [Bool.false_eq_true, if_false, false_or]
      by_cases hs : f < 2 ^ (n - 1)
      · have hs' : (f : Int) < 2 ^ (n - 1) := by exact_mod_cast hs
        have hw : 2 ^ n ≤ 2 ^ opw m := Nat.pow_le_pow_right (by decide) (hn ▸ Nat.min_le_right ..)
        rw [if_pos hs, if_pos hs', wrapInt_natCast, Nat.mod_eq_of_lt (by omega)]
      · have hs' : ¬ (f : Int) < 2 ^ (n - 1) := by exact_mod_cast hs
        rw [if_neg hs, if_neg hs']
        rfl

/-- LOP3's table, its index taken from the three sources' bits in either order. -/
theorem lop3_un (m : BitVec 2) (x y z : BitVec 128) (imm : BitVec 16) :
    lop3 (opw m) (un m x) (un m y) (un m z) (bits imm.toNat 7 0) imm[8]
      = fromBits (opw m) fun i => bit imm.toNat ((bit z.toNat i).toNat * 4 + (bit y.toNat i).toNat * 2 + (bit x.toNat i).toNat) != imm[8] := by
  rw [un, un, un, lop3_mod_two_pow]
  congr 1
  funext i
  have hx := (bit x.toNat i).toNat_lt
  have hy := (bit y.toNat i).toNat_lt
  have hz := (bit z.toNat i).toNat_lt
  rw [bits_eq_mod, bit_mod_two_pow _ (by omega)]
  congr 2
  omega

/-- Settles O13: each function of the logic unit has the row's bits. -/
theorem logicWords : Obligations.LogicWords := by
  intro w v u
  simp only [logicTable, List.forall_mem_cons]
  refine ⟨?and, ?andWide, ?or, ?orWide, ?xor, ?xorWide, ?andn, ?andnWide, ?orn, ?ornWide, ?not, ?shl, ?shlWide, ?shr, ?shrWide, ?sar, ?sarWide,
    ?rol, ?rolWide, ?shf, ?shfShort, ?popc, ?clz, ?ctz, ?brev, ?lop3, ?bfx, ?bfxWide, ?bfi, ?bfiShort, ?prmt, ?prmtShort, List.forall_mem_nil _⟩
  case and | andWide => exact eachLane_holds_of_aluWord (fun _ => rfl) fun l => land_un ..
  case or | orWide => exact eachLane_holds_of_aluWord (fun _ => rfl) fun l => lor_un ..
  case xor | xorWide => exact eachLane_holds_of_aluWord (fun _ => rfl) fun l => xor_un ..
  case andn | andnWide => exact eachLane_holds_of_aluWord (fun _ => rfl) fun l => iandn_un ..
  case orn | ornWide => exact eachLane_holds_of_aluWord (fun _ => rfl) fun l => iorn_un ..
  case not => exact eachLane_holds_of_aluWord (fun _ => rfl) fun l => inot_un ..
  case shl | shlWide => exact eachLane_holds_of_aluWord (fun _ => rfl) fun l => ishl_un ..
  case shr | shrWide => exact eachLane_holds_of_aluWord (fun _ => rfl) fun l => rfl
  case sar | sarWide => exact eachLane_holds_of_aluWord (fun _ => rfl) fun l => isar_un ..
  case rol | rolWide => exact eachLane_holds_of_aluWord (fun _ => rfl) fun l => irol_un ..
  case shf | shfShort => exact eachLane_holds_of_aluWord (fun _ => rfl) fun l => ishf_un ..
  case popc => exact eachLane_holds_of_aluWord (fun _ => rfl) fun l => popc_un ..
  case clz => exact eachLane_holds_of_aluWord (fun _ => rfl) fun l => rfl
  case ctz => exact eachLane_holds_of_aluWord (fun _ => rfl) fun l => ctz_un ..
  case brev => exact eachLane_holds_of_aluWord (fun _ => rfl) fun l => brev_un ..
  case lop3 => exact eachLane_holds_of_aluWord (fun _ => rfl) fun l => lop3_un ..
  case bfx | bfxWide => exact eachLane_holds_of_aluWord (fun _ => rfl) fun l => bfx_un ..
  case bfi | bfiShort => exact eachLane_holds_of_aluWord (fun _ => rfl) fun l => bfi_un ..
  case prmt | prmtShort => exact eachLane_holds_of_fixedWord (fun _ => rfl) fun l => rfl
open Sys2Proof.Claims

/-! ## Compares, selections, carries and PMOV (R244, R250 to R253, R265) -/

theorem icompare_un (m : BitVec 2) (cond : Nat) (x y : BitVec 128) :
    icompare (opw m) m[1] cond (un m x) (un m y) = holdsFor cond (num m x) (num m y) := by
  unfold icompare
  rw [readInt_un, readInt_un]
  match cond with
  | 0 | 1 => exact Bool.eq_iff_iff.2 (by simp [holdsFor])
  | 2 | 3 | 4 | _ + 5 => rfl

theorem combine_eq_withComb (comb : Nat) (r q : Bool) : combine comb r q = withComb comb r q := by
  unfold combine withComb
  split
  · rfl
  · rfl
  · next h1 h2 => rw [if_neg h1, if_neg h2]

/-- A row about a compare into a predicate: the unit's combination is the row's. -/
theorem icmp_un (m : BitVec 2) (comb cond : Nat) (x y : BitVec 128) (c : Nat) :
    (combine comb (icompare (opw m) m[1] cond (un m x) (un m y)) (c != 0)).toNat
      = (withComb comb (holdsFor cond (num m x) (num m y)) (c ≠ 0)).toNat := by
  rw [icompare_un, combine_eq_withComb]
  congr 2
  cases c <;> rfl

theorem ite_bne_zero (c a b : Nat) : (if c != 0 then a else b) = if c ≠ 0 then a else b := by
  simp only [bne_iff_ne]

theorem toNat_bne_zero (a : Nat) : (a != 0).toNat = if a ≠ 0 then 1 else 0 := by
  cases a <;> rfl

theorem pset_eq (tt a b : Nat) : psetBit tt (a != 0) (b != 0) = bit tt (2 * (if a ≠ 0 then 1 else 0) + if b ≠ 0 then 1 else 0) := by
  rw [psetBit, toNat_bne_zero, toNat_bne_zero]

theorem predsFrom_eq (mask : Nat) (j : Job) (s : State) : predsFrom mask j s = inTurn j s (predsLane mask) := by
  unfold predsFrom inTurn
  congr 2
  funext g
  congr 1
  funext g l
  rw [predsLane, List.foldl_filter]
  rfl

/-- PMOV with DIR 1 runs the mask's predicates. -/
theorem execPmov_of_dir {w : RegWord} (h : w.imm[0] = true) (s : State) :
    exec (.pmov w) s = issueWord (.pmov w) s (predsFrom (bits w.imm.toNat 14 8)) := by
  change issueWord (.pmov w) s _ = _
  rw [if_pos h]

/-- PMOV with DIR 0 gives the register the predicates. -/
theorem execPmov_of_not_dir {w : RegWord} (h : w.imm[0] = false) (s : State) : exec (.pmov w) s = issueWord (.pmov w) s predsTo := by
  change issueWord (.pmov w) s _ = _
  rw [h, if_neg Bool.false_ne_true]

theorem compareWords (w : RegWord) (v : WideWord) (u : ShortWord) : ∀ c ∈ compareTable w v u, c.Holds := by
  simp only [compareTable, List.forall_mem_cons]
  refine ⟨?icmp, ?sel, ?selShort, ?pset, ?mov, ?movi, List.forall_mem_nil _⟩
  case icmp => exact eachLane_holds_of_aluWord (fun _ => rfl) fun l => icmp_un ..
  case sel | selShort => exact eachLane_holds_of_aluWord (fun _ => rfl) fun l => ite_bne_zero ..
  case pset => exact eachLane_holds_of_fixedWord (fun _ => rfl) fun l => congrArg Bool.toNat (pset_eq ..)
  case mov => exact eachLane_holds_of_aluWord (fun _ => rfl) fun l => rfl
  case movi => exact eachLane_holds_of_aluWord (fun _ => rfl) fun l => rfl

theorem carryWords (w : RegWord) (v : WideWord) : ∀ c ∈ carryTable w v, c.Holds := by
  simp only [carryTable, List.forall_mem_cons]
  exact ⟨word_holds (body := carryWord w.mod) (fun _ => rfl) fun _ _ _ => rfl, word_holds (body := carryWord v.mod) (fun _ => rfl) fun _ _ _ => rfl,
    List.forall_mem_nil _⟩

theorem pmovWords (w : RegWord) : ∀ c ∈ pmovTable w, c.Holds := by
  simp only [pmovTable, List.forall_mem_cons]
  refine ⟨fun s j t hrun hok => ?_, fun s j t hrun hok => ?_, List.forall_mem_nil _⟩
  · exact (execPmov_of_dir hok s).trans ((issueWord_run _ hrun).trans (congrArg _ (predsFrom_eq ..)))
  · exact (execPmov_of_not_dir (Bool.not_eq_true' _ ▸ hok) s).trans (issueWord_run _ hrun)

/-- Settles O14. -/
theorem predicateWords : Obligations.PredicateWords := by
  intro w v u
  simp only [predicateTable, List.forall_mem_append]
  exact ⟨⟨compareWords w v u, carryWords w v⟩, pmovWords w⟩
open Sys2Proof.Claims

/-! ## Floating point, conversions and slots (R254 to R262) -/

/-- A row about a word of the floating-point unit holds where the word's function gives the row's value in every lane. -/
theorem eachLane_holds_of_floatWord {i : Instr} {f : Nat → Nat → Nat → Nat} {g : LaneSrc → Nat} (hexec : ∀ s, exec i s = issueWord i s (floatWord f))
    (hvalue : ∀ l : LaneSrc, f l.a.toNat l.b.toNat l.c.toNat = g l) : (eachLane i g).Holds :=
  eachLaneOf_holds hexec fun _ _ _ => hvalue

theorem fcmp_eq (comb : Nat) (r : Bool) (c : Nat) : (combine comb r (c != 0)).toNat = (withComb comb r (c ≠ 0)).toNat := by
  rw [combine_eq_withComb]
  congr 2
  cases c <;> rfl

theorem floatWords32 (w : RegWord) : ∀ c ∈ floatRow 0x12 w .faddF32 .fsubF32 .fmulF32 .ffmaF32 .fminF32 .fmaxF32 .fcmpF32 .fclassF32 .frcpF32 .frsqF32
    .fsqrtF32 .fexp2F32 .flog2F32 .frndF32 .fscaleF32, c.Holds := by
  simp only [floatRow, List.forall_mem_cons]
  refine ⟨?add, ?sub, ?mul, ?fma, ?min, ?max, ?cmp, ?cls, ?rcp, ?rsq, ?sqrt, ?exp, ?log, ?rnd, ?scale, List.forall_mem_nil _⟩
  case cmp => exact eachLane_holds_of_floatWord (fun _ => rfl) fun l => fcmp_eq ..
  all_goals exact eachLane_holds_of_floatWord (fun _ => rfl) fun l => rfl

theorem floatWords64 (w : RegWord) : ∀ c ∈ floatRow 0x13 w .faddF64 .fsubF64 .fmulF64 .ffmaF64 .fminF64 .fmaxF64 .fcmpF64 .fclassF64 .frcpF64 .frsqF64
    .fsqrtF64 .fexp2F64 .flog2F64 .frndF64 .fscaleF64, c.Holds := by
  simp only [floatRow, List.forall_mem_cons]
  refine ⟨?add, ?sub, ?mul, ?fma, ?min, ?max, ?cmp, ?cls, ?rcp, ?rsq, ?sqrt, ?exp, ?log, ?rnd, ?scale, List.forall_mem_nil _⟩
  case cmp => exact eachLane_holds_of_floatWord (fun _ => rfl) fun l => fcmp_eq ..
  all_goals exact eachLane_holds_of_floatWord (fun _ => rfl) fun l => rfl

/-- Settles O15: the unit rounds what the rows round; only COMB is written otherwise. -/
theorem floatWords : Obligations.FloatWords := fun w => List.forall_mem_append.2 ⟨floatWords32 w, floatWords64 w⟩

/-- FFMA of two halves takes the lower and the upper sixteen bits of each source (R259). -/
theorem ffmaPacked_eq (t r a b c : Nat) :
    ffmaPacked t r a b c = ffma t r (bits a 15 0) (bits b 15 0) (bits c 15 0) + 2 ^ 16 * ffma t r (bits a 31 16) (bits b 31 16) (bits c 31 16) := by
  have upper (x : Nat) : bits x 31 16 = x / 65536 % 65536 := congrArg (· % 65536) (Nat.shiftRight_eq_div_pow x 16)
  rw [upper, upper, upper]
  exact Eq.refl (ffmaPacked t r a b c)

/-- Where the named slot holds a legal format of a listed type, the word goes on with it (R226). -/
theorem slotWord_of_holds {j : Job} {s : State} {o : Operand} {ok : Nat → Bool} (body : SlotFmt → Job → State → State)
    (h : slotHolds j s o ok = true) : slotWord o ok body j s = body (slotOf j s o) j s := by
  have key : ∀ raw, (slotFmt raw).any (fun t => ok t.etype) = true →
      (match slotFmt raw with
        | some t => if ok t.etype then body t j s else j.fault s Cause.illegal j.lanes 0
        | none => j.fault s Cause.illegal j.lanes 0) = body ((slotFmt raw).getD default) j s := by
    intro raw hraw
    cases hf : slotFmt raw with
    | none => rw [hf] at hraw; nomatch hraw
    | some t =>
      rw [hf, Option.any_some] at hraw
      exact if_pos hraw
  unfold slotHolds at h
  unfold slotOf slotWord
  cases o with
  | fs n => exact key _ h
  | _ => exact key _ h

/-- A row about a word that names a slot: the word's body with the slot's format gives the row's value in every lane. -/
theorem eachLaneOf_holds_of_slotWord {i : Instr} {o : Operand} {ok : Nat → Bool} {p : Job → State → Bool} {f : SlotFmt → Job → State → LaneSrc → Nat}
    {g : Job → State → LaneSrc → Nat} (hexec : ∀ s, exec i s = issueWord i s (slotWord o ok fun t j s => j.perLane s (f t j s)))
    (hp : ∀ j s, p j s = true → slotHolds j s o ok = true) (h : ∀ j s, p j s = true → ∀ l, f (slotOf j s o) j s l = g j s l) :
    (eachLaneOf i p g).Holds :=
  word_holds hexec fun j t hok => by
    rw [slotWord_of_holds _ (hp j t hok)]
    exact congrArg (j.perLane t) (funext (h j t hok))

/-- Settles O16. -/
theorem convertWords : Obligations.ConvertWords := by
  intro w
  simp only [convertTable, List.forall_mem_cons]
  refine ⟨?f16, ?bf16, ?ff, ?int, ?fi, ?ii, ?cvtsTo, ?cvtsFrom, List.forall_mem_nil _⟩
  case f16 | bf16 => exact eachLane_holds_of_floatWord (fun _ => rfl) fun l => ffmaPacked_eq ..
  case ff | int | fi | ii => exact eachLane_holds_of_floatWord (fun _ => rfl) fun l => rfl
  case cvtsTo => exact eachLaneOf_holds_of_slotWord (fun _ => rfl) (fun _ _ h => h) fun _ _ _ _ => rfl
  case cvtsFrom => exact eachLaneOf_holds_of_slotWord (fun _ => rfl) (fun _ _ h => h) fun _ _ _ _ => rfl
open Sys2Proof.Claims

/-! ## Lanes (R266 to R271) -/

theorem sub_mod_eq_div_mul (l S : Nat) : l - l % S = l / S * S := by
  have h := Nat.div_add_mod' l S
  omega

/-- A number lies between a segment's ends where it has the segment's quotient. -/
theorem div_eq_iff_between {S : Nat} (hS : 0 < S) (k l : Nat) : k / S = l / S ↔ l / S * S ≤ k ∧ k < l / S * S + S := by
  rw [Nat.div_eq_iff hS]
  omega

theorem shflSource_eq_shflTo (mode : Nat) {S : Nat} (hS : 0 < S) (l k : Nat) : shflSource mode S l k = shflTo mode S k l := by
  have hseg := div_eq_iff_between hS (l + k) l
  have hle := Nat.div_mul_le_self l S
  have hin : l + k < l / S * S + S ↔ (l + k) / S = l / S := by omega
  unfold shflSource
  rw [sub_mod_eq_div_mul]
  match mode with
  | 0 | 1 | _ + 3 => rfl
  | 2 => simp only [hin, shflTo]

/-- The row of a word that takes source A of another lane: the word's sources and fills are the row's. -/
theorem fromLane_holds {i : Instr} {source source' : LaneSrc → Option Nat} {other fill : LaneSrc → Nat}
    (hexec : ∀ s, exec i s = issueWord i s (crossWord source' other)) (hsource : ∀ l, source' l = source l)
    (hfill : ∀ l, source l = none → other l = fill l) : (fromLane i source fill).Holds := by
  obtain rfl : source' = source := funext hsource
  refine word_holds hexec fun j t hok => ?_
  have hclean : (j.x.lanes.filter fun l => (source' l).any (j.laneBad (j.group t))) = [] :=
    List.filter_eq_nil_iff.2 fun l hl => by simpa using List.all_eq_true.1 hok l hl
  rw [crossWord]
  simp only [hclean, List.isEmpty_nil, Bool.not_true, Bool.false_eq_true, if_false]
  congr 1
  funext l
  cases h : source' l with
  | some k => rfl
  | none => exact hfill l h

theorem shflWord_holds {i : Instr} {w : RegWord} (mode : Nat) (hexec : ∀ s, exec i s = issueWord i s (shflWord mode w)) :
    (fromLane i (fun l => shflTo mode (2 ^ bits w.imm.toNat 2 0) (l.b.toNat % 32) (l.t % 32)) fun l => l.c.toNat).Holds :=
  fromLane_holds hexec (fun _ => shflSource_eq_shflTo mode (Nat.two_pow_pos _) _ _) fun _ _ => rfl

theorem shflShortWord_holds {i : Instr} {u : ShortWord} (mode : Nat) (hexec : ∀ s, exec i s = issueWord i s (shflShortWord mode u)) :
    (fromLane i (fun l => shflTo mode (2 ^ bits u.imm.toNat 10 8) (bits u.imm.toNat 4 0) (l.t % 32)) fun l => l.c.toNat).Holds :=
  fromLane_holds hexec (fun _ => shflSource_eq_shflTo mode (Nat.two_pow_pos _) _ _) fun _ _ => rfl

theorem laneWord_of_clean {j : Job} {s : State}
    (h : (j.x.lanes.all fun l => l.t % 32 ≠ l.b.toNat % 32 || !j.laneBad (j.group s) (l.t % 32)) = true) :
    laneWord j s = inTurn j s fun g l =>
      if l.t % 32 = l.b.toNat % 32 then g.writeDst j.x.warp l.t j.sig.dst.width j.f.dst (j.laneA (j.group s) (l.t % 32)) else g := by
  have hclean : ((j.x.lanes.filter fun l => l.t % 32 = l.b.toNat % 32).any fun l => j.laneBad (j.group s) (l.t % 32)) = false := by
    rw [List.any_eq_false]
    intro l hl
    obtain ⟨hl, hmine⟩ := List.mem_filter.1 hl
    simpa [of_decide_eq_true hmine] using List.all_eq_true.1 h l hl
  unfold laneWord inTurn
  simp only [hclean, Bool.false_eq_true, if_false, List.foldl_filter, decide_eq_true_eq]

theorem testBit_orPowers (ls : List Nat) (m i : Nat) :
    (ls.foldl (fun m k => Nat.lor m (2 ^ k)) m).testBit i = (m.testBit i || ls.contains i) := by
  induction ls generalizing m with
  | nil => simp only [List.foldl_nil, List.contains_nil, Bool.or_false]
  | cons k ls ih =>
    have head : (m.lor (2 ^ k)).testBit i = (m.testBit i || decide (k = i)) :=
      (Nat.testBit_or m (2 ^ k) i).trans (congrArg _ Nat.testBit_two_pow)
    have hcomm : decide (k = i) = (i == k) := decide_eq_decide.2 eq_comm
    rw [List.foldl_cons, ih, head, hcomm, List.contains_cons, Bool.or_assoc]

theorem testBit_laneMask (ls : List Nat) (i : Nat) : (laneMask ls).testBit i = ls.contains i := by
  rw [laneMask, testBit_orPowers, Nat.zero_testBit, Bool.false_or]

theorem laneMask_eq_maskOf {ls : List Nat} (h : ∀ k ∈ ls, k < 32) : laneMask ls = maskOf ls := by
  refine eq_fromBits fun i => ?_
  rw [testBit_laneMask]
  by_cases hi : i < 32
  · simp [hi]
  · have hnot : i ∉ ls := fun hm => hi (h i hm)
    simp [hi, hnot]

/-- The lanes of a list of sources are below 32. -/
theorem lane_lt_of_mem {xs : List LaneSrc} {k : Nat} (h : k ∈ xs.map fun l => l.t % 32) : k < 32 := by
  obtain ⟨l, -, rfl⟩ := List.mem_map.1 h
  exact Nat.mod_lt _ (by decide)

/-- The lanes whose predicate counts, in either order of the test (R268). -/
theorem vote_yes_comm (xs : List LaneSrc) (inv : Bool) :
    (xs.filter fun l => (l.a.toNat != 0) != inv) = xs.filter fun l => inv != (l.a.toNat != 0) := by
  congr 1
  funext l
  exact bne_comm

theorem vote_holds (w : RegWord) : (eachLaneOf (.vote w) always fun j _ _ =>
     let yes := j.x.lanes.filter fun l => w.imm[3] != (l.a.toNat != 0)
     match bits w.imm.toNat 2 0 with
     | 0 => maskOf (yes.map fun l => l.t % 32)
     | 1 => yes.length
     | 2 => (yes.length = j.x.lanes.length : Bool).toNat
     | 3 => (yes.length = 0 : Bool).toNat
     | _ => (yes.length ≠ 0 ∧ yes.length ≠ j.x.lanes.length : Bool).toNat).Holds := by
  refine word_holds (body := voteWord w) (fun _ => rfl) fun j t _ => ?_
  unfold voteWord
  dsimp only
  rw [vote_yes_comm, laneMask_eq_maskOf fun _ => lane_lt_of_mem]
  congr 1
  funext l
  generalize bits w.imm.toNat 2 0 = mode
  match mode with
  | 0 | 1 => rfl
  | 2 | 3 => exact congrArg Bool.toNat (Bool.eq_iff_iff.2 (by simp))
  | _ + 4 => exact congrArg Bool.toNat (Bool.eq_iff_iff.2 (by simp))

theorem reduxSet_eq_segment (j : Job) {S : Nat} (hS : 0 < S) (scan : Bool) (l : Nat) : j.reduxSet S scan l = Claims.segment j S scan l := by
  unfold Job.reduxSet Claims.segment
  dsimp only
  rw [sub_mod_eq_div_mul]
  congr 1
  funext m
  congr 1
  rw [Bool.eq_iff_iff]
  simp only [Bool.and_eq_true, decide_eq_true_eq, beq_iff_eq]
  exact (div_eq_iff_between hS _ _).symm

theorem redux_holds {i : Instr} {w : RegWord} {f : List Nat → Nat} (hexec : ∀ s, exec i s = issueWord i s (reduxWord w f)) :
    (eachLaneOf i always fun j _ l => f ((Claims.segment j (2 ^ bits w.imm.toNat 6 4) w.imm[7] (l.t % 32)).map fun m => m.a.toNat)).Holds :=
  eachLaneOf_holds hexec fun j _ _ l => by rw [reduxSet_eq_segment j (Nat.two_pow_pos _)]

theorem match_holds (w : RegWord) : (eachLaneOf (.matchLanes w) always fun j _ l =>
     let same := (j.x.lanes.filter fun m => m.a == l.a).map fun m => m.t % 32
     let lead := same.foldl min 31
     if w.imm[0] then maskOf same else lead + 2 ^ 8 * same.length + if lead = l.t % 32 then 2 ^ 15 else 0).Holds := by
  refine word_holds (body := matchWord w) (fun _ => rfl) fun j t _ => ?_
  unfold matchWord
  congr 1
  funext l
  exact ite_congr rfl (fun _ => laneMask_eq_maskOf fun _ => lane_lt_of_mem) fun _ => congrArg (_ + · + _) (Nat.mul_comm _ 256)

/-- Settles O17. -/
theorem laneWords : Obligations.LaneWords := by
  intro w u
  simp only [laneTable, List.forall_mem_cons]
  refine ⟨?bcast, ?lane, ?idx, ?idxShort, ?rise, ?riseShort, ?fall, ?fallShort, ?xor, ?xorShort, ?vote, ?reduxInt, ?reduxFloat, ?matchLanes,
    List.forall_mem_nil _⟩
  case bcast => exact fromLane_holds (other := fun _ => 0) (fun _ => rfl) (fun _ => rfl) fun _ h => nomatch h
  case lane => exact word_holds (body := laneWord) (fun _ => rfl) fun j t hok => laneWord_of_clean hok
  case idx | rise | fall | xor => exact shflWord_holds _ fun _ => rfl
  case idxShort | riseShort | fallShort | xorShort => exact shflShortWord_holds _ fun _ => rfl
  case vote => exact vote_holds w
  case reduxInt => exact redux_holds (f := reduxInt _ _ _) fun _ => rfl
  case reduxFloat => exact redux_holds (f := reduxFloat _ _ _) fun _ => rfl
  case matchLanes => exact match_holds w

/-! ## Blocks (R263, R264) -/

theorem packWord_eq (w : RegWord) (f : BlockFmt) (rnd : Nat) (nanz : Bool) (j : Job) (s : State) :
    packWord w f rnd nanz j s = j.perLane s (packed w f rnd nanz j) := by
  refine congrArg (j.perLane s) (funext fun m => ?_)
  unfold packed
  refine ite_congr rfl (fun _ => ?_) fun _ => rfl
  exact congrArg (· + _) (Nat.mul_comm _ (2 ^ 8))

theorem pack_holds {i : Instr} {w : RegWord} {f : BlockFmt} {rnd : Nat} {nanz : Bool} (hexec : ∀ s, exec i s = issueWord i s (packWord w f rnd nanz)) :
    (eachLaneOf i always fun j _ => packed w f rnd nanz j).Holds :=
  word_holds hexec fun j t _ => packWord_eq w f rnd nanz j t

theorem fourBit_eq (et : Nat) : (et == 0x20 || et == 0x23) = fourBit et := rfl

theorem unpkWord_of_clean {w : RegWord} {et : Nat} {j : Job} {s : State} (rnd : Nat) (sat nanz : Bool) (h : blockClean w et j s = true) :
    unpkWord w et rnd sat nanz j s = j.perLane s (unpacked w et rnd sat nanz j s) := by
  unfold unpkWord
  rw [fourBit_eq]
  dsimp only
  generalize hz : (if fourBit et then 4 else 8) = z
  have hclean : (if !w.imm[4] then [] else j.x.lanes.filter fun m => j.laneBad (j.group s) (m.t % 32 * z / 32) || j.laneBad (j.group s) z) = [] := by
    rw [blockClean] at h
    rw [hz] at h
    split
    case isTrue => rfl
    case isFalse hl =>
      rw [Bool.not_eq_true] at hl
      rw [hl, Bool.false_or] at h
      exact List.filter_eq_nil_iff.2 fun m hm => by simpa using List.all_eq_true.1 h m hm
  rw [hclean, List.isEmpty_nil, if_neg (by decide)]
  congr 1
  funext m
  unfold unpacked
  rw [hz]

theorem unpk_holds {i : Instr} {w : RegWord} {et : Nat} (hexec : ∀ s, exec i s = issueWord i s (unpkWord w et 0 false false)) :
    (eachLaneOf i (blockClean w et) (unpacked w et 0 false false)).Holds :=
  word_holds hexec fun _ _ hok => unpkWord_of_clean 0 false false hok

/-- Settles O18. -/
theorem blockWords : Obligations.BlockWords := by
  intro w
  simp only [blockTable, List.forall_mem_cons]
  refine ⟨?packMx4, ?packMx8e4, ?packMx8e5, ?packK4, ?packSlot, ?unpkMx4, ?unpkMx8e4, ?unpkMx8e5, ?unpkK4, ?unpkSlot, List.forall_mem_nil _⟩
  case packMx4 | packMx8e4 | packMx8e5 | packK4 => exact pack_holds fun _ => rfl
  case unpkMx4 | unpkMx8e4 | unpkMx8e5 | unpkK4 => exact unpk_holds fun _ => rfl
  case packSlot =>
    refine word_holds (body := slotWord w.sc blockType fun t => packWord w ⟨t.etype, t.ktype⟩ t.rnd t.nanz) (fun _ => rfl) fun j t hok => ?_
    rw [slotWord_of_holds _ hok, packWord_eq]
  case unpkSlot =>
    refine word_holds (body := slotWord w.sc blockType fun t => unpkWord w t.etype t.rnd t.sat t.nanz) (fun _ => rfl) fun j t hok => ?_
    obtain ⟨hslot, hclean⟩ := Bool.and_eq_true_iff.1 hok
    rw [slotWord_of_holds _ hslot, unpkWord_of_clean _ _ _ hclean]
end Sys2Proof.Machine
end

section
/-! PROOFS. Pairs, branches, calls and waits (O19 to O23), and the steps of memory that leave the groups. -/

namespace Sys2Proof.Machine
open Sys2Proof.Claims

/-! ## The scalar slot's results at 64 bits (R207) -/

/-- A 64-bit number as a source of a word that reads 64 bits. -/
def wide64 (x : Nat) : BitVec 128 := BitVec.ofNat 128 x

section
variable {a b : Nat} (ha : a < 2 ^ 64) (hb : b < 2 ^ 64)
include ha

theorem toNat_wide64 : (wide64 a).toNat = a := by
  rw [wide64, BitVec.toNat_ofNat, Nat.mod_eq_of_lt (by omega)]

theorem un_wide64 (m : BitVec 2) (hm : opw m = 64) : un m (wide64 a) = a := by
  rw [un, toNat_wide64 ha, hm, Nat.mod_eq_of_lt ha]

theorem sgn_wide64 : sgn 1#2 (wide64 a) = s64 a := by
  rw [sgn, un_wide64 ha _ rfl]
  rfl

theorem num_wide64 : num 1#2 (wide64 a) = s64 a := sgn_wide64 ha

theorem num_uns_wide64 : num 3#2 (wide64 a) = a := by
  rw [num, un_wide64 ha _ rfl]
  rfl

theorem m64_natCast_of_lt : m64 a = a := by
  have h := low_natCast 1#2 a
  rwa [Nat.mod_eq_of_lt (show a < 2 ^ opw 1#2 from ha)] at h

theorem iabs64 : iabs 64 a = m64 (s64 a).natAbs := by
  have h := iabs_un 1#2 (wide64 a)
  rwa [un_wide64 ha _ rfl, sgn_wide64 ha] at h

theorem inot64 : inot 64 a = fromBits 64 fun i => !bit a i := by
  have h := inot_un 1#2 (wide64 a)
  rwa [un_wide64 ha _ rfl, toNat_wide64 ha] at h

theorem isar64 (b : Nat) : isar 64 a b = m64 (s64 a / 2 ^ (b % 64)) := by
  have h := isar_un 1#2 (wide64 a) b
  rwa [un_wide64 ha _ rfl, sgn_wide64 ha] at h

theorem irol64 (b : Nat) : irol 64 a b = fromBits 64 fun i => bit a ((i + 64 - b % 64) % 64) := by
  have h := irol_un 1#2 (wide64 a) b
  rwa [un_wide64 ha _ rfl, toNat_wide64 ha] at h

theorem popc64 : popc 64 a = (List.range 64).countP (bit a) := by
  have h := popc_un 1#2 (wide64 a)
  rwa [un_wide64 ha _ rfl, toNat_wide64 ha] at h

theorem brev64 : brev 64 a = fromBits 64 fun i => bit a (63 - i) := by
  have h := brev_un 1#2 (wide64 a)
  rwa [un_wide64 ha _ rfl, toNat_wide64 ha] at h

include hb

theorem imulh64 : imulh 64 false a b = m64 (s64 a * s64 b / 2 ^ 64) := by
  have h := imulh_un 1#2 (wide64 a) (wide64 b)
  rwa [un_wide64 ha _ rfl, un_wide64 hb _ rfl, num_wide64 ha, num_wide64 hb] at h

theorem imulh64_uns : imulh 64 true a b = a * b / 2 ^ 64 := by
  have h := imulh_un 3#2 (wide64 a) (wide64 b)
  rw [un_wide64 ha _ rfl, un_wide64 hb _ rfl, num_uns_wide64 ha, num_uns_wide64 hb] at h
  have hlt : a * b / 2 ^ 64 < 2 ^ 64 := by
    rw [Nat.div_lt_iff_lt_mul (by decide)]
    exact Nat.mul_lt_mul'' ha hb
  exact h.trans (by exact_mod_cast m64_natCast_of_lt hlt)

theorem iminmax64 (isMax : Bool) : iminmax 64 false isMax a b = m64 (if isMax then max (s64 a) (s64 b) else min (s64 a) (s64 b)) := by
  have h := iminmax_un 1#2 (wide64 a) (wide64 b) isMax
  rwa [un_wide64 ha _ rfl, un_wide64 hb _ rfl, num_wide64 ha, num_wide64 hb] at h

theorem iminmax64_uns (isMax : Bool) : iminmax 64 true isMax a b = if isMax then max a b else min a b := by
  have h := iminmax_un 3#2 (wide64 a) (wide64 b) isMax
  rw [un_wide64 ha _ rfl, un_wide64 hb _ rfl, num_uns_wide64 ha, num_uns_wide64 hb] at h
  refine h.trans ?_
  cases isMax with
  | false =>
    have hcast : ((min a b : Nat) : Int) = min (a : Int) b := by omega
    exact hcast ▸ m64_natCast_of_lt (show min a b < 2 ^ 64 by omega)
  | true =>
    have hcast : ((max a b : Nat) : Int) = max (a : Int) b := by omega
    exact hcast ▸ m64_natCast_of_lt (show max a b < 2 ^ 64 by omega)

theorem land64 : Nat.land a b = fromBits 64 fun i => bit a i && bit b i := by
  have h := land_un 1#2 (wide64 a) (wide64 b)
  rwa [un_wide64 ha _ rfl, un_wide64 hb _ rfl, toNat_wide64 ha, toNat_wide64 hb] at h

theorem lor64 : Nat.lor a b = fromBits 64 fun i => bit a i || bit b i := by
  have h := lor_un 1#2 (wide64 a) (wide64 b)
  rwa [un_wide64 ha _ rfl, un_wide64 hb _ rfl, toNat_wide64 ha, toNat_wide64 hb] at h

theorem xor64 : Nat.xor a b = fromBits 64 fun i => bit a i != bit b i := by
  have h := xor_un 1#2 (wide64 a) (wide64 b)
  rwa [un_wide64 ha _ rfl, un_wide64 hb _ rfl, toNat_wide64 ha, toNat_wide64 hb] at h

theorem iandn64 : iandn 64 a b = fromBits 64 fun i => bit a i && !bit b i := by
  have h := iandn_un 1#2 (wide64 a) (wide64 b)
  rwa [un_wide64 ha _ rfl, un_wide64 hb _ rfl, toNat_wide64 ha, toNat_wide64 hb] at h

/-- Numbers of 64 bits are equal where their signed values are. -/
theorem s64_inj : s64 a = s64 b ↔ a = b := by
  have h := low_num 1#2 (wide64 a)
  have h' := low_num 1#2 (wide64 b)
  rw [un_wide64 ha _ rfl, num_wide64 ha] at h
  rw [un_wide64 hb _ rfl, num_wide64 hb] at h'
  exact ⟨fun e => by rw [← h, e, h'], congrArg s64⟩

theorem icompare64 (cond : Nat) : icompare 64 false cond a b = holdsFor cond (s64 a) (s64 b) := by
  have h := icompare_un 1#2 cond (wide64 a) (wide64 b)
  rwa [un_wide64 ha _ rfl, un_wide64 hb _ rfl, num_wide64 ha, num_wide64 hb] at h

theorem icompare64_uns (cond : Nat) : icompare 64 true cond a b = holdsFor cond a b := by
  have h := icompare_un 3#2 cond (wide64 a) (wide64 b)
  rwa [un_wide64 ha _ rfl, un_wide64 hb _ rfl, num_uns_wide64 ha, num_uns_wide64 hb] at h
end

theorem value_lt (k : ScalarB) (g : Group) (warp : Nat) (p : PairWord) : k.value g warp p < 2 ^ 64 := by
  cases k with
  | register | signed => exact BitVec.isLt _
  | unsigned => exact Nat.lt_trans p.ssb.isLt (by decide)

/-- A scalar slot's source B is the one of its form: the register, or IMM8 as its opcode widens it. -/
def ReadsB (k : ScalarB) (sop : Nat) : Prop := ∀ g warp (p : PairWord), pairB g warp sop p.ssb = k.value g warp p

theorem readsB_register {sop : Nat} (h : scalarForm sop = .register) : ReadsB .register sop := by
  intro g warp p
  rw [pairB, h]
  rfl

/-- The slots whose IMM8 is zero-extended. -/
def zeroExtends (sop : Nat) : Bool := [0x11, 0x13, 0x15, 0x19, 0x1B, 0x1D, 0x1F, 0x2B].contains sop

theorem pairB_of_not_register {sop : Nat} (h : scalarForm sop ≠ .register) (g : Group) (warp : Nat) (b : Byte) :
    pairB g warp sop b = scalarImm sop b := by
  unfold pairB
  split
  · contradiction
  · rfl

theorem readsB_signed {sop : Nat} (h : scalarForm sop ≠ .register) (hz : zeroExtends sop = false) : ReadsB .signed sop := by
  intro g warp p
  rw [pairB_of_not_register h]
  exact if_neg (Bool.eq_false_iff.1 hz)

theorem readsB_unsigned {sop : Nat} (h : scalarForm sop ≠ .register) (hz : zeroExtends sop = true) : ReadsB .unsigned sop := by
  intro g warp p
  rw [pairB_of_not_register h]
  exact if_pos hz

section
variable {p : PairWord} {i : Instr} {sop : Nat} {k : ScalarB} {f : Nat → Nat → Nat}

/-- A row about a P word whose scalar slot writes an s-register: its result is the row's. -/
theorem pairRow_holds (hexec : ∀ s, exec i s = issuePair sop p s (pairWord sop p)) (hform : scalarForm sop ≠ .branch)
    (hvalue : ∀ g warp a, a < 2 ^ 64 → scalarResult sop a (pairB g warp sop p.ssb) = f a (k.value g warp p)) : (pairRow p i sop k f).Holds := by
  intro s j t hrun _
  refine (hexec s).trans ((issuePair_run _ hrun).trans (congrArg Host.Outcome.next ?_))
  unfold pairWord
  dsimp only
  split
  · contradiction
  · rw [hvalue _ _ _ (BitVec.isLt _)]
    rfl

/-- The same, for a slot whose source B has the row's form. -/
theorem pairRow_holds_of_readsB (hexec : ∀ s, exec i s = issuePair sop p s (pairWord sop p)) (hform : scalarForm sop ≠ .branch) (hk : ReadsB k sop)
    (hvalue : ∀ {a b}, a < 2 ^ 64 → b < 2 ^ 64 → scalarResult sop a b = f a b) : (pairRow p i sop k f).Holds :=
  pairRow_holds hexec hform fun g warp a ha => by rw [hk, hvalue ha (value_lt k g warp p)]

theorem pairRow_register (hexec : ∀ s, exec i s = issuePair sop p s (pairWord sop p)) (hform : scalarForm sop = .register)
    (hvalue : ∀ {a b}, a < 2 ^ 64 → b < 2 ^ 64 → scalarResult sop a b = f a b) : (pairRow p i sop .register f).Holds :=
  pairRow_holds_of_readsB hexec (by rw [hform]; decide) (readsB_register hform) hvalue

theorem pairRow_signed (hexec : ∀ s, exec i s = issuePair sop p s (pairWord sop p))
    (hform : scalarForm sop ≠ .branch ∧ scalarForm sop ≠ .register ∧ zeroExtends sop = false)
    (hvalue : ∀ {a b}, a < 2 ^ 64 → b < 2 ^ 64 → scalarResult sop a b = f a b) : (pairRow p i sop .signed f).Holds :=
  pairRow_holds_of_readsB hexec hform.1 (readsB_signed hform.2.1 hform.2.2) hvalue

theorem pairRow_unsigned (hexec : ∀ s, exec i s = issuePair sop p s (pairWord sop p))
    (hform : scalarForm sop ≠ .branch ∧ scalarForm sop ≠ .register ∧ zeroExtends sop = true)
    (hvalue : ∀ {a b}, a < 2 ^ 64 → b < 2 ^ 64 → scalarResult sop a b = f a b) : (pairRow p i sop .unsigned f).Holds :=
  pairRow_holds_of_readsB hexec hform.1 (readsB_unsigned hform.2.1 hform.2.2) hvalue
end

/-- Equality of the signed values is equality of the numbers. -/
theorem icompare64_eq {a b : Nat} (ha : a < 2 ^ 64) (hb : b < 2 ^ 64) : icompare 64 false 0 a b = (a = b : Bool) := by
  rw [icompare64 ha hb]
  exact decide_eq_decide.2 (s64_inj ha hb)

theorem icompare64_ne {a b : Nat} (ha : a < 2 ^ 64) (hb : b < 2 ^ 64) : icompare 64 false 1 a b = (a ≠ b : Bool) := by
  rw [icompare64 ha hb]
  exact decide_eq_decide.2 (not_congr (s64_inj ha hb))

theorem icompare64_lt_uns {a b : Nat} (ha : a < 2 ^ 64) (hb : b < 2 ^ 64) : icompare 64 true 2 a b = (a < b : Bool) := by
  rw [icompare64_uns ha hb]
  exact decide_eq_decide.2 Int.ofNat_lt

/-- Settles O19: the scalar slot's functions are those of the integer and logic words at 64 bits. -/
theorem pairWords : Obligations.PairWords := by
  intro p
  simp only [pairTable, List.forall_mem_cons]
  refine ⟨?add, ?addImm, ?sub, ?subImm, ?mul, ?mulImm, ?mulh, ?mulhN, ?min, ?minImm, ?max, ?maxImm, ?minN, ?maxN, ?abs, ?neg, ?and, ?andImm, ?or, ?orImm,
    ?xor, ?xorImm, ?andn, ?not, ?shl, ?shlImm, ?shr, ?shrImm, ?sar, ?sarImm, ?rol, ?rolImm, ?popc, ?clz, ?ctz, ?brev, ?mov, ?movi, ?eq, ?eqImm,
    ?lt, ?ltImm, ?ltN, ?ltNImm, ?ne, ?neImm, List.forall_mem_nil _⟩
  case add => exact pairRow_register (fun _ => rfl) (by decide) fun _ _ => iadd_un 1#2 _ _
  case addImm => exact pairRow_signed (fun _ => rfl) (by decide) fun _ _ => iadd_un 1#2 _ _
  case sub => exact pairRow_register (fun _ => rfl) (by decide) fun _ _ => rfl
  case subImm => exact pairRow_signed (fun _ => rfl) (by decide) fun _ _ => rfl
  case mul => exact pairRow_register (fun _ => rfl) (by decide) fun _ _ => imul_un 1#2 _ _
  case mulImm => exact pairRow_signed (fun _ => rfl) (by decide) fun _ _ => imul_un 1#2 _ _
  case mulh => exact pairRow_register (fun _ => rfl) (by decide) imulh64
  case mulhN => exact pairRow_register (fun _ => rfl) (by decide) imulh64_uns
  case min => exact pairRow_register (fun _ => rfl) (by decide) fun ha hb => iminmax64 ha hb false
  case minImm => exact pairRow_signed (fun _ => rfl) (by decide) fun ha hb => iminmax64 ha hb false
  case max => exact pairRow_register (fun _ => rfl) (by decide) fun ha hb => iminmax64 ha hb true
  case maxImm => exact pairRow_signed (fun _ => rfl) (by decide) fun ha hb => iminmax64 ha hb true
  case minN => exact pairRow_register (fun _ => rfl) (by decide) fun ha hb => iminmax64_uns ha hb false
  case maxN => exact pairRow_register (fun _ => rfl) (by decide) fun ha hb => iminmax64_uns ha hb true
  case abs => exact pairRow_holds (fun _ => rfl) (by decide) fun _ _ _ ha => iabs64 ha
  case neg => exact pairRow_holds (fun _ => rfl) (by decide) fun _ _ _ _ => rfl
  case and => exact pairRow_register (fun _ => rfl) (by decide) land64
  case andImm => exact pairRow_unsigned (fun _ => rfl) (by decide) land64
  case or => exact pairRow_register (fun _ => rfl) (by decide) lor64
  case orImm => exact pairRow_unsigned (fun _ => rfl) (by decide) lor64
  case xor => exact pairRow_register (fun _ => rfl) (by decide) xor64
  case xorImm => exact pairRow_unsigned (fun _ => rfl) (by decide) xor64
  case andn => exact pairRow_register (fun _ => rfl) (by decide) iandn64
  case not => exact pairRow_holds (fun _ => rfl) (by decide) fun _ _ _ ha => inot64 ha
  case shl => exact pairRow_register (fun _ => rfl) (by decide) fun _ _ => ishl_un 1#2 _ _
  case shlImm => exact pairRow_unsigned (fun _ => rfl) (by decide) fun _ _ => ishl_un 1#2 _ _
  case shr => exact pairRow_register (fun _ => rfl) (by decide) fun _ _ => rfl
  case shrImm => exact pairRow_unsigned (fun _ => rfl) (by decide) fun _ _ => rfl
  case sar => exact pairRow_register (fun _ => rfl) (by decide) fun ha _ => isar64 ha _
  case sarImm => exact pairRow_unsigned (fun _ => rfl) (by decide) fun ha _ => isar64 ha _
  case rol => exact pairRow_register (fun _ => rfl) (by decide) fun ha _ => irol64 ha _
  case rolImm => exact pairRow_unsigned (fun _ => rfl) (by decide) fun ha _ => irol64 ha _
  case popc => exact pairRow_holds (fun _ => rfl) (by decide) fun _ _ _ ha => popc64 ha
  case clz | ctz | mov => exact pairRow_holds (fun _ => rfl) (by decide) fun _ _ _ _ => rfl
  case brev => exact pairRow_holds (fun _ => rfl) (by decide) fun _ _ _ ha => brev64 ha
  case movi => exact pairRow_signed (fun _ => rfl) (by decide) fun _ _ => rfl
  case eq => exact pairRow_register (fun _ => rfl) (by decide) fun ha hb => congrArg Bool.toNat (icompare64_eq ha hb)
  case eqImm => exact pairRow_signed (fun _ => rfl) (by decide) fun ha hb => congrArg Bool.toNat (icompare64_eq ha hb)
  case lt => exact pairRow_register (fun _ => rfl) (by decide) fun ha hb => congrArg Bool.toNat (icompare64 ha hb 2)
  case ltImm => exact pairRow_signed (fun _ => rfl) (by decide) fun ha hb => congrArg Bool.toNat (icompare64 ha hb 2)
  case ltN => exact pairRow_register (fun _ => rfl) (by decide) fun ha hb => congrArg Bool.toNat (icompare64_lt_uns ha hb)
  case ltNImm => exact pairRow_unsigned (fun _ => rfl) (by decide) fun ha hb => congrArg Bool.toNat (icompare64_lt_uns ha hb)
  case ne => exact pairRow_register (fun _ => rfl) (by decide) fun ha hb => congrArg Bool.toNat (icompare64_ne ha hb)
  case neImm => exact pairRow_signed (fun _ => rfl) (by decide) fun ha hb => congrArg Bool.toNat (icompare64_ne ha hb)

open Sys2Proof.Claims

/-! ## Branches (R272 to R275) -/

/-- A word that goes to valid targets sends its threads there. -/
theorem goto_of_validAll {j : Job} {s : State} {target : LaneSrc → Nat} (after : Group → Group) (h : validAll j target = true) :
    j.goto s target after = sent j s target after := by
  have hnone : (j.x.lanes.find? fun l => !validPc (target l)) = none := by
    rw [List.find?_eq_none]
    intro l hl
    have hv := of_decide_eq_true (List.all_eq_true.1 h l hl)
    have hvalid : validPc (target l) = true := by
      rw [validPc, hv.1, decide_eq_true hv.2]
      rfl
    simp [hvalid]
  unfold Job.goto
  rw [hnone]
  rfl

theorem validAll_const {j : Job} {x : Nat} (h : validPc x = true) : validAll j (fun _ => x) = true := by
  rw [validPc, Bool.and_eq_true, beq_iff_eq, decide_eq_true_eq] at h
  exact List.all_eq_true.2 fun _ _ => decide_eq_true h

theorem relTarget_eq_branchT (w : WideWord) (j : Job) : relTarget j.x.pc (w.imm.signExtend 64) = branchT w j := by
  rw [relTarget, branchT, BitVec.mul_comm]

theorem braWord_of_valid {w : WideWord} {j : Job} {s : State} (h : validAll j (fun _ => branchT w j) = true) :
    braWord w.imm j s = sent j s (fun _ => branchT w j) id := by
  unfold braWord
  rw [relTarget_eq_branchT, goto_of_validAll _ h]

theorem braUWord_of_uniform {w : WideWord} {j : Job} {s : State} (hact : j.act.length = j.ts.length) (h : validAll j (fun _ => branchT w j) = true) :
    braUWord w.imm j s = sent j s (fun _ => branchT w j) id := by
  rw [braUWord, if_neg (Classical.not_not.2 hact), braWord_of_valid h]

theorem brayWord_of_valid {w : WideWord} {j : Job} {s : State} (h : validAll j (fun _ => branchT w j) = true) :
    brayWord w.imm j s = sent j s (fun _ => branchT w j) fun g => g.yieldTaken j.x.warp j.act := by
  unfold brayWord
  rw [relTarget_eq_branchT, goto_of_validAll _ h]

theorem bruWord_taken {nz : Bool} {w : WideWord} {j : Job} {s : State} (hnz : (j.a != 0) = nz) (h : validAll j (fun _ => branchT w j) = true) :
    bruWord nz w.imm j s = sent j s (fun _ => branchT w j) id := by
  rw [bruWord, if_pos hnz, braWord_of_valid h]

theorem bruWord_not_taken {nz : Bool} {imm : Word} {j : Job} {s : State} (hnz : (j.a != 0) ≠ nz) : bruWord nz imm j s = j.pass s := by
  rw [bruWord, if_neg hnz]

/-- Settles O21: each word goes to its target, or only passes. -/
theorem branchWords : Obligations.BranchWords := by
  intro w v
  simp only [branchTable, List.forall_mem_cons]
  refine ⟨?bra, ?braU, ?bray, ?bruNz, ?bruNzStay, ?bruZ, ?bruZStay, ?jmp, List.forall_mem_nil _⟩
  case bra => exact word_holds (body := braWord v.imm) (fun _ => rfl) fun j t h => braWord_of_valid h
  case braU =>
    refine word_holds (body := braUWord v.imm) (fun _ => rfl) fun j t h => ?_
    obtain ⟨hact, hvalid⟩ := of_decide_eq_true h
    exact braUWord_of_uniform hact hvalid
  case bray => exact word_holds (body := brayWord v.imm) (fun _ => rfl) fun j t h => brayWord_of_valid h
  case bruNz =>
    refine word_holds (body := bruWord true v.imm) (fun _ => rfl) fun j t h => ?_
    obtain ⟨ha, hvalid⟩ := of_decide_eq_true h
    exact bruWord_taken (bne_iff_ne.2 ha) hvalid
  case bruNzStay =>
    refine word_holds (body := bruWord true v.imm) (fun _ => rfl) fun j t h => bruWord_not_taken ?_
    simp [of_decide_eq_true h]
  case bruZ =>
    refine word_holds (body := bruWord false v.imm) (fun _ => rfl) fun j t h => ?_
    obtain ⟨ha, hvalid⟩ := of_decide_eq_true h
    exact bruWord_taken (by simp [ha]) hvalid
  case bruZStay =>
    refine word_holds (body := bruWord false v.imm) (fun _ => rfl) fun j t h => bruWord_not_taken ?_
    simpa using of_decide_eq_true h
  case jmp => exact word_holds (body := jmpWord) (fun _ => rfl) fun j t h => goto_of_validAll id h

/-! ## The scalar slots that branch (R207, R274) -/

/-- The target of a scalar branch, IMM8 sign-extended (R207). -/
theorem scalarTarget_eq {sop : Nat} (hform : scalarForm sop = .branch) (hz : zeroExtends sop = false) (p : PairWord) (j : Job) (g : Group) :
    (BitVec.ofNat 64 (j.x.pc + 8 * pairB g j.x.warp sop p.ssb)).toNat = (BitVec.ofNat 64 j.x.pc + 8 * p.ssb.signExtend 64).toNat := by
  rw [readsB_signed (by rw [hform]; decide) hz, ScalarB.value, BitVec.ofNat_add, BitVec.ofNat_mul, BitVec.ofNat_toNat, BitVec.setWidth_eq]
  rfl

theorem pairWord_branch {sop : Nat} (hform : scalarForm sop = .branch) (p : PairWord) (j : Job) (s : State) :
    pairWord sop p j s =
      if (((j.group s).sreg j.x.warp p.ssa.toNat).val.toNat != 0) = (sop == 0x2C) then
        j.goto s (fun _ => (BitVec.ofNat 64 (j.x.pc + 8 * pairB (j.group s) j.x.warp sop p.ssb)).toNat) (j.vector p)
      else j.pass (j.mod s (j.vector p)) := by
  unfold pairWord
  rw [hform]

/-- A row about a scalar branch: taken, it sends the active lanes to its target; not taken, its vector slot alone takes effect. -/
theorem pairBranch_holds {p : PairWord} {i : Instr} {sop : Nat} {ok : Job → State → Bool} {next : Job → State → State}
    (hexec : ∀ s, exec i s = issuePair sop p s (pairWord sop p)) (h : ∀ j t, ok j t = true → pairWord sop p j t = next j t) :
    (⟨i, fun s => s.prepared default (.pair sop p) fun _ => p.vop.sig p.vector, ok, next⟩ : Claim).Holds :=
  fun s j t hrun hok => (hexec s).trans ((issuePair_run _ hrun).trans (congrArg Host.Outcome.next (h j t hok)))

theorem toNat_bne_zero_eq_iff (x : BitVec 64) (c : Bool) : ((x.toNat != 0) = c) ↔ (x = 0 ↔ c = false) := by
  have hx : (x.toNat != 0) = false ↔ x = 0 := by simp [BitVec.toNat_eq]
  rw [← hx]
  cases (x.toNat != 0) <;> cases c <;> decide

section
variable {sop : Nat} (hform : scalarForm sop = .branch)
include hform

theorem pairWord_taken (hz : zeroExtends sop = false) {p : PairWord} {j : Job} {s : State}
    (ht : (((j.group s).sreg j.x.warp p.ssa.toNat).val = 0) ↔ sop ≠ 0x2C)
    (hv : validPc (BitVec.ofNat 64 j.x.pc + 8 * p.ssb.signExtend 64).toNat = true) :
    pairWord sop p j s = sent j s (fun _ => (BitVec.ofNat 64 j.x.pc + 8 * p.ssb.signExtend 64).toNat) (j.vector p) := by
  have htaken : (((j.group s).sreg j.x.warp p.ssa.toNat).val.toNat != 0) = (sop == 0x2C) := by
    rw [toNat_bne_zero_eq_iff, ht, beq_eq_false_iff_ne]
  rw [pairWord_branch hform, if_pos htaken, scalarTarget_eq hform hz, goto_of_validAll _ (validAll_const hv)]

theorem pairWord_not_taken {p : PairWord} {j : Job} {s : State} (ht : (((j.group s).sreg j.x.warp p.ssa.toNat).val = 0) ↔ sop = 0x2C) :
    pairWord sop p j s = j.pass (j.mod s (j.vector p)) := by
  have hnot : ¬ (((j.group s).sreg j.x.warp p.ssa.toNat).val.toNat != 0) = (sop == 0x2C) := by
    rw [toNat_bne_zero_eq_iff, ht, beq_eq_false_iff_ne]
    exact iff_not_self
  rw [pairWord_branch hform, if_neg hnot]
end

/-- Settles O20. -/
theorem pairBranches : Obligations.PairBranches := by
  intro p
  simp only [pairBranchTable, List.forall_mem_cons]
  refine ⟨?nz, ?nzStay, ?z, ?zStay, List.forall_mem_nil _⟩
  case nz =>
    refine pairBranch_holds (fun _ => rfl) fun j t h => ?_
    obtain ⟨hz, hv⟩ := Bool.and_eq_true_iff.1 h
    exact pairWord_taken rfl rfl (by simpa using hz) hv
  case nzStay => exact pairBranch_holds (fun _ => rfl) fun j t h => pairWord_not_taken rfl (by simpa using h)
  case z =>
    refine pairBranch_holds (fun _ => rfl) fun j t h => ?_
    obtain ⟨hz, hv⟩ := Bool.and_eq_true_iff.1 h
    exact pairWord_taken rfl rfl (by simpa using hz) hv
  case zStay => exact pairBranch_holds (fun _ => rfl) fun j t h => pairWord_not_taken rfl (by simpa using h)

/-! ## Steps of memory: the groups and the configuration stay -/

/-- A step of the memory below the cores: it leaves the die's groups and its configuration record. -/
structure Die.MemStep (d e : Die) : Prop where
  groups : e.groups = d.groups
  conf : e.conf = d.conf

namespace Die.MemStep

theorem refl (d : Die) : d.MemStep d := ⟨rfl, rfl⟩

theorem trans {c d e : Die} (h : c.MemStep d) (h' : d.MemStep e) : c.MemStep e :=
  ⟨h'.groups.trans h.groups, h'.conf.trans h.conf⟩

theorem ite {c : Prop} [Decidable c] {d x y : Die} (hx : d.MemStep x) (hy : d.MemStep y) : d.MemStep (if c then x else y) := by
  split
  · exact hx
  · exact hy

theorem foldl {α : Type} {f : Die → α → Die} (h : ∀ (d : Die) a, d.MemStep (f d a)) (l : List α) (d : Die) : d.MemStep (l.foldl f d) := by
  induction l generalizing d with
  | nil => exact refl d
  | cons a l ih => exact (h d a).trans (ih (f d a))

end Die.MemStep

section
variable (d : Die)

theorem Die.modNode_memStep (nid : Nat) (f : Node → Node) : d.MemStep (d.modNode nid f) := ⟨rfl, rfl⟩

theorem Die.poisonSector_memStep (sec : Nat) : d.MemStep (d.poisonSector sec) := .ite (.refl d) ⟨rfl, rfl⟩

theorem Die.writeSector_memStep (sec mask : Nat) (bs : List Byte) : d.MemStep (d.writeSector sec mask bs) :=
  .ite (.refl d) (.ite ⟨rfl, rfl⟩ (.ite (.refl d) ⟨rfl, rfl⟩))

theorem Die.awrite_memStep (frame asub afmt b : Nat) (mask : DWord) (data : BitVec 512) : d.MemStep (d.awrite frame asub afmt b mask data) :=
  (d.writeSector_memStep ..).trans (Die.writeSector_memStep ..)

theorem Die.l2Modify_memStep (r : LineRef) (f : L2Line → L2Line) : d.MemStep (d.l2Modify r f) := ⟨rfl, rfl⟩

theorem Die.l1Drop_memStep (slice a : Nat) : d.MemStep (d.l1Drop slice a) := ⟨rfl, rfl⟩

theorem Die.writeBackSector_memStep (l : L2Line) (i : Nat) : d.MemStep (d.writeBackSector l i) :=
  .ite (.refl d) (.ite (d.poisonSector_memStep _) (.ite (d.writeSector_memStep ..) (d.writeSector_memStep ..)))

end

/-- A way of finding room for a line that only steps memory. -/
def RoomStep (room : Die → Nat → Nat → Die × Nat) : Prop := ∀ (d : Die) slice set, d.MemStep (room d slice set).1

section
variable {d : Die} {room : Die → Nat → Nat → Die × Nat} (hroom : RoomStep room)
include hroom

theorem Die.stageAt_memStep (k : Nat) (data : BitVec 512) : d.MemStep (d.stageAt room k data) := by
  unfold Die.stageAt
  dsimp only
  split
  · exact d.l2Modify_memStep ..
  · exact ⟨(hroom ..).groups, (hroom ..).conf⟩

theorem Die.stage_memStep (nid : Nat) (l : L2Line) : d.MemStep (d.stage room nid l) := by
  unfold Die.stage
  split
  · exact ⟨rfl, rfl⟩
  · exact (d.modNode_memStep ..).trans (Die.stageAt_memStep hroom ..)

theorem Die.evictWith_memStep (l : L2Line) : d.MemStep (d.evictWith room l) := by
  have hdrop : d.MemStep (if l.l1 then d.l1Drop l.slice l.line else d) := .ite (d.l1Drop_memStep ..) (.refl d)
  unfold Die.evictWith
  dsimp only
  generalize (if l.l1 then d.l1Drop l.slice l.line else d) = x at hdrop ⊢
  have hleft : d.MemStep { x with l2 := x.l2.filter fun y => !(y.slice == l.slice && y.line == l.line && y.pres == l.pres && y.node == l.node) } :=
    hdrop.trans ⟨rfl, rfl⟩
  split
  · exact hleft.trans (Die.stage_memStep hroom ..)
  · split
    · exact hleft
    · exact hleft.trans ((Die.writeBackSector_memStep ..).trans (Die.writeBackSector_memStep ..))
end

theorem Die.victim_memStep {d : Die} {slice set : Nat} {v : L2Line × Die} (h : d.victim slice set = some v) : d.MemStep v.2 := by
  obtain ⟨l, -, rfl⟩ := Option.map_eq_some_iff.mp h
  exact ⟨rfl, rfl⟩

theorem Die.roomIn_memStep (fuel : Nat) : RoomStep (Die.roomIn fuel) := by
  induction fuel with
  | zero =>
    intro d slice set
    unfold Die.roomIn
    split <;> exact .refl d
  | succ n ih =>
    intro d slice set
    unfold Die.roomIn
    split
    · exact .refl d
    · split
      case h_1 hk hv =>
        cases hk
        exact (Die.victim_memStep hv).trans ((Die.evictWith_memStep ih _).trans (ih ..))
      case h_2 => exact .refl d

theorem Die.makeRoom_memStep : RoomStep Die.makeRoom := fun _ _ _ => Die.roomIn_memStep _ _ _ _

section
variable (d : Die)

theorem Die.l2Open_memStep (r : LineRef) (hint : Nat) : d.MemStep (d.l2Open r hint) := by
  unfold Die.l2Open
  split
  · exact d.l2Modify_memStep ..
  · exact (Die.makeRoom_memStep ..).trans ⟨rfl, rfl⟩

theorem Die.l2Load_memStep (r : LineRef) (hint : Nat) : d.MemStep (d.l2Load r hint) :=
  (d.l2Open_memStep r hint).trans (Die.l2Modify_memStep ..)

theorem Die.l1Invalidate_memStep (r : LineRef) : d.MemStep (d.l1Invalidate r) := by
  unfold Die.l1Invalidate
  split
  · exact .ite ⟨rfl, rfl⟩ (.refl d)
  · exact .refl d

theorem Die.l2Store_memStep (r : LineRef) (hint : Nat) (bs : List (Nat × Byte)) : d.MemStep (d.l2Store r hint bs) := by
  have hopen : d.MemStep ((d.l2Open r hint).l1Invalidate r) := (d.l2Open_memStep ..).trans (Die.l1Invalidate_memStep ..)
  unfold Die.l2Store
  dsimp only
  split
  · exact hopen.trans (Die.l2Modify_memStep ..)
  · exact hopen.trans ((Die.awrite_memStep ..).trans (Die.l2Modify_memStep ..))

theorem Die.writeAt_memStep (t : Attr) (a : Nat) (bs : List Byte) : d.MemStep (d.writeAt t a bs) :=
  .foldl (fun d _ => d.l2Store_memStep ..) _ d

theorem Die.zeroRange_memStep (a n : Nat) : d.MemStep (d.zeroRange a n) := ⟨rfl, rfl⟩

theorem Die.zeroFrame_memStep (frame size : Nat) (asub : Option Nat) : d.MemStep (d.zeroFrame frame size asub) := by
  unfold Die.zeroFrame
  split
  · exact d.zeroRange_memStep ..
  · exact (d.zeroRange_memStep ..).trans (Die.zeroRange_memStep ..)

theorem Die.putEntry_memStep (loc e : Nat) : d.MemStep (d.putEntry loc e) := .ite (.refl d) (d.writeAt_memStep ..)

theorem Die.zeroLeaf_memStep (f : Found) : d.MemStep (d.zeroLeaf f).2 := by
  unfold Die.zeroLeaf
  split
  · split
    · exact MemStep.trans (.ite (.refl d) (d.zeroFrame_memStep ..)) (Die.putEntry_memStep ..)
    · exact .refl d
  · exact .refl d

theorem Die.walkFresh_memStep (core pn va : Nat) : d.MemStep (d.walkFresh core pn va).2 := by
  have htranslate := d.zeroLeaf_memStep (d.walk pn va)
  unfold Die.walkFresh Die.translate
  dsimp only
  split
  · exact htranslate.trans ⟨rfl, rfl⟩
  · exact htranslate
end

/-! ## Steps of memory in a state -/

/-- A state whose dies have stepped their memories alone. -/
structure State.MemStep (s t : State) : Prop where
  die : ∀ d, (s.die d).MemStep (t.die d)

namespace State.MemStep

theorem refl (s : State) : s.MemStep s := ⟨fun d => .refl (s.die d)⟩

theorem trans {r s t : State} (h : r.MemStep s) (h' : s.MemStep t) : r.MemStep t := ⟨fun d => (h.die d).trans (h'.die d)⟩

theorem draw (s : State) : s.MemStep s.draw.2 := ⟨fun d => .refl (s.die d)⟩

theorem ite_snd {α : Type} {c : Prop} [Decidable c] {s : State} {x y : α × State} (hx : s.MemStep x.2) (hy : s.MemStep y.2) :
    s.MemStep (if c then x else y).2 := by
  split
  · exact hx
  · exact hy

/-- The groups that the state finds stay. -/
theorem group_eq {s t : State} (h : s.MemStep t) (d gid : Nat) : t.group? d gid = s.group? d gid := by
  unfold State.group? Die.group?
  rw [(h.die d).groups]

theorem job_group {s t : State} (h : s.MemStep t) (j : Job) : j.group t = j.group s := by
  rw [Job.group, Job.group, h.group_eq]
end State.MemStep

/-- The dies after one of them is changed. -/
theorem State.die_modDie (s : State) (d : Nat) (f : Die → Die) (e : Nat) :
    (s.modDie d f).die e = if e = d ∧ d < s.dies.length then f (s.die d) else s.die e := by
  simp only [State.die, State.modDie, List.getD_eq_getElem?_getD, List.getElem?_modify]
  by_cases hed : e = d
  · subst hed
    by_cases hlen : e < s.dies.length <;> simp [hlen]
  · simp [hed, Ne.symm hed]

theorem State.die_modDie_of_ne {d e : Nat} (s : State) (f : Die → Die) (h : e ≠ d) : (s.modDie d f).die e = s.die e := by
  rw [State.die_modDie, if_neg fun hed => h hed.1]

theorem State.modDie_memStep (s : State) (d : Nat) {f : Die → Die} (h : (s.die d).MemStep (f (s.die d))) : s.MemStep (s.modDie d f) := by
  constructor
  intro e
  rw [State.die_modDie]
  split
  case isTrue hed => rw [hed.1]; exact h
  case isFalse => exact .refl _

theorem State.walkFresh_memStep (s : State) (d core pn va : Nat) : s.MemStep (s.walkFresh d core pn va).2 :=
  s.modDie_memStep d (Die.walkFresh_memStep ..)

theorem State.lookup_memStep (s : State) (d core pn va : Nat) : s.MemStep (s.lookup d core pn va).2 := by
  unfold State.lookup
  dsimp only
  split
  · exact .refl s
  · split
    · exact s.walkFresh_memStep ..
    · exact .ite_snd (.refl s) (.ite_snd (.draw s) ((State.MemStep.draw s).trans (State.walkFresh_memStep ..)))

theorem State.checkPages_memStep (s : State) (d core pn : Nat) (svc : Bool) (acc : Acc) (mustOpen : Bool) (va n : Nat) (pages : List Nat) :
    s.MemStep (s.checkPages d core pn svc acc mustOpen va n pages).2 := by
  induction pages generalizing s with
  | nil => exact .refl s
  | cons p rest ih => exact (s.lookup_memStep ..).trans (ih _)

theorem State.checkAccess_memStep (s : State) (d core pn : Nat) (ext : ExtTable) (acc : Acc) (x n : Nat) :
    s.MemStep (s.checkAccess d core pn ext acc x n).2 := by
  unfold State.checkAccess
  split
  · exact .refl s
  · dsimp only
    split
    · exact .refl s
    · split <;> exact .refl s
    · have hpages := s.checkPages_memStep d core pn ((s.die d).service pn) acc ‹_› x n (pagesOf x n)
      split <;> exact hpages

theorem State.codeLine_memStep (s : State) (d core pn : Nat) (r : LineRef) : s.MemStep (s.codeLine d core pn r).2 := by
  have hfill : ∀ s : State, ∀ f, s.MemStep (s.modDie d fun x => (x.l2Load r 0).modCore core f) := fun s f =>
    s.modDie_memStep d ((Die.l2Load_memStep ..).trans ⟨rfl, rfl⟩)
  unfold State.codeLine
  dsimp only
  split
  · exact hfill ..
  · split
    · exact .refl s
    · split
      · exact .draw s
      · exact (State.MemStep.draw s).trans (hfill ..)

theorem State.fetchBytes_memStep (s : State) (d core pn va n : Nat) : s.MemStep (s.fetchBytes d core pn va n).2 := by
  have hcheck := s.checkAccess_memStep d core pn ⟨[], [], []⟩ .fetch va n
  unfold State.fetchBytes
  dsimp only
  split
  · exact hcheck
  · exact hcheck
  · split
    · exact hcheck.trans (State.codeLine_memStep ..)
    · exact hcheck

theorem State.readLanes_memStep (s : State) (d core pn n : Nat) (l : List (Nat × Nat)) : s.MemStep (s.readLanes d core pn n l).2 := by
  induction l generalizing s with
  | nil => exact .refl s
  | cons a rest ih => exact (s.fetchBytes_memStep ..).trans (ih _)

open Sys2Proof.Claims

/-! ## Tables and calls (R276 to R279) -/

/-- Lanes that have read their entries in full: each value clean and a target's. -/
def entriesRead (rs : List LaneRead) : Prop :=
  ∀ r ∈ rs, ∃ x, r.got = .ok x false ∧ bits x 63 43 = 0 ∧ bits x 2 0 = 0

theorem withEntries_of_read {j : Job} {s : State} {addr : LaneSrc → Nat} (k : List LaneRead → State → State)
    (h : entriesRead (s.readLanes j.d (j.group s).core (j.group s).ctx.pn 8 (j.x.lanes.map fun l => (l.t, addr l))).1) :
    j.withEntries s addr k = k (s.readLanes j.d (j.group s).core (j.group s).ctx.pn 8 (j.x.lanes.map fun l => (l.t, addr l))).1
      (s.readLanes j.d (j.group s).core (j.group s).ctx.pn 8 (j.x.lanes.map fun l => (l.t, addr l))).2 := by
  unfold Job.withEntries
  dsimp only
  generalize s.readLanes j.d (j.group s).core (j.group s).ctx.pn 8 (j.x.lanes.map fun l => (l.t, addr l)) = p at h ⊢
  obtain ⟨rs, t⟩ := p
  have hhole : rs.findSome? LaneRead.hole = none := by
    rw [List.findSome?_eq_none_iff]
    intro r hr
    obtain ⟨x, hx, -⟩ := h r hr
    rw [LaneRead.hole, hx]
  have hcause : ∀ r ∈ rs, r.cause = 0 := by
    intro r hr
    obtain ⟨x, hx, -⟩ := h r hr
    rw [LaneRead.cause, hx]
  have hfault : (rs.filter fun r => r.cause != 0 && !parks r.cause) = [] :=
    List.filter_eq_nil_iff.2 fun r hr => by simp [hcause r hr]
  have hpark : (rs.filter fun r => parks r.cause) = [] :=
    List.filter_eq_nil_iff.2 fun r hr => by rw [hcause r hr]; decide
  have hclean : rs.filter LaneRead.poisoned = [] := by
    refine List.filter_eq_nil_iff.2 fun r hr => ?_
    obtain ⟨x, hx, -⟩ := h r hr
    rw [LaneRead.poisoned, hx]
    exact Bool.false_ne_true
  dsimp only
  rw [hhole, hfault, hpark, hclean]
  rfl

/-- A word that goes through the table, where every index is below TLEN, the word's own checks pass and every entry reads as a target. -/
theorem tableWord_of_entriesOk {checks : Group → Option (Nat × List Nat)} (k : (LaneSrc → Nat) → Job → State → State) {j : Job} {s : State}
    (h : entriesOk j s = true) (hchecks : checks (j.group s) = none) : tableWord checks k j s = k (entryOf j s) j (entries j s).2 := by
  obtain ⟨hindex, hread⟩ := Bool.and_eq_true_iff.1 h
  have hin : (j.x.lanes.find? fun l => j.x.tlen.toNat ≤ l.a.toNat % 2 ^ 32) = none := by
    rw [List.find?_eq_none]
    intro l hl
    have hlt := of_decide_eq_true (List.all_eq_true.1 hindex l hl)
    simpa using hlt
  have hr : entriesRead (entries j s).1 := by
    intro r hr
    have hok := List.all_eq_true.1 hread r hr
    split at hok
    case h_1 x bad hx =>
      simp only [Bool.and_eq_true, Bool.not_eq_true', beq_iff_eq] at hok
      obtain ⟨⟨rfl, h1⟩, h2⟩ := hok
      exact ⟨x, hx, h1, h2⟩
    case h_2 => nomatch hok
  have hbroken : ((entries j s).1.filter fun r => bits r.value 63 43 != 0 || bits r.value 2 0 != 0) = [] := by
    refine List.filter_eq_nil_iff.2 fun r hmem => ?_
    obtain ⟨x, hx, h1, h2⟩ := hr r hmem
    rw [LaneRead.value, hx]
    simp [h1, h2]
  unfold tableWord
  dsimp only
  rw [hin, hchecks]
  dsimp only
  rw [withEntries_of_read _ hr]
  change (match (entries j s).1.filter fun r => bits r.value 63 43 != 0 || bits r.value 2 0 != 0 with
    | r :: _ => _
    | [] => _) = _
  rw [hbroken]
  rfl

theorem entries_memStep (j : Job) (s : State) : s.MemStep (entries j s).2 := State.readLanes_memStep ..

theorem accs_free {j : Job} {s : State} {accs : List WinAcc} (h : windowFree j s accs = true) : accs.any ((j.group s).accBusy j.x) = false := by
  simpa [windowFree] using h

theorem stackFull_of_room {j : Job} {s : State} (h : roomToCall j s = true) : j.stackFull (j.group s) = [] := by
  rw [roomToCall, Bool.and_assoc, Bool.and_eq_true, Bool.and_eq_true] at h
  obtain ⟨hrse, hdepth, -⟩ := h
  rw [Job.stackFull, if_neg (of_decide_eq_true hrse)]
  refine List.filter_eq_nil_iff.2 fun t ht => ?_
  simpa using List.all_eq_true.1 hdepth t ht

theorem callTo_of_room {j : Job} {s : State} {target : LaneSrc → Nat} (h : roomToCall j s = true) (hv : validAll j target = true) :
    callTo target j s = called j s target := by
  have hfree := accs_free (Bool.and_eq_true_iff.1 h).2
  unfold callTo
  dsimp only
  rw [hfree, if_neg Bool.false_ne_true, goto_of_validAll _ hv]
  rfl

theorem callWord_of_room {j : Job} {s : State} {target : LaneSrc → Nat} (h : roomToCall j s = true) (hv : validAll j target = true) :
    callWord target j s = called j s target := by
  unfold callWord
  rw [stackFull_of_room h]
  exact callTo_of_room h hv

theorem retWord_of_clean {j : Job} {s : State} (hdeep : (j.act.all fun t => ((j.group s).thread t).depth ≠ 0 && !(returnTo j s t).2) = true)
    (hfree : windowFree j s (j.stackAccs (j.group s) 1 false) = true) (hv : validAll j (fun l => ofBytes (returnTo j s l.t).1) = true) :
    retWord j s = sent j s (fun l => ofBytes (returnTo j s l.t).1) fun g => g.modThreads j.act fun h => { h with depth := h.depth - 1 } := by
  have hall := List.all_eq_true.1 hdeep
  have hshallow : (j.act.filter fun t => ((j.group s).thread t).depth == 0) = [] :=
    List.filter_eq_nil_iff.2 fun t ht => by
      have h := (Bool.and_eq_true_iff.1 (hall t ht)).1
      simpa using h
  have hclean : (j.act.filter fun t => (returnTo j s t).2) = [] :=
    List.filter_eq_nil_iff.2 fun t ht => by
      have h := (Bool.and_eq_true_iff.1 (hall t ht)).2
      simpa using h
  unfold retWord
  dsimp only
  rw [hshallow, accs_free hfree]
  change (if !(j.act.filter fun t => (returnTo j s t).2).isEmpty then _ else j.goto s (fun l => ofBytes (returnTo j s l.t).1) _) = _
  rw [hclean, goto_of_validAll _ hv]
  rfl

/-- No active thread is too deep to be filed where the group is in no gate call and every DEPTH is 0 (R279). -/
theorem deep_of_flat {j : Job} {s : State} (h : (j.act.all fun t => (j.group s).gateDepth = 0 ∧ ((j.group s).thread t).depth = 0) = true) :
    (if (j.group s).gateDepth = 0 then j.act.filter fun t => ((j.group s).thread t).depth != 0 else j.act) = [] := by
  have hall : ∀ t ∈ j.act, (j.group s).gateDepth = 0 ∧ ((j.group s).thread t).depth = 0 := fun t ht => of_decide_eq_true (List.all_eq_true.1 h t ht)
  split
  case isTrue => exact List.filter_eq_nil_iff.2 fun t ht => by simp [(hall t ht).2]
  case isFalse hg => exact List.eq_nil_iff_forall_not_mem.2 fun t ht => hg (hall t ht).1

/-- Settles O22: the reads of the table leave the groups, so that what was checked before them still holds. -/
theorem callWords : Obligations.CallWords := by
  intro w v
  simp only [callTable, List.forall_mem_cons]
  refine ⟨?jtab, ?call, ?callRegister, ?callt, ?ret, ?reform, List.forall_mem_nil _⟩
  case jtab =>
    refine word_holds (body := jtabWord) (fun _ => rfl) fun j t h => ?_
    obtain ⟨hent, hv⟩ := Bool.and_eq_true_iff.1 h
    exact (tableWord_of_entriesOk _ hent rfl).trans (goto_of_validAll id hv)
  case call =>
    refine word_holds (body := fun j => callWord (fun _ => relTarget j.x.pc (v.imm.signExtend 64)) j) (fun _ => rfl) fun j t h => ?_
    obtain ⟨hroom, hv⟩ := Bool.and_eq_true_iff.1 h
    rw [relTarget_eq_branchT, callWord_of_room hroom hv]
  case callRegister =>
    refine word_holds (body := callWord fun l => l.a.toNat) (fun _ => rfl) fun j t h => ?_
    obtain ⟨hroom, hv⟩ := Bool.and_eq_true_iff.1 h
    exact callWord_of_room hroom hv
  case callt =>
    refine word_holds (body := calltWord) (fun _ => rfl) fun j t h => ?_
    obtain ⟨h, hv⟩ := Bool.and_eq_true_iff.1 h
    obtain ⟨hroom, hent⟩ := Bool.and_eq_true_iff.1 h
    have hfull := stackFull_of_room hroom
    rw [(entries_memStep j t).job_group] at hfull
    refine (tableWord_of_entriesOk _ hent ?_).trans (callTo_of_room hroom hv)
    rw [hfull]
    rfl
  case ret =>
    refine word_holds (body := retWord) (fun _ => rfl) fun j t h => ?_
    obtain ⟨h, hv⟩ := Bool.and_eq_true_iff.1 h
    obtain ⟨hdeep, hfree⟩ := Bool.and_eq_true_iff.1 h
    exact retWord_of_clean hdeep hfree hv
  case reform =>
    refine word_holds (body := reformWord) (fun _ => rfl) fun j t h => ?_
    obtain ⟨h, hkeys⟩ := Bool.and_eq_true_iff.1 h
    obtain ⟨hent, hflat⟩ := Bool.and_eq_true_iff.1 h
    have hdeep := deep_of_flat hflat
    refine (tableWord_of_entriesOk _ hent ?_).trans ?_
    · dsimp only
      rw [hdeep]
      rfl
    · exact if_neg (Nat.not_lt.2 (of_decide_eq_true hkeys))
open Sys2Proof.Claims

/-! ## Waits and ends of threads (R196, R280 to R282, R357) -/

theorem Group.await_window (g : Group) (t : Nat) (w : Wait) (o n : Nat) : (g.await [t] w).window o n = g.window o n := rfl

theorem waitLane_eq (w : RegWord) (j : Job) (g : Group) (l : LaneSrc) :
    waitLane w j g l =
      let g' := g.await [l.t] (.wait j.x (g.ctx.frame.base + l.a.toNat % 2 ^ 32) (BitVec.ofNat 32 l.b.toNat)
        (if w.imm.toNat = 0 then none else some (j.x.clk + 256 * w.imm.toNat)) false)
      if ofBytes (g'.window (l.a.toNat % 2 ^ 32) 4).1 ≠ l.b.toNat % 2 ^ 32 then g'.endWait l.t ⟨true, 0⟩ else g' := by
  have himm : w.imm.toNat = 0 ↔ w.imm = 0 := by simp [BitVec.toNat_eq]
  unfold waitLane
  simp only [himm, Group.await_window]

section
variable {j : Job} {s : State} {n : Nat} {stores : Bool} {off : LaneSrc → Nat}

/-- Offsets that pass their checks (R46): no lane's fails. -/
theorem find?_windowOk_of_open (h : windowOpen j s n stores off = true) : (j.x.lanes.find? fun l => !(j.group s).windowOk (off l) n) = none := by
  rw [List.find?_eq_none]
  intro l hl
  have hok := List.all_eq_true.1 (Bool.and_eq_true_iff.1 h).1 l hl
  simp [hok]

theorem accs_free_of_open (h : windowOpen j s n stores off = true) :
    (j.x.lanes.map fun l => (⟨off l, n, stores⟩ : WinAcc)).any ((j.group s).accBusy j.x) = false := accs_free (Bool.and_eq_true_iff.1 h).2

theorem filter_window_of_clean (h : windowClean j s n off = true) : (j.x.lanes.filter fun l => ((j.group s).window (off l) n).2) = [] :=
  List.filter_eq_nil_iff.2 fun l hl => by simpa using List.all_eq_true.1 h l hl
end

theorem waitWord_of_open {w : RegWord} {j : Job} {s : State} (hopen : windowOpen j s 4 false (fun l => l.a.toNat % 2 ^ 32) = true)
    (hclean : windowClean j s 4 (fun l => l.a.toNat % 2 ^ 32) = true) :
    waitWord w.imm.toNat j s = j.mod (j.passOthers s) fun g => j.x.lanes.foldl (waitLane w j) g := by
  unfold waitWord
  dsimp only
  rw [find?_windowOk_of_open hopen]
  dsimp only [readAcc]
  simp only [accs_free_of_open hopen, filter_window_of_clean hclean, Bool.false_eq_true, if_false, List.isEmpty_nil, Bool.not_true]
  congr 2
  funext g
  congr 1
  funext g l
  exact (waitLane_eq w j g l).symm

theorem exitWord_of_flat {j : Job} {s : State} (hgate : (j.group s).gateDepth = 0) (hdue : (j.group s).poisonDue = none) : exitWord j s = exited j s := by
  unfold exitWord
  dsimp only
  rw [if_neg (Classical.not_not.2 hgate), hdue]
  rfl

/-- YIELD stops a group whose PREEMPT handler it ends, and only passes in any other (R357, R390). -/
theorem yieldWord_of_no_poison {j : Job} {s : State} (hdue : (j.group s).poisonDue = none) :
    yieldWord j s = if yieldsNow j s then (j.pass s).stopAndSave j.d j.gid false else j.pass s := by
  unfold yieldWord
  dsimp only
  rw [hdue]
  rfl

/-- Settles O23. -/
theorem waitWords : Obligations.WaitWords := by
  intro w
  simp only [waitTable, List.forall_mem_cons]
  refine ⟨?nop, ?fence, ?sleep, ?wait, ?exit, ?yield, ?yieldStop, List.forall_mem_nil _⟩
  case nop => exact word_holds (body := Job.pass) (fun _ => rfl) fun _ _ _ => rfl
  case fence => exact word_holds (body := Job.pass) (fun _ => rfl) fun _ _ _ => rfl
  case sleep => exact word_holds (body := sleepWord) (fun _ => rfl) fun _ _ _ => rfl
  case wait =>
    refine word_holds (body := waitWord w.imm.toNat) (fun _ => rfl) fun j t h => ?_
    obtain ⟨hopen, hclean⟩ := Bool.and_eq_true_iff.1 h
    exact waitWord_of_open hopen hclean
  case exit =>
    refine word_holds (body := exitWord) (fun _ => rfl) fun j t h => ?_
    obtain ⟨hgate, hdue⟩ := Bool.and_eq_true_iff.1 h
    exact exitWord_of_flat (of_decide_eq_true hgate) (Option.isNone_iff_eq_none.1 hdue)
  case yield =>
    refine word_holds (body := yieldWord) (fun _ => rfl) fun j t h => ?_
    obtain ⟨hdue, hnow⟩ := Bool.and_eq_true_iff.1 h
    rw [yieldWord_of_no_poison (Option.isNone_iff_eq_none.1 hdue), if_neg (by simpa using hnow)]
  case yieldStop =>
    refine word_holds (body := yieldWord) (fun _ => rfl) fun j t h => ?_
    obtain ⟨hdue, hnow⟩ := Bool.and_eq_true_iff.1 h
    rw [yieldWord_of_no_poison (Option.isNone_iff_eq_none.1 hdue), if_pos hnow]
end Sys2Proof.Machine
end

section
/-! PROOFS. The issue of a word: the job and the group that its checks leave, threads of a group, and the statements about issue, turns, reset and causes that kill. -/

namespace Sys2Proof.Machine
open Sys2Proof.Claims

/-- The job of a word that issues with its signature, its group after `clearY` and its threads (R190, R211). -/
def issueJob (i : Instr) (f : Fields) (sig : Sig) (d : Nat) (g : Group) (warp : Nat) (ts : List Nat) : Job :=
  let act := ts.filter fun t => (g.thread t).guard f.guard
  ⟨d, g.gid, ⟨i, warp, (g.thread (ts.headD 0)).pc.toNat, if f.lit.isSome then 16 else 8, act.map (g.capture sig f warp),
    g.ctx.tbase, g.ctx.tlen, g.resClk, sig.writes f warp act, 0⟩, ts, sig, f⟩

/-- The check that a word fails when it issues with its signature, its group and its active threads, with the lanes that it names. -/
def issueFault (v : View) (sig : Sig) (g : Group) (warp : Nat) (act : List Nat) : Option (Nat × List Nat) :=
  if (v.bad sig).isSome then some (Cause.illegal, act.map (· % 32))
  else if sig.unallocated v.fields g.ctx.frame.regs (if g.ctx.tilesOk then g.tiles.length else 0) then some (Cause.register, act.map (· % 32))
  else if act.isEmpty then none
  else if !sig.legal then some (Cause.illegal, act.map (· % 32))
  else
    let eaters := act.filter fun t => g.anyBadS (v.scalarSources warp) || g.consumes (v.ownSources sig) v.fields warp t
    if !eaters.isEmpty then some (Cause.poison, eaters.map (· % 32)) else none

/-- What an issue is, from its fault and its job. -/
def issueOf (j : Job) (s : State) : Option (Nat × List Nat) → Issue
  | some (cause, lanes) => .trap j s cause lanes
  | none => if j.act.isEmpty then .skip j s else .run j s

theorem Job.act_issueJob (i : Instr) (f : Fields) (sig : Sig) (d : Nat) (g : Group) (warp : Nat) (ts : List Nat) :
    (issueJob i f sig d g warp ts).act = ts.filter fun t => (g.thread t).guard f.guard := by
  simp only [issueJob, Job.act, List.map_map]
  exact List.map_id _

theorem issueOf_issueFault (j : Job) (s : State) (v : View) (sig : Sig) (g : Group) (warp : Nat) {act : List Nat} (h : j.act = act) :
    issueOf j s (issueFault v sig g warp act) =
      if (v.bad sig).isSome then .trap j s Cause.illegal (act.map (· % 32))
      else if sig.unallocated v.fields g.ctx.frame.regs (if g.ctx.tilesOk then g.tiles.length else 0) then
        .trap j s Cause.register (act.map (· % 32))
      else if act.isEmpty then .skip j s
      else if !sig.legal then .trap j s Cause.illegal (act.map (· % 32))
      else
        let eaters := act.filter fun t => g.anyBadS (v.scalarSources warp) || g.consumes (v.ownSources sig) v.fields warp t
        if !eaters.isEmpty then .trap j s Cause.poison (eaters.map (· % 32)) else .run j s := by
  subst h
  unfold issueFault
  simp only [apply_ite (issueOf j s)]
  by_cases hact : j.act.isEmpty = true
  · simp [hact, issueOf]
  · simp [hact, issueOf]

section
variable (g : Group) (warp : Nat) (ts : List Nat)

/-- What does not read the watchdog's count is the same after the count. -/
theorem Group.watchIssued_congr {β : Type} (φ : Group → β) (h : ∀ c o, φ { g with wdcount := c, wdowed := o } = φ g) :
    φ (g.watchIssued warp ts) = φ g := by
  unfold Group.watchIssued
  dsimp only
  split
  · exact h _ _
  · exact h _ _

@[simp] theorem Group.watchIssued_gid : (g.watchIssued warp ts).gid = g.gid := g.watchIssued_congr warp ts (·.gid) fun _ _ => rfl
@[simp] theorem Group.watchIssued_ctx : (g.watchIssued warp ts).ctx = g.ctx := g.watchIssued_congr warp ts (·.ctx) fun _ _ => rfl
@[simp] theorem Group.watchIssued_tiles : (g.watchIssued warp ts).tiles = g.tiles := g.watchIssued_congr warp ts (·.tiles) fun _ _ => rfl
@[simp] theorem Group.watchIssued_resClk : (g.watchIssued warp ts).resClk = g.resClk :=
  g.watchIssued_congr warp ts (·.resClk) fun _ _ => rfl
@[simp] theorem Group.watchIssued_thread : (g.watchIssued warp ts).thread = g.thread :=
  g.watchIssued_congr warp ts Group.thread fun _ _ => rfl
@[simp] theorem Group.watchIssued_slot64 : (g.watchIssued warp ts).slot64 = g.slot64 :=
  g.watchIssued_congr warp ts Group.slot64 fun _ _ => rfl

theorem Group.watchIssued_readV (t n m : Nat) : (g.watchIssued warp ts).readV t n m = g.readV t n m := by
  induction m generalizing n with
  | zero => rfl
  | succ m ih =>
    have hword : (g.watchIssued warp ts).word ((g.watchIssued warp ts).vWord t n) = g.word (g.vWord t n) :=
      g.watchIssued_congr warp ts (fun h => h.word (h.vWord t n)) fun _ _ => rfl
    rw [Group.readV, Group.readV, hword, ih]

theorem Group.watchIssued_read : (g.watchIssued warp ts).read = g.read := by
  funext w t lit width o
  cases o with
  | v n => exact g.watchIssued_readV warp ts t n.toNat ((width + 31) / 32)
  | _ => exact g.watchIssued_congr warp ts (fun h => h.read w t lit width _) fun _ _ => rfl

@[simp] theorem Group.watchIssued_capture : (g.watchIssued warp ts).capture = g.capture := by
  funext sig f w t
  simp only [Group.capture, Group.readFld, g.watchIssued_read warp ts]

@[simp] theorem Group.watchIssued_consumes : (g.watchIssued warp ts).consumes = g.consumes :=
  g.watchIssued_congr warp ts Group.consumes fun _ _ => rfl
@[simp] theorem Group.watchIssued_anyBadS : (g.watchIssued warp ts).anyBadS = g.anyBadS :=
  g.watchIssued_congr warp ts Group.anyBadS fun _ _ => rfl
end

/-- What `prepare` gives for threads that issue: the word's first failed check, or that it is skipped or has its effect. -/
theorem prepare_of_select {g : Group} {warp t0 : Nat} {more : List Nat} (i : Instr) (v : View) (sigOf : Bool → Sig) (s : State) (d : Nat)
    (h : (g.clearY warp).select warp = t0 :: more) :
    prepare i v sigOf s d g warp =
      let k := g.clearY warp
      let j := issueJob i v.fields (sigOf (k.slot64 i v.fields)) d k warp (t0 :: more)
      issueOf j (s.modGroup d k.gid fun _ => k.watchIssued warp (t0 :: more)) (issueFault v j.sig k warp j.act) := by
  unfold prepare
  simp only [h, Group.watchIssued_gid, Group.watchIssued_ctx, Group.watchIssued_tiles, Group.watchIssued_resClk,
    Group.watchIssued_thread, Group.watchIssued_slot64, Group.watchIssued_capture, Group.watchIssued_consumes, Group.watchIssued_anyBadS,
    Job.act_issueJob]
  exact (issueOf_issueFault _ _ _ _ _ _ (Job.act_issueJob ..)).symm

theorem prepared_of_select {s : State} {g : Group} {t0 : Nat} {more : List Nat} (i : Instr) (v : View) (sigOf : Bool → Sig)
    (hg : (s.die s.cur.d).groupAt s.cur.core s.cur.slot = some g) (h : (g.clearY s.cur.warp).select s.cur.warp = t0 :: more) :
    s.prepared i v sigOf =
      let k := g.clearY s.cur.warp
      let j := issueJob i v.fields (sigOf (k.slot64 i v.fields)) s.cur.d k s.cur.warp (t0 :: more)
      issueOf j (s.modGroup s.cur.d k.gid fun _ => k.watchIssued s.cur.warp (t0 :: more)) (issueFault v j.sig k s.cur.warp j.act) := by
  unfold State.prepared
  rw [hg]
  exact prepare_of_select i v sigOf s s.cur.d h

/-! ## Threads of a group -/

theorem Group.modThreads_nil (g : Group) (f : Thread → Thread) : g.modThreads [] f = g := rfl

theorem Group.modThreads_cons (g : Group) (t : Nat) (ts : List Nat) (f : Thread → Thread) :
    g.modThreads (t :: ts) f = (g.modThread t f).modThreads ts f := rfl

/-- A change of threads changes the group's threads alone. -/
theorem Group.modThreads_eq (g : Group) (ts : List Nat) (f : Thread → Thread) :
    g.modThreads ts f = { g with threads := (g.modThreads ts f).threads } := by
  induction ts generalizing g with
  | nil => rfl
  | cons t ts ih =>
    rw [Group.modThreads_cons, ih]
    rfl

@[simp] theorem Group.modThreads_gid (g : Group) (ts : List Nat) (f : Thread → Thread) : (g.modThreads ts f).gid = g.gid := by
  rw [Group.modThreads_eq]

@[simp] theorem Group.modThreads_ctx (g : Group) (ts : List Nat) (f : Thread → Thread) : (g.modThreads ts f).ctx = g.ctx := by
  rw [Group.modThreads_eq]

@[simp] theorem Group.modThreads_part (g : Group) (ts : List Nat) (f : Thread → Thread) : (g.modThreads ts f).part = g.part := by
  rw [Group.modThreads_eq]

@[simp] theorem Group.modThreads_length (g : Group) (ts : List Nat) (f : Thread → Thread) :
    (g.modThreads ts f).threads.length = g.threads.length := by
  induction ts generalizing g with
  | nil => rfl
  | cons t ts ih => rw [Group.modThreads_cons, ih, Group.modThread_threads, List.length_modify]

theorem Group.thread_modThread (g : Group) (t : Nat) (f : Thread → Thread) (u : Nat) :
    (g.modThread t f).thread u = if t = u ∧ u < g.threads.length then f (g.thread u) else g.thread u := by
  unfold Group.thread
  rw [Group.modThread_threads, List.getD_eq_getElem?_getD, List.getD_eq_getElem?_getD, List.getElem?_modify]
  by_cases hu : u < g.threads.length
  · by_cases ht : t = u
    · simp [ht, hu]
    · simp [ht]
  · simp [hu]

theorem Group.thread_modThreads_of_not_mem {g : Group} {ts : List Nat} {f : Thread → Thread} {u : Nat} (h : u ∉ ts) :
    (g.modThreads ts f).thread u = g.thread u := by
  induction ts generalizing g with
  | nil => rfl
  | cons t ts ih =>
    obtain ⟨ht, hts⟩ := not_or.mp (mt List.mem_cons.mpr h)
    rw [Group.modThreads_cons, ih hts, Group.thread_modThread, if_neg fun h => ht h.1.symm]

/-- What one change keeps of a thread, the changes of many threads keep. -/
theorem Group.thread_modThreads_keeps {g : Group} {ts : List Nat} {f : Thread → Thread} {β : Type} (φ : Thread → β)
    (h : ∀ x, φ (f x) = φ x) (u : Nat) : φ ((g.modThreads ts f).thread u) = φ (g.thread u) := by
  induction ts generalizing g with
  | nil => rfl
  | cons t ts ih =>
    rw [Group.modThreads_cons, ih, Group.thread_modThread]
    split
    · exact h _
    · rfl

/-- A change that done twice is the change done once: each thread of the list is changed. -/
theorem Group.thread_modThreads_of_mem {g : Group} {ts : List Nat} {f : Thread → Thread} (hf : ∀ x, f (f x) = f x) {u : Nat} (h : u ∈ ts)
    (hu : u < g.threads.length) : (g.modThreads ts f).thread u = f (g.thread u) := by
  induction ts generalizing g with
  | nil => cases h
  | cons t ts ih =>
    rw [Group.modThreads_cons]
    by_cases hts : u ∈ ts
    · rw [ih hts (by simpa using hu), Group.thread_modThread]
      split
      · exact hf _
      · rfl
    · have ht : t = u := by simpa [hts, eq_comm] using h
      rw [Group.thread_modThreads_of_not_mem hts, Group.thread_modThread, if_pos ⟨ht, hu⟩]

@[simp] theorem Group.clearY_gid (g : Group) (warp : Nat) : (g.clearY warp).gid = g.gid := by
  unfold Group.clearY
  dsimp only
  split
  · rfl
  · exact Group.modThreads_gid ..

theorem issueOf_eq_run {j k : Job} {s t : State} {o : Option (Nat × List Nat)} (h : issueOf j s o = .run k t) : k = j ∧ t = s := by
  cases o with
  | some x => simp [issueOf] at h
  | none =>
    rw [issueOf] at h
    split at h
    · cases h
    · injection h with hj hs
      exact ⟨hj.symm, hs.symm⟩

/-- Where the checks pass, what they give: the job of the threads that Select names in the warp whose turn it is, and that group with
the word counted by its watchdog. -/
theorem prepared_run {s t : State} {j : Job} {i : Instr} {v : View} {sigOf : Bool → Sig} (h : s.prepared i v sigOf = .run j t) :
    ∃ g t0 more, (s.die s.cur.d).groupAt s.cur.core s.cur.slot = some g
      ∧ j = issueJob i v.fields (sigOf ((g.clearY s.cur.warp).slot64 i v.fields)) s.cur.d (g.clearY s.cur.warp) s.cur.warp (t0 :: more)
      ∧ t = s.modGroup s.cur.d (g.clearY s.cur.warp).gid fun _ => (g.clearY s.cur.warp).watchIssued s.cur.warp (t0 :: more) := by
  cases hg : (s.die s.cur.d).groupAt s.cur.core s.cur.slot with
  | none => simp [State.prepared, hg] at h
  | some g =>
    cases hs : (g.clearY s.cur.warp).select s.cur.warp with
    | nil => simp [State.prepared, prepare, hg, hs] at h
    | cons t0 more =>
      rw [prepared_of_select i v sigOf hg hs] at h
      obtain ⟨hj, ht⟩ := issueOf_eq_run h
      exact ⟨g, t0, more, rfl, hj, ht⟩

/-! ## The group of a job -/

/-- The job's group stands in the state: every group of its die with its name is that group. -/
structure Job.Ready (j : Job) (s : State) : Prop where
  here : j.d < s.dies.length
  stands : ∃ g ∈ (s.die j.d).groups, g.gid = j.gid
  one : ∀ g ∈ (s.die j.d).groups, g.gid = j.gid → g = j.group s

theorem find?_modWhere {gs : List Group} {gid : Nat} {f : Group → Group} (hf : ∀ g, g.gid = gid → (f g).gid = gid) :
    (modWhere (fun g => g.gid == gid) f gs).find? (fun g => g.gid == gid) = (gs.find? fun g => g.gid == gid).map f := by
  induction gs with
  | nil => rfl
  | cons g gs ih =>
    rw [modWhere, List.map_cons, ← modWhere]
    by_cases hg : g.gid = gid
    · simp [hg, hf g hg]
    · simpa [hg] using ih

theorem find?_modWhere_of_ne {gs : List Group} {gid k : Nat} {f : Group → Group} (hf : ∀ g, g.gid = gid → (f g).gid = gid) (hk : k ≠ gid) :
    (modWhere (fun g => g.gid == gid) f gs).find? (fun g => g.gid == k) = gs.find? fun g => g.gid == k := by
  induction gs with
  | nil => rfl
  | cons g gs ih =>
    rw [modWhere, List.map_cons, ← modWhere]
    by_cases hg : g.gid = gid
    · simp [hg, hf g hg, hk.symm, ih]
    · by_cases hgk : g.gid = k
      · simp [hgk, hk]
      · simpa [hg, hgk] using ih

/-- Die `d` after it is changed. -/
theorem State.die_modDie_same {s : State} {d : Nat} (f : Die → Die) (hd : d < s.dies.length) : (s.modDie d f).die d = f (s.die d) := by
  rw [State.die_modDie, if_pos ⟨rfl, hd⟩]

theorem State.group?_modGroup {s : State} {d gid : Nat} {f : Group → Group} (hd : d < s.dies.length)
    (hf : ∀ g, g.gid = gid → (f g).gid = gid) : (s.modGroup d gid f).group? d gid = (s.group? d gid).map f := by
  unfold State.group? State.modGroup
  rw [State.die_modDie_same _ hd]
  exact find?_modWhere hf

namespace Job.Ready
variable {j : Job} {s : State} {f : Group → Group}

theorem group?_eq (h : j.Ready s) : s.group? j.d j.gid = some (j.group s) := by
  obtain ⟨g, hg, hgid⟩ := h.stands
  have hsome : (s.group? j.d j.gid).isSome = true := List.find?_isSome.mpr ⟨g, hg, by simp [hgid]⟩
  obtain ⟨k, hk⟩ := Option.isSome_iff_exists.mp hsome
  rw [Job.group, hk]
  rfl

theorem group_gid (h : j.Ready s) : (j.group s).gid = j.gid := by
  simpa using List.find?_some h.group?_eq

theorem group_mod (h : j.Ready s) (hf : ∀ g, g.gid = j.gid → (f g).gid = j.gid) : j.group (j.mod s f) = f (j.group s) := by
  unfold Job.group Job.mod
  rw [State.group?_modGroup h.here hf, h.group?_eq]
  rfl

theorem die_mod (h : j.Ready s) : (j.mod s f).die j.d = (s.die j.d).modGroup j.gid f := State.die_modDie_same _ h.here

theorem mod (h : j.Ready s) (hf : ∀ g, g.gid = j.gid → (f g).gid = j.gid) : j.Ready (j.mod s f) where
  here := by simpa [Job.mod, State.modGroup, State.modDie] using h.here
  stands := by
    obtain ⟨g, hg, hgid⟩ := h.stands
    rw [h.die_mod]
    exact ⟨f g, List.mem_map.mpr ⟨g, hg, by simp [hgid]⟩, hf g hgid⟩
  one g hg hgid := by
    rw [h.die_mod] at hg
    obtain ⟨k, hk, rfl⟩ := List.mem_map.mp hg
    by_cases hkg : k.gid = j.gid
    · rw [h.group_mod hf, ← h.one k hk hkg]
      simp [hkg]
    · simp [hkg] at hgid

/-- Two changes that agree on the job's group are one change of the state. -/
theorem mod_congr {f' : Group → Group} (h : j.Ready s) (hf : f (j.group s) = f' (j.group s)) : j.mod s f = j.mod s f' := by
  have hgroups : modWhere (fun g => g.gid == j.gid) f (s.die j.d).groups = modWhere (fun g => g.gid == j.gid) f' (s.die j.d).groups := by
    refine List.map_congr_left fun g hg => ?_
    by_cases hgid : g.gid = j.gid
    · simp [h.one g hg hgid, hf]
    · simp [hgid]
  refine State.modDie_congr s j.d _ _ ?_
  unfold Die.modGroup
  rw [hgroups]

/-- The group that a word's checks leave stands in the state that they leave. -/
theorem of_run {s t : State} {j : Job} {i : Instr} {v : View} {sigOf : Bool → Sig} (h : s.prepared i v sigOf = .run j t) : j.Ready t := by
  obtain ⟨g, t0, more, hat, rfl, rfl⟩ := prepared_run h
  have hmem : g ∈ (s.die s.cur.d).groups := List.mem_of_find?_eq_some hat
  have hd : s.cur.d < s.dies.length := by
    refine Decidable.byContradiction fun hd => ?_
    rw [State.die, List.getD_eq_getElem?_getD, List.getElem?_eq_none (by omega)] at hmem
    exact List.not_mem_nil hmem
  generalize hk : g.clearY s.cur.warp = k
  have hkgid : g.gid = k.gid := hk ▸ (Group.clearY_gid ..).symm
  generalize hk' : k.watchIssued s.cur.warp (t0 :: more) = k'
  have hgid : k'.gid = k.gid := hk' ▸ Group.watchIssued_gid ..
  have hdie : (s.modGroup s.cur.d k.gid fun _ => k').die s.cur.d = (s.die s.cur.d).modGroup k.gid fun _ => k' := State.die_modDie_same _ hd
  have hgroup : (s.modGroup s.cur.d k.gid fun _ => k').group? s.cur.d k.gid = some k' := by
    rw [State.group?_modGroup hd fun _ _ => hgid]
    obtain ⟨x, hx⟩ := Option.isSome_iff_exists.mp (List.find?_isSome (p := fun h => h.gid == k.gid).mpr ⟨g, hmem, by simp [hkgid]⟩)
    rw [State.group?, Die.group?, hx]
    rfl
  refine ⟨?here, ⟨k', ?stands, hgid⟩, ?one⟩
  case here => simpa [State.modGroup, State.modDie, issueJob] using hd
  case stands =>
    change k' ∈ ((s.modGroup s.cur.d k.gid fun _ => k').die s.cur.d).groups
    rw [hdie]
    exact List.mem_map.mpr ⟨g, hmem, by simp [hkgid]⟩
  case one =>
    intro x hx hxgid
    change x ∈ ((s.modGroup s.cur.d k.gid fun _ => k').die s.cur.d).groups at hx
    change x.gid = k.gid at hxgid
    rw [hdie] at hx
    obtain ⟨y, hy, rfl⟩ := List.mem_map.mp hx
    have hy' : y.gid = k.gid := by
      refine Decidable.byContradiction fun hne => ?_
      simp [hne] at hxgid
    change _ = ((s.modGroup s.cur.d k.gid fun _ => k').group? s.cur.d k.gid).getD default
    rw [hgroup]
    simp [hy']

end Job.Ready

/-! ## When a word issues -/

/-- The checks of any word are `prepared` with the signature that `sigOf` names. -/
theorem checksOf_eq_prepared (i : Instr) : ∃ i', (∀ s, checksOf i s = s.prepared i' i.view (sigOf i))
    ∧ ∀ (k : Group) f, sigOf i (k.slot64 i' f) = sigOf i (k.slot64 i f) := by
  unfold checksOf sigOf
  cases i.view with
  | pair sop p => exact ⟨default, fun _ => rfl, fun _ _ => rfl⟩
  | _ => exact ⟨i, fun _ => rfl, fun _ _ => rfl⟩

theorem checksOf_of_select {s : State} {g : Group} {t0 : Nat} {more : List Nat} {i : Instr}
    (hg : (s.die s.cur.d).groupAt s.cur.core s.cur.slot = some g) (h : (g.clearY s.cur.warp).select s.cur.warp = t0 :: more) :
    ∃ i', checksOf i s =
      let k := g.clearY s.cur.warp
      let j := issueJob i' i.view.fields (sigOf i (k.slot64 i i.view.fields)) s.cur.d k s.cur.warp (t0 :: more)
      issueOf j (s.modGroup s.cur.d k.gid fun _ => k.watchIssued s.cur.warp (t0 :: more)) (issueFault i.view j.sig k s.cur.warp j.act) := by
  obtain ⟨i', hi, hsig⟩ := checksOf_eq_prepared i
  refine ⟨i', ?_⟩
  rw [hi, prepared_of_select i' i.view (sigOf i) hg h]
  simp only [hsig]

/-- Where every check passes and some thread is active, the word has its effect. -/
theorem issueFault_eq_none {v : View} {sig : Sig} {g : Group} {warp : Nat} {act : List Nat} (hact : act ≠ []) (hbad : v.bad sig = none)
    (hreg : sig.unallocated v.fields g.ctx.frame.regs (if g.ctx.tilesOk then g.tiles.length else 0) = false) (hlegal : sig.legal = true)
    (hs : g.anyBadS (v.scalarSources warp) = false) (hown : ∀ t ∈ act, g.consumes (v.ownSources sig) v.fields warp t = false) :
    issueFault v sig g warp act = none := by
  have heat : (act.filter fun t => g.anyBadS (v.scalarSources warp) || g.consumes (v.ownSources sig) v.fields warp t) = [] :=
    List.filter_eq_nil_iff.mpr fun t ht => by simp [hs, hown t ht]
  unfold issueFault
  simp [hact, hbad, hreg, hlegal, heat]

/-- Settles O10: from what `prepare` gives for threads that issue, when no check fails. -/
theorem wordIssues : Obligations.WordIssues := by
  intro s i g first more hg _ warp h f sig act hsel hact hbad hreg hlegal hs hown
  obtain ⟨i', hi⟩ := checksOf_of_select (i := i) hg hsel
  have hact' : (issueJob i' f sig s.cur.d h warp (first :: more)).act = act := Job.act_issueJob ..
  have hnone : issueFault i.view sig h warp act = none := issueFault_eq_none hact hbad hreg hlegal hs hown
  refine ⟨issueJob i' f sig s.cur.d h warp (first :: more), s.modGroup s.cur.d h.gid fun _ => h.watchIssued warp (first :: more), ?_,
    rfl, Group.clearY_gid .., rfl, rfl, hact', rfl, rfl, rfl, _, rfl⟩
  rw [hi]
  change issueOf _ _ (issueFault i.view sig h warp (issueJob i' f sig s.cur.d h warp (first :: more)).act) = _
  rw [hact', hnone, issueOf, hact', if_neg (by simpa using hact)]

/-! ## Every word is checked -/

/-- A word's step is what its checks give and, where they pass, some effect of its own. -/
theorem exec_eq_perform (i : Instr) (hi : i.view ≠ .step) : ∃ body, ∀ s, exec i s = ((checksOf i s).perform s body).finish := by
  cases i
  all_goals try exact absurd rfl hi
  all_goals exact ⟨_, fun _ => rfl⟩

/-- Settles O11: a word's step performs what its checks give, and each way in which they do not pass has its own effect. -/
theorem everyWordIsChecked : Obligations.EveryWordIsChecked := by
  intro i s hi
  obtain ⟨body, hb⟩ := exec_eq_perform i hi
  rw [hb]
  cases checksOf i s with
  | run j t => trivial
  | idle => rfl
  | skip j t => rfl
  | trap j t cause lanes => rfl

/-! ## Causes that kill (R385, R386) -/

/-- Settles O55: the two branches of `State.precise` that deliver nothing. -/
theorem preciseCauseKills : Obligations.PreciseCauseKills := by
  intro s d gid cause warp lanes pc addr len g hg hcause hwhen
  unfold State.precise
  simp only [hg, if_neg hcause]
  rcases hwhen with ⟨htrap, _⟩ | ⟨htrap, hhandler, hdepth⟩
  · rw [if_pos htrap]
  · rw [htrap, if_neg (by simp), if_pos hhandler, if_pos hdepth]

/-! ## Reset -/

/-- Settles O8: eight dies, whose memories list nothing. -/
theorem resetInv : Obligations.ResetInv := by
  refine ⟨rfl, rfl, fun x hx => ?_⟩
  obtain ⟨n, _, rfl⟩ := List.mem_map.mp hx
  rfl

/-- Settles O9: what `Die.boot` gives each die. -/
theorem resetValues : Obligations.ResetValues := by
  refine ⟨rfl, rfl, rfl, rfl, fun x hx => ?_⟩
  obtain ⟨n, _, rfl⟩ := List.mem_map.mp hx
  exact ⟨rfl, rfl, rfl, rfl, rfl, rfl, rfl, rfl, rfl, rfl, rfl, rfl, rfl, rfl, rfl, rfl, rfl, rfl, rfl, rfl, rfl, rfl, rfl⟩

/-! ## Words that the spec writes out -/

/-- Settles O1: the fourteen words are closed terms. -/
theorem specWordsDecode : Obligations.SpecWordsDecode := by
  unfold Obligations.SpecWordsDecode
  decide +kernel

/-! ## The window -/

/-- The home row and the lane of thread 32 w + l. -/
theorem home_div_mod {w l : Nat} (h : l < 32) : (32 * w + l) / 32 = w ∧ (32 * w + l) % 32 = l := by omega

/-- Settles O59: the home row and the lane of thread 32 w + l are w and l. -/
theorem windowLocations : Obligations.WindowLocations := by
  intro g w l n j hl hbase hj
  obtain ⟨hw, hm⟩ := home_div_mod (w := w) hl
  unfold Group.vWord Group.returnSlot
  rw [hw, hm, Nat.mod_eq_of_lt hj]
  refine ⟨?_, rfl⟩
  omega

open Sys2Proof.Claims

/-! ## A word that a held window load holds back (R47) -/

/-- IADD v3, v4, v5. -/
def addWord : Instr := .iadd ⟨⟨false, 7⟩, 0, .v 3, .v 4, .v 5, .v 0, 0, none⟩

/-- A window load of v3's bytes in row 0, held because its line is absent (R72): no later word writes v3 first (R47). -/
def heldLoad : Wait :=
  .lines ⟨.ldWWin ⟨⟨false, 7⟩, 0, .v 6, .v 1, .v 0, .v 0, 0, none⟩, 0, 0, 8, [⟨32, 384, 0, 0⟩], 0, 0, 0, [.v 0 6], 1⟩ [⟨384, 4, false⟩] []

/-- The group with a thread of a second warp, which waits for that load. -/
def withHeldLoad (g : Group) : Group :=
  { g with warps := 2, threads := g.threads ++ [{ g.thread 0 with warp := some 1, wait := some heldLoad }] }

/-- The state that fetches the addition next, for the first warp of that group. -/
def loadHeld : State := (State.reset.withFetchWord 64 0x1C00030405000000).modDie 0 fun d => { d with groups := d.groups.map withHeldLoad }

/-- The state in which the core of that turn looks for a word. -/
def loadHeldTurn : State := loadHeld.nextTurn.2.resumeCore 0 0

/-- The group whose warp has threads to issue. -/
def loadHeldGroup : Group := ((loadHeldTurn.die 0).groupAt 0 0).getD default

/-- The word's fetch. -/
def loadHeldFetch : FetchedWord × State :=
  loadHeldTurn.fetchWord 0 0 (loadHeldGroup.clearY 0).ctx.pn (((loadHeldGroup.clearY 0).thread 0).pc.toNat)

/-- The PC of thread 0 in what a step answers. -/
def firstPc (o : Host.Outcome State Fault Refusal) : Option DWord :=
  match o with
  | .next s => (s.group? 0 65).map fun g => (g.thread 0).pc
  | _ => none

/-- The state in which the addition would issue. -/
noncomputable def loadHeldIssue : State :=
  { loadHeldFetch.2 with cur := ⟨0, 0, 0, 0⟩ }.modDie 0 fun y => y.modCore 0 fun c =>
    { c.takePort 0 ((addWord.sig ((loadHeldGroup.clearY 0).slot64 addWord addWord.fields)).bankMask addWord.fields) addWord.view.memRow with
      last := (loadHeldGroup.clearY 0).lastWord addWord (List.range 32) }

/-- The step passes no thread over the addition, and the addition passes its threads. -/
theorem loadHeld_waits : firstPc (step loadHeld) ≠ firstPc (settled (exec addWord loadHeldIssue)) := by decide +kernel

/-- The fetch is clean and decodes to the addition, none of whose registers is pending. -/
theorem loadHeld_fetches : loadHeldFetch.1 = .ok 0x1C00030405000000
    ∧ (decodeWords (BitVec.ofNat 64 0x1C00030405000000) (some (BitVec.ofNat 64 (0x1C00030405000000 / 2 ^ 64)))).toOption = some addWord
    ∧ ((Instr.touches addWord (loadHeldGroup.clearY 0) 0 (List.range 32)).any (loadHeldGroup.clearY 0).isPending) = false := by
  decide +kernel

theorem eq_ok_of_toOption {ε α : Type} {x : Except ε α} {a : α} (h : x.toOption = some a) : x = .ok a := by
  cases x with
  | error e => nomatch h
  | ok b => exact congrArg _ (Option.some.inj h)

theorem eq_mk_snd {α β : Type} {p : α × β} {a : α} (h : p.1 = a) : p = (a, p.2) := h ▸ rfl

/-- Refutes O5: the statement leaves out that a word waits for a register which a held window load has still to read (R47). Thread 32
of the second warp waits so for v3 of row 0, which the addition of the first warp is to write: the step issues nothing. -/
theorem not_stepRunsDecoded : ¬ Obligations.StepRunsDecoded := by
  intro h
  obtain ⟨hfetch, hdecode, hpending⟩ := loadHeld_fetches
  have hpair : loadHeldFetch = (.ok 0x1C00030405000000, loadHeldFetch.2) := eq_mk_snd hfetch
  have hstep := h loadHeld loadHeld.nextTurn.2 loadHeldFetch.2 0 0 0 [] (List.range 64).tail loadHeldGroup 0 (List.range 32).tail
    0x1C00030405000000 addWord (by decide +kernel) (by decide +kernel) (by decide +kernel) (by decide +kernel) (by simp)
    (by decide +kernel) (by decide +kernel) hpair (eq_ok_of_toOption hdecode) hpending (by decide +kernel) (by decide +kernel)
  exact loadHeld_waits (congrArg firstPc hstep)

/-! ## A device step on its own turn -/

theorem mayStep_of_free {s : State} {free : Bool} {i : Instr} (hi : i.view = .step) (hasked : free = false ∨ asked i = false)
    (hengine : ∀ d, engineDie i = some d → (s.die d).paused = false) (hunit : ∀ d, unitDie i = some d → (s.die d).stopped = none) :
    s.mayStep free i = true := by
  have hfree : (free && asked i) = false := by
    rcases hasked with h | h
    · rw [h, Bool.false_and]
    · rw [h, Bool.and_false]
  have hpaused : ((engineDie i).any fun d => (s.die d).paused) = false := by
    cases h : engineDie i with
    | none => rfl
    | some d => simpa using hengine d h
  have hstopped : ((unitDie i).any fun d => (s.die d).stopped.isSome) = false := by
    cases h : unitDie i with
    | none => rfl
    | some d => simp [hunit d h]
  simp [State.mayStep, hi, hfree, hpaused, hstopped]

/-- Settles O6: the four tests of `State.mayStep` are the statement's premises. -/
theorem stepRunsDeviceStep : Obligations.StepRunsDeviceStep := by
  intro s u i hturn hi hasked hengine hunit
  have hfree : s.agenda.isEmpty = false ∨ asked i = false := hasked.imp_left fun h => by simpa using h
  simp only [step, hturn, State.turn, if_pos (mayStep_of_free hi hfree hengine hunit)]

end Sys2Proof.Machine
end

section
/-! PROOFS. Loads, stores and atomics of the window and of memory. -/

namespace Sys2Proof.Machine
open Sys2Proof.Claims
theorem widenLoad_eq_widened {n x : Nat} (signed : Bool) (hn : 0 < n) (hn4 : signed = true → n ≤ 4) (hx : x < 2 ^ (8 * n)) :
    widenLoad n signed x = widened n signed x := by
  cases signed with
  | false => simp [widenLoad, widened]
  | true =>
    have hle : 2 ^ (8 * n) ≤ 2 ^ 32 := Nat.pow_le_pow_right (by omega) (by have := hn4 rfl; omega)
    simp only [widenLoad, widened, if_true, true_and]
    rw [BitVec.toNat_signExtend, BitVec.toNat_setWidth, BitVec.toNat_ofNat, Nat.mod_eq_of_lt hx, BitVec.msb_eq_decide,
      BitVec.toNat_ofNat, Nat.mod_eq_of_lt hx, Nat.mod_eq_of_lt (by omega)]
    simp only [decide_eq_true_eq]
    split <;> omega

theorem wrapInt_of_range {w : Nat} {t : Int} (h0 : 0 ≤ t) (h : t < 2 ^ w) : wrapInt w t = t := by
  rw [wrapInt, Int.emod_eq_of_lt h0 h, Int.toNat_of_nonneg h0]

/-! ## Facts that the core library does not name -/

theorem ite_congr_iff {α : Type} {p q : Prop} [Decidable p] [Decidable q] {a b c d : α} (h : p ↔ q) (ha : a = c) (hb : b = d) :
    (if p then a else b) = if q then c else d :=
  ite_congr (propext h) (fun _ => ha) fun _ => hb

theorem foldl_congr_mem {α β : Type} {f f' : β → α → β} {xs : List α} (b : β) (h : ∀ b, ∀ x ∈ xs, f b x = f' b x) : xs.foldl f b = xs.foldl f' b := by
  induction xs generalizing b with
  | nil => rfl
  | cons x xs ih => rw [List.foldl_cons, List.foldl_cons, h b x List.mem_cons_self, ih _ fun b y hy => h b y (List.mem_cons_of_mem x hy)]

theorem getD_eq_getElem_of_lt {α : Type} {xs : List α} {i : Nat} (d : α) (h : i < xs.length) : xs.getD i d = xs[i] := by
  rw [List.getD_eq_getElem?_getD, List.getElem?_eq_getElem h, Option.getD_some]

theorem getD_of_length_le {α : Type} {xs : List α} {i : Nat} (d : α) (h : xs.length ≤ i) : xs.getD i d = d := by
  rw [List.getD_eq_getElem?_getD, List.getElem?_eq_none h, Option.getD_none]

theorem intPow_pos (w : Nat) : (0 : Int) < 2 ^ w := Int.pow_pos (by decide)

theorem intPow_ne_zero (w : Nat) : (2 : Int) ^ w ≠ 0 := Int.ne_of_gt (intPow_pos w)

theorem wrapInt_lt (w : Nat) (t : Int) : wrapInt w t < 2 ^ w := by
  have h := Int.emod_lt_of_pos t (intPow_pos w)
  have h0 := Int.emod_nonneg t (intPow_ne_zero w)
  have hcast : ((2 ^ w : Nat) : Int) = 2 ^ w := Int.natCast_pow 2 w
  unfold wrapInt
  omega

theorem natCast_wrapInt (w : Nat) (t : Int) : (wrapInt w t : Int) = t % 2 ^ w :=
  Int.toNat_of_nonneg (Int.emod_nonneg t (intPow_ne_zero w))

/-- A sum is in the range of AOP's numbers where AOP reads its low bits as the sum. -/
theorem atomNum_wrapInt_eq_iff {w : Nat} (hw : 0 < w) (uns : Bool) (t : Int) :
    atomNum w uns (wrapInt w t) = t ↔ if uns then 0 ≤ t ∧ t < 2 ^ w else -(2 ^ (w - 1)) ≤ t ∧ t < 2 ^ (w - 1) := by
  obtain ⟨k, rfl⟩ : ∃ k, w = k + 1 := ⟨w - 1, by omega⟩
  have hpow : (2 : Int) ^ (k + 1) = 2 * 2 ^ k := by rw [Int.pow_succ, Int.mul_comm]
  have hpos : (0 : Int) < 2 ^ k := intPow_pos k
  have hnat : (wrapInt (k + 1) t < 2 ^ k) ↔ t % 2 ^ (k + 1) < 2 ^ k := by
    have hcast : ((2 ^ k : Nat) : Int) = 2 ^ k := Int.natCast_pow 2 k
    rw [← natCast_wrapInt, ← hcast, Int.ofNat_lt]
  have h0 := Int.emod_nonneg t (intPow_ne_zero (k + 1))
  have hlt := Int.emod_lt_of_pos t (intPow_pos (k + 1))
  have hnonneg : 0 ≤ t → t < 2 ^ (k + 1) → t % 2 ^ (k + 1) = t := Int.emod_eq_of_lt
  have hneg : -2 ^ (k + 1) ≤ t → t < 0 → t % 2 ^ (k + 1) = t + 2 ^ (k + 1) := fun ha hb => by
    rw [← Int.add_emod_right, Int.emod_eq_of_lt (by omega) (by omega)]
  unfold atomNum
  simp only [Nat.add_sub_cancel, hnat, natCast_wrapInt]
  cases uns with
  | true =>
    simp only [true_or, if_true]
    constructor
    · omega
    · exact fun h => hnonneg h.1 h.2
  | false =>
    simp only [Bool.false_eq_true, false_or, if_false]
    constructor
    · split <;> omega
    · rintro ⟨ha, hb⟩
      rcases Decidable.em (t < 0) with ht | ht
      · rw [hneg (by omega) ht, if_neg (by omega)]
        omega
      · rw [hnonneg (Int.not_lt.1 ht) (by omega), if_pos hb]

theorem readInt_eq_atomNum {w x : Nat} (uns : Bool) (hx : x < 2 ^ w) : readInt w uns x = atomNum w uns x := by
  unfold readInt atomNum signedOf
  rw [Nat.mod_eq_of_lt hx]
  cases uns <;> simp

theorem atomNum_nonneg_of_uns (w x : Nat) : 0 ≤ atomNum w true x := by simp [atomNum]

theorem atomicOp_eq_atomNew {w old b c : Nat} (aop : Nat) (uns : Bool) (hw : 0 < w) (ho : old < 2 ^ w) (hb : b < 2 ^ w) (hc : c < 2 ^ w) :
    atomicOp w aop uns old b c = atomNew w aop uns old b c := by
  unfold atomicOp atomNew
  dsimp only
  rw [readInt_eq_atomNum uns ho, readInt_eq_atomNum uns hb, readInt_eq_atomNum uns hc]
  match aop with
  | 8 =>
    rw [readInt_eq_atomNum uns (wrapInt_lt ..)]
    have hsum : 0 ≤ atomNum w true old + atomNum w true b := Int.add_nonneg (atomNum_nonneg_of_uns ..) (atomNum_nonneg_of_uns ..)
    refine ite_congr_iff (and_congr_right fun _ => (atomNum_wrapInt_eq_iff hw uns _).trans ?_) rfl rfl
    cases uns with
    | true => simpa using fun _ => hsum
    | false => rfl
  | 0 | 1 | 2 | 3 | 4 | 5 | 6 | 7 | _ + 9 => rfl

/-! ## The window (R46, R288 to R296) -/

theorem window_length (g : Group) (o n : Nat) : (g.window o n).1.length = n := by simp [Group.window]

theorem ofBytes_window_lt (g : Group) (o n : Nat) : ofBytes (g.window o n).1 < 2 ^ (8 * n) := by
  have h := ofBytes_lt (g.window o n).1
  rwa [window_length, show (256 : Nat) = 2 ^ 8 by rfl, ← Nat.pow_mul] at h

/-- A row holds where the word's body makes its state of the group that the checks leave. -/
theorem word_holds_ready {i : Instr} {body next : Job → State → State} {ok : Job → State → Bool} (hexec : ∀ s, exec i s = issueWord i s body)
    (h : ∀ j t, j.Ready t → ok j t = true → body j t = next j t) : (word i ok next).Holds := by
  intro s j t hrun hok
  calc exec i s = issueWord i s body := hexec s
    _ = .next (body j t) := issueWord_run _ hrun
    _ = .next (next j t) := congrArg Host.Outcome.next (h j t (.of_run hrun) hok)

theorem withWindow_of_open {j : Job} {s : State} {n : Nat} {stores : Bool} {off : LaneSrc → Nat} (h : windowOpen j s n stores off = true)
    (k : State → State) : j.withWindow s n stores off k = k s := by
  unfold Job.withWindow
  dsimp only
  rw [find?_windowOk_of_open h]
  dsimp only
  rw [accs_free_of_open h, if_neg Bool.false_ne_true]

/-- The bytes that a load of the window reads in each lane. -/
def windowReads (j : Job) (g : Group) (n : Nat) : List (Nat × List (Byte × Bool)) :=
  j.x.lanes.map fun l => (l.t, (List.range n).map fun k => g.partByte (g.ctx.frame.base + windowOff j l + k))

theorem deliverLoads_of_clean {j : Job} {s : State} {n : Nat} {signed : Bool} {got : List (Nat × List (Byte × Bool))}
    (h : ∀ r ∈ got, r.2.any (·.2) = false) :
    j.deliverLoads s n signed got = j.pass (j.mod s fun g => (got.foldl (fun g r =>
      g.writeDst j.x.warp r.1 (8 * max n 4) j.f.dst (widenLoad n signed (ofBytes (r.2.map (·.1))))) g).pendClear j.x.dst) := by
  have heat : (got.filter fun r => r.2.any (·.2)) = [] := List.filter_eq_nil_iff.2 fun r hr => by simpa using h r hr
  unfold Job.deliverLoads
  simp only [heat, List.isEmpty_nil, Bool.not_true, Bool.false_eq_true, if_false]

theorem windowReads_clean {j : Job} {s : State} {n : Nat} (h : windowClean j s n (windowOff j) = true) :
    ∀ r ∈ windowReads j (j.group s) n, r.2.any (·.2) = false := by
  intro r hr
  obtain ⟨l, hl, rfl⟩ := List.mem_map.mp hr
  simpa [Group.window] using List.all_eq_true.1 h l hl

theorem loadWin_holds {i : Instr} {n : Nat} {signed : Bool} (hexec : ∀ s, exec i s = issueWord i s (loadWindow n signed)) (hn : 0 < n)
    (hs : signed = true → n ≤ 4) : (loadWin i n signed).Holds := by
  refine word_holds_ready hexec fun j t hready hok => ?_
  obtain ⟨hopen, hclean⟩ := Bool.and_eq_true_iff.1 hok
  have hread : loadWindow n signed j t = j.deliverLoads t n signed (windowReads j (j.group t) n) := withWindow_of_open hopen _
  rw [hread, deliverLoads_of_clean (windowReads_clean hclean)]
  refine congrArg j.pass (hready.mod_congr ?_)
  dsimp only [windowReads]
  rw [List.foldl_map]
  refine congrArg (Group.pendClear · j.x.dst) (foldl_congr_mem _ fun g l _ => ?_)
  exact congrArg (g.writeDst j.x.warp l.t (8 * max n 4) j.f.dst) (widenLoad_eq_widened signed hn hs (ofBytes_window_lt _ (windowOff j l) n))

theorem storeWin_holds {i : Instr} {n : Nat} (hexec : ∀ s, exec i s = issueWord i s (storeWindow n)) : (storeWin i n).Holds :=
  word_holds hexec fun _ _ hok => withWindow_of_open hok _

theorem find?_misaligned {j : Job} {s : State} {n : Nat} {stores : Bool} {off : LaneSrc → Nat} (h : windowOpen j s n stores off = true) :
    (j.x.lanes.find? fun l => off l % n ≠ 0) = none := by
  rw [List.find?_eq_none]
  intro l hl
  have hok := List.all_eq_true.1 (Bool.and_eq_true_iff.1 h).1 l hl
  simp only [Group.windowOk, Bool.and_eq_true, beq_iff_eq] at hok
  simp [hok.1.2]

theorem atomWinLane_eq (w : Nat) (hw : w = 32 ∨ w = 64) (j : Job) (g : Group) (l : LaneSrc) : j.atomWindowLane w g l = atomWinLane w j g l := by
  have hold : ofBytes (g.window (l.a.toNat % 2 ^ 32) (w / 8)).1 < 2 ^ w := by
    have h := ofBytes_window_lt g (l.a.toNat % 2 ^ 32) (w / 8)
    rwa [show 8 * (w / 8) = w by omega] at h
  have hnew : ∀ old, old < 2 ^ w → j.atomic w l old
      = atomNew w (bits j.f.imm 3 0) (bit j.f.imm 7) old (l.b.toNat % 2 ^ w) (l.c.toNat % 2 ^ w) := fun old ho =>
    atomicOp_eq_atomNew _ _ (by omega) ho (Nat.mod_lt _ (Nat.two_pow_pos w)) (Nat.mod_lt _ (Nat.two_pow_pos w))
  unfold Job.atomWindowLane atomWinLane
  dsimp only
  rw [hnew _ hold]
  split
  case h_1 v hv => rw [hv]; rfl
  case h_2 hv => rw [hv]; rfl

theorem atomWin_holds {i : Instr} {w : Nat} (hexec : ∀ s, exec i s = issueWord i s (atomWindow w)) (hw : w = 32 ∨ w = 64) : (atomWin i w).Holds := by
  refine word_holds hexec fun j t hok => ?_
  obtain ⟨hopen, hclean⟩ := Bool.and_eq_true_iff.1 hok
  unfold atomWindow
  dsimp only
  rw [find?_misaligned hopen]
  dsimp only
  rw [withWindow_of_open hopen, filter_window_of_clean hclean, if_neg (by simp)]
  have hlane : j.atomWindowLane w = atomWinLane w j := funext fun g => funext fun l => atomWinLane_eq w hw j g l
  rw [hlane]

/-- Settles O24: the offsets' checks of R46 pass, and each word does what its row says. -/
theorem windowWords : Obligations.WindowWords := by
  intro w
  simp only [windowTable, windowLoads, windowStores, List.cons_append, List.nil_append, List.forall_mem_cons]
  exact ⟨loadWin_holds (fun _ => rfl) (by decide) (by decide), loadWin_holds (fun _ => rfl) (by decide) (by decide),
    loadWin_holds (fun _ => rfl) (by decide) (by decide), loadWin_holds (fun _ => rfl) (by decide) (by decide),
    loadWin_holds (fun _ => rfl) (by decide) (by decide), loadWin_holds (fun _ => rfl) (by decide) (by decide),
    loadWin_holds (fun _ => rfl) (by decide) (by decide), storeWin_holds fun _ => rfl, storeWin_holds fun _ => rfl, storeWin_holds fun _ => rfl,
    storeWin_holds fun _ => rfl, storeWin_holds fun _ => rfl, atomWin_holds (fun _ => rfl) (.inl rfl), atomWin_holds (fun _ => rfl) (.inr rfl),
    List.forall_mem_nil _⟩

open Sys2Proof.Claims

/-! ## The checks of an access (R56, R57) -/

/-- The pages of an access give at most the bytes that lie in them. -/
theorem checkPages_spots_length (d core pn : Nat) (svc : Bool) (acc : Acc) (mustOpen : Bool) (va n k : Nat) (s : State) (a : Nat) :
    (s.checkPages d core pn svc acc mustOpen va n ((List.range k).map fun i => a + i)).1.spots.length
      ≤ min (va + n) ((a + k) * 65536) - max va (a * 65536) := by
  induction k generalizing s a with
  | zero => simp [State.checkPages]
  | succ k ih =>
    have hpages : ((List.range (k + 1)).map fun i => a + i) = a :: (List.range k).map fun i => (a + 1) + i := by
      rw [List.range_succ_eq_map, List.map_cons, List.map_map]
      refine congrArg _ (List.map_congr_left fun i _ => ?_)
      simp only [Function.comp_apply]
      omega
    rw [hpages, State.checkPages]
    obtain ⟨found, s'⟩ := s.lookup d core pn (max va (a * 65536))
    have hrest := ih s' (a + 1)
    cases found with
    | leaf level e loc =>
      simp only [List.length_append, List.length_map, List.length_range]
      omega
    | _ =>
      simp only [List.length_append, List.length_nil]
      omega

theorem checkAccess_spots_length {s t : State} {d core pn : Nat} {ext : ExtTable} {acc : Acc} {x n : Nat} {spots : List Spot} {l1 : Bool}
    (h : s.checkAccess d core pn ext acc x n = (.ok spots l1, t)) : spots.length ≤ n := by
  unfold State.checkAccess at h
  split at h
  · cases h
  dsimp only at h
  split at h
  case h_1 => cases h
  case h_2 i mode _ =>
    split at h
    · cases h
    · injection h with h _
      injection h with h _
      subst h
      exact Nat.le_trans (List.length_filterMap_le ..) (Nat.le_of_eq (List.length_range ..))
  case h_3 mustOpen _ =>
    have hlen := checkPages_spots_length d core pn ((s.die d).service pn) acc mustOpen x n ((x + n - 1) / 65536 + 1 - x / 65536) s (x / 65536)
    split at h
    · cases h
    · cases h
    · injection h with h _
      injection h with h _
      subst h
      exact Nat.le_trans hlen (by omega)

theorem checkLanes_spots_length (d : Nat) (g : Group) (acc : Acc) (n align : Nat) (ls : List (Nat × Nat)) (s : State) :
    ∀ l ∈ (s.checkLanes d g acc n align ls).1.filterMap LaneCheck.ready, l.spots.length ≤ n := by
  induction ls generalizing s with
  | nil => intro l hl; cases hl
  | cons p rest ih =>
    obtain ⟨t, va⟩ := p
    rw [State.checkLanes]
    dsimp only
    intro l hl
    rw [List.filterMap_cons] at hl
    split at hl
    case h_1 => exact ih _ l hl
    case h_2 hready =>
      rcases List.mem_cons.mp hl with rfl | hrest
      · unfold LaneCheck.ready at hready
        dsimp only at hready
        split at hready
        case h_1 spots l1 hgot =>
          injection hready with hready
          subst hready
          split at hgot
          · cases hgot
          · exact checkAccess_spots_length (Prod.ext hgot rfl)
        case h_2 => cases hready
      · exact ih _ l hrest

theorem readSpots_length (s : State) (q : Asking) (spots : List Spot) (l1 : Bool) : (s.readSpots q spots l1).1.length = spots.length := by
  unfold State.readSpots
  split
  · simp [length_toBytes]
  · simp

theorem readAll_length {n : Nat} (q : Asking) (ls : List LaneSpots) (h : ∀ l ∈ ls, l.spots.length ≤ n) (s : State) :
    ∀ r ∈ (s.readAll q ls).1, r.2.length ≤ n := by
  induction ls generalizing s with
  | nil => intro r hr; cases hr
  | cons l rest ih =>
    obtain ⟨hl, hrest⟩ := List.forall_mem_cons.mp h
    rw [State.readAll]
    exact List.forall_mem_cons.mpr ⟨(readSpots_length s q l.spots l.l1).symm ▸ hl, ih hrest _⟩

/-- An access that passes its checks for every lane goes on with its places. -/
theorem withAccess_of_granted {j : Job} {s : State} {acc : Acc} {n align : Nat} {lanes : List LaneSrc} {va : LaneSrc → Nat}
    (h : granted (checked j s acc n align lanes va) = true) (kind : Nat) (k : List LaneSpots → State → State) :
    j.withAccess s acc kind n align (lanes.map fun l => (l.t, va l)) k
      = k (places (checked j s acc n align lanes va)) (checked j s acc n align lanes va).2 := by
  unfold checked places at *
  unfold Job.withAccess
  dsimp only
  generalize s.checkLanes j.d (j.group s) acc n align (lanes.map fun l => (l.t, va l)) = p at *
  have hok : ∀ c ∈ p.1, ∃ spots l1, c.got = .ok spots l1 := fun c hc => by
    have hr := List.all_eq_true.1 h c hc
    unfold LaneCheck.ready at hr
    split at hr
    case h_1 spots l1 hg => exact ⟨spots, l1, hg⟩
    case h_2 => cases hr
  have hhole : p.1.findSome? LaneCheck.hole = none := List.findSome?_eq_none_iff.2 fun c hc => by
    obtain ⟨spots, l1, hg⟩ := hok c hc
    simp [LaneCheck.hole, hg]
  have hcause : ∀ c ∈ p.1, c.cause = 0 := fun c hc => by
    obtain ⟨spots, l1, hg⟩ := hok c hc
    simp [LaneCheck.cause, hg]
  have hbad : (p.1.filter fun c => c.cause != 0 && !parks c.cause) = [] :=
    List.filter_eq_nil_iff.2 fun c hc => by simp [hcause c hc]
  have hparked : (p.1.filter fun c => parks c.cause) = [] := List.filter_eq_nil_iff.2 fun c hc => by rw [hcause c hc]; decide
  rw [hhole, hbad, hparked]
  rfl

/-! ## Irrevocable effects (R169, R170) -/

theorem irrevocable_of_mayTurn {j : Job} {s : State} (h : mayTurn j s = true) (k : State → State) : j.irrevocable s k = k (turned j s) := by
  unfold Job.irrevocable turned
  unfold mayTurn at h
  dsimp only
  cases hn : (s.die j.d).nodeOf (j.group s) with
  | none => rfl
  | some n =>
    rw [hn] at h
    dsimp only at h ⊢
    cases hr : n.revocable with
    | false => rfl
    | true =>
      rw [hr, Bool.not_true, Bool.false_or] at h
      simp [h]

theorem hostChecked_of_mayTurn {j : Job} {s : State} {n : Nat} {ls : List LaneSpots} {also : Bool} (h : (!(also || hostSees j s n ls) || mayTurn j s) = true)
    (k : State → State) : j.hostChecked s n ls also k = k (if also || hostSees j s n ls then turned j s else s) := by
  unfold Job.hostChecked
  dsimp only
  change (if also || hostSees j s n ls then _ else _) = _
  cases hsees : also || hostSees j s n ls with
  | false => rfl
  | true =>
    rw [hsees, Bool.not_true, Bool.false_or] at h
    exact irrevocable_of_mayTurn h k

/-! ## Words of memory -/

theorem loadMem_holds {i : Instr} {w : RegWord} {n : Nat} {signed : Bool} (hexec : ∀ s, exec i s = issueWord i s (loadWord n signed w.mod))
    (hn : 0 < n) (hs : signed = true → n ≤ 4) : (loadMem i w n signed).Holds := by
  refine word_holds hexec fun j t hok => ?_
  obtain ⟨hgranted, hclean⟩ := Bool.and_eq_true_iff.1 hok
  have hread : loadWord n signed w.mod j t = _ := withAccess_of_granted hgranted 0 _
  rw [hread]
  dsimp only
  rw [deliverLoads_of_clean fun r hr => by simpa using List.all_eq_true.1 hclean r hr]
  refine congrArg (fun f => j.pass (j.mod _ f)) (funext fun g => congrArg (Group.pendClear · j.x.dst) (foldl_congr_mem _ fun g r hr => ?_))
  have hlen := readAll_length _ _ (checkLanes_spots_length j.d (j.group t) .load n 1 _ t) _ r hr
  have hlt : ofBytes (r.2.map (·.1)) < 2 ^ (8 * n) := by
    refine Nat.lt_of_lt_of_le (ofBytes_lt _) ?_
    rw [List.length_map, show (256 : Nat) = 2 ^ 8 by rfl, ← Nat.pow_mul]
    exact Nat.pow_le_pow_right (by decide) (by omega)
  exact congrArg (g.writeDst j.x.warp r.1 (8 * max n 4) j.f.dst) (widenLoad_eq_widened signed hn hs hlt)

theorem storeMem_holds {i : Instr} {w : RegWord} {n : Nat} (hexec : ∀ s, exec i s = issueWord i s (storeWord n w.mod)) : (storeMem i w n).Holds := by
  refine word_holds hexec fun j t hok => ?_
  obtain ⟨hgranted, hturn⟩ := Bool.and_eq_true_iff.1 hok
  have hstore : storeWord n w.mod j t = _ := withAccess_of_granted hgranted 1 _
  rw [hstore]
  exact hostChecked_of_mayTurn (by simpa using hturn) _

theorem atomMem_holds {i : Instr} {w : RegWord} {width : Nat} (hexec : ∀ s, exec i s = issueWord i s (atomWord width w.mod)) :
    (atomMem i w width).Holds := by
  refine word_holds hexec fun j t hok => ?_
  obtain ⟨hread, hturn⟩ := Bool.and_eq_true_iff.1 hok
  obtain ⟨hgranted, hclean⟩ := Bool.and_eq_true_iff.1 hread
  unfold atomWord
  dsimp only
  refine (withAccess_of_granted hgranted 2 _).trans ?_
  rw [List.filter_eq_nil_iff.2 fun r hr => by simpa using List.all_eq_true.1 hclean r hr, if_neg (by simp)]
  exact hostChecked_of_mayTurn hturn _

theorem pref_holds (w : RegWord) : (word (.pref w) (fun j _ => j.x.lanes.all fun l => address j l < 2 ^ 60) (prefetched w)).Holds := by
  refine word_holds (fun _ => rfl) fun j t hok => ?_
  have hnone : (j.x.lanes.find? fun l => 2 ^ 60 ≤ j.address l) = none := List.find?_eq_none.2 fun l hl => by
    have h := List.all_eq_true.1 hok l hl
    simpa [address, Job.address, Job.off16] using h
  unfold prefWord
  dsimp only
  rw [hnone]
  rfl

/-- Settles O25: where every lane's access passes its checks, each word goes on with the places that they give. -/
theorem memoryWords : Obligations.MemoryWords := by
  intro w
  simp only [memoryTable, memoryLoads, List.cons_append, List.nil_append, List.forall_mem_cons]
  exact ⟨loadMem_holds (fun _ => rfl) (by decide) (by decide), loadMem_holds (fun _ => rfl) (by decide) (by decide),
    loadMem_holds (fun _ => rfl) (by decide) (by decide), loadMem_holds (fun _ => rfl) (by decide) (by decide),
    loadMem_holds (fun _ => rfl) (by decide) (by decide), loadMem_holds (fun _ => rfl) (by decide) (by decide),
    loadMem_holds (fun _ => rfl) (by decide) (by decide), storeMem_holds fun _ => rfl, storeMem_holds fun _ => rfl, storeMem_holds fun _ => rfl,
    storeMem_holds fun _ => rfl, storeMem_holds fun _ => rfl, atomMem_holds fun _ => rfl, atomMem_holds fun _ => rfl, pref_holds w,
    List.forall_mem_nil _⟩

end Sys2Proof.Machine
end

section
/-! PROOFS. What reads of memory depend on; words on counters, queues, tiles, streams, gates and special registers. -/

namespace Sys2Proof.Machine
open Sys2Proof.Claims

/-! ## What reads of memory depend on -/

theorem Die.liveSlice_congr {d e : Die} (h : e.conf = d.conf) (fuel s : Nat) : e.liveSlice fuel s = d.liveSlice fuel s := by
  induction fuel generalizing s with
  | zero => rfl
  | succ fuel ih =>
    have hoff : e.clusterOffline s = d.clusterOffline s := by unfold Die.clusterOffline Die.physCluster; rw [h]
    have hnum : e.numClusters = d.numClusters := by unfold Die.numClusters; rw [h]
    rw [Die.liveSlice, Die.liveSlice, hoff, hnum, ih]

theorem Die.sliceOf_congr {d e : Die} (h : e.conf = d.conf) : e.sliceOf = d.sliceOf := by
  have hnum : e.numClusters = d.numClusters := by unfold Die.numClusters; rw [h]
  funext t a
  unfold Die.sliceOf
  rw [hnum, Die.liveSlice_congr h]

/-- Two dies hold the same lines and the same sectors. -/
structure Die.SameStore (d e : Die) : Prop where
  conf : e.conf = d.conf
  mem : e.mem = d.mem
  l2 : e.l2 = d.l2
  poisonSec : e.poisonSec = d.poisonSec
  zpend : e.zpend = d.zpend
  poisonPending : e.poisonPending = d.poisonPending

namespace Die.SameStore
variable {d e f : Die}

theorem refl (d : Die) : d.SameStore d := ⟨rfl, rfl, rfl, rfl, rfl, rfl⟩

theorem trans (h : d.SameStore e) (k : e.SameStore f) : d.SameStore f :=
  ⟨k.conf.trans h.conf, k.mem.trans h.mem, k.l2.trans h.l2, k.poisonSec.trans h.poisonSec, k.zpend.trans h.zpend,
    k.poisonPending.trans h.poisonPending⟩

theorem sectorBad (h : d.SameStore e) : e.sectorBad = d.sectorBad := by
  funext sec
  unfold Die.sectorBad Die.channelOffline Die.channelOf Die.numChannels
  rw [h.conf, h.poisonSec, h.poisonPending]

theorem sectorBytes (h : d.SameStore e) : e.sectorBytes = d.sectorBytes := by
  funext sec
  unfold Die.sectorBytes
  rw [h.zpend, h.mem]

theorem aread (h : d.SameStore e) : e.aread = d.aread := by
  funext frame asub afmt b
  unfold Die.aread
  rw [h.sectorBytes, h.sectorBad]

theorem l2Find (h : d.SameStore e) : e.l2Find = d.l2Find := by
  funext r
  unfold Die.l2Find
  rw [h.l2, Die.sliceOf_congr h.conf]

theorem committedByte (h : d.SameStore e) : e.committedByte = d.committedByte := by
  funext r i
  unfold Die.committedByte
  rw [h.l2Find, h.zpend, h.mem, h.sectorBad, h.aread]

theorem byteAt (h : d.SameStore e) : e.byteAt = d.byteAt := by
  funext t a
  unfold Die.byteAt
  rw [h.committedByte]

theorem readAt (h : d.SameStore e) : e.readAt = d.readAt := by
  funext t a n
  unfold Die.readAt
  rw [h.byteAt]

theorem object (h : d.SameStore e) : e.object = d.object := by
  funext o
  unfold Die.object
  rw [h.readAt]

end Die.SameStore

/-- Two dies hold the same lines, sectors and tentative copies. -/
structure Die.SameView (d e : Die) : Prop where
  store : d.SameStore e
  tent : ∀ nid, (e.node? nid).map Node.tent = (d.node? nid).map Node.tent

namespace Die.SameView
variable {d e f : Die}

theorem refl (d : Die) : d.SameView d := ⟨.refl d, fun _ => rfl⟩

theorem trans (h : d.SameView e) (k : e.SameView f) : d.SameView f := ⟨h.store.trans k.store, fun nid => (k.tent nid).trans (h.tent nid)⟩

theorem stagedIs (h : d.SameView e) : e.stagedIs = d.stagedIs := by
  funext t r
  unfold Die.stagedIs
  rw [Die.sliceOf_congr h.store.conf]

theorem stagedOf (h : d.SameView e) : e.stagedOf = d.stagedOf := by
  have key : ∀ (x : Die) nid r, x.stagedOf nid r = ((x.node? nid).map Node.tent).bind fun ts => ts.find? fun t => x.stagedIs t r := fun x nid r => by
    unfold Die.stagedOf
    cases x.node? nid <;> rfl
  funext nid r
  rw [key, key, h.tent, h.stagedIs]

theorem unstaged (h : d.SameView e) : e.unstaged = d.unstaged := by
  have hplace : e.placeAddr = d.placeAddr := by
    funext k
    unfold Die.placeAddr Die.stagingBase Die.memTop Die.numChannels
    rw [h.store.conf]
  funext nid t
  unfold Die.unstaged
  rw [h.store.byteAt, hplace, Die.sliceOf_congr h.store.conf]

theorem tentOf (h : d.SameView e) : e.tentOf = d.tentOf := by
  funext nid r
  unfold Die.tentOf Die.copyIn
  rw [h.store.l2, Die.sliceOf_congr h.store.conf, h.stagedOf, h.unstaged]

theorem copyData (h : d.SameView e) : e.copyData = d.copyData := by
  funext r t
  unfold Die.copyData
  rw [h.store.committedByte]

theorem seenByte (h : d.SameView e) : e.seenByte = d.seenByte := by
  funext nid r i
  unfold Die.seenByte
  rw [h.tentOf, h.copyData, h.store.committedByte]

theorem lineByte (h : d.SameView e) (nid : Nat) (r : LineRef) (i : Nat) : lineByte e nid r i = lineByte d nid r i := by
  unfold Claims.lineByte
  rw [h.seenByte]

end Die.SameView

open Sys2Proof.Claims

/-! ## Objects (R300) -/

theorem withObject_of_ready {j : Job} {s : State} {va : Nat} {level lvl : Nat → Bool} (h : objectReady level j s va = true) (hl : lvl = level)
    (k : ObjRef → State → State) : j.withObject s va lvl k = k (objectOf j s va) (objectState j s va) := by
  subst hl
  simp only [objectReady, Bool.and_eq_true, decide_eq_true_eq, beq_iff_eq, Bool.not_eq_true'] at h
  obtain ⟨⟨⟨⟨⟨hva, halign⟩, hgranted⟩, hfound⟩, hclean⟩, hlevel⟩ := h
  unfold Job.withObject
  rw [if_neg (by omega)]
  rw [withAccess_of_granted (va := fun _ => va) hgranted]
  obtain ⟨o, ho⟩ := Option.isSome_iff_exists.mp hfound
  have hof : objectOf j s va = o := by rw [objectOf, ho]; rfl
  have hspots : ∃ r off more, ((places (objectChecks j s va)).headD default).spots = .line r off :: more ∧ o = ⟨r.attr, r.addr + off⟩ := by
    unfold objectFound at ho
    cases hp : places (objectChecks j s va) with
    | nil => rw [hp] at ho; cases ho
    | cons l ls =>
      rw [hp, List.map_cons] at ho
      split at ho
      case h_1 r off more _ heq =>
        injection heq with hl _
        exact ⟨r, off, more, hl, (Option.some.inj ho).symm⟩
      case h_2 => cases ho
  obtain ⟨r, off, more, hr, rfl⟩ := hspots
  change (match ((places (objectChecks j s va)).headD default).spots with
    | .line r off :: _ => _
    | _ => _) = _
  rw [hr]
  dsimp only
  have hstate : objectState j s va = (checked j s .object 32 1 j.x.lanes fun _ => va).2.modDie j.d fun x => (x.fetchAt r.attr (r.addr + off) 32).2 := by
    rw [objectState, hof]
    rfl
  have hlvl : lvl (cLevel (((objectState j s va).die j.d).object ⟨r.attr, r.addr + off⟩)) = true := by
    rw [← hof]
    exact hlevel
  rw [hof] at hclean ⊢
  rw [← hstate, hclean, if_neg Bool.false_ne_true, if_pos hlvl]

theorem Die.belayLog_sameStore (d : Die) (e : LogEntry) : d.SameStore (d.belayLog e) := by
  unfold Die.belayLog
  split
  · exact .refl d
  · exact ⟨rfl, rfl, rfl, rfl, rfl, rfl⟩

theorem Die.turnIrrevocable_sameStore (d : Die) (nid : Nat) : d.SameStore (d.turnIrrevocable nid) :=
  Die.SameStore.trans (e := d.modNode nid _) ⟨rfl, rfl, rfl, rfl, rfl, rfl⟩ (Die.belayLog_sameStore ..)

/-- Turning irrevocable changes no byte of the die. -/
theorem turned_sameStore (j : Job) (s : State) (d : Nat) : (s.die d).SameStore ((turned j s).die d) := by
  unfold turned
  split
  · exact .refl _
  · split
    · rw [State.die_modDie]
      split
      case isTrue h => exact h.1 ▸ Die.turnIrrevocable_sameStore ..
      case isFalse => exact .refl _
    · exact .refl _

/-- An object that is ready, and whose effect takes place at once. -/
theorem withObject_of_turn {j : Job} {s : State} {va : Nat} {level lvl : Nat → Bool} (h : objectTurn level j s va = true) (hl : lvl = level)
    (k : ObjRef → State → State) :
    (j.withObject s va lvl fun o t => j.irrevocable t (k o)) = k (objectOf j s va) (objectTurned j s va) := by
  obtain ⟨hready, hturn⟩ := Bool.and_eq_true_iff.1 h
  rw [withObject_of_ready hready hl]
  exact irrevocable_of_mayTurn hturn _

theorem object_objectTurned (j : Job) (s : State) (va : Nat) :
    ((objectTurned j s va).die j.d).object (objectOf j s va) = objectNow j s va := by
  rw [objectTurned, (turned_sameStore j (objectState j s va) j.d).object]
  rfl

theorem toNat_mul_eq_ite (b : Bool) (k : Nat) : b.toNat * k = if b then k else 0 := by
  cases b with
  | false => exact Nat.zero_mul k
  | true => exact Nat.one_mul k

theorem initBad_iff (lvl t p n : Nat) : ((lvl == 0 && t == 0) || (lvl != 0 && (decide (n ≤ p) || p % 32 != 0))) = true
    ↔ (if lvl = 0 then t != 0 else decide (p < n) && p % 32 == 0) = false := by
  by_cases hl : lvl = 0
  · simp [hl]
  · rw [if_neg hl, beq_eq_false_iff_ne.mpr hl, bne_iff_ne.mpr hl, Bool.false_and, Bool.false_or, Bool.true_and]
    simp only [Bool.and_eq_false_iff, decide_eq_false_iff_not, Nat.not_lt, Bool.or_eq_true, decide_eq_true_eq, bne_iff_ne, beq_eq_false_iff_ne]

/-- CINIT's decision from what the rows say of it (R302). -/
theorem cinit_eq (k lvl t p : Nat) (waited : Bool) :
    cinit k lvl t p waited =
      if (counterLevel (bits k 138 136) && bits k 159 144 != 0) || (bits k 138 136 == 0 && (bits k 31 0 != 0 || waited)) then (St.busy, none)
      else if (if lvl = 0 then t != 0 else p < 2 ^ 60 && p % 32 == 0) = false then (St.malformed, none)
      else (St.ok, some (if lvl = 0 then t * 2 ^ 32 else t * 2 ^ 32 + p * 2 ^ 64 + lvl * 2 ^ 136 + (if t = 0 then 2 ^ 139 else 0))) := by
  unfold cinit
  dsimp only [cLevel, cPend, bArrived]
  refine ite_congr_iff Iff.rfl rfl (ite_congr_iff (initBad_iff lvl t p (2 ^ 60)) rfl ?_)
  by_cases hl : lvl = 0
  · rw [if_pos hl, if_pos hl]
  · rw [if_neg hl, if_neg hl, toNat_mul_eq_ite]
    simp only [beq_iff_eq]

theorem inUse_eq (j : Job) (s : State) : inUse j s =
    ((counterLevel (bits (objectNow j s j.a) 138 136) && bits (objectNow j s j.a) 159 144 != 0)
      || (bits (objectNow j s j.a) 138 136 == 0
        && (bits (objectNow j s j.a) 31 0 != 0 || ((objectTurned j s j.a).die j.d).objWaited (objectOf j s j.a)))) := rfl

theorem initOk_eq (j : Job) : initOk j = (if j.f.imm % 8 = 0 then j.b % 2 ^ 32 != 0 else j.c < 2 ^ 60 && j.c % 32 == 0) := rfl

/-- What CINIT does with an object that it may work on. -/
theorem cinitWord_of_turn {j : Job} {s : State} (h : objectTurn (fun _ => true) j s j.a = true) :
    cinitWord j s =
      if inUse j s then j.result (objectTurned j s j.a) St.busy
      else if initOk j = false then j.result (objectTurned j s j.a) St.malformed
      else j.result ((objectTurned j s j.a).modDie j.d fun x => (x.putObject (objectOf j s j.a) (newObject j)).wakeDone (objectOf j s j.a)) St.ok := by
  unfold cinitWord
  rw [withObject_of_turn h rfl]
  dsimp only
  rw [object_objectTurned, cinit_eq, ← inUse_eq, ← initOk_eq]
  cases inUse j s with
  | true => rfl
  | false =>
    cases initOk j with
    | false => rfl
    | true => rfl

theorem cwaitWord_toNat (k : Nat) : (cwaitWord k false).toNat = waitResult k := by
  have hs : bits k 135 128 < 2 ^ 8 := bits_lt ..
  have hd := Bool.toNat_le (cDone k)
  have hc := Bool.toNat_le (cCanc k)
  unfold cwaitWord waitResult
  rw [BitVec.toNat_ofNat, Nat.mod_eq_of_lt]
  · simp [cStatus, cDone, cCanc]
  · simp only [cStatus, Bool.toNat_false]
    omega

/-- CWAIT where the counter is ready: it passes with its result word, or waits (R304). -/
theorem cwaitWord_of_ready {j : Job} {s : State} (limit : Job → Nat) (h : objectReady counterLevel j s j.a = true) :
    cwaitWord' limit j s =
      if waitEnds (objectNow j s j.a) then j.result (objectState j s j.a) (waitResult (objectNow j s j.a)) else waitsCounter (limit j) j s := by
  unfold cwaitWord'
  rw [withObject_of_ready (lvl := isCounter) h rfl]
  dsimp only
  rw [cwaitWord_toNat]
  rfl

theorem prefRangeWord_of_room {j : Job} {s : State} (hrange : rangeOk j = true) (hc : j.c = 0) (hroom : prefetchRoom j s = true) :
    prefRangeWord j s = j.enterPrefetch s := by
  have hrange : j.a < 2 ^ 60 ∧ j.a + j.b ≤ 2 ^ 60 := by simpa [rangeOk] using hrange
  have hroom : ((s.die j.d).core (j.group s).core).prefetches.length < 16 := by simpa [prefetchRoom] using hroom
  unfold prefRangeWord
  rw [if_neg (by omega)]
  dsimp only
  rw [if_pos hc, if_neg (by omega)]

theorem prefRangeWord_of_counter {j : Job} {s : State} (hrange : rangeOk j = true) (hc : j.c ≠ 0) (hready : objectReady counterLevel j s j.c = true)
    (hroom : prefetchRoom j (prefetchDue j s) = true) : prefRangeWord j s = j.enterPrefetch (prefetchDue j s) := by
  have hrange : j.a < 2 ^ 60 ∧ j.a + j.b ≤ 2 ^ 60 := by simpa [rangeOk] using hrange
  have hroom : (((prefetchDue j s).die j.d).core (j.group (prefetchDue j s)).core).prefetches.length < 16 := by simpa [prefetchRoom] using hroom
  unfold prefRangeWord
  rw [if_neg (by omega)]
  dsimp only
  rw [if_neg hc, withObject_of_ready (lvl := isCounter) hready rfl]
  exact if_neg (Nat.not_le.mpr hroom)

/-- Settles O26: each word by what it does where its object is ready. -/
theorem counterWords : Obligations.CounterWords := by
  intro w v
  simp only [counterTable, List.forall_mem_cons]
  refine ⟨?busy, ?malformed, ?init, ?cadd, ?caddWide, ?cwaitEnds, ?cwaitWaits, ?limitEnds, ?limitWaits, ?cancel, ?pref, ?prefCounter,
    ?bar, ?barCount, ?barObject, ?barObjectArrive, List.forall_mem_nil _⟩
  case busy =>
    refine word_holds (fun _ => rfl) fun j t hok => ?_
    obtain ⟨hturn, huse⟩ := Bool.and_eq_true_iff.1 hok
    rw [cinitWord_of_turn hturn, if_pos huse]
  case malformed =>
    refine word_holds (fun _ => rfl) fun j t hok => ?_
    obtain ⟨hready, hbad⟩ := Bool.and_eq_true_iff.1 hok
    obtain ⟨hturn, huse⟩ := Bool.and_eq_true_iff.1 hready
    rw [cinitWord_of_turn hturn, if_neg (by simpa using huse), if_pos (by simpa using hbad)]
  case init =>
    refine word_holds (fun _ => rfl) fun j t hok => ?_
    obtain ⟨hready, hgood⟩ := Bool.and_eq_true_iff.1 hok
    obtain ⟨hturn, huse⟩ := Bool.and_eq_true_iff.1 hready
    rw [cinitWord_of_turn hturn, if_neg (by simpa using huse), if_neg (by simpa using hgood)]
  case cadd => exact word_holds (fun _ => rfl) fun j t hok => withObject_of_turn hok rfl _
  case caddWide => exact word_holds (fun _ => rfl) fun j t hok => withObject_of_turn hok rfl _
  case cwaitEnds =>
    refine word_holds (fun _ => rfl) fun j t hok => ?_
    obtain ⟨hready, hends⟩ := Bool.and_eq_true_iff.1 hok
    rw [cwaitWord_of_ready _ hready, if_pos hends]
  case cwaitWaits =>
    refine word_holds (fun _ => rfl) fun j t hok => ?_
    obtain ⟨hready, hends⟩ := Bool.and_eq_true_iff.1 hok
    rw [cwaitWord_of_ready _ hready, if_neg (by simpa using hends)]
  case limitEnds =>
    refine word_holds (fun _ => rfl) fun j t hok => ?_
    obtain ⟨hready, hends⟩ := Bool.and_eq_true_iff.1 hok
    rw [cwaitWord_of_ready _ hready, if_pos hends]
  case limitWaits =>
    refine word_holds (fun _ => rfl) fun j t hok => ?_
    obtain ⟨hready, hends⟩ := Bool.and_eq_true_iff.1 hok
    rw [cwaitWord_of_ready _ hready, if_neg (by simpa using hends)]
  case cancel => exact word_holds (fun _ => rfl) fun j t hok => withObject_of_turn hok rfl _
  case pref =>
    refine word_holds (fun _ => rfl) fun j t hok => ?_
    simp only [Bool.and_eq_true, decide_eq_true_eq] at hok
    exact prefRangeWord_of_room hok.1.1 hok.1.2 hok.2
  case prefCounter =>
    refine word_holds (fun _ => rfl) fun j t hok => ?_
    simp only [Bool.and_eq_true, decide_eq_true_eq] at hok
    obtain ⟨⟨⟨hrange, hc⟩, hready⟩, hroom⟩ := hok
    exact prefRangeWord_of_counter hrange hc hready hroom
  case bar => exact word_holds (fun _ => rfl) fun _ _ _ => rfl
  case barCount => exact word_holds (fun _ => rfl) fun _ _ _ => rfl
  case barObject => exact word_holds (fun _ => rfl) fun _ _ _ => rfl
  case barObjectArrive => exact word_holds (fun _ => rfl) fun _ _ _ => rfl

open Sys2Proof.Claims

/-! ## Queue words (R309 to R319) -/

theorem queueStatus_eq_statusNow (st : Nat) (j : Job) (s : State) : j.queueStatus s st = statusNow st j s := by
  unfold Job.queueStatus statusNow queueWord
  simp

theorem readsWindow_of_windowFree {j : Job} {s : State} {accs : List WinAcc} (h : windowFree j s accs = true) (k : State → State) :
    j.readsWindow s accs k = k s := by
  unfold Job.readsWindow
  rw [accs_free h, if_neg Bool.false_ne_true]

/-- A word on a handle that sends, or answers NAME (R313). -/
theorem sendRows_hold {i : Instr} {kind : Job → OutKind} (hexec : ∀ s, exec i s = issueWord i s (qcancelWord kind)) :
    ∀ c ∈ sendRows i kind, c.Holds := by
  simp only [sendRows, List.forall_mem_cons]
  refine ⟨?unbound, ?bound, List.forall_mem_nil _⟩
  case unbound =>
    refine word_holds hexec fun j t hok => ?_
    exact (if_pos hok).trans (queueStatus_eq_statusNow ..)
  case bound =>
    refine word_holds hexec fun j t hok => ?_
    exact if_neg (by simpa [handleOf] using hok)

theorem qputWord_of_unbound {j : Job} {s : State} (h : (handleOf j s j.f.sa).bound = false) : qputWord j s = statusNow St.name j s := by
  unfold qputWord
  dsimp only
  rw [← queueStatus_eq_statusNow]
  exact if_pos (by simpa [handleOf] using h)

theorem qputWord_of_no_rights {j : Job} {s : State} (hb : (handleOf j s j.f.sa).bound = true) (hz : (handleOf j s j.f.sa).esize = 0) :
    qputWord j s = statusNow St.rights j s := by
  unfold handleOf at hb hz
  unfold qputWord
  dsimp only
  rw [hb, hz, ← queueStatus_eq_statusNow]
  rfl

theorem qputWord_of_granted {j : Job} {s : State} (hb : (handleOf j s j.f.sa).bound = true) (hz : (handleOf j s j.f.sa).esize ≠ 0)
    (ha : putAligned j s = true) (hm : mayTurn j s = true)
    (hf : windowFree j (turned j s) [readAcc (j.c % 2 ^ 32) (2 ^ (handleOf j s j.f.sa).esize)] = true) :
    qputWord j s =
      let g := j.group (turned j s)
      let at_ := g.ctx.frame.base + j.c % 2 ^ 32
      let n := 2 ^ (handleOf j s j.f.sa).esize
      j.outbound (turned j s) (handleNo j.f.sa) (.put (j.b % 2 ^ 48) (g.partBytes at_ n) (g.badWords at_ n)) := by
  have ha : j.c % 2 ^ 32 % min (2 ^ (handleOf j s j.f.sa).esize) 64 = 0 ∧ j.c % 2 ^ 32 + 2 ^ (handleOf j s j.f.sa).esize ≤ (j.group s).top := by
    simpa [putAligned] using ha
  unfold handleOf at *
  unfold qputWord
  dsimp only
  rw [hb, Bool.not_true, if_neg Bool.false_ne_true, if_neg hz, if_neg (not_or.mpr ⟨Classical.not_not.mpr ha.1, Nat.not_lt.mpr ha.2⟩), irrevocable_of_mayTurn hm]
  exact readsWindow_of_windowFree hf _

theorem deqWord_of_unbound {j : Job} {s : State} (wait : Bool) (h : (handleOf j s j.f.sa).bound = false) : deqWord wait j s = statusNow St.name j s := by
  unfold deqWord
  dsimp only
  rw [← queueStatus_eq_statusNow]
  exact if_pos (by simpa [handleOf] using h)

theorem deqWord_of_range {j : Job} {s : State} (wait : Bool) (hb : (handleOf j s j.f.sa).bound = true) (hr : dequeueRange j s = true) :
    deqWord wait j s =
      if wait && (s.die j.d).waitOut j.gid j.x.warp then j.wait s (.qwaitBusy j.x)
      else if wait then j.irrevocable s (j.dequeue · true)
      else j.dequeue s false := by
  have hr : (j.x.deqOff % 64 = 0 ∧ (j.group s).b1 ≤ j.x.deqOff) ∧ j.x.deqOff + j.x.deqSize ≤ (j.group s).b2 := by
    simpa [dequeueRange, Issued.deqSize] using hr
  unfold handleOf at hb
  unfold deqWord
  dsimp only
  rw [hb, Bool.not_true, if_neg Bool.false_ne_true, if_neg (by omega)]

theorem add_reverse (a b c d e : Nat) : a + b + c + d + e = e + d + c + b + a := by omega

theorem qstat_eq_handleStatus (j : Job) (s : State) : (j.group s).qstat (handleNo j.f.sa) = handleStatus j s := by
  unfold Group.qstat handleStatus handleOf
  dsimp only
  rw [toNat_mul_eq_ite, toNat_mul_eq_ite]
  exact add_reverse ..

theorem launchWord_of_ready {j : Job} {s : State} (queue : Bool) (h : launchReady j s = true) : launchWord queue j s = j.appendLaunch (turned j s) queue := by
  simp only [launchReady, recordRange, Bool.and_eq_true, decide_eq_true_eq, beq_iff_eq] at h
  obtain ⟨⟨⟨⟨⟨halign, hlow⟩, hhigh⟩, hroom⟩, hturn⟩, hfree⟩ := h
  unfold launchWord
  dsimp only
  rw [if_neg (by omega), if_neg (Nat.not_le.mpr hroom), irrevocable_of_mayTurn hturn]
  exact readsWindow_of_windowFree hfree _

/-- Settles O27: each word by what it does where its handle or its record is ready. -/
theorem queueWords : Obligations.QueueWords := by
  intro w v
  simp only [queueTable, List.cons_append, List.nil_append, List.append_assoc, List.forall_mem_cons, List.forall_mem_append]
  refine ⟨?qbind, ?putUnbound, ?putRights, ?put, ?getUnbound, ?get, ?waitUnbound, ?wait, ?qstat, ?launch, ?launchQueue,
    sendRows_hold fun _ => rfl, sendRows_hold fun _ => rfl, sendRows_hold fun _ => rfl, sendRows_hold fun _ => rfl⟩
  case qbind => exact word_holds (fun _ => rfl) fun _ _ _ => rfl
  case putUnbound => exact word_holds (fun _ => rfl) fun j t hok => qputWord_of_unbound (by simpa using hok)
  case putRights =>
    refine word_holds (fun _ => rfl) fun j t hok => ?_
    simp only [Bool.and_eq_true, beq_iff_eq] at hok
    exact qputWord_of_no_rights hok.1 hok.2
  case put =>
    refine word_holds (fun _ => rfl) fun j t hok => ?_
    simp only [Bool.and_eq_true, bne_iff_ne] at hok
    obtain ⟨⟨⟨⟨hb, hz⟩, ha⟩, hm⟩, hf⟩ := hok
    exact qputWord_of_granted hb hz ha hm hf
  case getUnbound => exact word_holds (fun _ => rfl) fun j t hok => deqWord_of_unbound false (by simpa using hok)
  case get =>
    refine word_holds (fun _ => rfl) fun j t hok => ?_
    obtain ⟨hb, hr⟩ := Bool.and_eq_true_iff.1 hok
    exact deqWord_of_range false hb hr
  case waitUnbound => exact word_holds (fun _ => rfl) fun j t hok => deqWord_of_unbound true (by simpa using hok)
  case wait =>
    refine word_holds (fun _ => rfl) fun j t hok => ?_
    simp only [Bool.and_eq_true, Bool.not_eq_true'] at hok
    obtain ⟨⟨⟨hb, hr⟩, hw⟩, hm⟩ := hok
    rw [deqWord_of_range true hb hr, hw, Bool.and_false, if_neg Bool.false_ne_true, if_pos rfl]
    exact irrevocable_of_mayTurn hm _
  case qstat => exact word_holds (fun _ => rfl) fun j t _ => congrArg (j.result t) (qstat_eq_handleStatus j t)
  case launch => exact word_holds (fun _ => rfl) fun j t hok => launchWord_of_ready false hok
  case launchQueue => exact word_holds (fun _ => rfl) fun j t hok => launchWord_of_ready true hok

open Sys2Proof.Claims

/-! ## Tile words (R321 to R336) -/

theorem matrixWord_ok (v : Nat) : matrixWord St.ok v = v := by simp [matrixWord, St.ok]

/-- A matrix operation is posted where the table has room (R323). -/
theorem post_of_room {j : Job} {s : State} (h : tableRoom j s = true) (op : MatOp) : j.post s op = posted j s op := by
  have h : ((s.die j.d).cluster ((s.die j.d).clusterFor (j.group s))).table.length < 16 := of_decide_eq_true h
  unfold Job.post posted
  dsimp only
  rw [if_neg (Nat.not_le.mpr h), matrixWord_ok]
  rfl

theorem readsWindow_desc {j : Job} {s : State} (h : descReady j s = true) :
    (j.c % 2 ^ 32 % 64 = 0 ∧ j.c % 2 ^ 32 + 64 ≤ (j.group s).top) ∧ (∀ k, j.readsWindow s [readAcc (j.c % 2 ^ 32) 64] k = k s)
      ∧ ((j.group s).window (j.c % 2 ^ 32) 64).2 = false := by
  simp only [descReady, Bool.and_eq_true, decide_eq_true_eq, beq_iff_eq, Bool.not_eq_true'] at h
  obtain ⟨⟨halign, hfree⟩, hclean⟩ := h
  exact ⟨halign, fun k => readsWindow_of_windowFree hfree k, hclean⟩

/-- MLOOP whose descriptor is read and whose spans are in their extents (R325 to R328). -/
theorem mloopWord_of_ready {k : Nat} {n : Job → Nat} {j : Job} {s : State} (hdesc : descReady j s = true) (hspans : spansOk k (n j) j s = true) :
    mloopWord k n j s =
      if descOk (ofBytes (descOf j s)) k = false ∨ 2 ^ 20 ≤ n j then j.result s (St.malformed * 2 ^ 16 + (tileOf j s).issued)
      else j.post s (.mloop (n j % 2 ^ 20) (descOf j s)) := by
  obtain ⟨⟨halign, htop⟩, hread, hclean⟩ := readsWindow_desc hdesc
  have hspans := Option.isNone_iff_eq_none.1 hspans
  unfold descOf at *
  unfold mloopWord
  dsimp only
  rw [if_neg (by omega), hread, hclean, if_neg Bool.false_ne_true, hspans]
  exact ite_congr_iff (or_congr_left (by rw [Bool.not_eq_true'])) rfl rfl

theorem mloopRows_hold {i : Instr} {k : Nat} {n : Job → Nat} (hexec : ∀ s, exec i s = issueWord i s (mloopWord k n)) :
    ∀ c ∈ mloopRows i k n, c.Holds := by
  simp only [mloopRows, List.forall_mem_cons]
  refine ⟨?posts, ?malformed, List.forall_mem_nil _⟩
  case posts =>
    refine word_holds hexec fun j t hok => ?_
    simp only [Bool.and_eq_true, decide_eq_true_eq] at hok
    obtain ⟨⟨⟨hdesc, hspans⟩, hgood, hn⟩, hroom⟩ := hok
    rw [mloopWord_of_ready hdesc hspans, if_neg (not_or.mpr ⟨by simp [hgood], Nat.not_le.mpr hn⟩), post_of_room hroom, Nat.mod_eq_of_lt hn]
  case malformed =>
    refine word_holds hexec fun j t hok => ?_
    simp only [Bool.and_eq_true, Bool.not_eq_true', Bool.and_eq_false_iff, decide_eq_false_iff_not, Nat.not_lt] at hok
    obtain ⟨⟨hdesc, hspans⟩, hbad⟩ := hok
    rw [mloopWord_of_ready hdesc hspans, if_pos hbad]

theorem withRows_of_rowsOk {acc : Acc} {win : Bool} {z : Nat} {j : Job} {s : State} (h : rowsOk acc win z j s = true) (k : State → State) :
    j.withRows s acc win z k = k s := by
  simp only [rowsOk, rowsAt, Bool.and_eq_true, beq_iff_eq] at h
  obtain ⟨⟨haddr, hpitch⟩, hrows⟩ := h
  unfold Job.withRows
  dsimp only
  cases win with
  | true =>
    have hwin : (((rowSpec j.b).windowRows (j.c % 2 ^ 32) z).any fun (o, n) => (j.group s).top < o + n) = false := by
      simpa [RowSpec.windowRows] using hrows
    rw [if_neg (by simpa using hwin), if_neg (not_or.mpr ⟨Classical.not_not.mpr haddr, Classical.not_not.mpr hpitch⟩), if_pos rfl]
  | false =>
    have hspan := Option.isNone_iff_eq_none.1 hrows
    rw [Bool.false_and, if_neg Bool.false_ne_true, if_neg (not_or.mpr ⟨Classical.not_not.mpr haddr, Classical.not_not.mpr hpitch⟩), if_neg Bool.false_ne_true]
    rw [hspan]

theorem mldtRow_holds {i : Instr} {win : Bool} {type : Nat} (hexec : ∀ s, exec i s = issueWord i s (mldtWord win type)) : (mldtRow i win type).Holds := by
  refine word_holds hexec fun j t hok => ?_
  obtain ⟨hrows, hroom⟩ := Bool.and_eq_true_iff.1 hok
  unfold mldtWord
  rw [withRows_of_rowsOk hrows]
  exact post_of_room hroom _

/-- MST whose rows pass their checks (R330 to R332). -/
theorem mstWord_of_rowsOk {win : Bool} {slot : Option DWord} {z : Nat} {j : Job} {s : State} (hrows : rowsOk .store win z j s = true)
    (hturn : (!rowsSeen win z j s || mayTurn j s) = true) (hroom : tableRoom j (if rowsSeen win z j s then turned j s else s) = true) :
    mstWord win slot z j s = posted j (if rowsSeen win z j s then turned j s else s)
      (.mst slot (BitVec.ofNat 64 j.b) (BitVec.ofNat 64 (rowsAt win j)) win) := by
  unfold mstWord
  rw [withRows_of_rowsOk hrows]
  dsimp only
  change (if rowsSeen win z j s then _ else _) = _
  cases hseen : rowsSeen win z j s with
  | true =>
    rw [hseen, Bool.not_true, Bool.false_or] at hturn
    rw [hseen] at hroom
    rw [if_pos rfl, if_pos rfl, irrevocable_of_mayTurn hturn]
    exact post_of_room hroom _
  | false =>
    rw [hseen] at hroom
    rw [if_neg Bool.false_ne_true, if_neg Bool.false_ne_true]
    exact post_of_room hroom _

theorem mst_holds (w : RegWord) : (mstRow (.mst w) false always (fun _ _ => none) fun _ _ => 16).Holds := by
  refine word_holds (fun _ => rfl) fun j t hok => ?_
  simp only [Bool.and_eq_true] at hok
  obtain ⟨⟨⟨_, hrows⟩, hturn⟩, hroom⟩ := hok
  exact mstWord_of_rowsOk hrows hturn hroom

/-- A legal slot of a listed type (R226): the word goes on with it. -/
theorem withSlot_of_slotIs {j : Job} {s : State} {n : Nat} {ok : Nat → Bool} (h : slotIs j s n ok = true) (k : DWord → SlotFmt → State → State) :
    j.withSlot s n ok k = k (slotWord' j s n) (slotFormat j s n) s := by
  obtain ⟨t, ht, hok⟩ := (Option.any_eq_true ..).mp h
  have hf : slotFormat j s n = t := by rw [slotFormat, ht]; rfl
  unfold slotWord' at *
  unfold Job.withSlot
  dsimp only
  rw [ht, hf]
  exact if_pos hok

theorem mstSlotWord_holds {i : Instr} {win : Bool} (hexec : ∀ s, exec i s = issueWord i s (mstSlotWord win)) :
    (mstRow i win (fun j s => slotIs j s (j.f.imm % 8) scalarType) (fun j s => some (slotWord' j s (j.f.imm % 8)))
      fun j s => elBytes (slotFormat j s (j.f.imm % 8)).etype).Holds := by
  refine word_holds hexec fun j t hok => ?_
  simp only [Bool.and_eq_true] at hok
  obtain ⟨⟨⟨hslot, hrows⟩, hturn⟩, hroom⟩ := hok
  unfold mstSlotWord
  rw [withSlot_of_slotIs hslot]
  exact mstWord_of_rowsOk hrows hturn hroom

theorem withVersion_of_done {j : Job} {s : State} (h : versionDone j s = true) (k : State → State) : j.withVersion s k = k s := if_pos h

theorem mrdWord_of_done {c : Nat} {f : Nat → Nat} {j : Job} {s : State} (h : versionDone j s = true) : mrdWord c f j s = mrdNext c f j s :=
  withVersion_of_done h _

theorem mverWord_of_done {j : Job} {s : State} (h : versionDone j s = true) :
    mverWord j s = j.result s ((tileOf j s).ver + (tileOf j s).issued * 2 ^ 16 + if (tileOf j s).poison then 2 ^ 32 else 0) := by
  refine (withVersion_of_done h _).trans (congrArg (j.result s) ?_)
  change (tileOf j s).poison.toNat * 2 ^ 32 + (tileOf j s).issued * 65536 + (tileOf j s).ver = _
  cases (tileOf j s).poison with
  | true => rw [Bool.toNat_true, if_pos rfl]; omega
  | false => rw [Bool.toNat_false, if_neg Bool.false_ne_true]; omega

/-- Settles O28: each word by what it does where its operands pass and the table has room. -/
theorem tileWords : Obligations.TileWords := by
  intro w u
  simp only [tileTable, List.append_assoc, List.forall_mem_append, List.forall_mem_cons]
  refine ⟨mloopRows_hold fun _ => rfl, mloopRows_hold fun _ => rfl, mloopRows_hold fun _ => rfl, mloopRows_hold fun _ => rfl,
    mloopRows_hold fun _ => rfl, mloopRows_hold fun _ => rfl, ?mzero, mldtRow_holds fun _ => rfl, mldtRow_holds fun _ => rfl, mst_holds w,
    mstSlotWord_holds fun _ => rfl, mstSlotWord_holds fun _ => rfl, ?mrdF32, ?mrdSlot, ?mrdA80, ?mver, List.forall_mem_nil _⟩
  case mzero => exact word_holds (fun _ => rfl) fun j t hok => post_of_room hok _
  case mrdF32 => exact word_holds (fun _ => rfl) fun j t hok => mrdWord_of_done hok
  case mrdSlot =>
    refine word_holds (fun _ => rfl) fun j t hok => ?_
    obtain ⟨hslot, hdone⟩ := Bool.and_eq_true_iff.1 hok
    exact (withSlot_of_slotIs hslot _).trans (mrdWord_of_done hdone)
  case mrdA80 => exact word_holds (fun _ => rfl) fun j t hok => mrdWord_of_done hok
  case mver => exact word_holds (fun _ => rfl) fun j t hok => mverWord_of_done hok

open Sys2Proof.Claims

/-! ## Stream words (R337 to R348) -/

/-- A layout record that is read: it goes on where it is well formed, and answers MALFORMED where it is not (R339). -/
theorem withLayout_of_ready {j : Job} {s : State} (queue : Bool) (h : layoutReady j s = true) (k : Layout → State → State) :
    j.withLayout s queue k =
      if !(if queue then (layoutAt j s).queueOk (layoutBytes j s) else (layoutAt j s).ok (layoutBytes j s)) then j.result s St.malformed
      else k (layoutAt j s) s := by
  simp only [layoutReady, Bool.and_eq_true, decide_eq_true_eq, beq_iff_eq, Bool.not_eq_true'] at h
  obtain ⟨⟨⟨⟨halign, htop⟩, hfree⟩, hclean⟩, hring⟩ := h
  unfold layoutAt layoutBytes at *
  unfold Job.withLayout
  dsimp only
  rw [if_neg (by omega), readsWindow_of_windowFree hfree, hclean, if_neg Bool.false_ne_true, hring, Bool.not_true, if_neg Bool.false_ne_true]

theorem withLayout_of_ok {j : Job} {s : State} (h : layoutReady j s = true) (hok : (layoutAt j s).ok (layoutBytes j s) = true)
    (k : Layout → State → State) : j.withLayout s false k = k (layoutAt j s) s := by
  rw [withLayout_of_ready false h, if_neg (by simpa using hok)]

theorem withLayout_of_queueOk {j : Job} {s : State} (h : layoutReady j s = true) (hok : (layoutAt j s).queueOk (layoutBytes j s) = true)
    (k : Layout → State → State) : j.withLayout s true k = k (layoutAt j s) s := by
  rw [withLayout_of_ready true h, if_neg (by simpa using hok)]

theorem malformedRow_holds {i : Instr} {queue : Bool} {k : Job → Layout → State → State}
    (hexec : ∀ s, exec i s = issueWord i s fun j s => j.withLayout s queue (k j)) : (malformedRow i queue).Holds := by
  refine word_holds hexec fun j t hok => ?_
  obtain ⟨hready, hbad⟩ := Bool.and_eq_true_iff.1 hok
  rw [withLayout_of_ready queue hready, if_pos hbad]

theorem withRecord_of_free {j : Job} {s : State} (h : recordFree j s = true) (k : State → State) : j.withRecord s k = k s :=
  if_neg (by simpa [recordFree, Option.isSome_iff_ne_none] using h)

/-- SFILL and SDRAIN whose layout and span pass their checks, with a copy record free (R339 to R341). -/
theorem copyWord_of_ok {j : Job} {s : State} (drain : Bool) (hready : layoutReady j s = true) (hok : (layoutAt j s).ok (layoutBytes j s) = true)
    (hspan : copySpanOk (if drain then .store else .load) j s = true) (hfree : recordFree j s = true) :
    copyWord drain j s =
      if drain then
        j.readsWindow s (lineAccs (j.group s) ((j.newCopy s 0 .drain (layoutAt j s)).allLines (j.group s))) fun s' =>
          if (s'.die j.d).hostVisible (j.group s).ctx.pn (copySpan j s).1.toNat ((copySpan j s).2 - (copySpan j s).1 + 1).toNat then
            j.irrevocable s' (j.startCopy · .drain (layoutAt j s))
          else j.startCopy s' .drain (layoutAt j s)
      else j.startCopy s .fill (layoutAt j s) := by
  simp only [copySpanOk, copySpan, Bool.and_eq_true, Bool.not_eq_true'] at hspan
  obtain ⟨hwild, hspan⟩ := hspan
  unfold copySpan
  unfold copyWord
  rw [withLayout_of_ok hready hok]
  dsimp only
  rw [hwild, if_neg Bool.false_ne_true, hspan, Bool.not_true, if_neg Bool.false_ne_true, withRecord_of_free hfree]

theorem queueCopyWord_of_ok {j : Job} {s : State} (drain : Bool) (hready : layoutReady j s = true)
    (hok : (layoutAt j s).queueOk (layoutBytes j s) = true) (hfree : recordFree j s = true) (hturn : mayTurn j s = true)
    (hpresent : drain = true → slotPresent j s = true) :
    queueCopyWord drain j s = j.startCopy (turned j s) (if drain then .drainQueue else .fillQueue) (layoutAt j s) := by
  have hreads : windowFree j s (if drain then lineAccs (j.group s)
      ((layoutAt j s).slotLines (j.group s).ctx.frame.base (j.c % 2 ^ 32) (layoutAt j s).slotb) else []) = true := by
    cases drain with
    | true => exact hpresent rfl
    | false => rfl
  unfold queueCopyWord
  rw [withLayout_of_queueOk hready hok, withRecord_of_free hfree]
  dsimp only
  rw [readsWindow_of_windowFree hreads, irrevocable_of_mayTurn hturn]

theorem Job.core_pass (j : Job) (s : State) (d : Nat) : ((j.pass s).die d).core = (s.die d).core := by
  unfold Job.pass Job.mod State.modGroup
  rw [State.die_modDie]
  split
  case isTrue h => rw [h.1]; rfl
  case isFalse => rfl

/-- SREL, from what `streamOf` finds (R345). -/
theorem srelWord_eq (j : Job) (s : State) : srelWord j s =
    match streamOf j s with
    | none => j.pass s
    | some c =>
      if bit j.f.imm 0 then (j.pass s).closeStream j.d (j.group s).core c 0
      else if c.delivered.contains (slotNo j c) then
        (j.pass s).modDie j.d fun x => x.modCopy (j.group s).core (j.a % 2 ^ 32) fun c' =>
          { c' with delivered := c'.delivered.filter (· != slotNo j c), free := slotNo j c :: c'.free }
      else j.pass s := by
  unfold srelWord streamOf slotNo
  dsimp only
  rw [Job.core_pass]
  cases hc : ((s.die j.d).core (j.group s).core).copy? (j.a % 2 ^ 32) with
  | none => rfl
  | some c =>
    have hid : c.id = j.a % 2 ^ 32 := by simpa using List.find?_some hc
    by_cases hmine : c.gid = j.gid ∧ c.kind = .fillQueue
    · have hfilter : (some c).filter (fun c => c.gid == j.gid && c.kind == .fillQueue) = some c := by simp [hmine.1, hmine.2]
      rw [hfilter]
      dsimp only
      rw [if_neg (by simp [hmine.1, hmine.2]), hid]
    · have hfilter : (some c).filter (fun c => c.gid == j.gid && c.kind == .fillQueue) = none := by simpa using hmine
      rw [hfilter]
      exact if_pos (Decidable.not_and_iff_or_not.1 hmine)

theorem sjoinWord_of_set {j : Job} {s : State} (h : j.f.imm % 32 ≠ 0) : sjoinWord j s = fenced j s := if_neg h

theorem swaitWord_eq (n : Job → Nat) (j : Job) (s : State) : swaitWord n j s =
    if n j < copiesNow j s then j.wait s (.copies j.x (n j))
    else j.result (j.mod s fun g => { g with sticky := 0 }) ((j.group s).sticky % 2 ^ 8 + min (copiesNow j s) 255 * 2 ^ 8) := by
  have hout : (s.die j.d).copiesOut (j.group s) = copiesNow j s := by
    unfold Die.copiesOut copiesNow
    rw [List.countP_eq_length_filter]
  rw [← hout]
  rfl

theorem swaitRows_hold {i : Instr} {n : Job → Nat} (hexec : ∀ s, exec i s = issueWord i s (swaitWord n)) : ∀ c ∈ swaitRows i n, c.Holds := by
  simp only [swaitRows, List.forall_mem_cons]
  refine ⟨?passes, ?waits, List.forall_mem_nil _⟩
  case passes =>
    refine word_holds hexec fun j t hok => ?_
    rw [swaitWord_eq, if_neg (Nat.not_lt.mpr (of_decide_eq_true hok))]
  case waits =>
    refine word_holds hexec fun j t hok => ?_
    rw [swaitWord_eq, if_pos (of_decide_eq_true hok)]

/-- Settles O29: each word by what it does where its record passes its checks. -/
theorem streamWords : Obligations.StreamWords := by
  intro w
  simp only [streamTable, List.cons_append, List.nil_append, List.forall_mem_cons, List.forall_mem_append]
  refine ⟨?sfill, malformedRow_holds fun _ => rfl, ?sdrain, malformedRow_holds fun _ => rfl, ?sfillQueue, malformedRow_holds fun _ => rfl,
    ?sdrainQueue, malformedRow_holds fun _ => rfl, ?none, ?closes, ?releases, ?keeps, ?sjoin, swaitRows_hold fun _ => rfl,
    swaitRows_hold fun _ => rfl⟩
  case sfill =>
    refine word_holds (fun _ => rfl) fun j t hok => ?_
    simp only [Bool.and_eq_true] at hok
    obtain ⟨⟨⟨hready, hgood⟩, hspan⟩, hfree⟩ := hok
    exact copyWord_of_ok false hready hgood hspan hfree
  case sdrain =>
    refine word_holds (fun _ => rfl) fun j t hok => ?_
    simp only [Bool.and_eq_true] at hok
    obtain ⟨⟨⟨⟨⟨hready, hgood⟩, hspan⟩, hfree⟩, hlines⟩, hturn⟩ := hok
    rw [copyWord_of_ok true hready hgood hspan hfree, if_pos rfl, readsWindow_of_windowFree hlines]
    change (if drainSeen j t then _ else _) = _
    cases hseen : drainSeen j t with
    | true =>
      rw [hseen, Bool.not_true, Bool.false_or] at hturn
      rw [if_pos rfl, if_pos rfl]
      exact irrevocable_of_mayTurn hturn _
    | false => rfl
  case sfillQueue =>
    refine word_holds (fun _ => rfl) fun j t hok => ?_
    simp only [Bool.and_eq_true] at hok
    obtain ⟨⟨⟨hready, hgood⟩, hfree⟩, hturn⟩ := hok
    exact queueCopyWord_of_ok false hready hgood hfree hturn nofun
  case sdrainQueue =>
    refine word_holds (fun _ => rfl) fun j t hok => ?_
    simp only [Bool.and_eq_true] at hok
    obtain ⟨⟨⟨⟨hready, hgood⟩, hfree⟩, hturn⟩, hpresent⟩ := hok
    exact queueCopyWord_of_ok true hready hgood hfree hturn fun _ => hpresent
  case none =>
    refine word_holds (fun _ => rfl) fun j t hok => ?_
    rw [srelWord_eq, Option.isNone_iff_eq_none.1 hok]
  case closes =>
    refine word_holds (fun _ => rfl) fun j t hok => ?_
    obtain ⟨hsome, hclose⟩ := Bool.and_eq_true_iff.1 hok
    obtain ⟨c, hc⟩ := Option.isSome_iff_exists.1 hsome
    rw [srelWord_eq, hc]
    exact if_pos hclose
  case releases =>
    refine word_holds (fun _ => rfl) fun j t hok => ?_
    obtain ⟨hrel, hkeep⟩ := Bool.and_eq_true_iff.1 hok
    obtain ⟨c, hc, hslot⟩ := (Option.any_eq_true ..).1 hrel
    rw [srelWord_eq, hc]
    exact (if_neg (by simpa using hkeep)).trans (if_pos hslot)
  case keeps =>
    refine word_holds (fun _ => rfl) fun j t hok => ?_
    simp only [Bool.and_eq_true, Bool.not_eq_true'] at hok
    obtain ⟨⟨hsome, hrel⟩, hkeep⟩ := hok
    obtain ⟨c, hc⟩ := Option.isSome_iff_exists.1 hsome
    rw [releases, hc, Option.any_some] at hrel
    rw [srelWord_eq, hc]
    exact (if_neg (by simpa using hkeep)).trans (if_neg (by simpa using hrel))
  case sjoin => exact word_holds (fun _ => rfl) fun j t hok => sjoinWord_of_set (of_decide_eq_true hok)

open Sys2Proof.Claims

/-! ## Gates, traps and special registers (R197, R208, R357, R358, R384) -/

theorem rdsrRow_holds {w : RegWord} {n : Nat} {f : Job → State → LaneSrc → Nat}
    (h : ∀ (j : Job) (s : State) (l : LaneSrc), s.special j.d (j.group s) j.x.warp l.t n = f j s l) : (rdsrRow w n f).Holds := by
  refine word_holds (fun _ => rfl) fun j t hok => ?_
  have hn : j.f.imm % 256 = n := of_decide_eq_true hok
  refine congrArg (j.perLane t) (funext fun l => ?_)
  rw [hn, h]

theorem wrsrRow_holds {w : RegWord} {n : Nat} {ok : Nat → Bool} {f : Nat → Group → Group}
    (h : ∀ (g : Group) v, ok v = true → g.writeSpecial n v = some (f v g)) : (wrsrRow w n ok f).Holds := by
  refine word_holds (fun _ => rfl) fun j t hok => ?_
  obtain ⟨hn, hv⟩ : j.f.imm % 256 = n ∧ ok j.a = true := of_decide_eq_true hok
  unfold wrsrWord
  rw [hn, h _ _ hv]

theorem tretWord_of_ok {j : Job} {s : State} (h : tretOk j s = true) : tretWord j s = tretNext j s := by
  simp only [tretOk, Bool.and_eq_true, Bool.not_eq_true'] at h
  obtain ⟨⟨⟨⟨hdue, hgate⟩, hfree⟩, hclean⟩, htrap⟩ := h
  obtain ⟨tr, htr, hpcs⟩ := (Option.any_eq_true ..).1 htrap
  have hvalid : (((j.group s).members tr.warp).any fun t =>
      !validPc (tr.resume ((j.group s).window (j.group s).b3 1024).1 (bit j.f.imm 0) (t % 32))) = false := by
    rw [List.any_eq_false]
    intro t ht
    have hpc : (_ ∧ _) := of_decide_eq_true (List.all_eq_true.1 hpcs t ht)
    simpa [validPc, Trap.resume] using hpc
  unfold tretWord tretNext
  dsimp only
  rw [htr]
  dsimp only
  rw [if_neg (by simpa using hdue), hgate, if_neg Bool.false_ne_true, readsWindow_of_windowFree hfree, hclean, if_neg Bool.false_ne_true, hvalid]
  rfl

theorem tretWord_of_gate {j : Job} {s : State} (htrap : (j.group s).trap.isSome = true) (hdue : (j.group s).poisonDue.isNone = true)
    (hgate : bit j.f.imm 1 = true) (hdepth : (j.group s).gateDepth ≠ 0) :
    tretWord j s = s.endGate j.d j.gid (St.fault + (j.group s).ctx.trapcause.toNat % 256 * 2 ^ 8) := by
  obtain ⟨tr, htr⟩ := Option.isSome_iff_exists.1 htrap
  unfold tretWord
  dsimp only
  rw [htr]
  dsimp only
  rw [if_neg (by simpa using hdue), if_pos hgate, if_neg hdepth, show (2 : Nat) ^ 8 = 256 by rfl]

theorem rdsrTable_holds (w : RegWord) : ∀ c ∈ rdsrTable w, c.Holds := by
  simp only [rdsrTable, List.forall_mem_cons]
  refine ⟨?_, ?_, ?_, ?_, ?_, ?_, ?_, ?_, ?_, ?_, ?_, ?_, ?_, ?_, ?_, ?_, ?_, ?_, ?_, List.forall_mem_nil _⟩
  all_goals exact rdsrRow_holds fun _ _ _ => rfl

theorem wrsrTable_holds (w : RegWord) : ∀ c ∈ wrsrTable w, c.Holds := by
  simp only [wrsrTable, List.forall_mem_cons]
  refine ⟨?handler, ?tbase, ?tlen, ?limit, ?keeps, List.forall_mem_nil _⟩
  case handler => exact wrsrRow_holds fun g v hv => if_pos (of_decide_eq_true hv)
  case tbase => exact wrsrRow_holds fun g v hv => if_pos (of_decide_eq_true hv)
  case tlen => exact wrsrRow_holds fun g v hv => if_pos (of_decide_eq_true hv)
  case limit => exact wrsrRow_holds fun g v hv => congrArg some (if_pos (of_decide_eq_true hv))
  case keeps =>
    refine wrsrRow_holds fun g v hv => congrArg some (if_neg ?_)
    have hout : v < 16 ∨ 40 < v := of_decide_eq_true hv
    omega

/-- Settles O30: TRET by its frame, and each special register by its own case. -/
theorem systemWords : Obligations.SystemWords := by
  intro w
  simp only [systemTable, List.cons_append, List.nil_append, List.forall_mem_cons, List.forall_mem_append]
  refine ⟨?gate, ?gret, ?trap, ?brk, ?tret, ?tretGate, rdsrTable_holds w, wrsrTable_holds w⟩
  case gate => exact word_holds (fun _ => rfl) fun _ _ _ => rfl
  case gret => exact word_holds (fun _ => rfl) fun _ _ _ => rfl
  case trap => exact word_holds (fun _ => rfl) fun j t _ => congrArg (j.fault t Cause.trap j.lanes) (Nat.zero_add _)
  case brk => exact word_holds (fun _ => rfl) fun _ _ _ => rfl
  case tret => exact word_holds (fun _ => rfl) fun _ _ hok => tretWord_of_ok hok
  case tretGate =>
    refine word_holds (fun _ => rfl) fun j t hok => ?_
    simp only [Bool.and_eq_true, bne_iff_ne] at hok
    obtain ⟨⟨⟨htrap, hdue⟩, hgate⟩, hdepth⟩ := hok
    exact tretWord_of_gate htrap hdue hgate hdepth

end Sys2Proof.Machine
end

section
/-! PROOFS. What the device's own steps leave: boot, failures, controllers, spaces, the scheduler, limits and engines. -/

namespace Sys2Proof.Machine
open Sys2Proof.Claims

/-! ## Rows of device steps -/

theorem row_holds {i : Instr} {ok : State → Bool} {next : State → State} (h : ∀ s, ok s = true → exec i s = .next (next s)) :
    (EventClaim.mk i ok next).Holds := h

/-! ## Boot, the belay mirror, checkpoints and warm resets -/

theorem up_iff {d : Nat} {s : State} : up d s = true ↔ (s.die d).phase = .up := by simp [up]

theorem warmReset_holds_of_no_belay (d : Nat) (planned : Bool) {s : State} (hup : up d s = true) (hbelay : s.hasBelay d = false)
    (hdue : planned = true → (s.die d).resetDue = true) : exec (.warmReset d planned) s = .next (s.coldBoot d) := by
  change execWarmReset d planned s = _
  unfold execWarmReset
  rw [if_neg (by simp [up_iff.1 hup]; exact hdue), if_pos (by simp [hbelay])]
  rfl

theorem warmReset_planned {d : Nat} {s : State} (hup : up d s = true) (hbelay : s.hasBelay d = true) (hdue : (s.die d).resetDue = true) :
    exec (.warmReset d true) s = .next (s.plannedReset d) := by
  change execWarmReset d true s = _
  unfold execWarmReset
  rw [if_neg (by simp [up_iff.1 hup, hdue]), if_neg (by simp [hbelay])]
  rfl

theorem plannedReset_of_not_begun {d : Nat} {s : State} (h : (s.die d).stopped = none) :
    s.plannedReset d =
      if ((s.preemptAll d).die d).saving || !((s.preemptAll d).die d).mgmtOut.isEmpty then s.preemptAll d
      else ((s.preemptAll d).draw.2).beginReset d (Config.freeLost (s.preemptAll d).draw.1) := by
  unfold State.plannedReset
  rw [h]

theorem plannedReset_of_begun {d : Nat} {s : State} (h : (s.die d).stopped.isSome = true) :
    s.plannedReset d = if (s.die d).belayQ.isEmpty then s.restartDie d true ((s.die d).stopped.getD []) else s := by
  obtain ⟨keep, hk⟩ := Option.isSome_iff_exists.1 h
  unfold State.plannedReset
  rw [hk]
  rfl

/-- Settles O31: each row by the test that its step makes. -/
theorem bootSteps : Obligations.BootSteps := by
  intro d
  simp only [bootTable, List.forall_mem_cons]
  refine ⟨?coldBoot, ?mirrorTimeout, ?mirrorRewrite, ?checkpoint, ?cold, ?coldPlanned, ?unplanned, ?saves, ?begins, ?waits, ?restarts,
    List.forall_mem_nil _⟩
  case coldBoot =>
    refine row_holds fun s hok => ?_
    exact if_pos (of_decide_eq_true hok)
  case mirrorTimeout =>
    refine row_holds fun s hok => ?_
    simp only [Bool.and_eq_true, beq_iff_eq, decide_eq_true_eq] at hok
    exact if_pos hok
  case mirrorRewrite =>
    refine row_holds fun s hok => ?_
    simp only [Bool.and_eq_true, Bool.not_eq_true', up_iff] at hok
    obtain ⟨⟨⟨hup, hdue⟩, hpartner⟩, hheld⟩ := hok
    exact if_neg (by simp [hup, hdue, hpartner, hheld])
  case checkpoint =>
    refine row_holds fun s hok => ?_
    simp only [Bool.and_eq_true, Bool.not_eq_true', up_iff, Option.isSome_eq_false_iff, Option.isNone_iff_eq_none] at hok
    obtain ⟨⟨⟨hup, hbelay⟩, hstopped⟩, hdue⟩ := hok
    exact if_pos ⟨hup, hstopped, hbelay, hdue⟩
  case cold =>
    refine row_holds fun s hok => ?_
    obtain ⟨hup, hbelay⟩ := Bool.and_eq_true_iff.1 hok
    exact warmReset_holds_of_no_belay d false hup (by simpa using hbelay) nofun
  case coldPlanned =>
    refine row_holds fun s hok => ?_
    simp only [Bool.and_eq_true, Bool.not_eq_true'] at hok
    obtain ⟨⟨hup, hbelay⟩, hdue⟩ := hok
    exact warmReset_holds_of_no_belay d true hup hbelay fun _ => hdue
  case unplanned =>
    refine row_holds fun s hok => ?_
    obtain ⟨hup, hbelay⟩ := Bool.and_eq_true_iff.1 hok
    change execWarmReset d false s = _
    unfold execWarmReset
    rw [if_neg (by simp [up_iff.1 hup]), if_neg (by simp [hbelay])]
    rfl
  case saves =>
    refine row_holds fun s hok => ?_
    simp only [Bool.and_eq_true, Bool.not_eq_true', Option.isSome_eq_false_iff, Option.isNone_iff_eq_none] at hok
    obtain ⟨⟨⟨⟨hup, hbelay⟩, hdue⟩, hbegun⟩, hwork⟩ := hok
    rw [warmReset_planned hup hbelay hdue, plannedReset_of_not_begun hbegun, if_pos hwork]
  case begins =>
    refine row_holds fun s hok => ?_
    simp only [Bool.and_eq_true, Bool.not_eq_true', Option.isSome_eq_false_iff, Option.isNone_iff_eq_none] at hok
    obtain ⟨⟨⟨⟨hup, hbelay⟩, hdue⟩, hbegun⟩, hwork⟩ := hok
    rw [warmReset_planned hup hbelay hdue, plannedReset_of_not_begun hbegun, if_neg (by simpa using hwork)]
  case waits =>
    refine row_holds fun s hok => ?_
    simp only [Bool.and_eq_true, Bool.not_eq_true'] at hok
    obtain ⟨⟨⟨⟨hup, hbelay⟩, hdue⟩, hbegun⟩, hq⟩ := hok
    rw [warmReset_planned hup hbelay hdue, plannedReset_of_begun hbegun, if_neg (by simp [hq])]
  case restarts =>
    refine row_holds fun s hok => ?_
    simp only [Bool.and_eq_true] at hok
    obtain ⟨⟨⟨⟨hup, hbelay⟩, hdue⟩, hbegun⟩, hq⟩ := hok
    rw [warmReset_planned hup hbelay hdue, plannedReset_of_begun hbegun, if_pos hq]

/-! ## Units that fail, links, frequency, heat and alarms -/

theorem coreOffline_step {d unit cause : Nat} {s : State} (hup : up d s = true)
    (hcore : (coreNamed d unit s).any (fun l => !(s.die d).coreOffline l) = true) (hcause : (cause == 1 || cause == 2) = true) :
    exec (.unitOffline d 1 unit cause) s = .next (s.coreOff d ((coreNamed d unit s).getD 0) unit cause (List.range 32)) := by
  obtain ⟨l, hl, hon⟩ := (Option.any_eq_true ..).1 hcore
  have hfind : (List.range (s.die d).numCores).find? (fun l => (s.die d).conf.cores.getD l (0, 0) == (unit / 4, unit % 4)) = some l := hl
  change execUnitOffline d 1 unit cause s = _
  unfold execUnitOffline
  dsimp only
  rw [if_neg (Classical.not_not.mpr (up_iff.1 hup)), hfind, hl]
  exact if_neg (by simpa [hcause] using hon)

theorem clusterOffline_step {d unit cause : Nat} {s : State} (hup : up d s = true)
    (hcluster : (clusterNamed d unit s).any (fun l =>
      !(s.die d).clusterOffline l && (cause == 2 || (cause == 3 && 2 ≤ ((s.die d).cluster l).repeats))) = true) :
    exec (.unitOffline d 2 unit cause) s =
      let lost := cause == 2 && Config.freeLost s.draw.1
      let t := (s.draw.2).clusterOff d ((clusterNamed d unit s).getD 0) unit cause lost
      .next (if lost then t.resetDie d true else t) := by
  obtain ⟨l, hl, hok⟩ := (Option.any_eq_true ..).1 hcluster
  have hfind : (List.range (s.die d).numClusters).find? (fun l => (s.die d).physCluster l == unit) = some l := hl
  change execUnitOffline d 2 unit cause s = _
  unfold execUnitOffline
  dsimp only
  rw [if_neg (Classical.not_not.mpr (up_iff.1 hup)), hfind, hl]
  simp only [Bool.and_eq_true, Bool.not_eq_true'] at hok
  exact if_neg (by simp [hok.1, hok.2])

theorem channelOffline_step {d unit cause : Nat} {s : State} (hup : up d s = true) (hcause : cause = 2)
    (hchannel : (channelNamed d unit s).any (fun k => !(s.die d).channelOffline k && 64 ≤ tgetD (s.die d).memctl.chUncorr k 0) = true) :
    exec (.unitOffline d 3 unit cause) s
      = .next (onDie d (fun x => (x.retire 3 unit 0 cause).publish fun c => c.setChOff (unit / 32) (unit % 32)) s) := by
  obtain ⟨k, hk, hok⟩ := (Option.any_eq_true ..).1 hchannel
  have hfind : (List.range (s.die d).numChannels).find? (fun k => (s.die d).conf.channels.getD k (0, 0) == (unit / 32, unit % 32)) = some k := hk
  simp only [Bool.and_eq_true, Bool.not_eq_true', decide_eq_true_eq] at hok
  change execUnitOffline d 3 unit cause s = _
  unfold execUnitOffline
  dsimp only
  rw [if_neg (Classical.not_not.mpr (up_iff.1 hup)), hfind]
  exact if_neg (by simpa [hcause, hok.1] using hok.2)

/-- The end of a width change: both ends take the width, and a link that is down changes the routes (R130, R407). -/
theorem widthDone_step {d link w : Nat} {s : State} (h : widthDue d link s = some w) :
    exec (.seamWidthChangeDone d link) s = .next
      (if w ≠ 0 then narrowedTo d link w s
      else if link < 10 then (narrowedTo d link w s).reroute [link]
      else ((narrowedTo d link w s).reroute []).emptyLink d link) := by
  obtain ⟨l, hl, hw⟩ := Option.bind_eq_some_iff.1 h
  change execSeamWidthChangeDone d link s = _
  unfold execSeamWidthChangeDone narrowedTo
  rw [hl]
  dsimp only
  rw [hw]
  dsimp only
  split
  · rfl
  · split <;> rfl

theorem thermalCheck_step (readings : List Thermal) (s : State) :
    exec (.thermalCheck readings) s = .next
      (match tooHot (measured readings s).power (checkedDies (measured readings s)) with
      | none => checkedDies (measured readings s)
      | some d => (checkedDies (measured readings s)).modDie d fun x => if x.nextPoint = 2 then x else x.stepTo (x.nextPoint + 1)) := by
  change execThermalCheck readings s = _
  unfold execThermalCheck
  change (match tooHot (measured readings s).power (checkedDies (measured readings s)) with
    | none => (checkedDies (measured readings s)).finish
    | some d => ((checkedDies (measured readings s)).modDie d fun x =>
        if x.nextPoint = 2 then x else x.stepTo (x.nextPoint + 1)).finish) = _
  generalize tooHot (measured readings s).power (checkedDies (measured readings s)) = h
  cases h with
  | none => rfl
  | some d => rfl

/-- Settles O32: each row by the test that its step makes. -/
theorem failureSteps : Obligations.FailureSteps := by
  intro d unit cause link point celsius readings
  simp only [failureTable, List.forall_mem_cons]
  refine ⟨?core, ?slice, ?sliceReset, ?channel, ?narrows, ?narrowed, ?seamDown, ?ridgeDown, ?retrainFails, ?retrains, ?freq, ?freqDone,
    ?cool, ?hot, ?tamper, ?glitch, ?temperature, ?unsigned, List.forall_mem_nil _⟩
  case core =>
    refine row_holds fun s hok => ?_
    simp only [Bool.and_eq_true] at hok
    obtain ⟨⟨hup, hcore⟩, hcause⟩ := hok
    exact coreOffline_step hup hcore hcause
  case slice =>
    refine row_holds fun s hok => ?_
    simp only [Bool.and_eq_true, Bool.not_eq_true'] at hok
    obtain ⟨⟨hup, hcluster⟩, hkept⟩ := hok
    rw [clusterOffline_step hup (by simpa only [Bool.and_eq_true, Bool.not_eq_true'] using hcluster)]
    dsimp only
    rw [hkept, if_neg Bool.false_ne_true]
  case sliceReset =>
    refine row_holds fun s hok => ?_
    obtain ⟨hfails, hlost⟩ := Bool.and_eq_true_iff.1 hok
    obtain ⟨hup, hcluster⟩ := Bool.and_eq_true_iff.1 hfails
    rw [clusterOffline_step hup hcluster]
    dsimp only
    rw [hlost, if_pos rfl]
  case channel =>
    refine row_holds fun s hok => ?_
    simp only [Bool.and_eq_true, beq_iff_eq] at hok
    obtain ⟨⟨hup, hcause⟩, hchannel⟩ := hok
    exact channelOffline_step hup hcause hchannel
  case narrows =>
    refine row_holds fun s hok => ?_
    exact if_pos hok
  case narrowed =>
    refine row_holds fun s hok => ?_
    obtain ⟨w, hw, hne⟩ := (Option.any_eq_true ..).1 hok
    rw [widthDone_step hw, if_pos (of_decide_eq_true hne), hw]
    rfl
  case seamDown =>
    refine row_holds fun s hok => ?_
    simp only [Bool.and_eq_true, decide_eq_true_eq, beq_iff_eq] at hok
    rw [widthDone_step hok.2, if_neg (by simp), if_pos hok.1]
  case ridgeDown =>
    refine row_holds fun s hok => ?_
    simp only [Bool.and_eq_true, decide_eq_true_eq, beq_iff_eq] at hok
    rw [widthDone_step hok.2, if_neg (by simp), if_neg (Nat.not_lt.mpr hok.1)]
  case retrainFails =>
    refine row_holds fun s hok => ?_
    exact if_pos (by simpa using hok)
  case retrains =>
    refine row_holds fun s _ => ?_
    rfl
  case freq =>
    refine row_holds fun s hok => ?_
    simp only [Bool.and_eq_true, up_iff] at hok
    obtain ⟨⟨⟨hup, hrunning⟩, hto⟩, hlinks⟩ := hok
    exact if_pos ⟨hup, hrunning, hto, hlinks⟩
  case freqDone =>
    refine row_holds fun s _ => ?_
    refine congrArg Host.Outcome.next (congrArg (s.modDie d) (funext fun x => ?_))
    cases x.freqRunning <;> rfl
  case cool =>
    refine row_holds fun s hok => ?_
    rw [thermalCheck_step, Option.isNone_iff_eq_none.1 hok]
  case hot =>
    refine row_holds fun s hok => ?_
    obtain ⟨e, he⟩ := Option.isSome_iff_exists.1 hok
    rw [thermalCheck_step, he]
    rfl
  case tamper =>
    refine row_holds fun s _ => ?_
    exact congrArg (fun l => (l.foldl (fun s d => s.raiseAlarm d 3 0) s).finish) (show List.range 8 = [0, 1, 2, 3, 4, 5, 6, 7] by rfl)
  case glitch =>
    refine row_holds fun s _ => ?_
    rfl
  case temperature =>
    refine row_holds fun s hok => ?_
    exact congrArg Host.Outcome.next (if_pos (by simpa using hok))
  case unsigned =>
    refine row_holds fun s _ => ?_
    rfl

open Sys2Proof.Claims

/-! ## Memory controllers, the scrubber and bulk prefetch -/

theorem whenUp_of_up {s : State} {d : Nat} (f : State → State) (h : up d s = true) : s.whenUp d f = .next (f s) :=
  if_pos (up_iff.1 h)

theorem State.modDie_of_eq (s : State) (d : Nat) (f : Die → Die) (h : f (s.die d) = s.die d) : s.modDie d f = s := by
  rw [State.modDie_congr s d f id h]
  simp [State.modDie]

theorem whenUp_row {i : Instr} {d : Nat} {f : State → State} (hexec : ∀ s, exec i s = s.whenUp d f) :
    (EventClaim.mk i (up d) f).Holds :=
  row_holds fun s hok => (hexec s).trans (whenUp_of_up f hok)

theorem whenUp_of_inMemory {s : State} {d a : Nat} (f : State → State) (h : inMemory d a s = true) :
    (s.whenUp d fun s => if (s.die d).memTop ≤ a then { s with hole := some a } else f s) = .next (f s) := by
  obtain ⟨hup, htop⟩ := Bool.and_eq_true_iff.1 h
  rw [whenUp_of_up _ hup, if_neg (by simpa using htop)]

theorem inMemory_row {i : Instr} {d a : Nat} {f : State → State}
    (hexec : ∀ s, exec i s = s.whenUp d fun s => if (s.die d).memTop ≤ a then { s with hole := some a } else f s) :
    (EventClaim.mk i (inMemory d a) f).Holds :=
  row_holds fun s hok => (hexec s).trans (whenUp_of_inMemory f hok)

theorem zpClear_step {d a : Nat} {s : State} (h : zeroPendingLeaf d a s = true) :
    exec (.zpClear d a) s =
      .next (s.modDie d fun x => x.engineWrite a (toBytes 8 ((x.engineRead a 8).1 - 2 ^ 11))) := by
  simp only [zeroPendingLeaf, Bool.and_eq_true] at h
  obtain ⟨⟨hin, hbit⟩, htype⟩ := h
  change execZpClear d a s = _
  unfold execZpClear
  rw [whenUp_of_inMemory _ hin, if_pos ⟨hbit, by simpa using htype⟩]
  exact congrArg Host.Outcome.next (State.modDie_congr s d _ _ rfl)

theorem patrolScrub_step {d stack bad : Nat} {s : State} (hup : up d s = true) (hstack : stack < 2)
    (hlines : (s.die d).stackLines stack ≠ 0) :
    exec (.patrolScrub d stack bad) s = .next
      ((s.checkSector d ((s.die d).scrubSectorAt stack ((s.die d).memctl.scrubSector.getD stack 0)) bad).modDie d
        fun x => x.scrubNext stack) :=
  if_neg (not_or.mpr ⟨Classical.not_not.mpr (up_iff.1 hup), not_or.mpr ⟨Nat.not_le.mpr hstack, hlines⟩⟩)

theorem prefetchHead_eq_some {d core : Nat} {s : State} {p : Prefetch} (h : prefetchHead d core s = some p) :
    exec (.bulkPrefetch d core) s = .next (s.performPrefetch d core p) := by
  change execBulkPrefetch d core s = _
  unfold prefetchHead at h
  unfold execBulkPrefetch
  dsimp only
  cases hq : ((s.die d).core core).prefetchQ with
  | nil =>
    rw [hq] at h
    cases h
  | cons o rest =>
    rw [hq] at h
    cases o with
    | op id =>
      dsimp only at h ⊢
      rw [h]
      rfl
    | _ => cases h

/-- Settles O33: each row by the test that its step makes. -/
theorem controllerSteps : Obligations.ControllerSteps := by
  intro d a bad m32 data32 m64 data64 asub afmt blk core
  simp only [controllerTable, List.forall_mem_cons]
  refine ⟨?read, ?write, ?zero, ?aread, ?awrite, ?zpClear, ?background, ?scrub0, ?scrub1, ?prefetch, List.forall_mem_nil _⟩
  case read => exact whenUp_row fun _ => rfl
  case write => exact inMemory_row fun _ => rfl
  case zero => exact inMemory_row fun _ => rfl
  case aread => exact inMemory_row fun _ => rfl
  case awrite => exact inMemory_row fun _ => rfl
  case zpClear => exact row_holds fun s hok => zpClear_step hok
  case background => exact whenUp_row fun _ => rfl
  case scrub0 =>
    refine row_holds fun s hok => ?_
    simp only [Bool.and_eq_true, decide_eq_true_eq] at hok
    exact patrolScrub_step hok.1 (by decide) hok.2
  case scrub1 =>
    refine row_holds fun s hok => ?_
    simp only [Bool.and_eq_true, decide_eq_true_eq] at hok
    exact patrolScrub_step hok.1 (by decide) hok.2
  case prefetch =>
    refine row_holds fun s hok => ?_
    obtain ⟨p, hp⟩ := Option.isSome_iff_exists.1 hok
    rw [prefetchHead_eq_some hp, hp]
    rfl

/-! ## Device registers, invalidations and the epoch -/

theorem xinvNow_any {d : Nat} {s : State} {is : DWord → Bool} (h : (xinvNow d s).any is = true) :
    ∃ v, xinvNow d s = some v ∧ up d s = true ∧ (s.die d).space.xinv = some v ∧ is v = true := by
  obtain ⟨v, hv, his⟩ := (Option.any_eq_true ..).1 h
  refine ⟨v, hv, ?_⟩
  unfold xinvNow at hv
  split at hv
  · exact ⟨‹_›, hv, his⟩
  · cases hv

theorem xinvRow_holds {i : Instr} {d : Nat} {is : DWord → Bool} (hexec : ∀ s, exec i s = s.xinvStep d is) :
    (xinvRow i d is).Holds := by
  refine row_holds fun s hok => ?_
  obtain ⟨v, hnow, hup, hv, his⟩ := xinvNow_any hok
  rw [hexec, State.xinvStep, whenUp_of_up _ hup, hnow]
  refine congrArg Host.Outcome.next (State.modDie_congr s d _ _ ?_)
  rw [hv]
  exact if_pos his

theorem xinvComplete_waits {d : Nat} {v : DWord} {s : State} (hup : up d s = true) (hv : (s.die d).space.xinv = some v)
    (h : (s.die d).unmapWaits v = true) : exec (.xinvComplete d) s = .next s := by
  change execXinvComplete d s = _
  unfold execXinvComplete
  rw [whenUp_of_up _ hup]
  refine congrArg Host.Outcome.next (State.modDie_of_eq s d _ ?_)
  rw [hv]
  exact if_pos h

theorem xinvComplete_ends {d : Nat} {v : DWord} {s : State} (hup : up d s = true) (hv : (s.die d).space.xinv = some v)
    (h : (s.die d).unmapWaits v = false) :
    exec (.xinvComplete d) s = .next (s.modDie d fun x =>
      { x.invalidate v with
        space := { (x.invalidate v).space with
          xinv := (x.invalidate v).space.xinvHeld.head?, xinvHeld := (x.invalidate v).space.xinvHeld.drop 1 } }) := by
  change execXinvComplete d s = _
  unfold execXinvComplete
  rw [whenUp_of_up _ hup]
  refine congrArg Host.Outcome.next (State.modDie_congr s d _ _ ?_)
  rw [hv]
  exact if_neg (by simp [h])

/-- Settles O34: each row by the test that its step makes. -/
theorem spaceSteps : Obligations.SpaceSteps := by
  intro d a size value pn vpn
  simp only [spaceTable, List.forall_mem_cons]
  refine ⟨?write, xinvRow_holds fun _ => rfl, xinvRow_holds fun _ => rfl, xinvRow_holds fun _ => rfl, ?waits, ?ends, ?epoch,
    List.forall_mem_nil _⟩
  case write =>
    refine row_holds fun s hok => ?_
    simp only [Bool.and_assoc] at hok
    obtain ⟨hup, hreg⟩ := Bool.and_eq_true_iff.1 hok
    refine (whenUp_of_up _ hup).trans (congrArg Host.Outcome.next (if_pos ?_))
    simpa only [Bool.and_assoc] using hreg
  case waits =>
    refine row_holds fun s hok => ?_
    obtain ⟨v, -, hup, hv, hwaits⟩ := xinvNow_any hok
    exact xinvComplete_waits hup hv hwaits
  case ends =>
    refine row_holds fun s hok => ?_
    obtain ⟨v, hnow, hup, hv, hwaits⟩ := xinvNow_any hok
    rw [xinvComplete_ends hup hv (by simpa using hwaits), hnow]
    rfl
  case epoch =>
    refine row_holds fun s hok => ?_
    exact if_pos hok

open Sys2Proof.Claims

/-! ## Records and their translation -/

theorem recordNext_eq_some {d : Nat} {s : State} {h : TaskRec × Option (Nat × Nat)} (hnext : recordNext d s = some h) :
    (s.die d).phase = .up ∧ ((s.promote d).die d).sched.ready.isEmpty = true ∧ ((s.promote d).die d).headRecord = some h ∧
      (16384 ≤ ((s.promote d).die d).sched.hold.length && !((reached d h.1 s).die d).gateDecided h.1) = false := by
  unfold recordNext at hnext
  dsimp only at hnext
  split at hnext
  · rename_i hup
    obtain ⟨hup, hready⟩ := Bool.and_eq_true_iff.1 hup
    obtain ⟨hhead, hheld⟩ := Option.filter_eq_some_iff.1 hnext
    exact ⟨up_iff.1 hup, hready, hhead, by simpa only [Bool.not_eq_true'] using hheld⟩
  · cases hnext

theorem recordTake_step {d : Nat} {s : State} (hnext : (recordNext d s).isSome = true) (hok : recordOk d s = true) :
    exec (.recordTake d) s = .next
      ((onDie d (fun x => x.passStages (recordTaken d s).1)
        (onDie d (fun _ => (((recordTaken d s).2.die d).checkRecord (recordTaken d s).1).2) (recordTaken d s).2)).promote d) := by
  obtain ⟨h, hn⟩ := Option.isSome_iff_exists.1 hnext
  obtain ⟨hup, hready, hhead, hheld⟩ := recordNext_eq_some hn
  have htaken : recordTaken d s = (reached d h.1 s).takeRecord d h := by
    unfold recordTaken
    rw [hn]
    rfl
  unfold recordOk at hok
  rw [htaken] at hok ⊢
  change execRecordTake d s = _
  unfold execRecordTake
  rw [if_neg (Classical.not_not.mpr hup)]
  dsimp only
  rw [if_neg (by simp [hready]), hhead]
  dsimp only
  rw [if_neg (by rw [Bool.eq_false_iff] at hheld; exact hheld)]
  change (match (((((reached d h.1 s).takeRecord d h).2.die d).checkRecord ((reached d h.1 s).takeRecord d h).1)).1 with
    | .hole a => _ | .fail st => _ | .ok _ => _) = _
  split at hok
  · rename_i u hu
    rw [hu]
    rfl
  · cases hok

theorem translating_iff {d txid : Nat} {s : State} (h : translating d txid s = true) :
    (s.die d).trans? txid = some (transOf d txid s) ∧
      ((transOf d txid s).waiting || (s.die d).phase != .up || (s.die d).checkPassed (transOf d txid s).rec_) = false := by
  obtain ⟨hany, hup⟩ := Bool.and_eq_true_iff.1 h
  obtain ⟨t, ht, htests⟩ := (Option.any_eq_true ..).1 hany
  have hof : transOf d txid s = t := by simp [transOf, ht]
  rw [hof]
  simp only [Bool.and_eq_true, Bool.not_eq_true'] at htests
  exact ⟨ht, by simp [htests, up_iff.1 hup]⟩

theorem translate_step {d txid : Nat} {s : State} (h : translating d txid s = true) :
    exec (.translate d txid) s = .next
      (if 16 < bits ((transOf d txid s).rec_.word 5) 63 59 then s.endTrans d (transOf d txid s) St.malformed
       else translated d txid s) := by
  obtain ⟨ht, htests⟩ := translating_iff h
  change execTranslate d txid s = _
  unfold execTranslate
  rw [ht]
  dsimp only
  rw [if_neg (by simp [htests])]
  split <;> rfl

theorem transAnswer_row {i : Instr} {d txid code : Nat} {f : State → TransEntry → State}
    (hexec : ∀ s, exec i s = s.transAnswer d txid code f) :
    (EventClaim.mk i (transAnswered d txid code) fun s => f s (transOf d txid s)).Holds := by
  refine row_holds fun s h => (hexec s).trans ?_
  obtain ⟨t, ht, hcode⟩ := (Option.any_eq_true ..).1 h
  unfold State.transAnswer transOf
  rw [ht]
  exact if_pos (by simpa using hcode)

theorem mem_of_firstBy_eq_some {α : Type} {key : α → Nat × Nat} {l : List α} {x : α} (h : firstBy key l = some x) : x ∈ l := by
  suffices haux : ∀ (l : List α) (o : Option α), l.foldl (fun best x => match best with
      | none => some x
      | some b => if earlier (key x) (key b) then some x else best) o = some x → x ∈ l ∨ o = some x from
    (haux l none h).resolve_right nofun
  intro l
  induction l with
  | nil => exact fun o ho => .inr ho
  | cons y l ih =>
    intro o ho
    rcases ih _ ho with hmem | hstep
    · exact .inl (List.mem_cons_of_mem y hmem)
    · cases o with
      | none => exact .inl (by simp [Option.some.inj hstep])
      | some b =>
        dsimp only at hstep
        split at hstep
        · exact .inl (by simp [Option.some.inj hstep])
        · exact .inr hstep

/-! ## Placement, completion and commit -/

theorem groupPlace_candidate {d : Nat} {s : State} (hup : up d s = true) (hmove : (s.runMove d).isNone = true)
    (hnext : (candidateNext d s).isSome = true) :
    exec (.groupPlace d) s = .next (s.place d ((candidateNext d s).getD default) (placeNext d s).1 (placeNext d s).2) := by
  obtain ⟨c, hc⟩ := Option.isSome_iff_exists.1 hnext
  have hplace : ∃ at_, (s.die d).placeOf c = some at_ := by
    simpa [Option.isSome_iff_exists] using (List.mem_filter.1 (mem_of_firstBy_eq_some hc)).2
  obtain ⟨⟨core, slot⟩, hat⟩ := hplace
  have hpair : placeNext d s = (core, slot) := by simp [placeNext, hc, hat]
  change execGroupPlace d s = _
  unfold execGroupPlace
  dsimp only
  rw [if_neg (Classical.not_not.mpr (up_iff.1 hup)), Option.isNone_iff_eq_none.1 hmove]
  change (match candidateNext d s with | none => _ | some c => _) = _
  rw [hpair, hc]
  dsimp only
  rw [hat]
  rfl

theorem groupPlace_move {d : Nat} {s : State} (hup : up d s = true) (hmove : (s.runMove d).isSome = true) :
    exec (.groupPlace d) s = .next ((s.runMove d).getD s) := by
  obtain ⟨t, ht⟩ := Option.isSome_iff_exists.1 hmove
  change execGroupPlace d s = _
  unfold execGroupPlace
  dsimp only
  rw [if_neg (Classical.not_not.mpr (up_iff.1 hup)), ht]
  rfl

theorem group?_of_any {d gid : Nat} {s : State} {p : Group → Bool} (h : (s.group? d gid).any p = true) :
    (s.die d).group? gid = some (groupOf d gid s) ∧ p (groupOf d gid s) = true := by
  obtain ⟨g, hg, hp⟩ := (Option.any_eq_true ..).1 h
  have hof : groupOf d gid s = g := by simp [groupOf, hg]
  rw [hof]
  exact ⟨hg, hp⟩

theorem slotFree_step {d gid : Nat} {s : State} (h : slotDone d gid s = true) :
    exec (.slotFree d gid) s = .next (onDie d (fun _ =>
      if !(s.die d).workLeft (groupOf d gid s) then (slotFreed (s.die d) (groupOf d gid s)).completeGroup (groupOf d gid s)
      else ((slotFreed (s.die d) (groupOf d gid s)).modGroup gid fun g =>
        { g with phase := .tracked, saveRec := none, preemptDue := none, saving := none }).modCore (groupOf d gid s).core fun c =>
          { c with tracker := c.tracker ++ [gid] }) s) := by
  obtain ⟨hg, htests⟩ := group?_of_any h
  simp only [Bool.and_eq_true, beq_iff_eq, Bool.not_eq_true', Bool.or_eq_true, decide_eq_true_eq] at htests
  obtain ⟨⟨⟨hphase, hliving⟩, hbusy⟩, hroom⟩ := htests
  change execSlotFree d gid s = _
  unfold execSlotFree
  dsimp only
  rw [hg]
  refine if_neg ?_
  rintro (h | h | h | ⟨hwork, hfull⟩)
  · exact h hphase
  · simp [hliving] at h
  · simp [hbusy] at h
  · rcases hroom with hnone | hroom
    · simp [hnone] at hwork
    · exact absurd hroom (Nat.not_lt.mpr hfull)

theorem trackerDrain_step {d gid : Nat} {dead : Bool} {s : State}
    (h : ((s.group? d gid).any fun g => g.phase == .tracked && !(s.die d).workLeft g && g.dead == dead) = true) :
    exec (.trackerDrain d gid) s = .next (onDie d (fun _ =>
      if dead then ((s.die d).removeGroup gid).checkSettled (groupOf d gid s).node
      else (s.die d).completeGroup (groupOf d gid s)) s) := by
  obtain ⟨hg, htests⟩ := group?_of_any h
  simp only [Bool.and_eq_true, beq_iff_eq, Bool.not_eq_true'] at htests
  obtain ⟨⟨hphase, hwork⟩, hdead⟩ := htests
  change execTrackerDrain d gid s = _
  unfold execTrackerDrain
  dsimp only
  rw [hg]
  dsimp only
  rw [if_neg (by simp [hphase, hwork]), hdead]
  rfl

theorem commitComplete_step {d node : Nat} {s : State}
    (h : (((s.die d).node? node).any fun n => n.committing && !(s.die d).hasTent node) = true) :
    exec (.commitComplete d node) s = .next (onDie d (fun x =>
       ((if ((x.node? node).getD default).owed = 0 then x
         else x.arrive ((x.node? node).getD default).rec_.pn ((x.node? node).getD default).rec_.done
          ((x.node? node).getD default).owed 0).dropOwed ((x.node? node).getD default)).dropNode node) s) := by
  obtain ⟨n, hn, htests⟩ := (Option.any_eq_true ..).1 h
  refine congrArg Host.Outcome.next (State.modDie_congr s d _ _ ?_)
  dsimp only
  rw [hn]
  exact if_neg (by simpa using htests)

theorem irrevocableResume_step {d node : Nat} {s : State} (h : ((s.die d).node? node).any Node.turning = true) :
    exec (.irrevocableResume d node) s = .next (
      let t := onDie d (fun x => (x.commitNode node).turnIrrevocable node) s
      onDie d (fun x => x.checkSettled node)
        ((((t.die d).groups.filter fun g => g.node == node && !g.dead).map Group.gid).foldl (fun s gid =>
          (s.performSel d gid fun w => match w with | .commit _ => true | _ => false).gather d gid) t)) := by
  obtain ⟨n, hn, hturning⟩ := (Option.any_eq_true ..).1 h
  change execIrrevocableResume d node s = _
  unfold execIrrevocableResume
  rw [hn]
  exact if_neg (by simp [hturning])

/-! ## Swapping and rebalancing -/

theorem swapOut_step {d : Nat} {s : State} (hready : swapReady d s = true) (hvictim : (victimNext d s).isSome = true) :
    exec (.swapOut d) s = .next (s.preempt d ((victimNext d s).getD default).gid ((s.die d).sched.freeRecord.getD 0) false) := by
  obtain ⟨g, hg⟩ := Option.isSome_iff_exists.1 hvictim
  obtain ⟨c, hc, hpick⟩ := Option.bind_eq_some_iff.1 hg
  simp only [swapReady, Bool.and_eq_true, Bool.not_eq_true'] at hready
  obtain ⟨⟨⟨hup, hth⟩, hnone⟩, hfree⟩ := hready
  obtain ⟨k, hk⟩ := Option.isSome_iff_exists.1 hfree
  change execSwapOut d s = _
  unfold execSwapOut
  dsimp only
  rw [if_neg (not_or.mpr ⟨Classical.not_not.mpr (up_iff.1 hup), not_or.mpr ⟨of_decide_eq_true hth, by simp [hnone]⟩⟩), hk, hc]
  dsimp only
  rw [hpick, hg]
  rfl

theorem preemptForcedSave_step {d gid : Nat} {s : State}
    (h : ((s.group? d gid).any fun g => g.phase == .resident && g.saving.isNone && g.saveRec.isSome
       && g.preemptDue.any (· ≤ (s.die d).ps)) = true) :
    exec (.preemptForcedSave d gid) s = .next (s.stopAndSave d gid true) := by
  obtain ⟨hg, htests⟩ := group?_of_any h
  simp only [Bool.and_eq_true, beq_iff_eq] at htests
  obtain ⟨⟨⟨hphase, hsaving⟩, hrec⟩, hdue⟩ := htests
  change execPreemptForcedSave d gid s = _
  unfold execPreemptForcedSave
  dsimp only
  rw [hg]
  exact if_pos ⟨hphase, hsaving, hrec, hdue⟩

theorem not_balance_early {d : Nat} {s : State} (h : balanceDue d s = true) :
    ¬((s.die d).phase ≠ .up ∨ (s.die d).ps < (s.die d).sched.balanceAt + 10 * usec) := by
  obtain ⟨hup, hdue⟩ := Bool.and_eq_true_iff.1 h
  exact not_or.mpr ⟨Classical.not_not.mpr (up_iff.1 hup), Nat.not_lt.mpr (of_decide_eq_true hdue)⟩

theorem rebalance_none {d : Nat} {s : State} (hdue : balanceDue d s = true) (hnone : (moveNext d s).isNone = true) :
    exec (.rebalance d) s = .next (balanced d s) := by
  have hmod : (s.modDie d fun x => x.modSched fun y => { y with balanceAt := x.ps }) = balanced d s := State.modDie_congr s d _ _ rfl
  change execRebalance d s = _
  unfold execRebalance
  dsimp only
  rw [if_neg (not_balance_early hdue), hmod]
  unfold moveNext at hnone
  cases hfree : (s.die d).sched.freeRecord with
  | none => rfl
  | some k =>
    simp only [hfree, Option.isNone_some, Bool.false_eq_true, if_false, Option.isNone_iff_eq_none] at hnone
    rw [hnone]
    rfl

theorem rebalance_some {d : Nat} {s : State} (hdue : balanceDue d s = true) (hsome : (moveNext d s).isSome = true) :
    exec (.rebalance d) s = .next (
     ((onDie d (fun x => x.modSched fun y => { y with moves := y.moves ++ [⟨((moveNext d s).getD (default, default)).1.core,
        ((moveNext d s).getD (default, default)).1.slot, ((moveNext d s).getD (default, default)).1.gid,
        ((moveNext d s).getD (default, default)).2.nid⟩] }) (balanced d s)).preempt d
       ((moveNext d s).getD (default, default)).1.gid ((s.die d).sched.freeRecord.getD 0) true)) := by
  have hmod : (s.modDie d fun x => x.modSched fun y => { y with balanceAt := x.ps }) = balanced d s := State.modDie_congr s d _ _ rfl
  obtain ⟨⟨g, n⟩, hm⟩ := Option.isSome_iff_exists.1 hsome
  rw [hm]
  unfold moveNext at hm
  dsimp only at hm
  split at hm
  · cases hm
  rename_i hfree
  obtain ⟨k, hk⟩ := Option.isSome_iff_exists.1 (Option.isSome_iff_ne_none.2 (mt Option.isNone_iff_eq_none.2 hfree))
  change execRebalance d s = _
  unfold execRebalance
  dsimp only
  rw [if_neg (not_balance_early hdue), hmod, hk, hm]
  rfl

/-- Settles O36: each row by the test that its step makes. -/
theorem scheduleSteps : Obligations.ScheduleSteps := by
  intro d txid gid node
  simp only [scheduleTable, List.forall_mem_cons]
  refine ⟨?take, ?translate, ?tooLong, ?retry, ?fail, ?move, ?place, ?freed, ?tracked, ?drained, ?drainedDead, ?commit, ?committed,
    ?turns, ?swap, ?restorable, ?forced, ?balance, ?moves, List.forall_mem_nil _⟩
  case take =>
    refine row_holds fun s hok => ?_
    obtain ⟨hnext, hrec⟩ := Bool.and_eq_true_iff.1 hok
    exact recordTake_step hnext hrec
  case translate =>
    refine row_holds fun s hok => ?_
    obtain ⟨htrans, hcount⟩ := Bool.and_eq_true_iff.1 hok
    rw [translate_step htrans, if_neg (Nat.not_lt.mpr (of_decide_eq_true hcount))]
  case tooLong =>
    refine row_holds fun s hok => ?_
    obtain ⟨htrans, hcount⟩ := Bool.and_eq_true_iff.1 hok
    rw [translate_step htrans, if_pos (of_decide_eq_true hcount)]
  case retry => exact transAnswer_row (f := fun s _ => _) fun s => rfl
  case fail => exact transAnswer_row (f := fun s t => s.endTrans d t St.extent) fun s => rfl
  case move =>
    refine row_holds fun s hok => ?_
    obtain ⟨hup, hmove⟩ := Bool.and_eq_true_iff.1 hok
    exact groupPlace_move hup hmove
  case place =>
    refine row_holds fun s hok => ?_
    simp only [Bool.and_eq_true] at hok
    obtain ⟨⟨hup, hmove⟩, hnext⟩ := hok
    exact groupPlace_candidate hup hmove hnext
  case freed =>
    refine row_holds fun s hok => ?_
    obtain ⟨hdone, hwork⟩ := Bool.and_eq_true_iff.1 hok
    rw [slotFree_step hdone, if_pos hwork]
  case tracked =>
    refine row_holds fun s hok => ?_
    obtain ⟨hdone, hwork⟩ := Bool.and_eq_true_iff.1 hok
    rw [slotFree_step hdone, if_neg (by simp [hwork])]
  case drained => exact row_holds fun s hok => trackerDrain_step hok
  case drainedDead => exact row_holds fun s hok => trackerDrain_step hok
  case commit =>
    refine row_holds fun s hok => ?_
    exact congrArg Host.Outcome.next (State.modDie_congr s d _ _ (if_pos hok))
  case committed => exact row_holds fun s hok => commitComplete_step hok
  case turns => exact row_holds fun s hok => irrevocableResume_step hok
  case swap =>
    refine row_holds fun s hok => ?_
    obtain ⟨hready, hvictim⟩ := Bool.and_eq_true_iff.1 hok
    exact swapOut_step hready hvictim
  case restorable => exact row_holds fun s hok => rfl
  case forced => exact row_holds fun s hok => preemptForcedSave_step hok
  case balance =>
    refine row_holds fun s hok => ?_
    obtain ⟨hdue, hmove⟩ := Bool.and_eq_true_iff.1 hok
    exact rebalance_none hdue hmove
  case moves =>
    refine row_holds fun s hok => ?_
    obtain ⟨hdue, hmove⟩ := Bool.and_eq_true_iff.1 hok
    exact rebalance_some hdue hmove

open Sys2Proof.Claims

/-! ## Limits that pass, ends of gate calls, cairns -/

theorem running_of_any {d gid : Nat} {s : State} {p : Group → Bool} (h : (runs d gid s).any p = true) :
    ∃ g, (s.die d).running gid = some g ∧ runs d gid s = some g ∧ p g = true := by
  obtain ⟨g, hg, hp⟩ := (Option.any_eq_true ..).1 h
  exact ⟨g, hg, hg, hp⟩

theorem watchdog_step {d gid warp : Nat} {s : State}
    (h : ((runs d gid s).any fun g => 2 ^ g.wdlimit ≤ tgetD g.wdcount warp 0 && !g.stopped warp) = true) :
    exec (.watchdog d gid warp) s =
      .next ((s.modGroup d gid fun g => { g with wdcount := tdel g.wdcount warp }).asynchronous d gid Cause.watchdog warp) := by
  obtain ⟨g, hg, -, htests⟩ := running_of_any h
  simp only [Bool.and_eq_true, decide_eq_true_eq, Bool.not_eq_true'] at htests
  obtain ⟨hcount, hstopped⟩ := htests
  change execWatchdog d gid warp s = _
  unfold execWatchdog
  rw [hg]
  exact if_neg (by simp [hstopped, Nat.not_lt.mpr hcount])

theorem watchdogKill_step {d gid : Nat} {s : State}
    (h : ((s.group? d gid).any fun g => g.trap.any fun t =>
      t.cause == Cause.watchdog && !t.exited && t.at_ + 100 * usec ≤ (s.die d).ps) = true) :
    exec (.watchdogKill d gid) s = .next (s.killWith d gid St.watchdog) := by
  obtain ⟨g, hg, hp⟩ := (Option.any_eq_true ..).1 h
  change execWatchdogKill d gid s = _
  unfold execWatchdogKill
  rw [hg]
  exact if_pos hp

theorem poisonHandlerTimeout_step {d gid : Nat} {s : State}
    (h : ((s.group? d gid).any fun g => g.poisonDue.any (· ≤ (s.die d).ps)) = true) :
    exec (.poisonHandlerTimeout d gid) s = .next (s.killNode d (groupOf d gid s).node St.poison) := by
  obtain ⟨hg, hdue⟩ := group?_of_any h
  have hg : s.group? d gid = some (groupOf d gid s) := hg
  change execPoisonHandlerTimeout d gid s = _
  unfold execPoisonHandlerTimeout
  rw [hg]
  exact if_pos hdue

theorem cwaitWord_late (x : Nat) : cwaitWord x true = BitVec.ofNat 64 (waitResult x + 2 ^ 10) := by
  exact congrArg (BitVec.ofNat 64) (by simp [waitResult, cStatus, cDone, cCanc])

theorem lateCwait_eq_some {warp : Nat} {g : Group} {w : Wait} (h : lateCwait warp g = some w) :
    ∃ x o va t, w = .cwait x o va (some t) := by
  have hdue := List.find?_some h
  unfold cwaitDue at hdue
  split at hdue
  · exact ⟨_, _, _, _, rfl⟩
  · cases hdue

theorem cwaitTimeout_step {d gid warp : Nat} {s : State} (h : ((runs d gid s).any fun g => (lateCwait warp g).isSome) = true) :
    exec (.cwaitTimeout d gid warp) s = .next (
     let w := (((runs d gid s).bind (lateCwait warp))).getD (.cwait default default 0 none)
     s.modGroup d gid fun g => g.endWaits (· == w) ⟨false, BitVec.ofNat 64 (waitResult ((s.die d).object (waitCounter w)) + 2 ^ 10)⟩) := by
  obtain ⟨g, hg, hruns, hlate⟩ := running_of_any h
  obtain ⟨w, hw⟩ := Option.isSome_iff_exists.1 hlate
  obtain ⟨x, o, va, t, rfl⟩ := lateCwait_eq_some hw
  change execCwaitTimeout d gid warp s = _
  unfold execCwaitTimeout
  rw [hg]
  change (match lateCwait warp g with
    | some (.cwait x pa va t) => _
    | _ => _) = _
  rw [hruns, Option.bind_some, hw]
  exact congrArg (fun word => Host.Outcome.next (s.modGroup d gid fun g => g.endWaits (· == _) ⟨false, word⟩)) (cwaitWord_late _)

theorem gretComplete_step {d gid : Nat} {s : State}
    (h : ((runs d gid s).any fun g => (gateEnding g).isSome && !(s.die d).calleeBusy g) = true) :
    exec (.gretComplete d gid) s = .next (
     let g := (runs d gid s).getD default
     (s.modGroup d gid fun h => h.leaveGate (g.gates.headD default) g.gates.tail ((gateEnding g).getD 0)).deliverHeld d gid) := by
  obtain ⟨g, hg, hruns, htests⟩ := running_of_any h
  simp only [Bool.and_eq_true, Bool.not_eq_true'] at htests
  obtain ⟨hending, hbusy⟩ := htests
  obtain ⟨w, hw⟩ := Option.isSome_iff_exists.1 hending
  obtain ⟨f, hf, hend⟩ := Option.bind_eq_some_iff.1 hw
  obtain ⟨rest, hgates⟩ := List.head?_eq_some_iff.1 hf
  change execGretComplete d gid s = _
  unfold execGretComplete
  rw [hruns, hg, Option.getD_some]
  dsimp only
  rw [hw, hgates]
  dsimp only
  rw [hend]
  exact if_neg (by simp [hbusy])

theorem gateTimeout_step {d gid level : Nat} {s : State} (h : (runs d gid s).any (gateLate level) = true) :
    exec (.gateTimeout d gid level) s = .next (
     let i := ((runs d gid s).getD default).gateDepth - level
     ((s.withdrawWaits d gid level).closeStreams d gid level).modGroup d gid fun g =>
       { g with trap := none, gates := (g.gates.take (i + 1)).map GateFrame.timeOut ++ g.gates.drop (i + 1) }) := by
  obtain ⟨g, hg, hruns, htests⟩ := running_of_any h
  simp only [gateLate, Bool.and_eq_true, decide_eq_true_eq] at htests
  obtain ⟨⟨hzero, hdepth⟩, hlate⟩ := htests
  change execGateTimeout d gid level s = _
  unfold execGateTimeout
  rw [hruns, hg, Option.getD_some]
  dsimp only
  rw [if_neg (not_or.mpr ⟨by simpa using hzero, Nat.not_lt.mpr hdepth⟩), if_pos hlate]
  rfl

theorem cairnForm_step {d gid : Nat} {s : State}
    (h : ((runs d gid s).any fun g => (freeWarp g).isSome && g.chooseCairn.isSome && g.trap.isNone) = true) :
    exec (.cairnForm d gid) s = .next (
     let g := (runs d gid s).getD default
     s.modGroup d gid fun h => h.formWarp (g.chooseCairn.getD default) ((freeWarp g).getD 0)) := by
  obtain ⟨g, hg, hruns, htests⟩ := running_of_any h
  simp only [Bool.and_eq_true, Option.isNone_iff_eq_none] at htests
  obtain ⟨⟨hwarp, hcairn⟩, htrap⟩ := htests
  obtain ⟨w, hw⟩ := Option.isSome_iff_exists.1 hwarp
  obtain ⟨c, hc⟩ := Option.isSome_iff_exists.1 hcairn
  change execCairnForm d gid s = _
  unfold execCairnForm
  rw [hruns, hg, Option.getD_some]
  dsimp only
  have hfind : (List.range g.warps).find? (fun w => (g.members w).isEmpty) = some w := hw
  rw [hw, hc, hfind]
  exact if_neg (by simp [htrap])

/-- Settles O37: each row by the test that its step makes. -/
theorem limitSteps : Obligations.LimitSteps := by
  intro d gid warp thread level
  simp only [limitTable, List.forall_mem_cons]
  refine ⟨?watchdog, ?kill, ?poison, ?wait, ?sleep, ?cwait, ?gret, ?gate, ?cairn, List.forall_mem_nil _⟩
  case watchdog => exact row_holds fun s hok => watchdog_step hok
  case kill => exact row_holds fun s hok => watchdogKill_step hok
  case poison => exact row_holds fun s hok => poisonHandlerTimeout_step hok
  case wait =>
    refine row_holds fun s hok => ?_
    obtain ⟨g, hg⟩ := Option.isSome_iff_exists.1 hok
    change execWaitLimit d gid thread s = _
    unfold execWaitLimit
    rw [hg, show (s.die d).running gid = some g from hg]
    rfl
  case sleep =>
    refine row_holds fun s hok => ?_
    obtain ⟨g, hg⟩ := Option.isSome_iff_exists.1 hok
    change execSleepEnd d gid thread s = _
    unfold execSleepEnd
    rw [hg, show (s.die d).running gid = some g from hg]
    rfl
  case cwait => exact row_holds fun s hok => cwaitTimeout_step hok
  case gret => exact row_holds fun s hok => gretComplete_step hok
  case gate => exact row_holds fun s hok => gateTimeout_step hok
  case cairn => exact row_holds fun s hok => cairnForm_step hok

open Sys2Proof.Claims

/-! ## The engines of a core and a cluster -/

theorem matrixPassGrant_step {d cluster : Nat} {s : State} (h : (passNext d cluster s).isSome = true) :
    exec (.matrixPassGrant d cluster) s = .next (
     let e := (passNext d cluster s).getD default
     (onDie d (fun x => x.modCluster cluster fun k => { k with running := some e.id, ran := 0, table := k.table.map (aged e) })
       (s.markEligible d cluster)).fetchPass d cluster e) := by
  obtain ⟨e, he⟩ := Option.isSome_iff_exists.1 h
  rw [he, Option.getD_some]
  unfold passNext at he
  dsimp only at he
  split at he
  · cases he
  rename_i hidle
  change execMatrixPassGrant d cluster s = _
  unfold execMatrixPassGrant
  dsimp only
  rw [Option.not_isSome_iff_eq_none.1 hidle, he]
  rfl

theorem matrixPassEnd_step {d cluster : Nat} {e : MatEntry} {s : State} (he : passNow d cluster s = some e)
    (hpin : ((s.die d).cluster cluster).pinWait = false) :
    exec (.matrixPassEnd d cluster) s = .next (passEnded d cluster e (fun x =>
      if e.op.steps ≤ stepsDone e then x.completeEntry cluster e
      else x.modCluster cluster fun k =>
        { k with running := none, table := modWhere (fun y => y.id == e.id) (fun y => { y with done := stepsDone e }) k.table }) s) := by
  have hnow : ((s.die d).cluster cluster).current = some e := he
  change execMatrixPassEnd d cluster s = _
  unfold execMatrixPassEnd
  dsimp only
  rw [hnow]
  exact if_neg (by simp [hpin])

theorem tilePinReleaseResume_step {d cluster : Nat} {s : State} (he : (passNow d cluster s).isSome = true)
    (hpin : ((s.die d).cluster cluster).pinWait = true) :
    exec (.tilePinReleaseResume d cluster) s = .next (s.fetchPass d cluster ((passNow d cluster s).getD default)) := by
  obtain ⟨e, he⟩ := Option.isSome_iff_exists.1 he
  have hnow : ((s.die d).cluster cluster).current = some e := he
  change execTilePinReleaseResume d cluster s = _
  unfold execTilePinReleaseResume
  dsimp only
  rw [hnow, he]
  exact congrArg Host.Outcome.next (if_pos hpin)

theorem copyOf_any {d core copy : Nat} {s : State} {p : Copy × Group → Bool} (h : (copyOf d core copy s).any p = true) :
    ((s.die d).core core).copy? copy = some (theCopy d core copy s) ∧
      s.group? d (theCopy d core copy s).gid = some (groupOf d (theCopy d core copy s).gid s) ∧
      p (theCopy d core copy s, groupOf d (theCopy d core copy s).gid s) = true := by
  obtain ⟨x, hx, hp⟩ := (Option.any_eq_true ..).1 h
  obtain ⟨c, hc, hmap⟩ := Option.bind_eq_some_iff.1 hx
  obtain ⟨g, hg, rfl⟩ := Option.map_eq_some_iff.1 hmap
  have hcopy : theCopy d core copy s = c := by simp [theCopy, hc]
  have hgroup : groupOf d c.gid s = g := by simp [groupOf, hg]
  rw [hcopy, hgroup]
  exact ⟨hc, hg, hp⟩

theorem rowStep_of_ready {kind : CopyKind} {d core copy row : Nat} {s : State} (h : rowReady kind d core copy row s = true) :
    s.rowStep d core copy row kind = (s.performRow d core (theCopy d core copy s) row).pump d core := by
  obtain ⟨hc, hg, htests⟩ := copyOf_any h
  simp only [Bool.and_eq_true, beq_iff_eq] at htests
  obtain ⟨⟨⟨hkind, hturn⟩, hrow⟩, hfree⟩ := htests
  unfold State.rowStep
  dsimp only
  rw [hc]
  dsimp only
  rw [hg]
  exact if_pos ⟨hkind, hturn, hrow, hfree⟩

theorem streamSlotDeq_step {d core copy : Nat} {s : State} (h : slotReady d core copy s = true) :
    exec (.streamSlotDeq d core copy) s = .next
      (s.streamAsk d core (theCopy d core copy s) (groupOf d (theCopy d core copy s).gid s)) := by
  obtain ⟨hc, hg, htests⟩ := copyOf_any h
  have hid : (theCopy d core copy s).id = copy := by simpa using List.find?_some hc
  simp only [Bool.and_eq_true, beq_iff_eq] at htests
  obtain ⟨⟨⟨⟨hkind, hphase⟩, hturn⟩, hbusy⟩, hfree⟩ := htests
  change execStreamSlotDeq d core copy s = _
  unfold execStreamSlotDeq
  dsimp only
  rw [hc]
  dsimp only
  rw [hg]
  exact if_pos ⟨hkind, hphase, by rw [hid]; exact hturn, hbusy, hfree⟩

theorem copy?_of_any {d core copy : Nat} {s : State} {p : Copy → Bool} (h : (((s.die d).core core).copy? copy).any p = true) :
    ((s.die d).core core).copy? copy = some (theCopy d core copy s) ∧ p (theCopy d core copy s) = true := by
  obtain ⟨c, hc, hp⟩ := (Option.any_eq_true ..).1 h
  have hcopy : theCopy d core copy s = c := by simp [theCopy, hc]
  rw [hcopy]
  exact ⟨hc, hp⟩

theorem drainQueuePut_step {d core copy : Nat} {s : State} (h : drainReady d core copy s = true) :
    exec (.drainQueuePut d core copy) s = .next (s.drainReserve d core (theCopy d core copy s)) := by
  obtain ⟨hc, htests⟩ := copy?_of_any h
  simp only [Bool.and_eq_true, beq_iff_eq] at htests
  obtain ⟨⟨⟨⟨hkind, hturn⟩, hbusy⟩, hretry⟩, hgrant⟩ := htests
  change execDrainQueuePut d core copy s = _
  unfold execDrainQueuePut
  dsimp only
  rw [hc]
  exact if_pos ⟨hkind, hturn, hbusy, hretry, hgrant⟩

theorem drainReserveRetry_step {d core copy : Nat} {s : State}
    (h : ((((s.die d).core core).copy? copy).any fun c => c.kind == .drainQueue && c.retry) = true) :
    exec (.drainReserveRetry d core copy) s = .next (s.drainReserve d core (theCopy d core copy s)) := by
  obtain ⟨hc, htests⟩ := copy?_of_any h
  simp only [Bool.and_eq_true, beq_iff_eq] at htests
  change execDrainReserveRetry d core copy s = _
  unfold execDrainReserveRetry
  rw [hc]
  exact if_pos htests

theorem launchHead_any {d core : Nat} {s : State} {p : PendLaunch → Bool} (h : (launchHead d core s).any p = true) :
    ∃ l, ((s.die d).core core).headLaunch = some l ∧ launchHead d core s = some l ∧ p l = true := by
  obtain ⟨l, hl, hp⟩ := (Option.any_eq_true ..).1 h
  exact ⟨l, hl, hl, hp⟩

/-- Settles O38: each row by the test that its step makes. -/
theorem engineSteps : Obligations.EngineSteps := by
  intro d cluster core copy row
  simp only [engineTable, List.forall_mem_cons]
  refine ⟨?grant, ?ends, ?goesOn, ?pin, ?fill, ?drain, ?slot, ?put, ?putRetry, ?launch, ?launchRetry, List.forall_mem_nil _⟩
  case grant => exact row_holds fun s hok => matrixPassGrant_step hok
  case ends =>
    refine row_holds fun s hok => ?_
    simp only [Bool.and_eq_true, Bool.not_eq_true'] at hok
    obtain ⟨e, he, hsteps⟩ := (Option.any_eq_true ..).1 hok.1
    rw [matrixPassEnd_step he hok.2, he]
    simp only [if_pos (of_decide_eq_true hsteps), Option.getD_some]
  case goesOn =>
    refine row_holds fun s hok => ?_
    simp only [Bool.and_eq_true, Bool.not_eq_true'] at hok
    obtain ⟨e, he, hsteps⟩ := (Option.any_eq_true ..).1 hok.1
    rw [matrixPassEnd_step he hok.2, he]
    simp only [if_neg (Nat.not_le.mpr (of_decide_eq_true hsteps)), Option.getD_some]
  case pin =>
    refine row_holds fun s hok => ?_
    obtain ⟨hnow, hpin⟩ := Bool.and_eq_true_iff.1 hok
    exact tilePinReleaseResume_step hnow hpin
  case fill => exact row_holds fun s hok => congrArg Host.Outcome.next (rowStep_of_ready hok)
  case drain => exact row_holds fun s hok => congrArg Host.Outcome.next (rowStep_of_ready hok)
  case slot => exact row_holds fun s hok => streamSlotDeq_step hok
  case put => exact row_holds fun s hok => drainQueuePut_step hok
  case putRetry => exact row_holds fun s hok => drainReserveRetry_step hok
  case launch =>
    refine row_holds fun s hok => ?_
    obtain ⟨l, hl, hhead, htests⟩ := launchHead_any hok
    simp only [Bool.and_eq_true, Bool.not_eq_true', Option.isNone_iff_eq_none] at htests
    obtain ⟨⟨hbusy, hretry⟩, hgrant⟩ := htests
    change execPendingLaunchDrain d core s = _
    unfold execPendingLaunchDrain
    rw [hl, hhead]
    exact congrArg Host.Outcome.next (if_neg (by simp [hbusy, hretry, hgrant]))
  case launchRetry =>
    refine row_holds fun s hok => ?_
    obtain ⟨l, hl, hhead, hretry⟩ := launchHead_any hok
    change execLaunchReserveRetry d core s = _
    unfold execLaunchReserveRetry
    rw [hl, hhead]
    exact congrArg Host.Outcome.next (if_pos hretry)

end Sys2Proof.Machine
end

section
/-! PROOFS. What messages, the memory service, commands, links, the host port and management leave. -/

namespace Sys2Proof.Machine
open Sys2Proof.Claims

/-! ## A reservation of another package at a die of alarm level 2 (R431) -/

/-- RESV of one ticket of queue 2 of die 0, from die 0 of package 1, with the incarnation of its home. -/
def foreignResv : Msg :=
  { kind := Kind.resv, dpkg := 0, ddie := 0, inc := 1, spkg := 1, sdie := 0, mseq := 0, qidx := 2, qgen := 1, ticket := 0, status := 0
    pid := 0, dom := 0, arg0 := 1, arg1 := 0, arg2 := 0, arg3 := 0, bytes := [], mlen := 0, bad := [], pn := 0 }

/-- The state after reset, with die 0 at alarm level 2 and the reservation in its inbox. -/
def alarmed : State := State.reset.modDie 0 fun x => { x with alarm := 2, port := { x.port with inbox := [foreignResv] } }

/-- The next ticket number of each queue of die 0 in what a step answers. -/
def nextTickets (o : Host.Outcome State Fault Refusal) : List Nat :=
  match o with
  | .next s => (s.die 0).port.queues.map Queue.next
  | _ => []

/-- The state in which the reservation has been granted. -/
noncomputable def grantedAnyway : State :=
  let s := alarmed.dropMsg 0 0
  let t := onDie 0 (fun _ => (reserved 0 s foreignResv).2) s
  let q := ((t.die 0).queue? foreignResv.qidx).getD default
  t.answer 0 foreignResv Kind.grant St.ok fun a =>
    { a with ticket := (reserved 0 s foreignResv).1.2, arg0 := foreignResv.arg0, arg1 := BitVec.ofNat 64 q.esize, arg2 := BitVec.ofNat 64 q.life }

/-- What a row of a message says of a message in the inbox. -/
theorem exec_of_taken {i : Instr} {d k kind : Nat} {ok : State → Msg → Bool} {f : State → Msg → State}
    (h : (taken i d k kind ok f).Holds) {s : State} {m : Msg} (hm : (s.die d).message k kind = some m)
    (hok : ok (s.dropMsg d k) m = true) : exec i s = .next (f (s.dropMsg d k) m) := by
  have hmsg : messageAt d k kind s = m := by rw [messageAt, hm, Option.getD_some]
  have hcase : ((s.die d).message k kind).any (ok (s.dropMsg d k)) = true := by rw [hm]; exact hok
  have hstep : exec i s = .next (f (s.dropMsg d k) (messageAt d k kind s)) := h s hcase
  rw [hstep, hmsg]

theorem resv_grants_nothing : nextTickets (exec (.resv 0 0) alarmed) = [0, 0, 0, 0, 0, 0, 0, 0] := by decide +kernel

theorem grantedAnyway_nextTickets : nextTickets (.next grantedAnyway) = [0, 0, 1, 0, 0, 0, 0, 0] := by decide +kernel

theorem foreignResv_taken : (alarmed.die 0).message 0 Kind.resv = some foreignResv := by decide +kernel

theorem foreignResv_fits :
    (fresh 0 (alarmed.dropMsg 0 0) foreignResv && decide ((reserved 0 (alarmed.dropMsg 0 0) foreignResv).1.1 = St.ok)) = true := by
  decide +kernel

/-- Refutes O39: the rows leave out that a die at alarm level 2 answers TARGET_LOST to another package (R431). A reservation that comes
with the right incarnation is granted by its row; the step reserves nothing. -/
theorem not_messageSteps : ¬ Obligations.MessageSteps := by
  intro h
  have hrow := h 0 0 0 0
  simp only [messageTable, List.forall_mem_cons] at hrow
  obtain ⟨-, -, hresv, -⟩ := hrow
  have hnext : exec (.resv 0 0) alarmed = .next grantedAnyway := exec_of_taken hresv foreignResv_taken foreignResv_fits
  exact absurd (resv_grants_nothing.symm.trans ((congrArg nextTickets hnext).trans grantedAnyway_nextTickets)) (by decide)

open Sys2Proof.Claims

/-! ## What a request at the memory agent comes to -/

theorem svcHead_default (k : Nat) : (default : Die).svcHead k = none := by
  have h : (default : Die).nextFor 3 = none := by decide +kernel
  unfold Die.svcHead
  rw [h]
  rfl

theorem lt_dies_of_svcHead {s : State} {d k : Nat} {h : Nat × Ticket} (hh : (s.die d).svcHead k = some h) : d < s.dies.length := by
  refine Classical.byContradiction fun hd => ?_
  have hdie : s.die d = default := getD_of_length_le _ (Nat.not_lt.mp hd)
  rw [hdie, svcHead_default] at hh
  cases hh

theorem State.dies_length_modDie (s : State) (d : Nat) (f : Die → Die) : (s.modDie d f).dies.length = s.dies.length := by
  simp [State.modDie]

theorem admitsSvc_of_no_domain {d : Nat} {t : Ticket} {s : State} (h : (homeDomain d t s).isNone = true) :
    (s.die d).admitsSvc (svcOf t.bytes) t.dom = .refuse St.rights := by
  have hdom : (s.die d).domain (svcOf t.bytes).pn = none := Option.isNone_iff_eq_none.1 h
  unfold Die.admitsSvc
  rw [hdom]

theorem admitsSvc_of_ownDomain {d : Nat} {t : Ticket} {s : State} (h : ownDomain d t s = true) :
    (s.die d).admitsSvc (svcOf t.bytes) t.dom = .free := by
  obtain ⟨own, hown, hdom⟩ := (Option.any_eq_true ..).1 h
  have hdomain : (s.die d).domain (svcOf t.bytes).pn = some own := hown
  unfold Die.admitsSvc
  rw [hdomain]
  exact if_pos (by simpa using hdom)

/-- Where a registration is needed: the VALID one that fits admits the request; else it is REVOKED or has no right (R142, R144). -/
theorem admitsSvc_of_needsRegistration {d : Nat} {t : Ticket} {s : State} (h : needsRegistration d t s = true) :
    (s.die d).admitsSvc (svcOf t.bytes) t.dom =
      (admitting d t s).elim (.refuse (if revokedHere d t s then St.revoked else St.rights)) fun r => .reg r.index := by
  obtain ⟨own, hown, hdom⟩ := (Option.any_eq_true ..).1 h
  have hdomain : (s.die d).domain (svcOf t.bytes).pn = some own := hown
  unfold Die.admitsSvc
  rw [hdomain]
  dsimp only
  rw [if_neg (by simpa using hdom)]
  change (match admitting d t s with
    | some r => Admit.reg r.index
    | none => if revokedHere d t s then .refuse St.revoked else .refuse St.rights) = _
  cases admitting d t s with
  | some r => rfl
  | none => exact (apply_ite Admit.refuse ..).symm

theorem ite_or_eq_ite_not {α : Type} (p q : Bool) (a b : α) : (if p || q then b else a) = if !p && !q then a else b := by
  cases p <;> cases q <;> rfl

theorem ite_mayProceed {α : Type} (d : Nat) (t : Ticket) (s : State) (a b : α) :
    (if (s.die d).port.inMove (svcOf t.bytes).pn ((svcOf t.bytes).va / 65536) || (s.die d).port.waitsFor t.prod then b else a) =
      if mayProceed d t s then a else b :=
  ite_or_eq_ite_not ..

section
variable {d i : Nat} {t : Ticket} {s : State}

theorem serveSvc_of_poison (h : (t.bad.any fun w => w < 16) = true) :
    s.serveSvc d i t = (s.takeSvc d i t).replySvc d (svcOf t.bytes) St.poison 0 [] [] := if_pos h

theorem serveSvc_of_malformed (hbad : (t.bad.any fun w => w < 16) = false) (h : svcMalformed t.bytes = true) :
    s.serveSvc d i t = (s.takeSvc d i t).replySvc d (svcOf t.bytes) St.malformed 0 [] [] :=
  (if_neg (by simp [hbad])).trans (if_pos h)

theorem not_poison_of_intact (h : intact t = true) : (t.bad.any fun w => w < 16) = false ∧ svcMalformed t.bytes = false := by
  simpa [intact] using h

theorem serveSvc_of_refused {st : Nat} (h : intact t = true)
    (hadm : ((s.takeSvc d i t).die d).admitsSvc (svcOf t.bytes) t.dom = .refuse st) :
    s.serveSvc d i t = (s.takeSvc d i t).replySvc d (svcOf t.bytes) st 0 [] [] := by
  obtain ⟨hbad, hlayout⟩ := not_poison_of_intact h
  unfold State.serveSvc
  dsimp only
  rw [if_neg (by simp [hbad]), if_neg (by simp [hlayout]), hadm]

theorem serveSvc_of_free (h : intact t = true) (hadm : ((s.takeSvc d i t).die d).admitsSvc (svcOf t.bytes) t.dom = .free) :
    s.serveSvc d i t =
      if mayProceed d t (s.takeSvc d i t) then (s.takeSvc d i t).performSvc d (svcOf t.bytes) t.dom t.prod none t.bad
      else keptWaiting d t none (s.takeSvc d i t) := by
  obtain ⟨hbad, hlayout⟩ := not_poison_of_intact h
  unfold State.serveSvc
  dsimp only
  rw [if_neg (by simp [hbad]), if_neg (by simp [hlayout]), hadm]
  exact ite_mayProceed d t _ _ _

theorem serveSvc_of_registered {index : Nat} (h : intact t = true)
    (hadm : ((s.takeSvc d i t).die d).admitsSvc (svcOf t.bytes) t.dom = .reg index) :
    s.serveSvc d i t =
      if mayProceed d t (s.takeSvc d i t) then
        (countRaised d index (s.takeSvc d i t)).performSvc d (svcOf t.bytes) t.dom t.prod (some index) t.bad
      else keptWaiting d t (some index) (countRaised d index (s.takeSvc d i t)) := by
  obtain ⟨hbad, hlayout⟩ := not_poison_of_intact h
  unfold State.serveSvc
  dsimp only
  rw [if_neg (by simp [hbad]), if_neg (by simp [hlayout]), hadm]
  dsimp only
  have hraise : mayProceed d t (countRaised d index (s.takeSvc d i t)) = mayProceed d t (s.takeSvc d i t) := by
    unfold mayProceed countRaised onDie
    rw [State.die_modDie]
    split <;> rfl
  rw [← hraise]
  exact ite_mayProceed d t _ _ _

end

/-! ## What a request that is performed comes to -/

theorem leaf_of_leafIs {d : Nat} {v : Svc} {s : State} {ok : Nat → Nat → Bool} (h : leafIs d v s ok = true) :
    ∃ level e loc, (walkOf d v s).1 = .leaf level e loc ∧ v.va < 2 ^ 60 ∧ ok level e = true ∧ leafAt d v s = (level, e) := by
  unfold leafIs at h
  unfold leafAt
  split at h
  · rename_i level e loc hleaf
    obtain ⟨hva, hok⟩ := Bool.and_eq_true_iff.1 h
    exact ⟨level, e, loc, hleaf, of_decide_eq_true hva, hok, rfl⟩
  · cases h

section
variable {d : Nat} {t : Ticket} {v : Svc} {s : State} {dom : Word} {prod : Producer} {reg : Option Nat} {bad : List Nat}

theorem performSvc_of_high (h : 2 ^ 60 ≤ v.va) : s.performSvc d v dom prod reg bad = s.endSvc d v reg St.fault 0 [] [] := if_pos h

theorem performSvc_of_no_leaf (hva : v.va < 2 ^ 60) (h : (walkOf d v s).1 = .none ∨ (walkOf d v s).1 = .malformed) :
    s.performSvc d v dom prod reg bad = (walkOf d v s).2.endSvc d v reg St.fault 0 [] [] := by
  have hwalk : (walkOf d v s).1 = ((s.die d).translate v.pn v.va).1 := rfl
  unfold State.performSvc
  dsimp only
  rw [if_neg (Nat.not_le.mpr hva), ← hwalk]
  rcases h with h | h <;> rw [h] <;> rfl

/-- The state in which a request on a leaf has been counted for its block (R100). -/
def countedAt (d : Nat) (v : Svc) (prod : Producer) (level e : Nat) (s : State) : State :=
  match hotClass s.pkg d prod with
  | some c =>
    if isDevice (leafFrame e + if leafType e = 5 then 0 else v.va % 2 ^ levelShift level) then s
    else s.modDie d fun x => x.countHot c (leafFrame e + if leafType e = 5 then 0 else v.va % 2 ^ levelShift level)
  | none => s

theorem performSvc_of_leaf {level e loc : Nat} (hd : d < s.dies.length) (hva : v.va < 2 ^ 60) (hleaf : (walkOf d v s).1 = .leaf level e loc) :
    s.performSvc d v dom prod reg bad =
      if leafType e = 2 ∨ leafType e = 3 then
        (walkOf d v s).2.endSvc d v reg St.moved (bits e 47 32 * 2 ^ 32 + bits e 18 16 * 2 ^ 16) [] []
      else if ((walkOf d v s).2.die d).leafCause (dom == 0) v.acc e ≠ 0 then (walkOf d v s).2.endSvc d v reg St.fault 0 [] []
      else (v.spots level e).elim ((walkOf d v s).2.endSvc d v reg St.fault 0 [] []) fun sp =>
        (countedAt d v prod level e (walkOf d v s).2).performOn d v reg sp bad := by
  have hwalk : (walkOf d v s).1 = ((s.die d).translate v.pn v.va).1 := rfl
  have hdie : (walkOf d v s).2.die d = ((s.die d).translate v.pn v.va).2 := State.die_modDie_same _ hd
  rw [hdie]
  unfold State.performSvc
  dsimp only
  rw [if_neg (Nat.not_le.mpr hva), ← hwalk, hleaf]
  dsimp only
  cases v.spots level e with
  | none => rfl
  | some sp => rfl

theorem performOn_read {sp : List Spot} (h : v.op = 1) : s.performOn d v reg sp bad =
    (s.readSpots (agentAsks d) sp false).2.endSvc d v reg
      (if (s.readSpots (agentAsks d) sp false).1.any (·.2) then St.poison else St.ok) 0
      ((s.readSpots (agentAsks d) sp false).1.map (·.1)) (poisonWords (s.readSpots (agentAsks d) sp false).1) := by
  unfold State.performOn
  rw [h]
  rfl

theorem performOn_write {sp : List Spot} (h : v.op = 2) : s.performOn d v reg sp [] =
    (s.writeSpots (agentAsks d) sp (v.data.take v.size)).endSvc d v reg St.ok 0 [] [] := by
  have hmarked : (List.range v.size).filter (fun i => ([] : List Nat).contains (16 + i / 4)) = [] := by simp
  unfold State.performOn
  rw [h]
  dsimp only
  rw [hmarked]
  rfl

theorem performOn_atom {sp : List Spot} (h : v.op = 3) : s.performOn d v reg sp bad =
    if (s.readSpots (agentAsks d) sp false).1.any (·.2) then
      (s.readSpots (agentAsks d) sp false).2.endSvc d v reg St.poison (ofBytes ((s.readSpots (agentAsks d) sp false).1.map (·.1))) [] []
    else
      ((s.readSpots (agentAsks d) sp false).2.writeSpots (agentAsks d) sp
        (toBytes v.size (v.atomNew (ofBytes ((s.readSpots (agentAsks d) sp false).1.map (·.1)))))).endSvc d v reg St.ok
          (ofBytes ((s.readSpots (agentAsks d) sp false).1.map (·.1))) [] [] := by
  unfold State.performOn
  rw [h]
  rfl

/-- On a page that permits the request, it is performed at its places once it is counted. -/
theorem performSvc_of_permits (hd : d < s.dies.length) (h : leafIs d v s (permits d t v s) = true) :
    s.performSvc d v t.dom t.prod reg bad = (counted d t v s).performOn d v reg (svcPlaces d v s) bad := by
  obtain ⟨level, e, loc, hleaf, hva, hok, hat⟩ := leaf_of_leafIs h
  simp only [permits, Bool.and_eq_true, Bool.not_eq_true', Bool.or_eq_false_iff, beq_eq_false_iff_ne, beq_iff_eq] at hok
  obtain ⟨⟨htype, hcause⟩, hspots⟩ := hok
  obtain ⟨sp, hsp⟩ := Option.isSome_iff_exists.1 hspots
  have hplaces : svcPlaces d v s = sp := by rw [svcPlaces, hat, hsp, Option.getD_some]
  have hcounted : counted d t v s = countedAt d v t.prod level e (walkOf d v s).2 := by
    unfold counted countedAt onDie
    rw [hat]
    rfl
  rw [performSvc_of_leaf hd hva hleaf, if_neg (not_or.mpr htype), if_neg (Classical.not_not.mpr hcause), hsp, hplaces, hcounted]
  rfl

end

/-! ## The rows -/

theorem svcNext_any {d k : Nat} {ops : Nat → Bool} {s : State} {p : Nat × Ticket → Bool} (h : (svcNext d k ops s).any p = true) :
    ∃ i t, (s.die d).svcHead k = some (i, t) ∧ svcNext d k ops s = some (i, t) ∧ ops (svcOf t.bytes).op = true ∧ p (i, t) = true := by
  obtain ⟨⟨i, t⟩, hnext, hp⟩ := (Option.any_eq_true ..).1 h
  obtain ⟨hhead, hop⟩ := Option.filter_eq_some_iff.1 hnext
  exact ⟨i, t, hhead, hnext, hop, hp⟩

theorem served_holds {i : Instr} {d k : Nat} {ops : Nat → Bool} (hexec : ∀ s, exec i s = s.svcStep d k ops) :
    (served i d k ops fun s q t => s.serveSvc d q t).Holds := by
  refine row_holds fun s hok => (hexec s).trans ?_
  obtain ⟨q, t, hhead, hnext, hop, -⟩ := svcNext_any (p := fun _ => true) (by simpa [Option.any_eq_true, Option.isSome_iff_exists] using hok)
  unfold State.svcStep
  rw [hhead, hnext]
  exact if_pos hop

/-- A step of READ, WRITE or ATOM takes the element of the operation (log entry 36). -/
structure ServesOp (i : Instr) (d k op : Nat) : Prop where
  ops : ∃ f : Nat → Bool, f op = true ∧ ∀ s, exec i s = s.svcStep d k f

theorem svcRow_holds {i : Instr} {d k op : Nat} {ok : Ticket → State → Bool} {f : Ticket → Svc → State → State}
    (hserves : ServesOp i d k op)
    (h : ∀ (s : State) q t, d < (s.takeSvc d q t).dies.length → (svcOf t.bytes).op = op → ok t (s.takeSvc d q t) = true →
      s.serveSvc d q t = f t (svcOf t.bytes) (s.takeSvc d q t)) : (svcRow i d k op ok f).Holds := by
  obtain ⟨ops, hops, hexec⟩ := hserves.ops
  refine row_holds fun s hok => (hexec s).trans ?_
  obtain ⟨q, t, hhead, hnext, hop, hcase⟩ := svcNext_any hok
  have hop : (svcOf t.bytes).op = op := beq_iff_eq.1 hop
  unfold State.svcStep
  rw [hhead, hnext]
  dsimp only
  rw [hop, if_pos hops]
  refine congrArg Host.Outcome.next (h s q t ?_ hop hcase)
  rw [State.takeSvc, State.dies_length_modDie]
  exact lt_dies_of_svcHead hhead

theorem refusedRows_hold {i : Instr} {d k op : Nat} (hi : ServesOp i d k op) : ∀ c ∈ refusedRows i d k op, c.Holds := by
  simp only [refusedRows, List.forall_mem_cons]
  refine ⟨?poison, ?malformed, ?rights, ?revoked, ?unregistered, List.forall_mem_nil _⟩
  case poison => exact svcRow_holds hi fun s q t _ _ h => serveSvc_of_poison h
  case malformed =>
    refine svcRow_holds hi fun s q t _ _ h => ?_
    obtain ⟨hbad, hlayout⟩ := Bool.and_eq_true_iff.1 h
    exact serveSvc_of_malformed (by simpa using hbad) hlayout
  case rights =>
    refine svcRow_holds hi fun s q t _ _ h => ?_
    obtain ⟨hintact, hdom⟩ := Bool.and_eq_true_iff.1 h
    exact serveSvc_of_refused hintact (admitsSvc_of_no_domain hdom)
  case revoked =>
    refine svcRow_holds hi fun s q t _ _ h => ?_
    simp only [Bool.and_eq_true, Option.isNone_iff_eq_none] at h
    obtain ⟨⟨⟨hintact, hneeds⟩, hnone⟩, hrevoked⟩ := h
    refine serveSvc_of_refused hintact ((admitsSvc_of_needsRegistration hneeds).trans ?_)
    rw [hnone, if_pos hrevoked]
    rfl
  case unregistered =>
    refine svcRow_holds hi fun s q t _ _ h => ?_
    simp only [Bool.and_eq_true, Option.isNone_iff_eq_none, Bool.not_eq_true'] at h
    obtain ⟨⟨⟨hintact, hneeds⟩, hnone⟩, hrevoked⟩ := h
    refine serveSvc_of_refused hintact ((admitsSvc_of_needsRegistration hneeds).trans ?_)
    rw [hnone, if_neg (by simp [hrevoked])]
    rfl

theorem serveSvc_of_performable {d i : Nat} {t : Ticket} {s : State} (h : performable d t (s.takeSvc d i t) = true) :
    s.serveSvc d i t = (s.takeSvc d i t).performSvc d (svcOf t.bytes) t.dom t.prod none t.bad := by
  simp only [performable, Bool.and_eq_true] at h
  obtain ⟨⟨hintact, hown⟩, hmay⟩ := h
  rw [serveSvc_of_free hintact (admitsSvc_of_ownDomain hown), if_pos hmay]

theorem performedRows_hold {i : Instr} {d k op : Nat} {effect : List EventClaim} (hi : ServesOp i d k op)
    (heffect : ∀ c ∈ effect, c.Holds) : ∀ c ∈ performedRows i d k op effect, c.Holds := by
  simp only [performedRows, List.forall_mem_append, List.forall_mem_cons]
  refine ⟨⟨?high, ?unmapped, ?moved, ?fault, List.forall_mem_nil _⟩, heffect⟩
  case high =>
    refine svcRow_holds hi fun s q t _ _ h => ?_
    obtain ⟨hperf, hva⟩ := Bool.and_eq_true_iff.1 h
    exact (serveSvc_of_performable hperf).trans (performSvc_of_high (of_decide_eq_true hva))
  case unmapped =>
    refine svcRow_holds hi fun s q t _ _ h => ?_
    simp only [Bool.and_eq_true, decide_eq_true_eq] at h
    obtain ⟨⟨hperf, hva⟩, hwalk⟩ := h
    refine (serveSvc_of_performable hperf).trans (performSvc_of_no_leaf hva ?_)
    split at hwalk
    · exact .inl ‹_›
    · exact .inr ‹_›
    · cases hwalk
  case moved =>
    refine svcRow_holds hi fun s q t hd _ h => ?_
    obtain ⟨hperf, hleaf⟩ := Bool.and_eq_true_iff.1 h
    obtain ⟨level, e, loc, hleaf, hva, htype, hat⟩ := leaf_of_leafIs hleaf
    rw [serveSvc_of_performable hperf, performSvc_of_leaf hd hva hleaf, if_pos (by simpa using htype), hat]
  case fault =>
    refine svcRow_holds hi fun s q t hd _ h => ?_
    obtain ⟨hperf, hleaf⟩ := Bool.and_eq_true_iff.1 h
    obtain ⟨level, e, loc, hleaf, hva, hcase, -⟩ := leaf_of_leafIs hleaf
    obtain ⟨htype, hdenied⟩ := Bool.and_eq_true_iff.1 hcase
    rw [serveSvc_of_performable hperf, performSvc_of_leaf hd hva hleaf, if_neg (by simpa using htype)]
    split
    · rfl
    · rename_i hcause
      cases hsp : (svcOf t.bytes).spots level e with
      | none => rfl
      | some sp =>
        rw [permits, htype, hsp, Classical.not_not.mp hcause] at hdenied
        simp at hdenied

theorem onPage_holds {i : Instr} {d k op : Nat} {ok : Ticket → Svc → State → Bool} {f : Ticket → Svc → State → State}
    (hi : ServesOp i d k op)
    (h : ∀ t s, (svcOf t.bytes).op = op → ok t (svcOf t.bytes) s = true →
      (counted d t (svcOf t.bytes) s).performOn d (svcOf t.bytes) none (svcPlaces d (svcOf t.bytes) s) t.bad = f t (svcOf t.bytes) s) :
    (onPage i d k op ok f).Holds := by
  refine svcRow_holds hi fun s q t hd hop hcase => ?_
  simp only [Bool.and_eq_true] at hcase
  obtain ⟨⟨hperf, hleaf⟩, hok⟩ := hcase
  rw [serveSvc_of_performable hperf, performSvc_of_permits hd hleaf]
  exact h t _ hop hok

theorem admittedRows_hold {i : Instr} {d k op : Nat} (hi : ServesOp i d k op) : ∀ c ∈ admittedRows i d k op, c.Holds := by
  simp only [admittedRows, List.forall_mem_cons]
  refine ⟨?admitted, ?held, ?heldAdmitted, List.forall_mem_nil _⟩
  case admitted =>
    refine svcRow_holds hi fun s q t _ _ h => ?_
    simp only [Bool.and_eq_true] at h
    obtain ⟨⟨⟨hintact, hneeds⟩, hadm⟩, hmay⟩ := h
    obtain ⟨r, hr⟩ := Option.isSome_iff_exists.1 hadm
    rw [serveSvc_of_registered (index := r.index) hintact (by rw [admitsSvc_of_needsRegistration hneeds, hr]; rfl), if_pos hmay, hr]
    rfl
  case held =>
    refine svcRow_holds hi fun s q t _ _ h => ?_
    simp only [Bool.and_eq_true, Bool.not_eq_true'] at h
    obtain ⟨⟨hintact, hmay⟩, hown⟩ := h
    rw [serveSvc_of_free hintact (admitsSvc_of_ownDomain hown), if_neg (by simp [hmay])]
  case heldAdmitted =>
    refine svcRow_holds hi fun s q t _ _ h => ?_
    simp only [Bool.and_eq_true, Bool.not_eq_true'] at h
    obtain ⟨⟨⟨hintact, hmay⟩, hneeds⟩, hadm⟩ := h
    obtain ⟨r, hr⟩ := Option.isSome_iff_exists.1 hadm
    rw [serveSvc_of_registered (index := r.index) hintact (by rw [admitsSvc_of_needsRegistration hneeds, hr]; rfl),
      if_neg (by simp [hmay]), hr]
    rfl

/-! ## Migration and page moves -/

theorem migrate_served (d k : Nat) : (served (.migrate d k) d k (· == 4) fun s q t => s.serveMigrate d q t).Holds := by
  refine row_holds fun s hok => ?_
  obtain ⟨q, t, hhead, hnext, hop, -⟩ := svcNext_any (p := fun _ => true) (by simpa [Option.any_eq_true, Option.isSome_iff_exists] using hok)
  change execMigrate d k s = _
  unfold execMigrate
  rw [hhead, hnext]
  exact if_pos (beq_iff_eq.1 hop)

theorem migrate_decided (d k : Nat) : (decided d k).Holds := by
  refine row_holds fun s hok => ?_
  obtain ⟨q, t, hhead, hnext, hop, hcase⟩ := svcNext_any hok
  simp only [Bool.and_eq_true, Bool.not_eq_true'] at hcase
  obtain ⟨⟨⟨hintact, hother⟩, hfirst⟩, hdomain⟩ := hcase
  obtain ⟨own, hown, hdom⟩ := (Option.any_eq_true ..).1 hdomain
  obtain ⟨hbad, hlayout⟩ := not_poison_of_intact hintact
  change execMigrate d k s = _
  unfold execMigrate
  rw [hhead, hnext]
  dsimp only
  rw [if_pos (beq_iff_eq.1 hop)]
  refine congrArg Host.Outcome.next ?_
  unfold State.serveMigrate
  dsimp only
  rw [if_neg (by simp [hbad]), if_neg (by rw [hlayout]; simpa [State.takeSvc, State.modDie] using hother), hown]
  dsimp only
  rw [if_neg (Classical.not_not.mpr (by simpa using hdom)), if_neg (by simp [hfirst])]
  rfl

theorem moveEndResume_step {d k : Nat} {migrate : Bool} {s : State} (h : (movedOver d k migrate s).isSome = true) :
    exec (.moveEndResume d k) s = .next (
      let w := (movedOver d k migrate s).getD default
      let gone := onDie d (fun x => x.modPort fun p => { p with waiting := p.waiting.filter fun x => x.id != k }) s
      if migrate then gone.decideMigrate d (svcOf w.bytes) w.prod
      else gone.performSvc d (svcOf w.bytes) w.dom w.prod w.reg w.bad) := by
  obtain ⟨w, hw⟩ := Option.isSome_iff_exists.1 h
  obtain ⟨hfind, htests⟩ := Option.filter_eq_some_iff.1 hw
  simp only [Bool.and_eq_true, beq_iff_eq] at htests
  obtain ⟨⟨hop, hmove⟩, hfirst⟩ := htests
  rw [hw, Option.getD_some]
  change execMoveEndResume d k s = _
  unfold execMoveEndResume
  dsimp only
  rw [hfind]
  dsimp only
  cases migrate with
  | false =>
    have hop : (svcOf w.bytes).op ≠ 4 := by simpa using hop
    rw [if_neg (not_or.mpr ⟨by simpa [hop] using hmove, Classical.not_not.mpr hfirst⟩), if_neg hop]
    rfl
  | true =>
    have hop : (svcOf w.bytes).op = 4 := by simpa using hop
    rw [if_neg (not_or.mpr ⟨fun h => h.1 hop, Classical.not_not.mpr hfirst⟩), if_pos hop]
    rfl

/-- Settles O40: the STATUS of each request follows the agent's checks in their order (R139 to R144). -/
theorem serviceSteps : Obligations.ServiceSteps := by
  intro d k
  have hread : ServesOp (.memsvcRead d k) d k 1 := ⟨fun o => o == 1 || o == 0 || 4 < o, rfl, fun _ => rfl⟩
  have hwrite : ServesOp (.memsvcWrite d k) d k 2 := ⟨(· == 2), rfl, fun _ => rfl⟩
  have hatom : ServesOp (.memsvcAtom d k) d k 3 := ⟨(· == 3), rfl, fun _ => rfl⟩
  simp only [serviceTable, List.forall_mem_append]
  refine ⟨⟨⟨⟨⟨⟨⟨⟨⟨?steps, refusedRows_hold hread⟩, refusedRows_hold hwrite⟩, refusedRows_hold hatom⟩,
    performedRows_hold hread ?reads⟩, performedRows_hold hwrite ?writes⟩, performedRows_hold hatom ?atoms⟩,
    admittedRows_hold hread⟩, admittedRows_hold hwrite⟩, admittedRows_hold hatom⟩
  case steps =>
    simp only [List.forall_mem_cons]
    refine ⟨served_holds fun _ => rfl, served_holds fun _ => rfl, served_holds fun _ => rfl, migrate_served d k, migrate_decided d k,
      ?send, ?resume, ?resumeMigrate, List.forall_mem_nil _⟩
    case send =>
      refine row_holds fun s hok => ?_
      obtain ⟨m, hm⟩ := Option.isSome_iff_exists.1 hok
      have hfind : ((s.die d).port.moves.find? fun m => m.id == k && !m.sent) = some m := hm
      change execMigratePageSend d k s = _
      unfold execMigratePageSend
      rw [hfind, hm]
      rfl
    case resume => exact row_holds fun s hok => moveEndResume_step (migrate := false) hok
    case resumeMigrate => exact row_holds fun s hok => moveEndResume_step (migrate := true) hok
  case reads =>
    simp only [readEffect, List.forall_mem_singleton]
    exact onPage_holds hread fun t s hop _ => performOn_read hop
  case writes =>
    simp only [writeEffect, List.forall_mem_singleton]
    refine onPage_holds hwrite fun t s hop hclean => ?_
    rw [List.isEmpty_iff.1 hclean]
    exact performOn_write hop
  case atoms =>
    simp only [atomEffect, List.forall_mem_cons]
    refine ⟨onPage_holds hatom fun t s hop hpoison => ?_, onPage_holds hatom fun t s hop hclean => ?_, List.forall_mem_nil _⟩
    · exact (performOn_atom hop).trans (if_pos hpoison)
    · exact (performOn_atom hop).trans (if_neg (Bool.eq_false_iff.1 ((Bool.not_eq_true' _).mp hclean)))

open Sys2Proof.Claims

/-! ## Queue-port commands -/

/-- A row of a command holds when, in its case, the command has the row's effect. -/
theorem command_row {i : Instr} {d op : Nat} {index : Option Nat} {g f : State → State} {ok : State → Bool}
    (hexec : ∀ s, exec i s = s.commandStep d op index g) (hcommanded : ∀ s, ok s = true → commanded d op index s = true)
    (h : ∀ s, ok s = true → g s = f s) : (EventClaim.mk i ok f).Holds := by
  refine row_holds fun s hok => (hexec s).trans ?_
  obtain ⟨c, hc, hindex⟩ := (Option.any_eq_true ..).1 (hcommanded s hok)
  unfold State.commandStep
  rw [hc]
  dsimp only
  rw [if_pos hindex, h s hok]
  rfl

theorem left_of_and {a b : Bool} (h : (a && b) = true) : a = true := (Bool.and_eq_true_iff.1 h).1

theorem left_of_and_and {a b c : Bool} (h : (a && b && c) = true) : a = true := left_of_and (left_of_and h)

theorem commandFails_holds {i : Instr} {d op st : Nat} {index : Option Nat} {g : State → State} {ok : State → Bool}
    (hexec : ∀ s, exec i s = s.commandStep d op index g) (h : ∀ s, ok s = true → g s = s.endCommand d st 0) :
    (commandFails i d op index st ok).Holds :=
  command_row hexec (fun _ hok => left_of_and hok) fun s hok => h s (Bool.and_eq_true_iff.1 hok).2

/-! ### CREATE -/

/-- The status of CREATE. -/
def createAnswer (d index : Nat) (s : State) : Nat :=
  if (s.argBlock d).1.2 then St.malformed else ((afterBlock d s).die d).createStatus (s.argBlock d).1.1 index

theorem createOk_iff {d index : Nat} {s : State} : createOk d index s = true ↔ createAnswer d index s = St.ok := by
  unfold createOk createAnswer afterBlock
  cases (s.argBlock d).1.2 with
  | true => simp [St.malformed, St.ok]
  | false => simp

theorem create_of_ok {d index : Nat} {s : State} (h : createOk d index s = true) : s.create d index = created d index s := by
  have hst : createAnswer d index s = St.ok := createOk_iff.1 h
  change (if createAnswer d index s ≠ St.ok then (s.argBlock d).2 else _).endCommand d (createAnswer d index s) 0 = _
  rw [hst, if_neg (Classical.not_not.mpr rfl)]
  rfl

theorem create_of_not_ok {d index : Nat} {s : State} (h : createOk d index s = false) :
    s.create d index = (afterBlock d s).endCommand d (createAnswer d index s) 0 := by
  have hst : createAnswer d index s ≠ St.ok := fun hok => by simp [createOk_iff.2 hok] at h
  change (if createAnswer d index s ≠ St.ok then (s.argBlock d).2 else _).endCommand d (createAnswer d index s) 0 = _
  rw [if_pos hst]
  rfl

/-! ### DESTROY -/

theorem keeps_iff_begun (d : Nat) (q : Queue) (s : State) (t : Ticket) :
    (t.st == .taken && !t.delivered && (q.ckind != 4 || (s.servedBy d q).isSome)) = begun d q s t := by
  unfold begun State.servedBy
  rw [List.isSome_find?]

theorem endQueue_eq_destroyed (d : Nat) (q : Queue) (s : State) : s.endQueue d q = destroyed d q s := by
  have hkeep : (fun (t : Ticket) => t.st == .taken && !t.delivered && (q.ckind != 4 || (s.servedBy d q).isSome)) = begun d q s :=
    funext (keeps_iff_begun d q s)
  unfold State.endQueue destroyed
  dsimp only
  rw [hkeep]
  rfl

theorem destroy_of_live {d index : Nat} {s : State} (hindex : 16 ≤ index) (hlive : (liveQueue d index s).isSome = true) :
    s.destroy d index = (destroyed d ((liveQueue d index s).getD default) s).removeQueue d index := by
  obtain ⟨q, hq⟩ := Option.isSome_iff_exists.1 hlive
  obtain ⟨hqueue, hgen⟩ := Option.filter_eq_some_iff.1 hq
  unfold State.destroy
  rw [if_neg (Nat.not_lt.mpr hindex), hqueue, hq]
  dsimp only
  rw [if_neg (by simpa using hgen), endQueue_eq_destroyed]
  rfl

theorem removeQueue_of_open {d index : Nat} {s : State}
    (h : ((s.die d).queue? index).any (fun q => q.tickets.any fun t => t.st == .taken && !t.delivered) = true) :
    s.removeQueue d index = s := by
  obtain ⟨q, hq, hopen⟩ := (Option.any_eq_true ..).1 h
  unfold State.removeQueue
  rw [hq]
  exact if_pos hopen

theorem removeQueue_of_ended {d index : Nat} {s : State} (hsome : ((s.die d).queue? index).isSome = true)
    (h : ((s.die d).queue? index).any (fun q => q.tickets.any fun t => t.st == .taken && !t.delivered) = false) :
    s.removeQueue d index = removed d index s := by
  obtain ⟨q, hq⟩ := Option.isSome_iff_exists.1 hsome
  rw [hq] at h
  unfold State.removeQueue
  rw [hq]
  exact if_neg (by rw [Option.any_some] at h; rw [h]; exact Bool.false_ne_true)

theorem destroyRows_hold (d index : Nat) : ∀ c ∈ destroyRows d index, c.Holds := by
  simp only [destroyRows, List.forall_mem_cons]
  refine ⟨?low, ?none, ?removes, ?waits, List.forall_mem_nil _⟩
  case low => exact commandFails_holds (fun _ => rfl) fun s h => if_pos (of_decide_eq_true h)
  case none =>
    refine commandFails_holds (g := fun s => s.destroy d index) (fun _ => rfl) fun s h => ?_
    obtain ⟨hindex, hqueue⟩ := Bool.and_eq_true_iff.1 h
    unfold State.destroy
    rw [if_neg (Nat.not_lt.mpr (of_decide_eq_true hindex)), Option.isNone_iff_eq_none.1 hqueue]
  case removes =>
    refine command_row (g := fun s => s.destroy d index) (fun _ => rfl) (fun s h => left_of_and_and (left_of_and_and h)) fun s h => ?_
    simp only [Bool.and_eq_true, Bool.not_eq_true', decide_eq_true_eq] at h
    obtain ⟨⟨⟨⟨-, hindex⟩, hlive⟩, hsome⟩, hended⟩ := h
    rw [destroy_of_live hindex hlive]
    exact removeQueue_of_ended hsome hended
  case waits =>
    refine command_row (g := fun s => s.destroy d index) (fun _ => rfl) (fun s h => left_of_and_and (left_of_and h)) fun s h => ?_
    simp only [Bool.and_eq_true, decide_eq_true_eq] at h
    obtain ⟨⟨⟨-, hindex⟩, hlive⟩, hopen⟩ := h
    rw [destroy_of_live hindex hlive]
    exact removeQueue_of_open hopen

/-! ### NAMEINV and REGISTER -/

theorem blockOf_eq_some {d : Nat} {s : State} {x : Nat} (h : blockOf d s = some x) :
    (s.argBlock d).1.2 = false ∧ (s.argBlock d).1.1 = x := by
  unfold blockOf at h
  split at h
  · cases h
  · rename_i hbad
    exact ⟨Bool.eq_false_iff.2 hbad, Option.some.inj h⟩

theorem nameinv_of_block {d x : Nat} {s : State} (h : blockOf d s = some x) :
    s.nameinv d = namesDropped d (fun n => n.pn == bits x 11 0 && (bit x 64 || n.vqn == bits x 63 32)) s := by
  obtain ⟨hbad, rfl⟩ := blockOf_eq_some h
  unfold State.nameinv namesDropped
  dsimp only
  rw [hbad]
  rfl

theorem register_malformed {d : Nat} {s : State} (h : (blockOf d s).any recordGood = false) :
    s.register d = (afterBlock d s).endCommand d St.malformed 0 := by
  unfold State.register
  dsimp only
  refine if_pos ?_
  unfold blockOf at h
  cases hbad : (s.argBlock d).1.2 with
  | true => exact .inl rfl
  | false =>
    rw [hbad] at h
    have hrecord : registrationOk (s.argBlock d).1.1 = false := h
    exact .inr (by rw [hrecord]; rfl)

theorem freeRegistration_afterBlock (d : Nat) (s : State) :
    ((s.argBlock d).2.die d).port.freeRegistration = freeEntry d s := by
  unfold Port.freeRegistration freeEntry afterBlock registrationLimit
  rfl

theorem register_good {d x : Nat} {s : State} (hx : blockOf d s = some x) (hgood : recordGood x = true) :
    s.register d = (freeEntry d s).elim ((afterBlock d s).endCommand d St.nospace 0) fun i =>
      (onDie d (fun y => y.modPort fun p => { p with registrations := p.registrations ++ [registrationOf x i] })
        (afterBlock d s)).endCommand d St.ok i := by
  obtain ⟨hbad, rfl⟩ := blockOf_eq_some hx
  have hok : registrationOk (s.argBlock d).1.1 = true := hgood
  unfold State.register
  dsimp only
  rw [if_neg (by simp [hbad, hok])]
  rw [freeRegistration_afterBlock]
  cases freeEntry d s with
  | none => rfl
  | some i => rfl

theorem nameRows_hold (d : Nat) : ∀ c ∈ nameRows d, c.Holds := by
  simp only [nameRows, List.forall_mem_cons]
  refine ⟨?nameinv, ?malformed, ?full, ?registers, List.forall_mem_nil _⟩
  case nameinv =>
    refine command_row (g := fun s => s.nameinv d) (fun _ => rfl) (fun s h => left_of_and h) fun s h => ?_
    obtain ⟨x, hx⟩ := Option.isSome_iff_exists.1 (Bool.and_eq_true_iff.1 h).2
    rw [nameinv_of_block hx, hx]
    rfl
  case malformed =>
    refine command_row (g := fun s => s.register d) (fun _ => rfl) (fun s h => left_of_and h) fun s h => ?_
    exact register_malformed (by simpa using (Bool.and_eq_true_iff.1 h).2)
  case full =>
    refine command_row (g := fun s => s.register d) (fun _ => rfl) (fun s h => left_of_and_and h) fun s h => ?_
    simp only [Bool.and_eq_true, Option.isNone_iff_eq_none] at h
    obtain ⟨⟨-, hblock⟩, hfree⟩ := h
    obtain ⟨x, hx, hgood⟩ := (Option.any_eq_true ..).1 hblock
    rw [register_good hx hgood, hfree]
    rfl
  case registers =>
    refine command_row (g := fun s => s.register d) (fun _ => rfl) (fun s h => left_of_and_and h) fun s h => ?_
    simp only [Bool.and_eq_true] at h
    obtain ⟨⟨-, hblock⟩, hfree⟩ := h
    obtain ⟨x, hx, hgood⟩ := (Option.any_eq_true ..).1 hblock
    obtain ⟨i, hi⟩ := Option.isSome_iff_exists.1 hfree
    rw [register_good hx hgood, hi, hx]
    rfl

/-! ### REVOKE -/

theorem revoke_of_none {d index : Nat} {s : State} (h : (registrationAt d index s).isNone = true) :
    s.revoke d index = s.endCommand d St.malformed 0 := by
  have hnone : ((s.die d).port.registrations.find? fun r => r.index == index) = none := Option.isNone_iff_eq_none.1 h
  unfold State.revoke
  rw [hnone]

theorem revoke_of_not_valid {d index : Nat} {s : State} (h : (registrationAt d index s).any (fun r => r.state != 1) = true) :
    s.revoke d index = s.endCommand d St.ok 0 := by
  obtain ⟨r, hr, hstate⟩ := (Option.any_eq_true ..).1 h
  have hsome : ((s.die d).port.registrations.find? fun r => r.index == index) = some r := hr
  unfold State.revoke
  rw [hsome]
  exact if_pos (by simpa using hstate)

theorem revoke_of_valid {d index : Nat} {s : State} (h : (registrationAt d index s).any (fun r => r.state == 1) = true) :
    s.revoke d index = ((waitersRevoked d index (revoking d index s)).modDie d fun x => x.freeRevoked index).endCommand d St.ok 0 := by
  obtain ⟨r, hr, hstate⟩ := (Option.any_eq_true ..).1 h
  have hsome : ((s.die d).port.registrations.find? fun r => r.index == index) = some r := hr
  unfold State.revoke
  rw [hsome]
  exact if_neg (by simpa using hstate)

theorem freeRevoked_of_empty {x : Die} {index : Nat}
    (h : (x.port.registrations.any fun r => r.index == index && r.state == 2 && r.admitted == 0) = true) :
    x.freeRevoked index = (x.modPort fun p => { p with registrations := p.registrations.filter fun r => r.index != index }).sysEvent
      0x0007 (toBytes 2 index) := if_pos h

theorem freeRevoked_of_not_empty {x : Die} {index : Nat}
    (h : (x.port.registrations.any fun r => r.index == index && r.state == 2 && r.admitted == 0) = false) :
    x.freeRevoked index = x := if_neg (by rw [h]; exact Bool.false_ne_true)

theorem modDie_freeRevoked_of_empty {d index : Nat} {s : State}
    (h : ((s.die d).port.registrations.any fun r => r.index == index && r.state == 2 && r.admitted == 0) = true) :
    (s.modDie d fun x => x.freeRevoked index) = entryFreed d index s := by
  unfold entryFreed onDie
  exact State.modDie_congr s d _ _ (freeRevoked_of_empty h)

theorem modDie_freeRevoked_of_not_empty {d index : Nat} {s : State}
    (h : ((s.die d).port.registrations.any fun r => r.index == index && r.state == 2 && r.admitted == 0) = false) :
    (s.modDie d fun x => x.freeRevoked index) = s :=
  State.modDie_of_eq s d (fun x => x.freeRevoked index) (freeRevoked_of_not_empty h)

theorem revokeRows_hold (d index : Nat) : ∀ c ∈ revokeRows d index, c.Holds := by
  simp only [revokeRows, List.forall_mem_cons]
  refine ⟨?none, ?ended, ?freed, ?waits, List.forall_mem_nil _⟩
  case none => exact commandFails_holds (g := fun s => s.revoke d index) (fun _ => rfl) fun s h => revoke_of_none h
  case ended => exact commandFails_holds (g := fun s => s.revoke d index) (fun _ => rfl) fun s h => revoke_of_not_valid h
  case freed =>
    refine command_row (g := fun s => s.revoke d index) (fun _ => rfl) (fun s h => left_of_and_and h) fun s h => ?_
    obtain ⟨hnow, hempty⟩ := Bool.and_eq_true_iff.1 h
    obtain ⟨-, hvalid⟩ := Bool.and_eq_true_iff.1 hnow
    rw [revoke_of_valid hvalid, modDie_freeRevoked_of_empty hempty]
  case waits =>
    refine command_row (g := fun s => s.revoke d index) (fun _ => rfl) (fun s h => left_of_and_and h) fun s h => ?_
    simp only [Bool.and_eq_true, Bool.not_eq_true'] at h
    obtain ⟨⟨-, hvalid⟩, hempty⟩ := h
    rw [revoke_of_valid hvalid, modDie_freeRevoked_of_not_empty hempty]

/-! ### CONNECT and CLOSE -/

theorem connect_of_other {d : Nat} {s : State} (h : d ≠ 0) : s.connect d = s.endCommand d St.malformed 0 := if_pos h

theorem connect_at_zero {s : State} :
    s.connect 0 =
      if connectAnswer 0 s ≠ St.ok then (afterBlock 0 s).endCommand 0 (connectAnswer 0 s) 0
      else { afterBlock 0 s with host := { (afterBlock 0 s).host with
        conns := ((afterBlock 0 s).host.conns.filter fun (k : Conn) => k.index != (afterBlock 0 s).host.freeConn) ++ [newConn 0 s] } }.endCommand
          0 St.ok (afterBlock 0 s).host.freeConn := by
  refine (if_neg (Classical.not_not.mpr rfl)).trans ?_
  dsimp only
  cases hbad : (s.argBlock 0).1.2 with
  | true =>
    have hanswer : connectAnswer 0 s = St.malformed := by simp [connectAnswer, blockOf, hbad]
    rw [hanswer]
    rfl
  | false =>
    have hblock : blockOf 0 s = some (s.argBlock 0).1.1 := by simp [blockOf, hbad]
    unfold connectAnswer newConn
    rw [hblock]
    rfl

theorem close_of_none {d index : Nat} {s : State} (h : (connAt d index s).isNone = true) :
    s.close d index = s.endCommand d St.malformed 0 := by
  have hnone : (s.host.conns.find? fun c => c.index == index).filter (fun _ => d == 0) = none := Option.isNone_iff_eq_none.1 h
  unfold State.close
  rw [hnone]

theorem close_of_conn {d index : Nat} {c : Conn} {s : State} (h : connAt d index s = some c) :
    s.close d index = if c.state = 1 then s.endCommand d St.ok 0
      else ((sentDropped c s).modConn index fun c => { c with state := 1, unacked := [], ackDue := 0 }).endCommand d St.ok 0 := by
  have hsome : (s.host.conns.find? fun c => c.index == index).filter (fun _ => d == 0) = some c := h
  unfold State.close
  rw [hsome]
  rfl

theorem connectRows_hold (d index : Nat) : ∀ c ∈ connectRows d index, c.Holds := by
  simp only [connectRows, List.forall_mem_cons]
  refine ⟨?other, ?refused, ?opens, ?none, ?closed, ?closes, List.forall_mem_nil _⟩
  case other =>
    exact commandFails_holds (g := fun s => s.connect d) (fun _ => rfl) fun s h => connect_of_other (of_decide_eq_true h)
  case refused =>
    refine command_row (g := fun s => s.connect d) (fun _ => rfl) (fun s h => left_of_and_and h) fun s h => ?_
    simp only [Bool.and_eq_true, beq_iff_eq, bne_iff_ne] at h
    obtain ⟨⟨-, rfl⟩, hst⟩ := h
    rw [connect_at_zero, if_pos hst]
  case opens =>
    refine command_row (g := fun s => s.connect d) (fun _ => rfl) (fun s h => left_of_and_and h) fun s h => ?_
    simp only [Bool.and_eq_true, beq_iff_eq] at h
    obtain ⟨⟨-, rfl⟩, hst⟩ := h
    rw [connect_at_zero, if_neg (Classical.not_not.mpr hst)]
  case none => exact commandFails_holds (g := fun s => s.close d index) (fun _ => rfl) fun s h => close_of_none h
  case closed =>
    refine commandFails_holds (g := fun s => s.close d index) (fun _ => rfl) fun s h => ?_
    obtain ⟨c, hc, hstate⟩ := (Option.any_eq_true ..).1 h
    rw [close_of_conn hc, if_pos (beq_iff_eq.1 hstate)]
  case closes =>
    refine command_row (g := fun s => s.close d index) (fun _ => rfl) (fun s h => left_of_and h) fun s h => ?_
    obtain ⟨c, hc, hstate⟩ := (Option.any_eq_true ..).1 (Bool.and_eq_true_iff.1 h).2
    rw [close_of_conn hc, if_neg (bne_iff_ne.1 hstate), hc]
    rfl

/-- Settles O41: each row by the case of the command that its step makes. -/
theorem commandSteps : Obligations.CommandSteps := by
  intro d index
  simp only [commandTable, List.forall_mem_append, List.forall_mem_cons]
  refine ⟨⟨⟨⟨⟨?created, ?refused, List.forall_mem_nil _⟩, destroyRows_hold d index⟩, nameRows_hold d⟩, revokeRows_hold d index⟩,
    connectRows_hold d index⟩
  case created =>
    refine command_row (g := fun s => s.create d index) (fun _ => rfl) (fun s h => left_of_and h) fun s h => ?_
    exact create_of_ok (Bool.and_eq_true_iff.1 h).2
  case refused =>
    refine command_row (g := fun s => s.create d index) (fun _ => rfl) (fun s h => left_of_and h) fun s h => ?_
    exact create_of_not_ok (by simpa using (Bool.and_eq_true_iff.1 h).2)

open Sys2Proof.Claims

/-! ## Links -/

theorem mgmtSeam_of_seamUp {s : State} {link : Nat} (h : s.seamUp link = true) : s.mgmtSeam link = true := by
  have hends : ∀ e ∈ [(seamEnds link).1, (seamEnds link).2],
      ((s.die e).phase == .up && ((s.die e).link? link).any fun l => l.width != 0) = true := List.all_eq_true.1 h
  refine List.all_eq_true.2 fun e he => ?_
  obtain ⟨hup, hlink⟩ := Bool.and_eq_true_iff.1 (hends e he)
  simp only [hup, hlink, Bool.true_or, Bool.and_self]

/-- One frame time of a seam whose other end sends a frame: the receiver takes it, or one that fails its CRC. -/
theorem linkFrame_seam {d link : Nat} {s : State} (h : frameSent d link s = true) :
    exec (.linkFrame d link .fromPeer) s =
        .next ((s.frameOut (seamPeer d link) link).2.frameIn d link (s.frameOut (seamPeer d link) link).1) ∧
      exec (.linkFrame d link .corrupted) s = .next ((s.frameOut (seamPeer d link) link).2.frameIn d link none) := by
  simp only [frameSent, Bool.and_eq_true, decide_eq_true_eq] at h
  obtain ⟨⟨⟨⟨⟨hup, hhere⟩, hlink⟩, hseam⟩, hthere⟩, hsome⟩ := h
  obtain ⟨f, hf⟩ := Option.isSome_iff_exists.1 hsome
  have hcarries : ((s.die d).link? link).any Link.carries = true := hhere
  have hpeer : ((s.die (seamPeer d link)).link? link).any Link.carries = true := hthere
  have hpair : s.frameOut (seamPeer d link) link = (some f, (s.frameOut (seamPeer d link) link).2) := Prod.ext hf rfl
  have hsend : ∀ rx, exec (.linkFrame d link rx) s = execLinkFrame d link rx s := fun _ => rfl
  have hopen : ¬(!s.mgmtSeam link ∨ !((s.die (seamPeer d link)).link? link).any Link.carries) := by
    simp [mgmtSeam_of_seamUp hseam, hpeer]
  constructor
  · rw [hsend]
    unfold execLinkFrame
    dsimp only
    rw [if_neg (by simp [hcarries]), if_pos hlink, if_neg hopen, hpair]
    rfl
  · rw [hsend]
    unfold execLinkFrame
    dsimp only
    rw [if_neg (by simp [hcarries]), if_pos hlink, if_neg hopen, hpair]
    rfl

theorem linkFrame_ridge {d link : Nat} {s : State} (h : ridgeTurn d link s = true) :
    exec (.linkFrame d link .corrupted) s = .next ((s.frameOut d link).2.frameIn d link none) ∧
      ∀ bs, exec (.linkFrame d link (.outside bs)) s = .next ((s.frameOut d link).2.frameIn d link (readFrame bs)) := by
  simp only [ridgeTurn, Bool.and_eq_true, decide_eq_true_eq] at h
  obtain ⟨⟨⟨hup, hhere⟩, hlink⟩, hopen⟩ := h
  have hcarries : ((s.die d).link? link).any Link.carries = true := hhere
  have hturn : ¬((s.die d).phase ≠ .up ∨ !(s.die d).ridgeOpen) := by simp [up_iff.1 hup, hopen]
  constructor
  · change execLinkFrame d link .corrupted s = _
    unfold execLinkFrame
    exact (if_neg (by simp [hcarries])).trans ((if_neg (Nat.not_lt.mpr hlink)).trans (if_neg hturn))
  · intro bs
    change execLinkFrame d link (.outside bs) s = _
    unfold execLinkFrame
    exact (if_neg (by simp [hcarries])).trans ((if_neg (Nat.not_lt.mpr hlink)).trans (if_neg hturn))

theorem incompleteMessageDiscard_step {d k : Nat} {s : State} (h : partialLate d k s = true) :
    exec (.incompleteMessageDiscard d k) s = .next (
     let r := ((s.die d).port.reassembly[k]?).getD default
     (onDie d (fun x => x.modPort fun p =>
       { (p.dropPartial fun y => y.msg.same r.msg).done r.msg x.ps with incomplete := count16 p.incomplete 1 }) s).answer d r.msg
       Kind.retry St.retry id) := by
  obtain ⟨r, hr, hlate⟩ := (Option.any_eq_true ..).1 h
  change execIncompleteMessageDiscard d k s = _
  unfold execIncompleteMessageDiscard
  rw [hr]
  exact if_neg (Nat.not_lt.mpr (of_decide_eq_true hlate))

theorem doneRecordExpiry_step {d k : Nat} {s : State}
    (h : (((s.die d).port.doneRecs[k]?).any fun r => r.at_ + 10000 * usec ≤ (s.die d).ps) = true) :
    exec (.doneRecordExpiry d k) s =
      .next (onDie d (fun x => x.modPort fun p => { p with doneRecs := p.doneRecs.eraseIdx k }) s) := by
  obtain ⟨r, hr, hlate⟩ := (Option.any_eq_true ..).1 h
  change execDoneRecordExpiry d k s = _
  unfold execDoneRecordExpiry
  rw [hr]
  exact if_neg (Nat.not_lt.mpr (of_decide_eq_true hlate))

theorem transitSpillDiscard_step {d k : Nat} {s : State}
    (h : (((s.die d).port.transit[k]?).any fun r => r.2 + 5000 * usec ≤ (s.die d).ps) = true) :
    exec (.transitSpillDiscard d k) s =
      .next (onDie d (fun x => x.modPort fun p => { p.countStale 1 with transit := p.transit.eraseIdx k }) s) := by
  obtain ⟨⟨f, t⟩, hr, hlate⟩ := (Option.any_eq_true ..).1 h
  change execTransitSpillDiscard d k s = _
  unfold execTransitSpillDiscard
  rw [hr]
  exact if_neg (Nat.not_lt.mpr (of_decide_eq_true hlate))

theorem probeSend_step {d link : Nat} {s : State}
    (h : (link < 10 && s.seamUp link && ((s.die d).link? link).any fun l => l.txq.isEmpty && l.sent + 100 * usec ≤ (s.die d).ps) = true) :
    exec (.probeSend d link) s = .next
      (s.sendNew d { requestMsg Kind.probe (qid s.pkg (seamPeer d link) 0 0).toNat 0 0 0 with inc := (s.die d).incarnation }).2 := by
  simp only [Bool.and_eq_true, decide_eq_true_eq] at h
  obtain ⟨⟨hlink, hseam⟩, hany⟩ := h
  obtain ⟨l, hl, htests⟩ := (Option.any_eq_true ..).1 hany
  simp only [Bool.and_eq_true, decide_eq_true_eq] at htests
  obtain ⟨hempty, hquiet⟩ := htests
  change execProbeSend d link s = _
  unfold execProbeSend
  rw [hl]
  exact if_neg (not_or.mpr ⟨Nat.not_le.mpr hlink, not_or.mpr ⟨by simp [hseam], not_or.mpr ⟨by simp [hempty], Nat.not_lt.mpr hquiet⟩⟩⟩)

/-- Settles O42: each row by the test that its step makes. -/
theorem linkSteps : Obligations.LinkSteps := by
  intro d link k lost offset pkg die bs
  simp only [linkTable, List.forall_mem_cons]
  refine ⟨?peer, ?corrupted, ?ridgeCorrupted, ?outside, ?replay, ?aligned, ?incomplete, ?done, ?transit, ?probe, ?lost, ?target,
    List.forall_mem_nil _⟩
  case peer => exact row_holds fun s hok => (linkFrame_seam hok).1
  case corrupted => exact row_holds fun s hok => (linkFrame_seam hok).2
  case ridgeCorrupted => exact row_holds fun s hok => (linkFrame_ridge hok).1
  case outside => exact row_holds fun s hok => (linkFrame_ridge hok).2 bs
  case replay => exact row_holds fun s _ => rfl
  case aligned => exact row_holds fun s _ => rfl
  case incomplete => exact row_holds fun s hok => incompleteMessageDiscard_step hok
  case done => exact row_holds fun s hok => doneRecordExpiry_step hok
  case transit => exact row_holds fun s hok => transitSpillDiscard_step hok
  case probe => exact row_holds fun s hok => probeSend_step hok
  case lost =>
    refine row_holds fun s hok => ?_
    simp only [Bool.and_eq_true, decide_eq_true_eq] at hok
    obtain ⟨⟨⟨⟨⟨hup, hself⟩, hlost⟩, hseam⟩, hheld⟩, hsilent⟩ := hok
    exact if_pos ⟨up_iff.1 hup, hself, hlost, hseam, hheld, hsilent⟩
  case target =>
    refine row_holds fun s hok => ?_
    obtain ⟨hpkg, hlate⟩ := Bool.and_eq_true_iff.1 hok
    exact if_pos ⟨of_decide_eq_true hpkg, hlate⟩

open Sys2Proof.Claims

/-! ## Datagrams at the host port -/

theorem datagram_eq_some {type : Nat} {fr : List Byte} {s : State} {p : Packet} {x : Transport × Conn × Nat}
    (h : datagram type fr s = some (p, x)) : s.hostFrame fr = some p ∧ s.inbound type p = some x := by
  obtain ⟨p', hp, hmap⟩ := Option.bind_eq_some_iff.1 h
  obtain ⟨x', hx, heq⟩ := Option.map_eq_some_iff.1 hmap
  obtain ⟨rfl, rfl⟩ := Prod.mk.inj heq
  exact ⟨hp, hx⟩

/-- A datagram in sequence goes to INQ. -/
theorem hostData_of_inSequence {fr : List Byte} {s : State} {x : Conn × Incoming} (h : inSequence fr s = some x) :
    exec (.hostData fr) s = .next (s.takeData x.1 x.2) := by
  obtain ⟨⟨p, t, c, e⟩, hfilter, rfl⟩ := Option.map_eq_some_iff.1 h
  obtain ⟨hdatagram, hseq⟩ := Option.filter_eq_some_iff.1 hfilter
  obtain ⟨hframe, hinbound⟩ := datagram_eq_some hdatagram
  change execHostData fr s = _
  unfold execHostData
  rw [hframe]
  dsimp only
  rw [hinbound]
  exact if_neg (Classical.not_not.mpr (by simpa using hseq))

theorem forQueue_eq_some {fr : List Byte} {s : State} {ok : Queue → Bool} {x : Conn × Incoming} {q : Queue}
    (h : forQueue fr s ok = some (x, q)) :
    inSequence fr s = some x ∧ s.queueOfQid x.1.inq = some q ∧ bits x.1.inq.toNat 47 45 = 0 ∧ ok q = true := by
  obtain ⟨y, hy, hmap⟩ := Option.bind_eq_some_iff.1 h
  obtain ⟨q', hq, heq⟩ := Option.map_eq_some_iff.1 hmap
  obtain ⟨rfl, rfl⟩ := Prod.mk.inj heq
  obtain ⟨hqueue, hok⟩ := Option.filter_eq_some_iff.1 hq
  obtain ⟨hdie, hok⟩ := Bool.and_eq_true_iff.1 hok
  exact ⟨hy, hqueue, beq_iff_eq.1 hdie, hok⟩

theorem takeData_here {s : State} {x : Conn × Incoming} {q : Queue} (hq : s.queueOfQid x.1.inq = some q)
    (hdie : bits x.1.inq.toNat 47 45 = 0) : s.takeData x.1 x.2 = (s.putHere x.1 q x.2).getD s := by
  unfold State.takeData
  dsimp only
  rw [hq]
  exact if_pos hdie

theorem putHere_of_full {s : State} {x : Conn × Incoming} {q : Queue} (h : (roomOf s (x, q)).1.1 ≠ St.ok) :
    s.putHere x.1 q x.2 = none := if_pos h

theorem putHere_of_room {s : State} {x : Conn × Incoming} {q : Queue} (h : (roomOf s (x, q)).1.1 = St.ok) (hkind : (q.ckind == 3) = false) :
    s.putHere x.1 q x.2 = some (dataAccepted x.1 x.2 (x.2.els.zipIdx.foldl
      (fun t e => t.putFrom x.1 (((roomOf s (x, q)).1.2 + e.2) % 2 ^ 48) e.1) (onDie 0 (fun _ => (roomOf s (x, q)).2) s))) := by
  unfold State.putHere
  dsimp only
  refine (if_neg (Classical.not_not.mpr h)).trans ?_
  rw [hkind]
  unfold State.withReplies
  rw [Bool.not_false, if_pos rfl]
  rfl

theorem takeData_away {s : State} {x : Conn × Incoming} (hq : (s.queueOfQid x.1.inq).isSome = true)
    (hdie : bits x.1.inq.toNat 47 45 ≠ 0) (hfree : x.1.data.isNone = true)
    (hheld : (s.die 0).port.holdsLost s.pkg (bits x.1.inq.toNat 47 45) = false) :
    s.takeData x.1 x.2 =
      (s.modConn x.1.index fun c => { c with data := some x.2 }).request 0 (.host x.1.index)
         { requestMsg Kind.resv x.1.inq.toNat x.1.dom (2 * 2 ^ 22 + x.1.index) 0 with arg0 := BitVec.ofNat 64 x.2.els.length } := by
  obtain ⟨q, hq⟩ := Option.isSome_iff_exists.1 hq
  unfold State.takeData
  dsimp only
  rw [hq]
  dsimp only
  rw [if_neg hdie, if_neg (by simp [Option.isNone_iff_eq_none.1 hfree, hheld])]
  rfl

theorem hostAck_step {fr : List Byte} {s : State} {p : Packet} {t : Transport} {c : Conn} {e : Nat}
    (h : datagram 2 fr s = some (p, t, c, e)) :
    exec (.hostAck fr) s = .next
      ((s.dropUnacked { c with unacked := c.unacked.filter fun u => !(c.acknowledge t (s.die 0).ps).unacked.contains u }).modConn c.index
        fun _ => c.acknowledge t (s.die 0).ps) := by
  obtain ⟨hframe, hinbound⟩ := datagram_eq_some h
  change execHostAck fr s = _
  unfold execHostAck
  rw [hframe]
  dsimp only
  rw [hinbound]
  rfl

/-! ## What the host port sends, and its timers -/

theorem hostDataSend_step {conn : Nat} {s : State} (h : (outgoing conn s).isSome = true) :
    exec (.hostDataSend conn) s = .next
      (((sending conn s).2.sendOn ((openConn conn s).getD default) 1 ((openConn conn s).getD default).sndNxt
        [(sending conn s).1.1]).modConn conn fun _ => (sending conn s).1.2) := by
  obtain ⟨⟨c, t⟩, hout⟩ := Option.isSome_iff_exists.1 h
  have hsending : sending conn s = s.sendElement c t := by rw [sending, hout]; rfl
  obtain ⟨c', hc, hbind⟩ := Option.bind_eq_some_iff.1 hout
  obtain ⟨q, hq, hmap⟩ := Option.bind_eq_some_iff.1 hbind
  obtain ⟨t', ht, heq⟩ := Option.map_eq_some_iff.1 hmap
  obtain ⟨rfl, rfl⟩ := Prod.mk.inj heq
  have hfind : (s.host.conns.find? fun c => c.index == conn && c.state == 0) = some c' := hc
  rw [hsending, hc, Option.getD_some]
  change execHostDataSend conn s = _
  unfold execHostDataSend
  rw [hfind]
  dsimp only
  rw [hq]
  dsimp only
  rw [ht]
  rfl

theorem rtoDue_eq_true {conn : Nat} {s : State} (h : rtoDue conn s = true) :
    ∃ c, openConn conn s = some c ∧
      (!s.hostUp || 2 ≤ (s.die 0).alarm || !((c.unacked.head?).any fun u => u.sentAt + c.rto ≤ (s.die 0).ps)) = false := by
  obtain ⟨hopen, hany⟩ := Bool.and_eq_true_iff.1 h
  obtain ⟨hup, halarm⟩ := Bool.and_eq_true_iff.1 hopen
  obtain ⟨c, hc, hdue⟩ := (Option.any_eq_true ..).1 hany
  have halarm : ¬2 ≤ (s.die 0).alarm := Nat.not_le.mpr (of_decide_eq_true halarm)
  exact ⟨c, hc, by simp only [hup, hdue, halarm, decide_false, Bool.not_true, Bool.or_self]⟩

theorem rtoTimeout_step {conn : Nat} {c : Conn} {s : State} (hc : openConn conn s = some c)
    (hdue : (!s.hostUp || 2 ≤ (s.die 0).alarm || !((c.unacked.head?).any fun u => u.sentAt + c.rto ≤ (s.die 0).ps)) = false) :
    exec (.rtoTimeout conn) s = .next
      (if 8 ≤ c.timeouts + 1 then
        onDie 0 (fun x => x.sysEvent 0x0008 (toBytes 2 conn)) (s.modConn conn fun k => { k with state := 2, timeouts := k.timeouts + 1 })
       else (s.resendAll c ((s.connEsize c).getD 4) c.unacked.length c.unacked).modConn conn fun _ => backedOff c (s.die 0).ps) := by
  have hfind : (s.host.conns.find? fun c => c.index == conn && c.state == 0) = some c := hc
  change execRtoTimeout conn s = _
  unfold execRtoTimeout
  dsimp only
  rw [hfind]
  dsimp only
  rw [if_neg (by rw [hdue]; exact Bool.false_ne_true)]
  split <;> rfl

/-- Settles O43: each row by the case of the datagram or the timer that its step makes. -/
theorem hostSteps : Obligations.HostSteps := by
  intro fr conn target
  simp only [hostTable, List.forall_mem_cons]
  refine ⟨?room, ?full, ?away, ?ack, ?ackSend, ?send, ?eighth, ?again, ?neighbour, List.forall_mem_nil _⟩
  case room =>
    refine row_holds fun s hok => ?_
    obtain ⟨⟨x, q⟩, hfor, hroom⟩ := (Option.any_eq_true ..).1 hok
    obtain ⟨hseq, hqueue, hdie, hkind⟩ := forQueue_eq_some hfor
    rw [hostData_of_inSequence hseq, takeData_here hqueue hdie,
      putHere_of_room (beq_iff_eq.1 hroom) (by simpa using hkind), hfor, Option.getD_some]
  case full =>
    refine row_holds fun s hok => ?_
    obtain ⟨⟨x, q⟩, hfor, hroom⟩ := (Option.any_eq_true ..).1 hok
    obtain ⟨hseq, hqueue, hdie, -⟩ := forQueue_eq_some hfor
    rw [hostData_of_inSequence hseq, takeData_here hqueue hdie, putHere_of_full (bne_iff_ne.1 hroom)]
    rfl
  case away =>
    refine row_holds fun s hok => ?_
    obtain ⟨x, hseq, htests⟩ := (Option.any_eq_true ..).1 hok
    simp only [Bool.and_eq_true, bne_iff_ne, Bool.not_eq_true'] at htests
    obtain ⟨⟨⟨hdie, hqueue⟩, hfree⟩, hheld⟩ := htests
    rw [hostData_of_inSequence hseq, takeData_away hqueue hdie hfree hheld, hseq]
    rfl
  case ack =>
    refine row_holds fun s hok => ?_
    obtain ⟨⟨p, t, c, e⟩, hdatagram⟩ := Option.isSome_iff_exists.1 hok
    rw [hostAck_step hdatagram, hdatagram]
  case ackSend =>
    refine row_holds fun s hok => ?_
    obtain ⟨hopen, hdue⟩ := Bool.and_eq_true_iff.1 hok
    obtain ⟨c, hc⟩ := Option.isSome_iff_exists.1 hdue
    change execHostAckSend conn s = _
    unfold execHostAckSend
    rw [hc]
    exact if_pos hopen
  case send => exact row_holds fun s hok => hostDataSend_step hok
  case eighth =>
    refine row_holds fun s hok => ?_
    obtain ⟨hdue, hcount⟩ := Bool.and_eq_true_iff.1 hok
    obtain ⟨c, hc, htests⟩ := rtoDue_eq_true hdue
    have hcount : 7 ≤ ((openConn conn s).getD default).timeouts := of_decide_eq_true hcount
    rw [hc, Option.getD_some] at hcount
    rw [rtoTimeout_step hc htests, if_pos (Nat.succ_le_succ hcount)]
  case again =>
    refine row_holds fun s hok => ?_
    obtain ⟨hdue, hcount⟩ := Bool.and_eq_true_iff.1 hok
    obtain ⟨c, hc, htests⟩ := rtoDue_eq_true hdue
    have hcount : ((openConn conn s).getD default).timeouts < 7 := of_decide_eq_true hcount
    rw [hc, Option.getD_some] at hcount
    rw [rtoTimeout_step hc htests, if_neg (Nat.not_le.mpr (Nat.succ_lt_succ hcount)), hc]
    rfl
  case neighbour => exact row_holds fun s hok => if_pos hok

open Sys2Proof.Claims

/-! ## Management commands -/

theorem accepted_holds {i : Instr} {op : Nat} {fr : List Byte} (hexec : ∀ s, exec i s = s.mgmt op fr) : (accepted i op fr).Holds := by
  refine row_holds fun s hok => (hexec s).trans ?_
  obtain ⟨hturn, haccept⟩ := Bool.and_eq_true_iff.1 hok
  obtain ⟨⟨m, r, t⟩, ht⟩ := Option.isSome_iff_exists.1 haccept
  unfold State.mgmt
  rw [Option.isNone_iff_eq_none.1 hturn, ht]
  rfl

theorem managed_eq_some {op : Nat} {fr : List Byte} {s : State} {m : Mgmt} (h : managed op fr s = some m) :
    s.mgmtTurn op fr = some m ∧ m.op = op ∧ (op = 8 ∨ op = 9 ∨ (s.die m.die).levelThree = false) := by
  obtain ⟨hturn, hlevel⟩ := Option.filter_eq_some_iff.1 h
  refine ⟨hturn, ?_, by simpa [or_assoc] using hlevel⟩
  unfold State.mgmtTurn at hturn
  split at hturn
  · cases hturn
  · dsimp only at hturn
    split at hturn
    · rename_i htests
      simp only [Bool.and_eq_true, beq_iff_eq] at htests
      obtain ⟨⟨⟨hop, -⟩, -⟩, -⟩ := htests
      rw [← Option.some.inj hturn]
      exact hop
    · cases hturn

theorem unlisted_levelThree (m : Mgmt) (s : State) : ((unlisted m s).die m.die).levelThree = (s.die m.die).levelThree := by
  unfold unlisted onDie
  rw [State.die_modDie]
  split <;> rfl

/-- A command that the management core performs now, and that is not MGMT_QUEUE, has its result and is answered. -/
theorem performMgmt_of_managed {op : Nat} {fr : List Byte} {s : State} {m : Mgmt} (h : managed op fr s = some m) (hop : op ≠ 4) :
    s.performMgmt m =
      if m.op = 8 ∧ 2 ≤ (((unlisted m s).mgmtResult m).2.die 0).alarm then ((unlisted m s).mgmtResult m).2
      else ((unlisted m s).mgmtResult m).2.replyVia m.die ⟨m.op, m.die, m.seq⟩ ((unlisted m s).mgmtResult m).1.1
        ((unlisted m s).mgmtResult m).1.2 := by
  obtain ⟨-, rfl, hlevel⟩ := managed_eq_some h
  unfold State.performMgmt
  dsimp only
  refine (if_neg ?_).trans (if_neg hop)
  rintro ⟨hthree, h8, h9⟩
  rcases hlevel with hlevel | hlevel | hlevel
  · exact h8 hlevel
  · exact h9 hlevel
  · rw [← unlisted_levelThree] at hlevel
    exact absurd (hlevel.symm.trans hthree) Bool.false_ne_true

theorem mgmt_of_managed {op : Nat} {fr : List Byte} {s : State} {m : Mgmt} (h : managed op fr s = some m) :
    s.mgmt op fr = .next (s.performMgmt m) := by
  unfold State.mgmt
  rw [(managed_eq_some h).1]
  rfl

/-- A row of a management command holds when, in its case, the command's result is the row's, and it is answered. -/
theorem mgmtRow_holds {i : Instr} {op : Nat} {fr : List Byte} {ok : Mgmt → State → Bool} {f : Mgmt → State → (Nat × List Byte) × State}
    (hexec : ∀ s, exec i s = s.mgmt op fr) (hop : op ≠ 4)
    (hresult : ∀ m s, m.op = op → ok m s = true → s.mgmtResult m = f m s)
    (hanswered : ∀ m s, ok m s = true → op = 8 → ((f m s).2.die 0).alarm < 2) : (mgmtRow i op fr ok f).Holds := by
  refine row_holds fun s hok => (hexec s).trans ?_
  obtain ⟨m, hm, hcase⟩ := (Option.any_eq_true ..).1 hok
  obtain ⟨-, hmop, -⟩ := managed_eq_some hm
  rw [mgmt_of_managed hm, performMgmt_of_managed hm hop, hresult m _ hmop hcase, hm]
  refine congrArg Host.Outcome.next (if_neg ?_)
  rintro ⟨h8, halarm⟩
  exact absurd (hanswered m _ hcase (hmop.symm.trans h8)) (Nat.not_lt.mpr halarm)

theorem mgmtDone_holds {i : Instr} {op : Nat} {fr : List Byte} {ok : Mgmt → State → Bool} {f : Mgmt → State → State}
    (hexec : ∀ s, exec i s = s.mgmt op fr) (hop : op ≠ 4 ∧ op ≠ 8)
    (hresult : ∀ m s, m.op = op → ok m s = true → s.mgmtResult m = ((St.ok, []), f m s)) : (mgmtDone i op fr ok f).Holds :=
  mgmtRow_holds hexec hop.1 hresult fun _ _ _ h8 => absurd h8 hop.2

section
variable {m : Mgmt} {s : State}

/-! ### The result of each command -/

theorem mgmtProc_of_ok (h : procOk m s = true) : s.mgmtProc m = ((St.ok, []), procWritten m s) := by
  simp only [procOk, Bool.and_eq_true, beq_iff_eq, decide_eq_true_eq] at h
  obtain ⟨⟨⟨⟨⟨⟨⟨⟨⟨hlen, hpn⟩, hroot⟩, hrootTop⟩, hv⟩, hbase⟩, hbaseTop⟩, hlength⟩, hpb⟩, hqb⟩ := h
  exact if_neg (by omega)

theorem mgmtMap_of_ok (h : mapOk m s = true) : s.mgmtMap m = ((St.ok, []), mapped m s) := by
  simp only [mapOk, Bool.and_eq_true, beq_iff_eq, decide_eq_true_eq] at h
  obtain ⟨⟨⟨⟨⟨hpn, hva⟩, hzero⟩, hn⟩, hlen⟩, hplaces⟩ := h
  refine (if_neg (by omega)).trans (if_neg ?_)
  change ¬(mapPlaces m s).any Option.isNone = true
  rw [List.any_eq_true]
  rintro ⟨place, hmem, hnone⟩
  have hsome := List.all_eq_true.1 hplaces place hmem
  rw [Option.isNone_iff_eq_none.1 hnone] at hsome
  cases hsome

theorem mgmtLoad_of_ok (h : loadOk m s = true) : s.mgmtLoad m = ((St.ok, []), loaded m s) := by
  simp only [loadOk, Bool.and_eq_true, decide_eq_true_eq] at h
  obtain ⟨⟨⟨⟨hshort, hpn⟩, hlong⟩, htop⟩, hspots⟩ := h
  obtain ⟨sp, hsp, hdev⟩ := (Option.any_eq_true ..).1 hspots
  have hlen : (m.payload.drop 10).length = m.payload.length - 10 := List.length_drop
  unfold State.mgmtLoad
  dsimp only
  rw [hlen, if_neg (by omega), if_neg (by omega)]
  have hplaces : s.loadSpots m.die (m.field 0 2) ((List.range (m.payload.length - 10)).map (m.field 2 8 + ·)) = loadPlaces m s := rfl
  rw [hplaces, hsp, Option.filter_some, if_pos hdev]
  unfold loaded
  rw [hsp]
  rfl

theorem mgmtPwrite_of_ok (hshort : 8 ≤ m.payload.length) (hlong : m.payload.length ≤ 8008)
    (htop : m.field 0 8 + (m.payload.length - 8) ≤ (s.die m.die).spillBase) :
    s.mgmtPwrite m = ((St.ok, []), onDie m.die (fun x => x.engineWrite (m.field 0 8) (m.payload.drop 8)) s) := by
  have hlen : (m.payload.drop 8).length = m.payload.length - 8 := List.length_drop
  unfold State.mgmtPwrite
  dsimp only
  rw [hlen, if_neg (by omega), if_neg (by omega)]
  rfl

theorem mgmtEnqueue_of_ok (hlen : m.payload.length = 129) (hcls : m.field 0 1 ≤ 3) :
    s.mgmtEnqueue m =
      (((s.enqueueRecord m.die (m.field 0 1) (m.payload.drop 1)).1, []), (s.enqueueRecord m.die (m.field 0 1) (m.payload.drop 1)).2) :=
  if_neg (by omega)

theorem coreWrite_eq_registerSet (d a width v : Nat) : s.coreWrite d a width v = registerSet d a width v s := rfl

/-- MGMT_REG reads, or writes, a register that it may name. -/
theorem mgmtReg_of_ok {mode : Nat} (hmode : mode ≤ 1) (h : regOk mode m s = true) :
    s.mgmtReg m = if mode = 1 then ((St.ok, toBytes 8 ((s.die m.die).readReg (m.field 2 8) (m.field 1 1))), s)
      else ((St.ok, []), registerSet m.die (m.field 2 8) (m.field 1 1) (m.field 10 8 % 2 ^ (8 * m.field 1 1)) s) := by
  simp only [regOk, Bool.and_eq_true, beq_iff_eq, decide_eq_true_eq, Bool.not_eq_true'] at h
  obtain ⟨⟨⟨⟨⟨⟨hlen, rfl⟩, hlow⟩, htop⟩, hwidth⟩, halign⟩, hnarrow⟩ := h
  refine (if_neg (by omega)).trans ((if_neg ?_).trans rfl)
  rintro (h | h | h | h | ⟨h8, h32⟩)
  · omega
  · omega
  · rw [hwidth] at h
    cases h
  · exact h halign
  · rw [h8, h32] at hnarrow
    cases hnarrow

theorem mgmtReset_of_ok (h : (m.payload == []) = true) :
    s.mgmtReset m = ((St.ok, []), onDie m.die (fun x => { x with resetDue := true }) s) :=
  if_neg (Classical.not_not.mpr (beq_iff_eq.1 h))

theorem mgmtClose_of_ok (h : (m.payload == []) = true) :
    s.mgmtClose m = ((St.ok, []), { s with host := { s.host with sessionKey := none } }) :=
  if_neg (Classical.not_not.mpr (beq_iff_eq.1 h))

theorem mgmtFreq_of_ok (hlen : m.payload.length = 1) (hreq : m.field 0 1 ≤ 2) :
    s.mgmtFreq m = ((St.ok, []), onDie m.die (fun x =>
      if x.nextPoint < BitVec.ofNat 2 (m.field 0 1) then { x with freqReq := BitVec.ofNat 2 (m.field 0 1) }.askFreq (BitVec.ofNat 2 (m.field 0 1))
      else { x with freqReq := BitVec.ofNat 2 (m.field 0 1) }) s) :=
  if_neg (by omega)

theorem mgmtAttest_of_length (h : m.payload.length = 64) :
    s.mgmtAttest m =
      if !(s.die m.die).flash.identity then ((St.fault, []), s)
      else ((St.ok, (s.die m.die).report m.payload ++ Config.identitySign m.die ((s.die m.die).report m.payload)), s) :=
  if_neg (Classical.not_not.mpr h)

/-! ### READ -/

theorem readsTable_iff {sel : Nat} (h : readsTable sel m s = true) : m.field 0 1 = sel ∧ m.payload.length = 1 := by
  simpa [readsTable] using h

theorem mgmtRead_configuration (h : readsTable 0 m s = true) : s.mgmtRead m = ((St.ok, (s.die m.die).conf.bytes), s) := by
  obtain ⟨hsel, hlen⟩ := readsTable_iff h
  unfold State.mgmtRead
  rw [hsel, hlen]
  rfl

theorem mgmtRead_retirement (h : readsTable 1 m s = true) :
    s.mgmtRead m = ((St.ok, (s.die m.die).flash.table.entries.flatMap RetEntry.bytes
      ++ Config.identitySign m.die ((s.die m.die).flash.table.entries.flatMap RetEntry.bytes)), s) := by
  obtain ⟨hsel, hlen⟩ := readsTable_iff h
  unfold State.mgmtRead
  rw [hsel, hlen]
  rfl

theorem mgmtRead_certificate (h : readsTable 3 m s = true) : s.mgmtRead m = ((St.ok, Config.certificate m.die), s) := by
  obtain ⟨hsel, hlen⟩ := readsTable_iff h
  unfold State.mgmtRead
  rw [hsel, hlen]
  rfl

theorem mgmtRead_errors (hsel : m.field 0 1 = 2) (hshort : 2 ≤ m.payload.length) (hlong : m.payload.length ≤ 9) :
    s.mgmtRead m = ((St.ok, (((s.die m.die).flash.errlog.drop (m.field 1 8)).take 252).flatMap errorBytes), s) := by
  unfold State.mgmtRead
  rw [hsel]
  exact if_neg (by omega)

end

/-! ### SESSION -/

theorem mgmtSession_opens {fr : List Byte} {s t : State} {m : Mgmt} {r : Reply} (h : sessionOpens fr s = some (m, r, t)) :
    exec (.mgmtSession fr) s = .next
      ((Config.unwrapKey (m.payload.take 512)).elim ({ t with host := { t.host with failures := 0 } }.reply r St.rights []) fun k =>
         { t with host := { t.host with failures := 0, sessionKey := some k, seq := m.seq } }.reply { r with key := some k } St.ok []) := by
  obtain ⟨haccept, htests⟩ := Option.filter_eq_some_iff.1 h
  obtain ⟨hlen, hsig⟩ := Bool.and_eq_true_iff.1 htests
  change execMgmtSession fr s = _
  unfold execMgmtSession
  rw [haccept]
  dsimp only
  rw [if_neg (Classical.not_not.mpr (beq_iff_eq.1 hlen)), if_neg (by simpa using hsig)]
  cases Config.unwrapKey (m.payload.take 512) with
  | none => rfl
  | some k => rfl

theorem mgmtSession_refused {fr : List Byte} {s t : State} {m : Mgmt} {r : Reply} (h : sessionRefused fr s = some (m, r, t)) :
    exec (.mgmtSession fr) s = .next
      ((if 4 ≤ t.host.failures + 1 then
          ({ t with host := { t.host with failures := t.host.failures + 1 } }.raiseAlarm 0 1 5).raiseAlarm 0 2 3
        else { t with host := { t.host with failures := t.host.failures + 1 } }.raiseAlarm 0 1 5).reply r St.rights []) := by
  obtain ⟨haccept, htests⟩ := Option.filter_eq_some_iff.1 h
  obtain ⟨hlen, hsig⟩ := Bool.and_eq_true_iff.1 htests
  change execMgmtSession fr s = _
  unfold execMgmtSession
  rw [haccept]
  dsimp only
  rw [if_neg (Classical.not_not.mpr (beq_iff_eq.1 hlen)), if_pos hsig]
  rfl

/-! ### QUEUE -/

theorem mgmtQueue_of_managed {fr : List Byte} {s : State} {m : Mgmt} (h : managed 4 fr s = some m) (hlen : m.payload.length = 72) :
    exec (.mgmtQueue fr) s = .next (onDie m.die (fun x => x.modPort fun q =>
      q.addCmd ⟨BitVec.ofNat 64 (m.field 0 8), some (m.payload.drop 8), some ⟨m.op, m.die, m.seq⟩⟩) (unlisted m s)) := by
  obtain ⟨-, hop, hlevel⟩ := managed_eq_some h
  have hlevel : (s.die m.die).levelThree = false := by simpa using hlevel
  change s.mgmt 4 fr = _
  rw [mgmt_of_managed h]
  unfold State.performMgmt
  dsimp only
  refine congrArg Host.Outcome.next ((if_neg ?_).trans ((if_pos hop).trans (if_neg (Classical.not_not.mpr hlen))))
  rintro ⟨hthree, -⟩
  rw [← unlisted_levelThree] at hlevel
  exact absurd (hlevel.symm.trans hthree) Bool.false_ne_true

/-- Settles O44: each row by the result of the command that its step performs. -/
theorem managementSteps : Obligations.ManagementSteps := by
  intro fr
  simp only [mgmtTable, List.forall_mem_cons]
  refine ⟨?opens, ?refused, ?close, ?proc, ?map, ?load, ?pwrite, ?queue, ?enqueue, ?regRead, ?regWrite, ?reset, ?freq, ?conf, ?retirement,
    ?errors, ?certificate, ?attest, ?attestFault, accepted_holds fun _ => rfl, accepted_holds fun _ => rfl, accepted_holds fun _ => rfl,
    accepted_holds fun _ => rfl, accepted_holds fun _ => rfl, accepted_holds fun _ => rfl, accepted_holds fun _ => rfl,
    accepted_holds fun _ => rfl, accepted_holds fun _ => rfl, accepted_holds fun _ => rfl, accepted_holds fun _ => rfl,
    accepted_holds fun _ => rfl, List.forall_mem_nil _⟩
  case opens =>
    refine row_holds fun s hok => ?_
    obtain ⟨⟨m, r, t⟩, h⟩ := Option.isSome_iff_exists.1 hok
    rw [mgmtSession_opens h, h]
    dsimp only
    cases Config.unwrapKey (m.payload.take 512) with
    | none => rfl
    | some k => rfl
  case refused =>
    refine row_holds fun s hok => ?_
    obtain ⟨⟨m, r, t⟩, h⟩ := Option.isSome_iff_exists.1 hok
    rw [mgmtSession_refused h, h]
  case close =>
    refine mgmtDone_holds (fun _ => rfl) (by decide) ?_
    rintro ⟨op, die, seq, payload, mac⟩ s rfl h
    exact mgmtClose_of_ok h
  case proc =>
    refine mgmtDone_holds (fun _ => rfl) (by decide) ?_
    rintro ⟨op, die, seq, payload, mac⟩ s rfl h
    exact mgmtProc_of_ok h
  case map =>
    refine mgmtDone_holds (fun _ => rfl) (by decide) ?_
    rintro ⟨op, die, seq, payload, mac⟩ s rfl h
    exact mgmtMap_of_ok h
  case load =>
    refine mgmtDone_holds (fun _ => rfl) (by decide) ?_
    rintro ⟨op, die, seq, payload, mac⟩ s rfl h
    exact mgmtLoad_of_ok h
  case pwrite =>
    refine mgmtDone_holds (fun _ => rfl) (by decide) ?_
    rintro ⟨op, die, seq, payload, mac⟩ s rfl h
    simp only [Bool.and_eq_true, decide_eq_true_eq] at h
    exact mgmtPwrite_of_ok h.1.1 h.1.2 h.2
  case queue =>
    refine row_holds fun s hok => ?_
    obtain ⟨m, h⟩ := Option.isSome_iff_exists.1 hok
    obtain ⟨hm, hlen⟩ := Option.filter_eq_some_iff.1 h
    rw [mgmtQueue_of_managed hm (beq_iff_eq.1 hlen), h]
  case enqueue =>
    refine mgmtRow_holds (fun _ => rfl) (by decide) ?_ (fun _ _ _ h8 => absurd h8 (by decide))
    rintro ⟨op, die, seq, payload, mac⟩ s rfl h
    simp only [Bool.and_eq_true, beq_iff_eq, decide_eq_true_eq] at h
    exact mgmtEnqueue_of_ok h.1 h.2
  case regRead =>
    refine mgmtRow_holds (fun _ => rfl) (by decide) ?_ (fun _ _ _ h8 => absurd h8 (by decide))
    rintro ⟨op, die, seq, payload, mac⟩ s rfl h
    exact mgmtReg_of_ok (Nat.le_refl 1) h
  case regWrite =>
    refine mgmtDone_holds (fun _ => rfl) (by decide) ?_
    rintro ⟨op, die, seq, payload, mac⟩ s rfl h
    exact mgmtReg_of_ok (Nat.zero_le 1) h
  case reset =>
    refine mgmtDone_holds (fun _ => rfl) (by decide) ?_
    rintro ⟨op, die, seq, payload, mac⟩ s rfl h
    exact mgmtReset_of_ok h
  case freq =>
    refine mgmtDone_holds (fun _ => rfl) (by decide) ?_
    rintro ⟨op, die, seq, payload, mac⟩ s rfl h
    simp only [Bool.and_eq_true, beq_iff_eq, decide_eq_true_eq] at h
    exact mgmtFreq_of_ok h.1 h.2
  case conf =>
    refine mgmtRow_holds (fun _ => rfl) (by decide) ?_ (fun _ _ _ h8 => absurd h8 (by decide))
    rintro ⟨op, die, seq, payload, mac⟩ s rfl h
    exact mgmtRead_configuration h
  case retirement =>
    refine mgmtRow_holds (fun _ => rfl) (by decide) ?_ (fun _ _ _ h8 => absurd h8 (by decide))
    rintro ⟨op, die, seq, payload, mac⟩ s rfl h
    exact mgmtRead_retirement h
  case errors =>
    refine mgmtRow_holds (fun _ => rfl) (by decide) ?_ (fun _ _ _ h8 => absurd h8 (by decide))
    rintro ⟨op, die, seq, payload, mac⟩ s rfl h
    simp only [Bool.and_eq_true, beq_iff_eq, decide_eq_true_eq] at h
    exact mgmtRead_errors h.1.1 h.1.2 h.2
  case certificate =>
    refine mgmtRow_holds (fun _ => rfl) (by decide) ?_ (fun _ _ _ h8 => absurd h8 (by decide))
    rintro ⟨op, die, seq, payload, mac⟩ s rfl h
    exact mgmtRead_certificate h
  case attest =>
    refine mgmtRow_holds (fun _ => rfl) (by decide) ?_ fun m s h _ => of_decide_eq_true (Bool.and_eq_true_iff.1 h).2
    rintro ⟨op, die, seq, payload, mac⟩ s rfl h
    simp only [Bool.and_eq_true, beq_iff_eq, decide_eq_true_eq] at h
    obtain ⟨⟨hlen, hidentity⟩, -⟩ := h
    exact (mgmtAttest_of_length hlen).trans (if_neg (by simp [hidentity]))
  case attestFault =>
    refine mgmtRow_holds (fun _ => rfl) (by decide) ?_ fun m s h _ => of_decide_eq_true (Bool.and_eq_true_iff.1 h).2
    rintro ⟨op, die, seq, payload, mac⟩ s rfl h
    simp only [Bool.and_eq_true, beq_iff_eq, decide_eq_true_eq] at h
    obtain ⟨⟨hlen, hidentity⟩, -⟩ := h
    exact (mgmtAttest_of_length hlen).trans (if_pos hidentity)

end Sys2Proof.Machine
end

section
/-! PROOFS. Maps, threads and the trap frame: what a delivery leaves, and that TRET of the frame brings it back (O53, O54). -/

namespace Sys2Proof.Machine
open Sys2Proof.Claims

/-! ## Tables -/

theorem tget_tput {α : Type} (m : Map α) (k i : Nat) (x : α) : tget (tput m k x) i = if i = k then some x else tget m i := by
  induction m with
  | nil => simp [tput, tget, eq_comm]
  | cons p m ih =>
    obtain ⟨j, y⟩ := p
    unfold tput
    split
    · rename_i hlt
      simp only [tget, ih]
      split <;> split <;> grind
    · split
      · simp only [tget]
        grind
      · simp only [tget]
        grind

theorem tget_tdel {α : Type} (m : Map α) (k i : Nat) : tget (tdel m k) i = if i = k then none else tget m i := by
  induction m with
  | nil => simp [tdel, tget]
  | cons p m ih =>
    obtain ⟨j, y⟩ := p
    change tget (List.filter _ m) i = _ at ih
    by_cases hj : j = k
    · rw [tdel, List.filter_cons_of_neg (by simp [hj]), ih, tget]
      grind
    · rw [tdel, List.filter_cons_of_pos (by simp [hj]), tget, ih, tget]
      grind

theorem tgetD_tputD {α : Type} [DecidableEq α] (m : Map α) (k i : Nat) (x z : α) :
    tgetD (tputD m k x z) i z = if i = k then x else tgetD m i z := by
  unfold tgetD tputD
  split
  · rename_i hx
    rw [tget_tdel]
    split
    · exact hx.symm
    · rfl
  · rw [tget_tput]
    split <;> rfl

/-! ## Words and s-registers of a group -/

theorem Group.word_setWord (g : Group) (i k : Nat) (w : CoreWord) : (g.setWord i w).word k = if k = i then w else g.word k :=
  tgetD_tputD ..

theorem Group.sreg_setSreg (g : Group) (a n b m : Nat) (v : SReg) (hn : n < 64) (hm : m < 64) :
    (g.setSreg a n v).sreg b m = if b = a ∧ m = n then v else g.sreg b m := by
  refine (tgetD_tputD ..).trans (ite_congr_iff ?_ rfl rfl)
  omega

/-! ## Bytes of a group's partition -/

/-- One step of `distinct`. -/
def pushNew {α : Type} [DecidableEq α] (acc : List α) (x : α) : List α := if acc.contains x then acc else acc ++ [x]

theorem distinct_eq_foldl {α : Type} [DecidableEq α] (l : List α) : distinct l = l.foldl pushNew [] := rfl

theorem mem_pushNew {α : Type} [DecidableEq α] {acc : List α} {x y : α} : x ∈ pushNew acc y ↔ x ∈ acc ∨ x = y := by
  unfold pushNew
  split
  case isTrue h => exact ⟨Or.inl, fun hx => hx.elim id fun hxy => hxy ▸ List.contains_iff_mem.mp h⟩
  case isFalse h => rw [List.mem_append, List.mem_singleton]

theorem nodup_pushNew {α : Type} [DecidableEq α] {acc : List α} (h : acc.Nodup) (y : α) : (pushNew acc y).Nodup := by
  unfold pushNew
  split
  case isTrue => exact h
  case isFalse hy =>
    refine List.nodup_append.mpr ⟨h, List.nodup_cons.mpr ⟨List.not_mem_nil, List.nodup_nil⟩, fun a ha b hb hab => hy (List.contains_iff_mem.mpr ?_)⟩
    rwa [← List.mem_singleton.mp hb, ← hab]

theorem mem_foldl_pushNew {α : Type} [DecidableEq α] {l acc : List α} {x : α} : x ∈ l.foldl pushNew acc ↔ x ∈ acc ∨ x ∈ l := by
  induction l generalizing acc with
  | nil => simp
  | cons y l ih => rw [List.foldl_cons, ih, mem_pushNew, List.mem_cons, or_assoc]

theorem nodup_foldl_pushNew {α : Type} [DecidableEq α] (l : List α) {acc : List α} (h : acc.Nodup) : (l.foldl pushNew acc).Nodup := by
  induction l generalizing acc with
  | nil => exact h
  | cons y l ih => exact ih (nodup_pushNew h y)

theorem mem_distinct {α : Type} [DecidableEq α] {l : List α} {x : α} : x ∈ distinct l ↔ x ∈ l := by
  rw [distinct_eq_foldl, mem_foldl_pushNew]
  simp

theorem nodup_distinct {α : Type} [DecidableEq α] (l : List α) : (distinct l).Nodup := nodup_foldl_pushNew l List.nodup_nil

/-- Words that are each set by a function of themselves. -/
theorem Group.word_foldl_setWord (F : Nat → CoreWord → CoreWord) {ws : List Nat} (hws : ws.Nodup) (g : Group) (k : Nat) :
    (ws.foldl (fun g w => g.setWord w (F w (g.word w))) g).word k = if k ∈ ws then F k (g.word k) else g.word k := by
  induction ws generalizing g with
  | nil => rfl
  | cons w ws ih =>
    obtain ⟨hw, hws⟩ := List.nodup_cons.1 hws
    rw [List.foldl_cons, ih hws, Group.word_setWord]
    by_cases hk : k = w
    · subst hk
      simp [hw]
    · simp [hk]

/-- A word of the partition with bytes stored over its own. -/
def storedWord (o : Nat) (bs : List Byte) (poison : Bool) (w : Nat) (old : CoreWord) : CoreWord :=
  ⟨BitVec.ofNat 32 (ofBytes ((List.range 4).map fun k =>
      if o ≤ 4 * w + k ∧ 4 * w + k < o + bs.length then bs.getD (4 * w + k - o) 0 else BitVec.ofNat 8 (old.val.toNat / 256 ^ k))),
    poison || (old.poison && !(o ≤ 4 * w && 4 * w + 4 ≤ o + bs.length))⟩

theorem Group.word_putPart (g : Group) (o : Nat) (bs : List Byte) (poison : Bool) (k : Nat) :
    (g.putPart o bs poison).word k =
      if ∃ i < bs.length, (o + i) / 4 = k then storedWord o bs poison k (g.word k) else g.word k := by
  refine (Group.word_foldl_setWord (storedWord o bs poison) (nodup_distinct _) g k).trans (ite_congr_iff ?_ rfl rfl)
  simp [mem_distinct]

theorem byte_of_ofBytes (bs : List Byte) (k : Nat) : BitVec.ofNat 8 (ofBytes bs / 256 ^ k) = bs.getD k 0 := by
  induction bs generalizing k with
  | nil => simp [ofBytes]
  | cons b bs ih =>
    cases k with
    | zero => exact BitVec.eq_of_toNat_eq (by simp [ofBytes, Nat.add_mul_mod_self_left, b.isLt])
    | succ k =>
      have hdiv : ofBytes (b :: bs) / 256 = ofBytes bs := by
        rw [ofBytes, Nat.add_mul_div_left _ _ (by decide), Nat.div_eq_of_lt b.isLt, Nat.zero_add]
      rw [Nat.pow_succ', ← Nat.div_div_eq_div_mul, hdiv, ih, List.getD_cons_succ]

theorem ofBytes_lt_of_length {bs : List Byte} {n : Nat} (h : bs.length = n) : ofBytes bs < 256 ^ n := h ▸ ofBytes_lt bs

theorem byte_of_storedWord (o : Nat) (bs : List Byte) (poison : Bool) (w k : Nat) (old : CoreWord) (hk : k < 4) :
    BitVec.ofNat 8 ((storedWord o bs poison w old).val.toNat / 256 ^ k) =
      if o ≤ 4 * w + k ∧ 4 * w + k < o + bs.length then bs.getD (4 * w + k - o) 0 else BitVec.ofNat 8 (old.val.toNat / 256 ^ k) := by
  unfold storedWord
  dsimp only
  rw [BitVec.toNat_ofNat, Nat.mod_eq_of_lt (b := 2 ^ 32) (ofBytes_lt_of_length (n := 4) (by rw [List.length_map, List.length_range])), byte_of_ofBytes,
    getD_eq_getElem_of_lt _ (by simpa using hk), List.getElem_map, List.getElem_range]

theorem Group.partByte_putPart (g : Group) (o : Nat) (bs : List Byte) (poison : Bool) (a : Nat) :
    ((g.putPart o bs poison).partByte a).1 = if o ≤ a ∧ a < o + bs.length then bs.getD (a - o) 0 else (g.partByte a).1 := by
  have ha : 4 * (a / 4) + a % 4 = a := Nat.div_add_mod a 4
  have hbyte := byte_of_storedWord o bs poison (a / 4) (a % 4) (g.word (a / 4)) (Nat.mod_lt a (by decide))
  rw [ha] at hbyte
  unfold Group.partByte
  dsimp only
  rw [Group.word_putPart]
  split
  · exact hbyte
  · rename_i hno
    rw [if_neg fun h => hno ⟨a - o, by omega, by rw [Nat.add_sub_cancel' h.1]⟩]

theorem Group.foldl_setWord_eq (F : Nat → CoreWord → CoreWord) (ws : List Nat) (g : Group) :
    ws.foldl (fun g w => g.setWord w (F w (g.word w))) g =
      { g with part := (ws.foldl (fun g w => g.setWord w (F w (g.word w))) g).part } := by
  induction ws generalizing g with
  | nil => rfl
  | cons w ws ih =>
    rw [List.foldl_cons, ih]
    rfl

theorem Group.putPart_eq (g : Group) (o : Nat) (bs : List Byte) (poison : Bool) :
    g.putPart o bs poison = { g with part := (g.putPart o bs poison).part } :=
  Group.foldl_setWord_eq (storedWord o bs poison) _ g

@[simp] theorem Group.putWindow_ctx (g : Group) (o : Nat) (bs : List Byte) (poison : Bool) : (g.putWindow o bs poison).ctx = g.ctx := by
  rw [Group.putWindow, Group.putPart_eq]

theorem Group.window_putWindow (g : Group) (o : Nat) (bs : List Byte) (poison : Bool) :
    ((g.putWindow o bs poison).window o bs.length).1 = bs := by
  unfold Group.window
  dsimp only
  rw [Group.putWindow_ctx]
  refine List.ext_getElem (by simp) fun i hi hi' => ?_
  simp only [List.getElem_map, List.getElem_range]
  rw [Group.putWindow, Group.partByte_putPart, if_pos (by omega), Nat.add_sub_cancel_left, getD_eq_getElem_of_lt _ hi']

/-! ## Threads that stand in a warp -/

theorem indexesFrom_eq (n : Nat) (ts : List Thread) (p : Thread → Bool) :
    indexesFrom n ts p = ((List.range ts.length).filter fun t => p (ts.getD t default)).map (· + n) := by
  induction ts generalizing n with
  | nil => rfl
  | cons x ts ih =>
    rw [indexesFrom, ih, List.length_cons, List.range_succ_eq_map, List.filter_cons, List.filter_map, List.getD_cons_zero]
    have hstep : ((List.range ts.length).filter ((fun t => p ((x :: ts).getD t default)) ∘ Nat.succ)).map ((· + n) ∘ Nat.succ)
        = ((List.range ts.length).filter fun t => p (ts.getD t default)).map (· + (n + 1)) := by
      refine List.map_congr_left fun t _ => ?_
      simp only [Function.comp_apply]
      omega
    split
    · rw [List.map_cons, List.map_map, hstep, Nat.zero_add]
    · rw [List.map_map, hstep]

theorem Group.threadsWith_eq (g : Group) (p : Thread → Bool) :
    g.threadsWith p = (List.range g.threads.length).filter fun t => p (g.thread t) := by
  rw [Group.threadsWith, indexesFrom_eq]
  exact List.map_id _

theorem perm_insertLane (t : Nat) (l : List Nat) : (insertLane t l).Perm (t :: l) := by
  induction l with
  | nil => exact List.Perm.refl _
  | cons u l ih =>
    rw [insertLane]
    split
    · exact List.Perm.refl _
    · exact (List.Perm.cons u ih).trans (List.Perm.swap ..)

theorem perm_byLane (l : List Nat) : (byLane l).Perm l := by
  induction l with
  | nil => exact List.Perm.refl _
  | cons t l ih => exact (perm_insertLane t (byLane l)).trans (List.Perm.cons t ih)

theorem Group.mem_members {g : Group} {warp t : Nat} :
    t ∈ g.members warp ↔ t < g.threads.length ∧ (g.thread t).warp = some warp ∧ (g.thread t).exited = false := by
  rw [Group.members, (perm_byLane _).mem_iff, Group.threadsWith_eq]
  simp

theorem Group.nodup_members (g : Group) (warp : Nat) : (g.members warp).Nodup := by
  rw [Group.members, (perm_byLane _).nodup_iff, Group.threadsWith_eq]
  exact List.nodup_range.sublist List.filter_sublist

theorem Group.members_congr {g h : Group} (hlen : h.threads.length = g.threads.length)
    (hthread : ∀ t, (h.thread t).warp = (g.thread t).warp ∧ (h.thread t).exited = (g.thread t).exited) (warp : Nat) :
    h.members warp = g.members warp := by
  unfold Group.members
  rw [Group.threadsWith_eq, Group.threadsWith_eq, hlen]
  refine congrArg byLane (List.filter_congr fun t _ => ?_)
  rw [(hthread t).1, (hthread t).2]

/-- Threads that are each changed once. -/
theorem Group.thread_foldl_modThread (F : Nat → Thread → Thread) {ts : List Nat} (hts : ts.Nodup) {g : Group} {u : Nat}
    (hu : u < g.threads.length) :
    (ts.foldl (fun g t => g.modThread t (F t)) g).thread u = if u ∈ ts then F u (g.thread u) else g.thread u := by
  induction ts generalizing g with
  | nil => rfl
  | cons t ts ih =>
    obtain ⟨ht, hts⟩ := List.nodup_cons.1 hts
    rw [List.foldl_cons, ih hts (by simpa using hu), Group.thread_modThread]
    by_cases htu : t = u
    · subst htu
      simp [ht, hu]
    · simp [htu, Ne.symm htu]

theorem Group.foldl_modThread_eq (F : Nat → Thread → Thread) (ts : List Nat) (g : Group) :
    ts.foldl (fun g t => g.modThread t (F t)) g =
      { g with threads := (ts.foldl (fun g t => g.modThread t (F t)) g).threads } := by
  induction ts generalizing g with
  | nil => rfl
  | cons t ts ih =>
    rw [List.foldl_cons, ih]
    rfl

theorem Group.length_foldl_modThread (F : Nat → Thread → Thread) (ts : List Nat) (g : Group) :
    (ts.foldl (fun g t => g.modThread t (F t)) g).threads.length = g.threads.length := by
  induction ts generalizing g with
  | nil => rfl
  | cons t ts ih => rw [List.foldl_cons, ih, Group.modThread_threads, List.length_modify]

@[simp] theorem Group.modThreads_sregs (g : Group) (ts : List Nat) (f : Thread → Thread) : (g.modThreads ts f).sregs = g.sregs := by
  rw [Group.modThreads_eq]

@[simp] theorem Group.modThreads_warps (g : Group) (ts : List Nat) (f : Thread → Thread) : (g.modThreads ts f).warps = g.warps := by
  rw [Group.modThreads_eq]

theorem Group.thread_of_length_le {g : Group} {t : Nat} (h : g.threads.length ≤ t) : g.thread t = default :=
  getD_of_length_le _ h

open Sys2Proof.Claims

/-! ## The fields of a trap frame (R383) -/

theorem frameField_append_left {a b : List Byte} {o n : Nat} (h : o + n ≤ a.length) : frameField (a ++ b) o n = frameField a o n := by
  unfold frameField
  rw [List.drop_append_of_le_length (by omega), List.take_append_of_le_length (by rw [List.length_drop]; omega)]

theorem frameField_append_right {a b : List Byte} {k : Nat} (h : a.length = k) (o n : Nat) :
    frameField (a ++ b) (k + o) n = frameField b o n := by
  unfold frameField
  rw [← h, ← List.drop_drop, List.drop_left]

theorem frameField_whole {bs : List Byte} {n : Nat} (h : bs.length = n) : frameField bs 0 n = ofBytes bs := by
  rw [frameField, List.drop_zero, ← h, List.take_length]

theorem frameField_skip (k x : Nat) (b : List Byte) (o n : Nat) : frameField (toBytes k x ++ b) (k + o) n = frameField b o n :=
  frameField_append_right (length_toBytes k x) o n

theorem frameField_first (k x : Nat) (b : List Byte) : frameField (toBytes k x ++ b) 0 k = x % 256 ^ k := by
  rw [frameField_append_left (Nat.le_of_eq (by rw [length_toBytes, Nat.zero_add])), frameField_whole (length_toBytes k x), ofBytes_toBytes]

theorem take_drop_flatMap {α β : Type} {f : α → List β} {k : Nat} (hf : ∀ x, (f x).length = k) (l : List α) {i : Nat} (hi : i < l.length) :
    ((l.flatMap f).drop (k * i)).take k = f l[i] := by
  induction l generalizing i with
  | nil => cases hi
  | cons x l ih =>
    rw [List.flatMap_cons]
    cases i with
    | zero => rw [Nat.mul_zero, List.drop_zero, List.take_append_of_le_length (Nat.le_of_eq (hf x).symm), List.take_of_length_le (Nat.le_of_eq (hf x))]; rfl
    | succ i =>
      rw [Nat.mul_succ, Nat.add_comm, ← List.drop_drop, List.drop_left' (hf x)]
      exact ih (Nat.lt_of_succ_lt_succ hi)

theorem frameField_flatMap {f : Nat → List Byte} {k n i : Nat} (hf : ∀ x, (f x).length = k) (hi : i < n) :
    frameField ((List.range n).flatMap f) (k * i) k = ofBytes (f i) := by
  rw [frameField, take_drop_flatMap hf _ (by simpa using hi), List.getElem_range]

/-- The first 64 bytes of the trap frame. -/
def trapHead (tr : Trap) (pc addr : DWord) : List Byte :=
  toBytes 2 tr.cause ++ toBytes 1 tr.warp ++ toBytes 1 tr.precise.toNat ++ toBytes 4 (tr.lanes.foldl (fun m l => Nat.lor m (2 ^ l)) 0)
    ++ toBytes 8 pc.toNat ++ toBytes 8 addr.toNat ++ List.replicate 40 0

/-- What the frame says of a lane: its home row, its flags and its depth; 0 where no member stands there. -/
def trapState (g : Group) (warp l : Nat) : Nat :=
  ((g.atLane warp l).map fun t =>
    (t / 32) * 2 ^ 21 + 2 ^ 20 + ((g.thread t).wait.any fun w => !w.resource).toNat * 2 ^ 19 + (g.thread t).m.toNat * 2 ^ 18
      + (g.thread t).y.toNat * 2 ^ 17 + (g.thread t).depth.toNat).getD 0

/-- The PC of a lane's member. -/
def trapPc (g : Group) (warp l : Nat) : Nat := ((g.atLane warp l).map fun t => (g.thread t).pc.toNat).getD 0

/-- The predicates of a lane's member. -/
def trapPreds (g : Group) (warp l : Nat) : Nat := ((g.atLane warp l).map fun t => (g.thread t).preds.toNat).getD 0

theorem trapFrame_eq (g : Group) (tr : Trap) (pc addr : DWord) :
    g.trapFrame tr pc addr =
      trapHead tr pc addr ++ ((List.range 32).flatMap (fun l => toBytes 8 (trapPc g tr.warp l))
        ++ ((List.range 32).flatMap (fun l => toBytes 4 (trapState g tr.warp l))
          ++ ((List.range 32).flatMap (fun l => toBytes 1 (trapPreds g tr.warp l))
            ++ (List.replicate 32 0 ++ (List.range 64).flatMap fun n => toBytes 8 (g.sreg tr.warp n).val.toNat)))) := by
  have hpreds : (List.range 32).map (fun l => BitVec.ofNat 8 (trapPreds g tr.warp l))
      = (List.range 32).flatMap fun l => toBytes 1 (trapPreds g tr.warp l) := List.map_eq_flatMap
  rw [← hpreds]
  simp only [Group.trapFrame, trapHead, List.append_assoc]
  rfl

theorem length_trapHead (tr : Trap) (pc addr : DWord) : (trapHead tr pc addr).length = 64 := by
  simp [trapHead, length_toBytes]

theorem length_flatMap_toBytes (n k : Nat) (f : Nat → Nat) : ((List.range n).flatMap fun l => toBytes k (f l)).length = n * k := by
  simp only [List.length_flatMap, length_toBytes]
  rw [List.map_const', List.length_range, List.sum_replicate_nat]

theorem length_trapFrame (g : Group) (tr : Trap) (pc addr : DWord) : (g.trapFrame tr pc addr).length = 1024 := by
  rw [trapFrame_eq]
  simp only [List.length_append, length_trapHead, length_flatMap_toBytes, List.length_replicate]

theorem trapFrame_pc (g : Group) (tr : Trap) (pc addr : DWord) {l : Nat} (hl : l < 32) :
    frameField (g.trapFrame tr pc addr) (0x40 + 8 * l) 8 = trapPc g tr.warp l % 256 ^ 8 := by
  rw [trapFrame_eq, frameField_append_right (length_trapHead ..), frameField_append_left (by rw [length_flatMap_toBytes]; omega),
    frameField_flatMap (fun _ => length_toBytes ..) hl, ofBytes_toBytes]

theorem trapFrame_state (g : Group) (tr : Trap) (pc addr : DWord) {l : Nat} (hl : l < 32) :
    frameField (g.trapFrame tr pc addr) (0x140 + 4 * l) 4 = trapState g tr.warp l % 256 ^ 4 := by
  rw [trapFrame_eq, show 0x140 + 4 * l = 64 + (32 * 8 + 4 * l) by omega, frameField_append_right (length_trapHead ..),
    frameField_append_right (length_flatMap_toBytes ..), frameField_append_left (by rw [length_flatMap_toBytes]; omega),
    frameField_flatMap (fun _ => length_toBytes ..) hl, ofBytes_toBytes]

theorem trapFrame_preds (g : Group) (tr : Trap) (pc addr : DWord) {l : Nat} (hl : l < 32) :
    frameField (g.trapFrame tr pc addr) (0x1C0 + l) 1 = trapPreds g tr.warp l % 256 ^ 1 := by
  rw [trapFrame_eq, show 0x1C0 + l = 64 + (32 * 8 + (32 * 4 + 1 * l)) by omega, frameField_append_right (length_trapHead ..),
    frameField_append_right (length_flatMap_toBytes ..), frameField_append_right (length_flatMap_toBytes ..),
    frameField_append_left (by rw [length_flatMap_toBytes]; omega), frameField_flatMap (fun _ => length_toBytes ..) hl, ofBytes_toBytes]

theorem trapFrame_sreg (g : Group) (tr : Trap) (pc addr : DWord) {n : Nat} (hn : n < 64) :
    frameField (g.trapFrame tr pc addr) (0x200 + 8 * n) 8 = (g.sreg tr.warp n).val.toNat := by
  rw [trapFrame_eq, show 0x200 + 8 * n = 64 + (32 * 8 + (32 * 4 + (32 * 1 + (32 + 8 * n)))) by omega,
    frameField_append_right (length_trapHead ..), frameField_append_right (length_flatMap_toBytes ..),
    frameField_append_right (length_flatMap_toBytes ..), frameField_append_right (length_flatMap_toBytes ..),
    frameField_append_right List.length_replicate, frameField_flatMap (fun _ => length_toBytes ..) hn, ofBytes_toBytes]
  exact Nat.mod_eq_of_lt (g.sreg tr.warp n).val.isLt

theorem trapFrame_head (g : Group) (tr : Trap) (pc addr : DWord) :
    frameField (g.trapFrame tr pc addr) 0 2 = tr.cause % 256 ^ 2 ∧ frameField (g.trapFrame tr pc addr) 2 1 = tr.warp % 256 ^ 1
      ∧ frameField (g.trapFrame tr pc addr) 3 1 = tr.precise.toNat % 256 ^ 1 ∧ frameField (g.trapFrame tr pc addr) 8 8 = pc.toNat
      ∧ frameField (g.trapFrame tr pc addr) 16 8 = addr.toNat := by
  rw [trapFrame_eq]
  unfold trapHead
  simp only [List.append_assoc]
  refine ⟨?_, ?_, ?_, ?_, ?_⟩
  · exact frameField_first ..
  · exact (frameField_skip 2 _ _ 0 1).trans (frameField_first ..)
  · exact (frameField_skip 2 _ _ 1 1).trans ((frameField_skip 1 _ _ 0 1).trans (frameField_first ..))
  · refine (frameField_skip 2 _ _ 6 8).trans ((frameField_skip 1 _ _ 5 8).trans ((frameField_skip 1 _ _ 4 8).trans
      ((frameField_skip 4 _ _ 0 8).trans ((frameField_first ..).trans (Nat.mod_eq_of_lt pc.isLt)))))
  · refine (frameField_skip 2 _ _ 14 8).trans ((frameField_skip 1 _ _ 13 8).trans ((frameField_skip 1 _ _ 12 8).trans
      ((frameField_skip 4 _ _ 8 8).trans ((frameField_skip 8 _ _ 0 8).trans ((frameField_first ..).trans
        (Nat.mod_eq_of_lt addr.isLt))))))

/-! ## The handler warp -/

theorem Group.unwait_nil (g : Group) : g.unwait [] = g := by
  have hpend : g.pend.filter (fun r => !(([] : List Res).filter fun r => !(g.threads.flatMap fun t => (t.wait.map Wait.held).getD []).contains r).contains r)
      = g.pend := List.filter_eq_self.mpr fun _ _ => rfl
  change { g with pend := _ } = g
  exact congrArg (fun p => { g with pend := p }) hpend

section
variable {g : Group} {tr : Trap} {pc addr : DWord}

/-- A member as the handler finds it (R382). -/
def handled (handler : DWord) (t : Thread) : Thread := { t with pc := handler, y := false, m := false }

/-- A member as the trap leaves it: a wait for a resource is over, and any other is suspended (R382). -/
def trapped (handler : DWord) (t : Thread) : Thread :=
  { t with pc := handler, y := false, m := false, wait := none, suspEnd := none
           susp := match t.wait with
             | some w => if w.resource then none else some w
             | none => none }

theorem trapped_eq_handled {handler : DWord} {t : Thread} (h : t.wait = none ∧ t.susp = none ∧ t.suspEnd = none) :
    trapped handler t = handled handler t := by
  obtain ⟨hwait, hsusp, hend⟩ := h
  unfold trapped handled
  cases t
  subst hwait hsusp hend
  rfl

/-- The group with the trap frame in its window. -/
def framed (g : Group) (tr : Trap) (pc addr : DWord) : Group := g.putWindow g.b3 (g.trapFrame tr pc addr) false

@[simp] theorem framed_threads (g : Group) (tr : Trap) (pc addr : DWord) : (framed g tr pc addr).threads = g.threads := by
  rw [framed, Group.putWindow, Group.putPart_eq]

@[simp] theorem framed_ctx (g : Group) (tr : Trap) (pc addr : DWord) : (framed g tr pc addr).ctx = g.ctx := Group.putWindow_ctx ..

@[simp] theorem framed_sregs (g : Group) (tr : Trap) (pc addr : DWord) : (framed g tr pc addr).sregs = g.sregs := by
  rw [framed, Group.putWindow, Group.putPart_eq]

@[simp] theorem framed_warps (g : Group) (tr : Trap) (pc addr : DWord) : (framed g tr pc addr).warps = g.warps := by
  rw [framed, Group.putWindow, Group.putPart_eq]

theorem framed_thread (g : Group) (tr : Trap) (pc addr : DWord) (t : Nat) : (framed g tr pc addr).thread t = g.thread t := by
  rw [Group.thread, framed_threads, Group.thread]

theorem framed_members (g : Group) (tr : Trap) (pc addr : DWord) (warp : Nat) : (framed g tr pc addr).members warp = g.members warp := by
  rw [Group.members, Group.threadsWith, framed_threads, Group.members, Group.threadsWith]

/-- Where no thread of the warp waits, the trap leaves the frame and the members at the handler. -/
theorem enterHandler_eq (hquiet : quiet g tr.warp) :
    g.enterHandler tr pc addr =
      { ((framed g tr pc addr).modThreads (g.members tr.warp) (trapped g.ctx.handler)).modCtx
          (fun c => { c with trapcause := BitVec.ofNat 64 tr.cause, trappc := pc, trapaddr := addr }) with trap := some tr } := by
  have hnone : ((framed g tr pc addr).members tr.warp).filter (fun t => ((framed g tr pc addr).thread t).wait.any Wait.resource) = [] := by
    refine List.filter_eq_nil_iff.2 fun t ht => ?_
    rw [framed_members] at ht
    rw [framed_thread, (hquiet.1 t ht).1]
    exact Bool.false_ne_true
  unfold Group.enterHandler
  dsimp only
  rw [show g.putWindow g.b3 (g.trapFrame tr pc addr) false = framed g tr pc addr from rfl, hnone, Group.unwait_nil, framed_members,
    framed_ctx]
  rfl

theorem enterHandler_thread (hquiet : quiet g tr.warp) (t : Nat) :
    (g.enterHandler tr pc addr).thread t = if t ∈ g.members tr.warp then handled g.ctx.handler (g.thread t) else g.thread t := by
  rw [enterHandler_eq hquiet]
  change ((framed g tr pc addr).modThreads (g.members tr.warp) (trapped g.ctx.handler)).thread t = _
  by_cases hlt : t < g.threads.length
  · refine (Group.thread_foldl_modThread (fun _ => trapped g.ctx.handler) (Group.nodup_members g tr.warp) (by simpa using hlt)).trans ?_
    rw [framed_thread]
    split
    · rename_i ht
      exact trapped_eq_handled (hquiet.1 t ht)
    · rfl
  · have hno : t ∉ g.members tr.warp := fun h => hlt (Group.mem_members.1 h).1
    rw [Group.thread_modThreads_of_not_mem hno, framed_thread, if_neg hno]

@[simp] theorem enterHandler_sregs (hquiet : quiet g tr.warp) : (g.enterHandler tr pc addr).sregs = g.sregs := by
  rw [enterHandler_eq hquiet]
  change ((framed g tr pc addr).modThreads (g.members tr.warp) (trapped g.ctx.handler)).sregs = _
  rw [Group.modThreads_sregs, framed_sregs]

theorem enterHandler_length (hquiet : quiet g tr.warp) : (g.enterHandler tr pc addr).threads.length = g.threads.length := by
  rw [enterHandler_eq hquiet]
  change ((framed g tr pc addr).modThreads (g.members tr.warp) (trapped g.ctx.handler)).threads.length = _
  rw [Group.modThreads_length, framed_threads]

theorem enterHandler_members (hquiet : quiet g tr.warp) (warp : Nat) :
    (g.enterHandler tr pc addr).members warp = g.members warp := by
  refine Group.members_congr (enterHandler_length hquiet) (fun t => ?_) warp
  rw [enterHandler_thread hquiet]
  split
  · exact ⟨rfl, rfl⟩
  · exact ⟨rfl, rfl⟩

theorem Group.window_congr {g h : Group} (hpart : h.part = g.part) (hframe : h.ctx.frame = g.ctx.frame) (o n : Nat) :
    h.window o n = g.window o n := by
  unfold Group.window Group.partByte Group.word
  rw [hpart, hframe]

theorem Group.b3_congr {g h : Group} (hwarps : h.warps = g.warps) (hframe : h.ctx.frame = g.ctx.frame) : h.b3 = g.b3 := by
  unfold Group.b3 Group.b2 Group.b1
  rw [hwarps, hframe]

theorem enterHandler_part (hquiet : quiet g tr.warp) : (g.enterHandler tr pc addr).part = (framed g tr pc addr).part := by
  rw [enterHandler_eq hquiet]
  change ((framed g tr pc addr).modThreads (g.members tr.warp) (trapped g.ctx.handler)).part = _
  exact Group.modThreads_part ..

theorem enterHandler_ctx (hquiet : quiet g tr.warp) :
    (g.enterHandler tr pc addr).ctx = { g.ctx with trapcause := BitVec.ofNat 64 tr.cause, trappc := pc, trapaddr := addr } := by
  rw [enterHandler_eq hquiet]
  change { ((framed g tr pc addr).modThreads (g.members tr.warp) (trapped g.ctx.handler)).ctx with
    trapcause := BitVec.ofNat 64 tr.cause, trappc := pc, trapaddr := addr } = _
  rw [Group.modThreads_ctx, framed_ctx]

theorem enterHandler_frame (hquiet : quiet g tr.warp) :
    (g.enterHandler tr pc addr).ctx.frame = (framed g tr pc addr).ctx.frame := by
  rw [enterHandler_ctx hquiet, framed_ctx]

theorem enterHandler_b3 (hquiet : quiet g tr.warp) : (g.enterHandler tr pc addr).b3 = g.b3 := by
  refine Group.b3_congr ?_ (by rw [enterHandler_ctx hquiet])
  rw [enterHandler_eq hquiet]
  change ((framed g tr pc addr).modThreads (g.members tr.warp) (trapped g.ctx.handler)).warps = _
  rw [Group.modThreads_warps, framed_warps]

/-- What the handler finds at B3 is the trap frame. -/
theorem enterHandler_window (hquiet : quiet g tr.warp) :
    ((g.enterHandler tr pc addr).window (g.enterHandler tr pc addr).b3 1024).1 = g.trapFrame tr pc addr := by
  have hwindow := Group.window_putWindow g g.b3 (g.trapFrame tr pc addr) false
  rw [length_trapFrame] at hwindow
  rw [← hwindow, enterHandler_b3 hquiet, Group.window_congr (enterHandler_part hquiet) (enterHandler_frame hquiet)]
  rfl

/-- The member at a lane is the one that stands there (R45). -/
theorem atLane_of_mem (hquiet : quiet g tr.warp) {t : Nat} (ht : t ∈ g.members tr.warp) : g.atLane tr.warp (t % 32) = some t := by
  unfold Group.atLane
  cases hfind : (g.members tr.warp).find? fun u => u % 32 == t % 32 with
  | none => exact absurd (List.find?_eq_none.1 hfind t ht) (by simp)
  | some u =>
    have hu : u % 32 = t % 32 := by simpa using List.find?_some hfind
    exact congrArg some (hquiet.2 u (List.mem_of_find?_eq_some hfind) t ht hu)

/-- The frame's word of a member that does not wait (R383). -/
def stateWord (row : Nat) (m y : Bool) (depth : BitVec 16) : Nat :=
  row * 2 ^ 21 + 2 ^ 20 + (false : Bool).toNat * 2 ^ 19 + m.toNat * 2 ^ 18 + y.toNat * 2 ^ 17 + depth.toNat

theorem stateWord_depth (row : Nat) (m y : Bool) (depth : BitVec 16) :
    BitVec.ofNat 16 (stateWord row m y depth % 256 ^ 4) = depth := by
  refine BitVec.eq_of_toNat_eq ?_
  have hd := depth.isLt
  rw [BitVec.toNat_ofNat, stateWord]
  omega

theorem stateWord_m (row : Nat) (m y : Bool) (depth : BitVec 16) : bit (stateWord row m y depth % 256 ^ 4) 18 = m := by
  have hd := depth.isLt
  have hy := Bool.toNat_le y
  unfold bit stateWord
  rw [Nat.testBit_eq_decide_div_mod_eq]
  cases m with
  | false => simp only [Bool.toNat_false]; exact decide_eq_false (by omega)
  | true => simp only [Bool.toNat_false, Bool.toNat_true]; exact decide_eq_true (by omega)

theorem stateWord_y (row : Nat) (m y : Bool) (depth : BitVec 16) : bit (stateWord row m y depth % 256 ^ 4) 17 = y := by
  have hd := depth.isLt
  have hm := Bool.toNat_le m
  unfold bit stateWord
  rw [Nat.testBit_eq_decide_div_mod_eq]
  cases y with
  | false => simp only [Bool.toNat_false]; exact decide_eq_false (by omega)
  | true => simp only [Bool.toNat_false, Bool.toNat_true]; exact decide_eq_true (by omega)

theorem ofNat_toNat_mod {w n : Nat} (x : BitVec w) (h : 2 ^ w ≤ n) : BitVec.ofNat w (x.toNat % n) = x := by
  rw [Nat.mod_eq_of_lt (Nat.lt_of_lt_of_le x.isLt h), BitVec.ofNat_toNat, BitVec.setWidth_eq]

theorem restore_eq (tr : Trap) (fr : List Byte) (lane : Nat) (t : Thread) :
    tr.restore fr false lane t =
      { t with
        pc := BitVec.ofNat 64 (frameField fr (0x40 + 8 * lane) 8)
        depth := BitVec.ofNat 16 (frameField fr (0x140 + 4 * lane) 4)
        m := bit (frameField fr (0x140 + 4 * lane) 4) 18
        y := bit (frameField fr (0x140 + 4 * lane) 4) 17
        preds := BitVec.ofNat 7 (frameField fr (0x1C0 + lane) 1)
        wait := t.susp, susp := none, suspEnd := none } := rfl

/-- What the frame says of a member gives it back. -/
theorem restore_handled (hquiet : quiet g tr.warp) {t : Nat} (ht : t ∈ g.members tr.warp) :
    tr.restore (g.trapFrame tr pc addr) false (t % 32) (handled g.ctx.handler (g.thread t)) = g.thread t := by
  have hlane : t % 32 < 32 := Nat.mod_lt t (by decide)
  obtain ⟨hwait, hsusp, hend⟩ := hquiet.1 t ht
  have hat := atLane_of_mem hquiet ht
  have hpc : trapPc g tr.warp (t % 32) = (g.thread t).pc.toNat := by rw [trapPc, hat]; rfl
  have hpreds : trapPreds g tr.warp (t % 32) = (g.thread t).preds.toNat := by rw [trapPreds, hat]; rfl
  have hstate : trapState g tr.warp (t % 32) =
      stateWord (t / 32) (g.thread t).m (g.thread t).y (g.thread t).depth := by
    rw [trapState, hat, Option.map_some, Option.getD_some, hwait]
    rfl
  rw [restore_eq, trapFrame_pc g tr pc addr hlane, trapFrame_state g tr pc addr hlane, trapFrame_preds g tr pc addr hlane, hpc, hpreds,
    hstate, stateWord_depth, stateWord_m, stateWord_y, ofNat_toNat_mod _ (by decide), ofNat_toNat_mod _ (by decide)]
  generalize g.thread t = x at hwait hsusp hend
  cases x
  subst hwait hsusp hend
  rfl

end

theorem Group.sreg_foldl_setSreg (F : Nat → SReg) (warp : Nat) {ns : List Nat} (hns : ∀ n ∈ ns, n < 64) (g : Group) {m : Nat} (hm : m < 64) :
    (ns.foldl (fun g n => g.setSreg warp n (F n)) g).sreg warp m = if m ∈ ns then F m else g.sreg warp m := by
  induction ns generalizing g with
  | nil => rfl
  | cons n ns ih =>
    obtain ⟨hn, hns⟩ := List.forall_mem_cons.1 hns
    rw [List.foldl_cons, ih hns, Group.sreg_setSreg _ _ _ _ _ _ hn hm]
    by_cases hmn : m = n
    · subst hmn
      simp
    · simp [hmn]

theorem Group.foldl_setSreg_threads (F : Nat → SReg) (warp : Nat) (ns : List Nat) (g : Group) :
    (ns.foldl (fun g n => g.setSreg warp n (F n)) g).threads = g.threads := by
  induction ns generalizing g with
  | nil => rfl
  | cons n ns ih => rw [List.foldl_cons, ih, Group.setSreg_threads]

/-- The group with its members and the s-registers of their warp as a frame gives them. -/
def restored (h : Group) (tr : Trap) (fr : List Byte) : Group :=
  (List.range 64).foldl (fun g n => g.setSreg tr.warp n ⟨BitVec.ofNat 64 (frameField fr (0x200 + 8 * n) 8), false⟩)
    ((h.members tr.warp).foldl (fun g t => g.modThread t (tr.restore fr false (t % 32))) h)

theorem restored_thread (h : Group) (tr : Trap) (fr : List Byte) (t : Nat) :
    (restored h tr fr).thread t = ((h.members tr.warp).foldl (fun g t => g.modThread t (tr.restore fr false (t % 32))) h).thread t :=
  congrArg (fun ts : List Thread => ts.getD t default) (Group.foldl_setSreg_threads _ tr.warp (List.range 64) _)

theorem restored_sreg (h : Group) (tr : Trap) (fr : List Byte) {n : Nat} (hn : n < 64) :
    (restored h tr fr).sreg tr.warp n = ⟨BitVec.ofNat 64 (frameField fr (0x200 + 8 * n) 8), false⟩ := by
  unfold restored
  rw [Group.sreg_foldl_setSreg (fun n => ⟨BitVec.ofNat 64 (frameField fr (0x200 + 8 * n) 8), false⟩) _ (fun _ => List.mem_range.1) _ hn,
    if_pos (List.mem_range.2 hn)]

/-- The group as TRET leaves it, out of its handler. -/
def outOfHandler (g : Group) (log : List ParkedWord) : Group := { g with trap := none, yielded := false, log := log }

theorem outOfHandler_thread (g : Group) (log : List ParkedWord) (t : Nat) : (outOfHandler g log).thread t = g.thread t := rfl

theorem outOfHandler_sreg (g : Group) (log : List ParkedWord) (a n : Nat) : (outOfHandler g log).sreg a n = g.sreg a n := rfl

/-- Where no member waits, TRET restores the members and the s-registers alone. -/
theorem leaveHandler_of_quiet {h : Group} {tr : Trap} {fr : List Byte}
    (hquiet : ∀ t ∈ h.members tr.warp, (h.thread t).wait = none ∧ (h.thread t).suspEnd = none) :
    ∃ log, h.leaveHandler tr fr false = outOfHandler (restored h tr fr) log := by
  have hended : (h.members tr.warp).filterMap (fun t => (h.thread t).suspEnd.map fun e => (t, e)) = [] :=
    List.filterMap_eq_nil_iff.2 fun t ht => by rw [(hquiet t ht).2]; rfl
  have hwaits : (h.members tr.warp).filter (fun t => (h.thread t).wait.isSome) = [] :=
    List.filter_eq_nil_iff.2 fun t ht => by rw [(hquiet t ht).1]; exact Bool.false_ne_true
  unfold Group.leaveHandler
  dsimp only
  rw [hended, hwaits, Group.unwait_nil, List.foldl_nil]
  exact ⟨_, rfl⟩

/-- Settles O54: what the frame says of each member and each s-register is what they were. -/
theorem trapRoundTrip : Obligations.TrapRoundTrip := by
  intro g tr pc addr hquiet _ _ h k
  have hmembers : h.members tr.warp = g.members tr.warp := enterHandler_members hquiet tr.warp
  have hframe : (h.window h.b3 1024).1 = g.trapFrame tr pc addr := enterHandler_window hquiet
  have hthread : ∀ t, h.thread t = if t ∈ g.members tr.warp then handled g.ctx.handler (g.thread t) else g.thread t :=
    enterHandler_thread hquiet
  have hstill : ∀ t ∈ h.members tr.warp, (h.thread t).wait = none ∧ (h.thread t).suspEnd = none := by
    intro t ht
    rw [hmembers] at ht
    rw [hthread, if_pos ht]
    exact ⟨(hquiet.1 t ht).1, (hquiet.1 t ht).2.2⟩
  obtain ⟨log, hleft⟩ := leaveHandler_of_quiet (fr := (h.window h.b3 1024).1) hstill
  have hk : k = outOfHandler (restored h tr (g.trapFrame tr pc addr)) log := by rw [← hframe]; exact hleft
  refine ⟨fun t => ?_, fun n hn => ?_, by rw [hk]; rfl⟩
  · rw [hk, outOfHandler_thread, restored_thread, hmembers]
    by_cases hlt : t < g.threads.length
    · rw [Group.thread_foldl_modThread _ (Group.nodup_members g tr.warp) (by rwa [enterHandler_length hquiet]), hthread]
      split
      · rename_i ht
        exact restore_handled hquiet ht
      · rfl
    · rw [Group.thread_of_length_le, Group.thread_of_length_le (Nat.not_lt.mp hlt)]
      rw [Group.length_foldl_modThread, enterHandler_length hquiet]
      exact Nat.not_lt.mp hlt
  · rw [hk, outOfHandler_sreg, restored_sreg h tr _ hn, trapFrame_sreg g tr pc addr hn, BitVec.ofNat_toNat, BitVec.setWidth_eq]

open Sys2Proof.Claims

/-! ## The delivery leaves the other groups' places -/

theorem Die.unpin_memStep (d : Die) (cl : Nat) : d.MemStep (d.unpin cl) := ⟨rfl, rfl⟩

theorem Die.clearFences_memStep (d : Die) (core : Nat) : d.MemStep (d.clearFences core) := by
  unfold Die.clearFences
  refine .foldl (fun d id => ?_) _ d
  exact .ite ⟨rfl, rfl⟩ (.refl d)

/-- CANCEL discards matrix entries and fences, no group (R336). -/
theorem Die.dropMatrix_memStep (d : Die) (gid : Nat) : d.MemStep (d.dropMatrix gid) := by
  unfold Die.dropMatrix
  dsimp only
  have hunpin := fun l => Die.MemStep.foldl (fun d (k : Nat × Cluster) => d.unpin_memStep k.1) l d
  refine Die.MemStep.trans ?_ (.foldl Die.clearFences_memStep _ _)
  exact ⟨(hunpin _).groups, (hunpin _).conf⟩

theorem State.undoDeq_memStep (s : State) (home idx : Nat) (key : Nat × Nat × Nat) : s.MemStep (s.undoDeq home idx key) :=
  s.modDie_memStep home ⟨rfl, rfl⟩

theorem State.MemStep.foldl {α : Type} {f : State → α → State} (h : ∀ (s : State) a, s.MemStep (f s a)) (l : List α) (s : State) :
    s.MemStep (l.foldl f s) := by
  induction l generalizing s with
  | nil => exact .refl s
  | cons a l ih => exact (h s a).trans (ih (f s a))

/-- The requests that are withdrawn leave the port, and their queues take back what was assigned to them (R123). -/
theorem State.withdraw_memStep (s : State) (d : Nat) (sel : Asker → Bool) : s.MemStep (s.withdraw d sel) := by
  unfold State.withdraw
  refine (s.modDie_memStep d ⟨rfl, rfl⟩).trans (.foldl (fun s r => ?_) _ _)
  split
  · exact s.undoDeq_memStep ..
  · exact .refl s

theorem State.length_modDie (s : State) (d : Nat) (f : Die → Die) : (s.modDie d f).dies.length = s.dies.length :=
  List.length_modify ..

theorem State.length_withdraw (s : State) (d : Nat) (sel : Asker → Bool) : (s.withdraw d sel).dies.length = s.dies.length := by
  unfold State.withdraw
  refine (List.foldlRecOn (motive := fun t : State => t.dies.length = s.dies.length) _ _ (State.length_modDie ..) fun t ht r _ => ?_)
  split
  · exact (State.length_modDie ..).trans ht
  · exact ht

/-- A die that the package does not have holds no group. -/
theorem State.lt_dies_of_group {s : State} {d gid : Nat} {g : Group} (h : s.group? d gid = some g) : d < s.dies.length := by
  refine Classical.byContradiction fun hge => ?_
  rw [State.group?, State.die, getD_of_length_le _ (Nat.not_lt.mp hge)] at h
  cases h

theorem Die.gid_of_group {d : Die} {gid : Nat} {g : Group} (h : d.group? gid = some g) : g.gid = gid := by
  simpa using List.find?_some h

/-- The group that is changed is the one found, whatever the change does to others. -/
theorem Die.group?_modGroup_of_found {d : Die} {gid : Nat} {f : Group → Group} {g : Group} (h : d.group? gid = some g)
    (hf : (f g).gid = gid) : (d.modGroup gid f).group? gid = some (f g) := by
  unfold Die.group? at h
  change (modWhere (fun g => g.gid == gid) f d.groups).find? (fun g => g.gid == gid) = _
  generalize d.groups = gs at h ⊢
  induction gs with
  | nil => cases h
  | cons x gs ih =>
    rw [modWhere, List.map_cons, ← modWhere]
    by_cases hx : x.gid = gid
    · obtain rfl : x = g := by simpa [hx] using h
      simp [hx, hf]
    · simpa [hx] using ih (by simpa [hx] using h)

theorem Die.dropHeldPrefetch_of_quiet (d : Die) {g : Group} {warp : Nat} (hquiet : quiet g warp) :
    d.dropHeldPrefetch g (g.members warp) = d := by
  unfold Die.dropHeldPrefetch
  dsimp only
  refine (congrArg (fun words => (distinct words).foldl (fun d (x : Issued) => d.register g.ctx.pn (x.lanes.headD default).c.toNat false) d)
    (List.filterMap_eq_nil_iff.2 fun t ht => ?_)).trans rfl
  rw [(hquiet.1 t ht).1]

/-! ## The handler's group -/

section
variable {g : Group} {tr : Trap} {pc addr : DWord}

theorem enterHandler_gid (hquiet : quiet g tr.warp) : (g.enterHandler tr pc addr).gid = g.gid := by
  rw [enterHandler_eq hquiet]
  change ((framed g tr pc addr).modThreads (g.members tr.warp) (trapped g.ctx.handler)).gid = _
  rw [Group.modThreads_gid, framed, Group.putWindow, Group.putPart_eq]

theorem enterHandler_trap (hquiet : quiet g tr.warp) : (g.enterHandler tr pc addr).trap = some tr := by
  rw [enterHandler_eq hquiet]

end

/-- After the withdrawal the group stands as it stood, and is what the die's step makes of it. -/
theorem State.group?_modDie_withdraw {s : State} {d gid : Nat} {g h : Group} (sel : Asker → Bool) {F : Die → Die} (hg : s.group? d gid = some g)
    (hF : ∀ x : Die, x.group? gid = some g → (F x).group? gid = some h) : ((s.withdraw d sel).modDie d F).group? d gid = some h := by
  have hd : d < (s.withdraw d sel).dies.length := by rw [State.length_withdraw]; exact State.lt_dies_of_group hg
  rw [State.group?, State.die_modDie_same _ hd]
  exact hF _ (((s.withdraw_memStep d sel).group_eq d gid).trans hg)

/-- A trap of a group none of whose threads of the warp waits puts that group at its handler (R382). -/
theorem State.group?_deliver {s : State} {d gid : Nat} {g : Group} {tr : Trap} {pc addr : DWord} (h : s.group? d gid = some g)
    (hquiet : quiet g tr.warp) : (s.deliver d gid tr pc addr).group? d gid = some (g.enterHandler tr pc addr) := by
  refine State.group?_modDie_withdraw _ h fun x hx => ?_
  rw [hx]
  dsimp only
  rw [Die.dropHeldPrefetch_of_quiet _ hquiet]
  refine Die.group?_modGroup_of_found ?_ ((enterHandler_gid hquiet).trans (Die.gid_of_group hx))
  have hcancel := Die.MemStep.ite (c := tr.cause = Cause.cancel) (x.dropMatrix_memStep gid) (.refl x)
  rw [Die.group?, hcancel.groups]
  exact hx

theorem State.precise_eq_deliver {s : State} {d gid cause warp : Nat} {lanes : List Nat} {pc addr : DWord} {len : Nat} {g : Group}
    (h : s.group? d gid = some g) (hcause : cause ≠ Cause.poison) (htrap : g.trap = none) (hhandler : g.ctx.handler ≠ 0) :
    s.precise d gid cause warp lanes pc addr len = s.deliver d gid ⟨cause, warp, true, lanes, len, (s.die d).ps, false⟩ pc addr := by
  unfold State.precise
  rw [h]
  dsimp only
  rw [if_neg hcause, htrap, if_neg hhandler]
  rfl

/-- Settles O53: the delivery is the trap of the warp, and the frame is read back from the window that it is written to. -/
theorem preciseTrapDelivered : Obligations.PreciseTrapDelivered := by
  intro s d gid cause warp lanes pc addr len g hg hcause hlt hwarp htrap hhandler hquiet
  rw [State.precise_eq_deliver hg hcause htrap hhandler]
  generalize htr : (⟨cause, warp, true, lanes, len, (s.die d).ps, false⟩ : Trap) = tr
  have hc : tr.cause = cause := by rw [← htr]
  have hw : tr.warp = warp := by rw [← htr]
  have hprecise : tr.precise = true := by rw [← htr]
  rw [← hw] at hquiet ⊢
  have hctx := enterHandler_ctx (pc := pc) (addr := addr) hquiet
  refine ⟨_, State.group?_deliver hg hquiet, ?_, ?_, ?_, ?_, ?_, fun t ht => ?_, fun t ht => ?_, enterHandler_sregs hquiet, ?_⟩
  · rw [enterHandler_trap hquiet, Option.any_some, hc, hprecise, BEq.rfl, BEq.rfl]
    rfl
  · rw [hctx, BitVec.toNat_ofNat, hc]
    exact Nat.mod_eq_of_lt (Nat.lt_trans hlt (by decide))
  · rw [hctx]
  · rw [hctx]
  · rw [hctx]
  · rw [enterHandler_thread hquiet, if_pos ht]
    rfl
  · rw [enterHandler_thread hquiet, if_neg ht]
  · dsimp only
    rw [enterHandler_window hquiet]
    obtain ⟨hcauseAt, hwarpAt, hpreciseAt, hpcAt, haddrAt⟩ := trapFrame_head g tr pc addr
    refine ⟨?_, ?_, ?_, hpcAt, haddrAt, fun t ht => ?_, fun n hn => trapFrame_sreg g tr pc addr hn⟩
    · rw [hcauseAt, hc]
      exact Nat.mod_eq_of_lt hlt
    · rw [hwarpAt, hw]
      exact Nat.mod_eq_of_lt hwarp
    · rw [hpreciseAt, hprecise]
      rfl
    · rw [trapFrame_pc g tr pc addr (Nat.mod_lt t (by decide)), trapPc, atLane_of_mem hquiet ht]
      exact Nat.mod_eq_of_lt (g.thread t).pc.isLt

end Sys2Proof.Machine
end

section
/-! PROOFS. Frames of register words, branches and the window, and where results go (O45 to O47, O51). -/

namespace Sys2Proof.Machine
open Sys2Proof.Claims

/-! ## What a write of registers changes -/

theorem Group.vWord_eq (g : Group) (t n : Nat) :
    g.vWord t n = g.ctx.frame.base / 4 + (((t / 32) * g.ctx.frame.regs + n) * 32 + t % 32) := by
  unfold Group.vWord
  omega

/-- The registers of one thread have places of their own. -/
theorem Group.vWord_left_inj (g : Group) {t n m : Nat} (h : g.vWord t n = g.vWord t m) : n = m := by
  rw [Group.vWord_eq, Group.vWord_eq] at h
  omega

/-- Inside the allocation no two threads share a register (R45). -/
theorem Group.vWord_inj {g : Group} {t u n m : Nat} (hn : n < g.ctx.frame.regs) (hm : m < g.ctx.frame.regs)
    (h : g.vWord t n = g.vWord u m) : t = u ∧ n = m := by
  rw [Group.vWord_eq, Group.vWord_eq] at h
  have hlane : t % 32 = u % 32 := by omega
  have hrow : t / 32 * g.ctx.frame.regs + n = u / 32 * g.ctx.frame.regs + m := by omega
  have hdiv : t / 32 = u / 32 := by
    have hquot : ∀ q k, k < g.ctx.frame.regs → (q * g.ctx.frame.regs + k) / g.ctx.frame.regs = q := fun q k hk => by
      rw [Nat.add_comm, Nat.add_mul_div_right _ _ (Nat.zero_lt_of_lt hk), Nat.div_eq_of_lt hk, Nat.zero_add]
    rw [← hquot (t / 32) n hn, hrow, hquot _ m hm]
  have ht : t = u := by rw [← Nat.div_add_mod t 32, ← Nat.div_add_mod u 32, hlane, hdiv]
  subst ht
  exact ⟨rfl, by omega⟩

theorem Group.vWord_congr {g h : Group} (hframe : h.ctx.frame = g.ctx.frame) (t n : Nat) : h.vWord t n = g.vWord t n := by
  unfold Group.vWord
  rw [hframe]

theorem Group.writeV_eq (g : Group) (t n k x : Nat) (bad : Bool) : g.writeV t n k x bad = { g with part := (g.writeV t n k x bad).part } := by
  induction k generalizing g n x with
  | zero => rfl
  | succ k ih =>
    rw [Group.writeV, ih]
    rfl

/-- A word that is none of the registers written stays. -/
theorem Group.word_writeV_of_ne {g : Group} {t n k x i : Nat} {bad : Bool} (h : ∀ m, m < k → i ≠ g.vWord t (n + m)) :
    (g.writeV t n k x bad).word i = g.word i := by
  induction k generalizing g n x with
  | zero => rfl
  | succ k ih =>
    rw [Group.writeV, ih, Group.word_setWord, if_neg (by simpa using h 0 (by omega))]
    intro m hm
    rw [Group.vWord_congr (g := g) rfl, Nat.add_assoc, Nat.add_comm 1]
    exact h (m + 1) (by omega)

/-- Register m of a result takes bits 32 m upwards (R206). -/
theorem Group.word_writeV {g : Group} {t n k x m : Nat} {bad : Bool} (hm : m < k) :
    (g.writeV t n k x bad).word (g.vWord t (n + m)) = ⟨BitVec.ofNat 32 (x / 2 ^ (32 * m)), bad⟩ := by
  induction k generalizing g n x m with
  | zero => cases hm
  | succ k ih =>
    rw [Group.writeV]
    cases m with
    | zero =>
      rw [Group.word_writeV_of_ne, Group.word_setWord, if_pos (by rw [Nat.add_zero]), Nat.mul_zero, Nat.pow_zero, Nat.div_one]
      intro m hm heq
      rw [Group.vWord_congr (g := g) rfl] at heq
      have := Group.vWord_left_inj g heq
      omega
    | succ m =>
      have hplace : g.vWord t (n + (m + 1)) = (g.setWord (g.vWord t n) ⟨BitVec.ofNat 32 x, bad⟩).vWord t (n + 1 + m) := by
        rw [Nat.add_assoc, Nat.add_comm 1]
        exact (Group.vWord_congr rfl ..).symm
      rw [hplace, ih (by omega), Nat.div_div_eq_div_mul, ← Nat.pow_add, Nat.mul_add, Nat.mul_one, Nat.add_comm 32]

theorem Group.writeDst_v (g : Group) (warp t width : Nat) (n : BitVec 7) (x : Nat) :
    g.writeDst warp t width (.v n) x = g.writeV t n.toNat ((width + 31) / 32) x false := rfl

theorem Group.writeDst_gid (g : Group) (warp t width : Nat) (o : Operand) (x : Nat) : (g.writeDst warp t width o x).gid = g.gid := by
  cases o with
  | v n => rw [Group.writeDst_v, Group.writeV_eq]
  | _ => rfl

theorem Group.foldl_gid {α : Type} {f : Group → α → Group} (hf : ∀ g a, (f g a).gid = g.gid) (l : List α) (g : Group) :
    (l.foldl f g).gid = g.gid := by
  induction l generalizing g with
  | nil => rfl
  | cons a l ih => rw [List.foldl_cons, ih, hf]

/-- The lanes write their registers one after another; each lane's registers keep what that lane wrote. -/
theorem Group.word_foldl_writeV {lanes : List LaneSrc} (hlanes : (lanes.map LaneSrc.t).Nodup) (f : LaneSrc → Nat) {g : Group} {n k m : Nat}
    (hregs : n + k ≤ g.ctx.frame.regs) {l : LaneSrc} (hl : l ∈ lanes) (hm : m < k) :
    (lanes.foldl (fun g l => g.writeV l.t n k (f l) false) g).word (g.vWord l.t (n + m)) = ⟨BitVec.ofNat 32 (f l / 2 ^ (32 * m)), false⟩ := by
  have hframe : ∀ (g : Group) t x, (g.writeV t n k x false).ctx.frame = g.ctx.frame := fun g t x => by rw [Group.writeV_eq]
  have hstays : ∀ (ls : List LaneSrc) (g : Group), n + k ≤ g.ctx.frame.regs → l.t ∉ ls.map LaneSrc.t →
      (ls.foldl (fun g l => g.writeV l.t n k (f l) false) g).word (g.vWord l.t (n + m)) = g.word (g.vWord l.t (n + m)) := by
    intro ls
    induction ls with
    | nil => intro _ _ _; rfl
    | cons x ls ih =>
      intro g hregs hnot
      obtain ⟨hx, hls⟩ := not_or.mp (fun h => hnot (List.mem_cons.2 h))
      rw [List.foldl_cons, ← Group.vWord_congr (hframe g x.t (f x)), ih _ (by rwa [hframe]) hls, Group.vWord_congr (hframe ..)]
      refine Group.word_writeV_of_ne fun i hi heq => hx ?_
      exact (Group.vWord_inj (by omega) (by omega) heq).1
  induction lanes generalizing g with
  | nil => cases hl
  | cons x ls ih =>
    obtain ⟨hx, hls⟩ := List.nodup_cons.1 hlanes
    rw [List.foldl_cons, ← Group.vWord_congr (hframe g x.t (f x))]
    rcases List.mem_cons.1 hl with rfl | hl
    · rw [hstays _ _ (by rwa [hframe]) hx, Group.vWord_congr (hframe ..), Group.word_writeV hm]
    · exact ih hls (by rwa [hframe]) hl

/-- What a state's group becomes, where the change keeps its name. -/
theorem Job.group_mod_of_found {j : Job} {s : State} {f : Group → Group} (h : (s.group? j.d j.gid).isSome = true)
    (hf : ∀ g, (f g).gid = g.gid) : j.group (j.mod s f) = f (j.group s) ∧ ((j.mod s f).group? j.d j.gid).isSome = true := by
  obtain ⟨g, hg⟩ := Option.isSome_iff_exists.mp h
  have hafter : (j.mod s f).group? j.d j.gid = some (f g) := by
    rw [Job.mod, State.group?_modGroup (State.lt_dies_of_group hg) fun x hx => (hf x).trans hx, hg]
    rfl
  refine ⟨?_, by rw [hafter]; rfl⟩
  rw [Job.group, Job.group, hafter, hg]
  rfl

theorem Group.advance_gid (g : Group) (ts : List Nat) (len : Nat) : (g.advance ts len).gid = g.gid := Group.modThreads_gid ..

/-- Settles O46: the lanes' registers have places of their own, so each keeps what its lane wrote. -/
theorem resultReachesRegisters : Obligations.ResultReachesRegisters := by
  intro j s f n l m hfound hdst hlanes hl hm hregs
  have hgid : ∀ g : Group, (j.x.lanes.foldl (fun g l => g.writeDst j.x.warp l.t j.sig.dst.width j.f.dst (f l)) g).gid = g.gid :=
    Group.foldl_gid (fun g l => Group.writeDst_gid ..) _
  obtain ⟨hwritten, hstill⟩ := Job.group_mod_of_found hfound hgid
  rw [Job.perLane, Job.pass, (Job.group_mod_of_found hstill fun g => Group.advance_gid ..).1, hwritten, hdst]
  have hpart : ∀ g : Group, ∀ k, (g.advance j.ts j.x.len).word k = g.word k := fun g k => by
    rw [Group.word, Group.advance, Group.modThreads_part, Group.word]
  rw [hpart]
  exact Group.word_foldl_writeV hlanes f hregs hl hm

open Sys2Proof.Claims

/-! ## Predicates -/

/-- A write of predicate n leaves the others (R206). -/
theorem Thread.pred_setPred_of_ne (t : Thread) {n m : Nat} (b : Bool) (hm : m < 7) (hne : m ≠ n) : (t.setPred n b).pred m = t.pred m := by
  unfold Thread.setPred
  split
  · rfl
  · have hbit : ∀ x : BitVec 7, x.toNat.testBit m = x.getLsbD m := fun x => rfl
    have hmask : (BitVec.ofNat 7 (2 ^ n)).getLsbD m = false := by
      rw [BitVec.getLsbD_ofNat, Nat.testBit_two_pow_of_ne (Ne.symm hne), Bool.and_false]
    cases b with
    | true =>
      have hor : (t.preds ||| BitVec.ofNat 7 (2 ^ n)).getLsbD m = t.preds.getLsbD m := by rw [BitVec.getLsbD_or, hmask, Bool.or_false]
      exact congrArg (m == 7 || ·) hor
    | false =>
      have hand : (t.preds &&& ~~~BitVec.ofNat 7 (2 ^ n)).getLsbD m = t.preds.getLsbD m := by
        rw [BitVec.getLsbD_and, BitVec.getLsbD_not, hmask, decide_eq_true hm, Bool.not_false, Bool.and_true, Bool.and_true]
      exact congrArg (m == 7 || ·) hand

/-! ## Changes of a group that a word's frame allows -/

section
variable {j : Job} {ds : List Operand} {wide : Nat} {preds : List Nat} {also : Nat → Prop}

theorem onlyWrites_refl (g : Group) : onlyWrites j ds wide preds also g g :=
  ⟨rfl, fun _ _ => Iff.rfl, fun _ h => (h rfl).elim, fun _ _ _ h => (h rfl).elim, fun _ => rfl, fun _ _ => ⟨rfl, rfl⟩,
    fun _ _ _ h => (h rfl).elim⟩

theorem onlyWrites_trans {g h k : Group} (hgh : onlyWrites j ds wide preds also g h) (hhk : onlyWrites j ds wide preds also h k) :
    onlyWrites j ds wide preds also g k := by
  obtain ⟨hrest, hpend, hword, hsreg, hthread, hpc, hpred⟩ := hgh
  obtain ⟨hrest', hpend', hword', hsreg', hthread', hpc', hpred'⟩ := hhk
  have hplace : ∀ t n, h.vWord t n = g.vWord t n := Group.vWord_congr (by rw [hrest])
  refine ⟨?_, fun r hr => (hpend' r hr).trans (hpend r hr), fun w hw => ?_, fun a n hn hne => ?_, fun t => ?_, fun t ht => ?_,
    fun t n hn hne => ?_⟩
  · rw [hrest']
    conv => lhs; rw [hrest]
  · by_cases hkh : k.word w = h.word w
    · exact hword w (by rwa [← hkh])
    · simpa only [hplace] using hword' w hkh
  · by_cases hkh : k.sreg a n = h.sreg a n
    · exact hsreg a n hn (by rwa [← hkh])
    · exact hsreg' a n hn hkh
  · rw [hthread' t]
    conv => lhs; rw [hthread t]
  · exact ⟨(hpc' t ht).1.trans (hpc t ht).1, (hpc' t ht).2.trans (hpc t ht).2⟩
  · by_cases hkh : (k.thread t).pred n = (h.thread t).pred n
    · exact hpred t n hn (by rwa [← hkh])
    · exact hpred' t n hn hkh

theorem onlyWrites_foldl {α : Type} {f : Group → α → Group} {l : List α} (h : ∀ a ∈ l, ∀ g, onlyWrites j ds wide preds also g (f g a))
    (g : Group) : onlyWrites j ds wide preds also g (l.foldl f g) := by
  induction l generalizing g with
  | nil => exact onlyWrites_refl g
  | cons a l ih =>
    exact onlyWrites_trans (h a List.mem_cons_self g) (ih (fun b hb => h b (List.mem_cons_of_mem a hb)) (f g a))

/-- A change of one thread in what the word may change of it. -/
theorem onlyWrites_modThread {t : Nat} {f : Thread → Thread}
    (hkeep : ∀ x, f x = { x with pc := (f x).pc, m := (f x).m, preds := (f x).preds })
    (hpc : t ∉ j.ts → ∀ x, (f x).pc = x.pc ∧ (f x).m = x.m)
    (hpred : ∀ x n, n < 7 → (f x).pred n ≠ x.pred n → t ∈ j.act ∧ ((∃ r, Operand.p r ∈ ds ∧ r.toNat = n) ∨ n ∈ preds)) (g : Group) :
    onlyWrites j ds wide preds also g (g.modThread t f) := by
  have hcases : ∀ u, (g.modThread t f).thread u = f (g.thread u) ∧ t = u ∨ (g.modThread t f).thread u = g.thread u := by
    intro u
    rw [Group.thread_modThread]
    split
    · rename_i h
      exact .inl ⟨rfl, h.1⟩
    · exact .inr rfl
  refine ⟨rfl, fun _ _ => Iff.rfl, fun _ h => (h rfl).elim, fun _ _ _ h => (h rfl).elim, fun u => ?_, fun u hu => ?_, fun u n hn hne => ?_⟩
  · rcases hcases u with ⟨h, -⟩ | h
    · rw [h]
      exact hkeep _
    · rw [h]
  · rcases hcases u with ⟨h, rfl⟩ | h
    · rw [h]
      exact hpc hu _
    · rw [h]
      exact ⟨rfl, rfl⟩
  · rcases hcases u with ⟨h, rfl⟩ | h
    · exact hpred _ n hn (by rwa [← h])
    · exact absurd (by rw [h]) hne

/-- The issued threads pass, or go elsewhere. -/
theorem onlyWrites_move {t : Nat} (ht : t ∈ j.ts) (f : Thread → DWord) (m : Thread → Bool) (g : Group) :
    onlyWrites j ds wide preds also g (g.modThread t fun x => { x with pc := f x, m := m x }) :=
  onlyWrites_modThread (f := fun x => { x with pc := f x, m := m x }) (fun _ => rfl) (fun h => absurd ht h)
    (fun _ _ _ h => (h rfl).elim) g

theorem onlyWrites_advance (g : Group) : onlyWrites j ds wide preds also g (g.advance j.ts j.x.len) :=
  onlyWrites_foldl (fun _ ht g => onlyWrites_move ht (fun x => pcAfter x.pc j.x.len) (fun _ => false) g) g

/-- A predicate of an active thread that the word writes. -/
theorem onlyWrites_setPred {t n : Nat} (ht : t ∈ j.act) (hn : (∃ r, Operand.p r ∈ ds ∧ r.toNat = n) ∨ n ∈ preds) (b : Bool) (g : Group) :
    onlyWrites j ds wide preds also g (g.modThread t fun x => x.setPred n b) := by
  have hset : ∀ x : Thread, x.setPred n b = { x with preds := (x.setPred n b).preds } := fun x => by
    unfold Thread.setPred
    split
    · rfl
    · rfl
  refine onlyWrites_modThread (fun x => ?_) (fun _ x => ?_) (fun x m hm hne => ⟨ht, ?_⟩) g
  · conv => lhs; rw [hset]
    rw [hset]
  · rw [hset]
    exact ⟨rfl, rfl⟩
  · obtain rfl : m = n := by
      refine Classical.byContradiction fun hmn => ?_
      exact hne (Thread.pred_setPred_of_ne x b hm hmn)
    exact hn

/-- The registers of an active lane that the word writes. -/
theorem onlyWrites_writeV {l : LaneSrc} (hl : l ∈ j.x.lanes) {r : BitVec 7} (hr : Operand.v r ∈ ds) {k : Nat} (hk : k ≤ wide) (x : Nat)
    (bad : Bool) (g : Group) : onlyWrites j ds wide preds also g (g.writeV l.t r.toNat k x bad) := by
  have hrest := Group.writeV_eq g l.t r.toNat k x bad
  have hthread : (g.writeV l.t r.toNat k x bad).threads = g.threads := by rw [hrest]
  have hsregs : (g.writeV l.t r.toNat k x bad).sregs = g.sregs := by rw [hrest]
  have hpend : (g.writeV l.t r.toNat k x bad).pend = g.pend := by rw [hrest]
  refine ⟨?_, fun _ _ => by rw [hpend], fun w hw => .inr ?_, fun a n _ hne => ?_, fun t => ?_, fun t _ => ?_, fun t n _ hne => ?_⟩
  · rw [hthread, hsregs, hpend]
    exact hrest
  · refine Classical.byContradiction fun hno => ?_
    refine hw (Group.word_writeV_of_ne fun m hm heq => hno ⟨l, hl, r, m, hr, Nat.lt_of_lt_of_le hm hk, heq⟩)
  · exact absurd (by rw [Group.sreg, hsregs, Group.sreg]) hne
  · rw [Group.thread, hthread, Group.thread]
  · rw [Group.thread, hthread, Group.thread]
    exact ⟨rfl, rfl⟩
  · exact absurd (by rw [Group.thread, hthread, Group.thread]) hne

/-- An s-register of the warp that the word writes. -/
theorem onlyWrites_setSreg {r : BitVec 6} (hr : Operand.s r ∈ ds) (v : SReg) (g : Group) :
    onlyWrites j ds wide preds also g (g.setSreg j.x.warp r.toNat v) := by
  refine ⟨rfl, fun _ _ => Iff.rfl, fun _ h => (h rfl).elim, fun a n hn hne => ?_, fun _ => rfl, fun _ _ => ⟨rfl, rfl⟩,
    fun _ _ _ h => (h rfl).elim⟩
  rw [Group.sreg_setSreg _ _ _ _ _ _ r.isLt hn] at hne
  refine Classical.byContradiction fun hno => ?_
  refine hne (if_neg fun h => hno ⟨h.1, r, hr, h.2.symm⟩)

/-- What the word's destination takes in an active lane (R206, R240). -/
theorem onlyWrites_writeDst {l : LaneSrc} (hl : l ∈ j.x.lanes) {o : Operand} (ho : o ∈ ds) {width : Nat} (hw : (width + 31) / 32 ≤ wide)
    (x : Nat) (g : Group) : onlyWrites j ds wide preds also g (g.writeDst j.x.warp l.t width o x) := by
  cases o with
  | v r => exact onlyWrites_writeV hl ho hw x false g
  | s r => exact onlyWrites_setSreg ho _ g
  | p r => exact onlyWrites_setPred (List.mem_map_of_mem hl) (.inl ⟨r, ho, rfl⟩) _ g
  | _ => exact onlyWrites_refl g

end

/-! ## Changes of a state in the issuing group alone -/

theorem onlyGroup_refl (d gid : Nat) (s : State) : onlyGroup d gid s s :=
  ⟨rfl, rfl, fun _ _ => rfl, rfl, fun _ _ => rfl⟩

theorem onlyGroup_trans {d gid : Nat} {s t u : State} (hst : onlyGroup d gid s t) (htu : onlyGroup d gid t u) : onlyGroup d gid s u := by
  obtain ⟨hrest, hlen, hdies, hdie, hgroups⟩ := hst
  obtain ⟨hrest', hlen', hdies', hdie', hgroups'⟩ := htu
  refine ⟨?_, hlen'.trans hlen, fun e he => (hdies' e he).trans (hdies e he), ?_, fun h hh => (hgroups' h hh).trans (hgroups h hh)⟩
  · rw [hrest']
    conv => lhs; rw [hrest]
  · rw [hdie']
    conv => lhs; rw [hdie]

/-- Only groups of the die differ, so every line reads as before. -/
theorem sameView_of_groups {d e : Die} (h : e = { d with groups := e.groups }) : d.SameView e := by
  rw [h]
  exact ⟨⟨rfl, rfl, rfl, rfl, rfl, rfl⟩, fun _ => rfl⟩

/-- A word changed its group alone, in what it may write there, and memory reads as before. -/
def changesOnly (j : Job) (ds : List Operand) (wide : Nat) (preds : List Nat) (also : Nat → Prop) (s t : State) : Prop :=
  onlyGroup j.d j.gid s t ∧ onlyWrites j ds wide preds also (j.group s) (j.group t)
    ∧ ∀ nid r i, lineByte (t.die j.d) nid r i = lineByte (s.die j.d) nid r i

namespace Job.Ready
variable {j : Job} {s : State} {f : Group → Group}

theorem onlyGroup_mod (h : j.Ready s) (hf : ∀ g, g.gid = j.gid → (f g).gid = j.gid) : onlyGroup j.d j.gid s (j.mod s f) := by
  refine ⟨rfl, State.length_modDie .., fun e he => State.die_modDie_of_ne _ _ he, ?_, fun k hk => ?_⟩
  · rw [h.die_mod]
    rfl
  · rw [State.group?, h.die_mod]
    exact find?_modWhere_of_ne hf hk

theorem sameView_mod (h : j.Ready s) : (s.die j.d).SameView ((j.mod s f).die j.d) := by
  rw [h.die_mod]
  exact sameView_of_groups rfl

end Job.Ready

open Sys2Proof.Claims

/-! ## States that differ in what a word may write -/

section
variable {j : Job} {ds : List Operand} {wide : Nat} {preds : List Nat} {also : Nat → Prop} {s : State}

theorem changesOnly_trans {t u : State} (hst : changesOnly j ds wide preds also s t) (htu : changesOnly j ds wide preds also t u) :
    changesOnly j ds wide preds also s u := by
  obtain ⟨hgroup, hwrites, hlines⟩ := hst
  obtain ⟨hgroup', hwrites', hlines'⟩ := htu
  exact ⟨onlyGroup_trans hgroup hgroup', onlyWrites_trans hwrites hwrites', fun nid r i => (hlines' nid r i).trans (hlines nid r i)⟩

theorem gid_of_onlyWrites {g h : Group} (hgh : onlyWrites j ds wide preds also g h) : h.gid = g.gid := by
  rw [hgh.1]

theorem changesOnly_mod (hr : j.Ready s) {f : Group → Group} (hf : ∀ g, onlyWrites j ds wide preds also g (f g)) :
    changesOnly j ds wide preds also s (j.mod s f) := by
  have hgid : ∀ g, g.gid = j.gid → (f g).gid = j.gid := fun g hg => (gid_of_onlyWrites (hf g)).trans hg
  refine ⟨hr.onlyGroup_mod hgid, ?_, hr.sameView_mod.lineByte⟩
  rw [hr.group_mod hgid]
  exact hf _

theorem changesOnly_pass (hr : j.Ready s) : changesOnly j ds wide preds also s (j.pass s) := changesOnly_mod hr onlyWrites_advance

/-- A change of the group, then the issued threads pass. -/
theorem changesOnly_pass_mod (hr : j.Ready s) {f : Group → Group} (hf : ∀ g, onlyWrites j ds wide preds also g (f g)) :
    changesOnly j ds wide preds also s (j.pass (j.mod s f)) :=
  changesOnly_trans (changesOnly_mod hr hf) (changesOnly_pass (hr.mod fun g hg => (gid_of_onlyWrites (hf g)).trans hg))

theorem changesOnly_inTurn (hr : j.Ready s) {f : Group → LaneSrc → Group} (hf : ∀ l ∈ j.x.lanes, ∀ g, onlyWrites j ds wide preds also g (f g l)) :
    changesOnly j ds wide preds also s (inTurn j s f) :=
  changesOnly_pass_mod hr (onlyWrites_foldl hf)

end

/-! ## Rows that write registers alone -/

/-- A row writes registers alone: where it applies, its next state differs in what the word may write. -/
def WritesOnly (c : Claim) (ds : Job → List Operand) (preds : List Nat) : Prop :=
  ∀ s j t, c.checks s = .run j t → c.ok j t = true → changesOnly j (ds j) 2 preds noWord t (c.next j t)

theorem sig_of_run {s t : State} {j : Job} {i : Instr} {v : View} {sigOf : Bool → Sig} (h : s.prepared i v sigOf = .run j t) :
    ∃ b, j.sig = sigOf b := by
  obtain ⟨_, _, _, _, rfl, _⟩ := prepared_run h
  exact ⟨_, rfl⟩

/-- The active threads are among those that issue. -/
theorem act_of_run {s t : State} {j : Job} {i : Instr} {v : View} {sigOf : Bool → Sig} (h : s.prepared i v sigOf = .run j t) :
    ∀ u ∈ j.act, u ∈ j.ts := by
  obtain ⟨_, _, _, _, rfl, _⟩ := prepared_run h
  intro u hu
  rw [Job.act_issueJob] at hu
  exact (List.mem_filter.mp hu).1

theorem registers_le {width : Nat} (h : width ≤ 64) : (width + 31) / 32 ≤ 2 := by omega

/-- A result of at most 64 bits takes at most two registers. -/
theorem eachLaneOf_writesOnly {i : Instr} {ok : Job → State → Bool} {f : Job → State → LaneSrc → Nat} (hi : ∀ b, (i.sig b).dst.width ≤ 64) :
    WritesOnly (eachLaneOf i ok f) (fun j => [j.f.dst]) [] := by
  intro s j t hrun _
  obtain ⟨b, hb⟩ := sig_of_run hrun
  refine changesOnly_inTurn (Job.Ready.of_run hrun) fun l hl g => onlyWrites_writeDst hl List.mem_cons_self (registers_le ?_) _ g
  rw [hb]
  exact hi b

theorem eachLane_writesOnly {i : Instr} {f : LaneSrc → Nat} (hi : ∀ b, (i.sig b).dst.width ≤ 64) :
    WritesOnly (eachLane i f) (fun j => [j.f.dst]) [] := eachLaneOf_writesOnly hi

theorem fromLane_writesOnly {i : Instr} {source : LaneSrc → Option Nat} {fill : LaneSrc → Nat} (hi : ∀ b, (i.sig b).dst.width ≤ 64) :
    WritesOnly (fromLane i source fill) (fun j => [j.f.dst]) [] := eachLaneOf_writesOnly hi

theorem ite_le (c : Prop) [Decidable c] : (if c then 64 else 32) ≤ 64 := by
  split
  · decide
  · decide

theorem opw_le (m : BitVec 2) : opw m ≤ 64 := ite_le _

theorem typeWidth_le (t : Nat) : typeWidth t ≤ 64 := ite_le _

theorem word_le : 32 ≤ 64 := by decide

theorem flag_le : 1 ≤ 64 := by decide

section
variable (w : RegWord) (v : WideWord) (u : ShortWord)

theorem integerTable_writesOnly : ∀ c ∈ integerTable w v u, WritesOnly c (fun j => [j.f.dst]) [] := by
  unfold integerTable
  iterate 9 refine List.forall_mem_cons.2 ⟨eachLane_writesOnly fun _ => opw_le _, ?_⟩
  iterate 2 refine List.forall_mem_cons.2 ⟨eachLane_writesOnly fun _ => Nat.le_refl 64, ?_⟩
  iterate 8 refine List.forall_mem_cons.2 ⟨eachLane_writesOnly fun _ => opw_le _, ?_⟩
  iterate 2 refine List.forall_mem_cons.2 ⟨eachLane_writesOnly fun _ => Nat.le_refl 64, ?_⟩
  exact List.forall_mem_nil _

theorem logicTable_writesOnly : ∀ c ∈ logicTable w v u, WritesOnly c (fun j => [j.f.dst]) [] := by
  unfold logicTable
  iterate 30 refine List.forall_mem_cons.2 ⟨eachLane_writesOnly fun _ => opw_le _, ?_⟩
  iterate 2 refine List.forall_mem_cons.2 ⟨eachLane_writesOnly fun _ => word_le, ?_⟩
  exact List.forall_mem_nil _

theorem compareTable_writesOnly : ∀ c ∈ compareTable w v u, WritesOnly c (fun j => [j.f.dst]) [] := by
  unfold compareTable
  refine List.forall_mem_cons.2 ⟨eachLane_writesOnly fun _ => flag_le, ?_⟩
  iterate 2 refine List.forall_mem_cons.2 ⟨eachLane_writesOnly fun _ => opw_le _, ?_⟩
  refine List.forall_mem_cons.2 ⟨eachLane_writesOnly fun _ => flag_le, ?_⟩
  iterate 2 refine List.forall_mem_cons.2 ⟨eachLane_writesOnly fun _ => opw_le _, ?_⟩
  exact List.forall_mem_nil _

theorem floatTable_writesOnly : ∀ c ∈ floatTable w, WritesOnly c (fun j => [j.f.dst]) [] := by
  refine List.forall_mem_append.2 ⟨?single, ?double⟩
  case single =>
    unfold floatRow
    iterate 6 refine List.forall_mem_cons.2 ⟨eachLane_writesOnly fun _ => word_le, ?_⟩
    iterate 2 refine List.forall_mem_cons.2 ⟨eachLane_writesOnly fun _ => flag_le, ?_⟩
    iterate 7 refine List.forall_mem_cons.2 ⟨eachLane_writesOnly fun _ => word_le, ?_⟩
    exact List.forall_mem_nil _
  case double =>
    unfold floatRow
    iterate 6 refine List.forall_mem_cons.2 ⟨eachLane_writesOnly fun _ => Nat.le_refl 64, ?_⟩
    iterate 2 refine List.forall_mem_cons.2 ⟨eachLane_writesOnly fun _ => flag_le, ?_⟩
    iterate 7 refine List.forall_mem_cons.2 ⟨eachLane_writesOnly fun _ => Nat.le_refl 64, ?_⟩
    exact List.forall_mem_nil _

theorem convertTable_writesOnly : ∀ c ∈ convertTable w, WritesOnly c (fun j => [j.f.dst]) [] := by
  unfold convertTable
  iterate 2 refine List.forall_mem_cons.2 ⟨eachLane_writesOnly fun _ => word_le, ?_⟩
  iterate 4 refine List.forall_mem_cons.2 ⟨eachLane_writesOnly fun _ => typeWidth_le _, ?_⟩
  refine List.forall_mem_cons.2 ⟨eachLaneOf_writesOnly fun b => ite_le (b = true), ?_⟩
  refine List.forall_mem_cons.2 ⟨eachLaneOf_writesOnly fun _ => typeWidth_le _, ?_⟩
  exact List.forall_mem_nil _

/-- LANE: the lane that B names alone takes its value (R266). -/
theorem lane_writesOnly {ok : Job → State → Bool} : WritesOnly
    (word (.lane w) ok fun j s => inTurn j s fun g l =>
      if l.t % 32 = l.b.toNat % 32 then g.writeDst j.x.warp l.t j.sig.dst.width j.f.dst (j.laneA (j.group s) (l.t % 32)) else g)
    (fun j => [j.f.dst]) [] := by
  intro s j t hrun _
  obtain ⟨b, hb⟩ := sig_of_run hrun
  refine changesOnly_inTurn (Job.Ready.of_run hrun) fun l hl g => ?_
  split
  · exact onlyWrites_writeDst hl List.mem_cons_self (registers_le (by rw [hb]; exact opw_le w.mod)) _ g
  · exact onlyWrites_refl g

theorem vote_le (b : Bool) : ((Instr.vote w).sig b).dst.width ≤ 64 := by
  change (if bits w.imm.toNat 2 0 ≤ 1 then Fld.dstLane 32 else Fld.dstPred).width ≤ 64
  split
  · exact word_le
  · exact flag_le

theorem laneTable_writesOnly : ∀ c ∈ laneTable w u, WritesOnly c (fun j => [j.f.dst]) [] := by
  unfold laneTable
  refine List.forall_mem_cons.2 ⟨fromLane_writesOnly fun _ => opw_le _, ?_⟩
  refine List.forall_mem_cons.2 ⟨lane_writesOnly w, ?_⟩
  iterate 8 refine List.forall_mem_cons.2 ⟨fromLane_writesOnly fun _ => opw_le _, ?_⟩
  refine List.forall_mem_cons.2 ⟨eachLaneOf_writesOnly (vote_le w), ?_⟩
  refine List.forall_mem_cons.2 ⟨eachLaneOf_writesOnly fun _ => opw_le _, ?_⟩
  refine List.forall_mem_cons.2 ⟨eachLaneOf_writesOnly fun _ => ite_le (w.imm[2] = true), ?_⟩
  refine List.forall_mem_cons.2 ⟨eachLaneOf_writesOnly fun _ => word_le, ?_⟩
  exact List.forall_mem_nil _

theorem blockTable_writesOnly : ∀ c ∈ blockTable w, WritesOnly c (fun j => [j.f.dst]) [] := by
  unfold blockTable
  iterate 10 refine List.forall_mem_cons.2 ⟨eachLaneOf_writesOnly fun _ => word_le, ?_⟩
  exact List.forall_mem_nil _

theorem rdsrTable_writesOnly : ∀ c ∈ rdsrTable w, WritesOnly c (fun j => [j.f.dst]) [] := by
  unfold rdsrTable
  iterate 19 refine List.forall_mem_cons.2 ⟨eachLaneOf_writesOnly fun _ => ite_le (w.imm[8] = true), ?_⟩
  exact List.forall_mem_nil _

/-- IADDC writes its destination and the carry in p6 (R244). -/
theorem carryTable_writesOnly : ∀ c ∈ carryTable w v, WritesOnly c (fun j => [j.f.dst]) [6] := by
  have hcarry : ∀ (m : BitVec 2) (i : Instr), WritesOnly (word i always fun j s => inTurn j s (carryLane m j)) (fun j => [j.f.dst]) [6] := by
    intro m i s j t hrun _
    refine changesOnly_inTurn (Job.Ready.of_run hrun) fun l hl g => ?_
    exact onlyWrites_trans (onlyWrites_writeDst hl List.mem_cons_self (registers_le (opw_le m)) _ g)
      (onlyWrites_setPred (List.mem_map_of_mem hl) (.inr List.mem_cons_self) _ _)
  unfold carryTable
  exact List.forall_mem_cons.2 ⟨hcarry _ _, List.forall_mem_cons.2 ⟨hcarry _ _, List.forall_mem_nil _⟩⟩

/-- PMOV to predicates writes those of MASK (R253). -/
theorem pmovTo_writesOnly {ok : Job → State → Bool} : WritesOnly (word (.pmov w) ok fun j s => inTurn j s (predsLane (bits w.imm.toNat 14 8)))
    (fun _ => []) (predsOf (bits w.imm.toNat 14 8)) := by
  intro s j t hrun _
  refine changesOnly_inTurn (Job.Ready.of_run hrun) fun l hl g => onlyWrites_foldl (fun i hi g => ?_) g
  refine onlyWrites_setPred (List.mem_map_of_mem hl) (.inr ?_) _ g
  obtain ⟨hmem, hbit⟩ := List.mem_filter.1 hi
  exact List.mem_filter.2 ⟨hmem, hbit⟩

theorem pmovFrom_writesOnly (hw : w.imm[0] = false) {ok : Job → State → Bool} {f : Job → State → LaneSrc → Nat} :
    WritesOnly (eachLaneOf (.pmov w) ok f) (fun j => [j.f.dst]) [] := by
  refine eachLaneOf_writesOnly fun _ => ?_
  simp only [Instr.sig, hw]
  exact word_le

end

/-- A P word writes the destination of its vector slot, then that of its scalar slot (R205). -/
theorem pairRow_writesOnly (p : PairWord) (i : Instr) (sop : Nat) (k : ScalarB) (f : Nat → Nat → Nat) :
    WritesOnly (pairRow p i sop k f) (fun _ => [p.vdst, .s p.sdst]) [] := by
  intro s j t hrun _
  refine changesOnly_pass_mod (Job.Ready.of_run hrun) fun g => ?_
  refine onlyWrites_trans (onlyWrites_foldl (fun l hl g => ?_) g) (onlyWrites_setSreg (List.mem_cons_of_mem _ List.mem_cons_self) _ _)
  exact onlyWrites_writeDst hl List.mem_cons_self (registers_le word_le) _ g

theorem pairTable_writesOnly (p : PairWord) : ∀ c ∈ pairTable p, WritesOnly c (fun _ => [p.vdst, .s p.sdst]) [] := by
  unfold pairTable
  iterate 46 refine List.forall_mem_cons.2 ⟨pairRow_writesOnly p _ _ _ _, ?_⟩
  exact List.forall_mem_nil _

/-- Every row of the words that write registers alone holds, and its next state differs in what it names alone. -/
theorem writtenRows_writesOnly (w : RegWord) (v : WideWord) (u : ShortWord) (p : PairWord) :
    ∀ x ∈ writtenRows w v u p, x.c.Holds ∧ WritesOnly x.c x.ds x.preds := by
  unfold writtenRows
  refine List.forall_mem_append.2 ⟨List.forall_mem_append.2 ⟨List.forall_mem_append.2 ⟨?own, ?carry⟩, ?pmov⟩, ?pair⟩
  case own =>
    refine List.forall_mem_map.2 ?_
    refine List.forall_mem_append.2 ⟨List.forall_mem_append.2 ⟨List.forall_mem_append.2 ⟨List.forall_mem_append.2 ⟨List.forall_mem_append.2
      ⟨List.forall_mem_append.2 ⟨List.forall_mem_append.2 ⟨?integer, ?logic⟩, ?compare⟩, ?float⟩, ?convert⟩, ?lane⟩, ?block⟩, ?rdsr⟩
    case integer => exact fun c hc => ⟨integerWords w v u c hc, integerTable_writesOnly w v u c hc⟩
    case logic => exact fun c hc => ⟨logicWords w v u c hc, logicTable_writesOnly w v u c hc⟩
    case compare =>
      exact fun c hc => ⟨predicateWords w v u c (List.mem_append_left _ (List.mem_append_left _ hc)), compareTable_writesOnly w v u c hc⟩
    case float => exact fun c hc => ⟨floatWords w c hc, floatTable_writesOnly w c hc⟩
    case convert => exact fun c hc => ⟨convertWords w c hc, convertTable_writesOnly w c hc⟩
    case lane => exact fun c hc => ⟨laneWords w u c hc, laneTable_writesOnly w u c hc⟩
    case block => exact fun c hc => ⟨blockWords w c hc, blockTable_writesOnly w c hc⟩
    case rdsr =>
      exact fun c hc => ⟨systemWords w c (List.mem_append_left _ (List.mem_append_right _ hc)), rdsrTable_writesOnly w c hc⟩
  case carry =>
    exact List.forall_mem_map.2 fun c hc =>
      ⟨predicateWords w v u c (List.mem_append_left _ (List.mem_append_right _ hc)), carryTable_writesOnly w v c hc⟩
  case pmov =>
    have hholds : ∀ c ∈ pmovTable w, c.Holds := fun c hc => predicateWords w v u c (List.mem_append_right _ hc)
    obtain ⟨hto, hfrom⟩ := List.forall_mem_cons.1 hholds
    cases hw : w.imm[0] with
    | true =>
      refine List.forall_mem_cons.2 ⟨⟨hto, pmovTo_writesOnly w⟩, List.forall_mem_cons.2 ⟨⟨(List.forall_mem_cons.1 hfrom).1, ?_⟩, List.forall_mem_nil _⟩⟩
      intro s j t _ hok
      exact absurd (show (!w.imm[0]) = true from hok) (by rw [hw]; exact Bool.false_ne_true)
    | false =>
      refine List.forall_mem_cons.2 ⟨⟨hto, ?_⟩, List.forall_mem_cons.2 ⟨⟨(List.forall_mem_cons.1 hfrom).1, pmovFrom_writesOnly w hw⟩, List.forall_mem_nil _⟩⟩
      intro s j t _ hok
      exact absurd (hw.symm.trans hok) Bool.false_ne_true
  case pair => exact List.forall_mem_map.2 fun c hc => ⟨pairWords p c hc, pairTable_writesOnly p c hc⟩

/-! ## WRSR (R208, R209) -/

/-- The issued threads pass, and of no thread does more change. -/
theorem thread_advance (g : Group) (ts : List Nat) (len : Nat) :
    (∀ t, (g.advance ts len).thread t = { g.thread t with pc := ((g.advance ts len).thread t).pc, m := ((g.advance ts len).thread t).m })
      ∧ ∀ t, t ∉ ts → (g.advance ts len).thread t = g.thread t := by
  refine ⟨fun t => ?_, fun t ht => Group.thread_modThreads_of_not_mem ht⟩
  have hkeeps := Group.thread_modThreads_keeps (g := g) (ts := ts) (f := fun t => { t with pc := pcAfter t.pc len, m := false })
    (fun x => { x with pc := 0, m := false }) (fun _ => rfl) t
  exact congrArg (fun x : Thread => { x with pc := ((g.advance ts len).thread t).pc, m := ((g.advance ts len).thread t).m }) hkeeps

theorem onlySpecial_advance {j : Job} {g h : Group} (hgh : onlySpecial j g h) : onlySpecial j g (h.advance j.ts j.x.len) := by
  obtain ⟨hrest, hthread, hstill⟩ := hgh
  obtain ⟨hmoved, hothers⟩ := thread_advance h j.ts j.x.len
  have hadvance : h.advance j.ts j.x.len = { h with threads := (h.advance j.ts j.x.len).threads } := Group.modThreads_eq ..
  have hwdlimit : (h.advance j.ts j.x.len).wdlimit = h.wdlimit := by rw [hadvance]
  have hctx : (h.advance j.ts j.x.len).ctx = h.ctx := Group.modThreads_ctx ..
  refine ⟨?_, fun t => ?_, fun t ht => (hothers t ht).trans (hstill t ht)⟩
  · rw [hwdlimit, hctx]
    exact hadvance.trans (congrArg (fun x : Group => { x with threads := (h.advance j.ts j.x.len).threads }) hrest)
  · exact (hmoved t).trans (congrArg
      (fun x : Thread => { x with pc := ((h.advance j.ts j.x.len).thread t).pc, m := ((h.advance j.ts j.x.len).thread t).m }) (hthread t))

/-- What WRSR leaves is the group with one special register changed, past the word. -/
theorem wrsrRow_special {w : RegWord} {n : Nat} {ok : Nat → Bool} {f : Nat → Group → Group} (hgid : ∀ v g, (f v g).gid = g.gid)
    (hspecial : ∀ j : Job, j.f.imm % 256 = n → ∀ v g, onlySpecial j g (f v g)) :
    ∀ s j t, (wrsrRow w n ok f).checks s = .run j t → (wrsrRow w n ok f).ok j t = true →
      onlyGroup j.d j.gid t ((wrsrRow w n ok f).next j t) ∧ onlySpecial j (j.group t) (j.group ((wrsrRow w n ok f).next j t))
        ∧ ∀ nid r i, lineByte (((wrsrRow w n ok f).next j t).die j.d) nid r i = lineByte (t.die j.d) nid r i := by
  intro s j t hrun hok
  have hr : j.Ready t := Job.Ready.of_run hrun
  have hkeeps : ∀ g : Group, g.gid = j.gid → (f j.a (j.group t)).gid = j.gid := fun _ _ => (hgid ..).trans hr.group_gid
  have hr' : j.Ready (j.mod t fun _ => f j.a (j.group t)) := hr.mod hkeeps
  have hpass : ∀ g : Group, g.gid = j.gid → (g.advance j.ts j.x.len).gid = j.gid := fun g hg => (Group.advance_gid ..).trans hg
  refine ⟨onlyGroup_trans (hr.onlyGroup_mod hkeeps) (hr'.onlyGroup_mod hpass), ?_, (hr.sameView_mod.trans hr'.sameView_mod).lineByte⟩
  have hgroup : j.group (j.pass (j.mod t fun _ => f j.a (j.group t))) = (f j.a (j.group t)).advance j.ts j.x.len := by
    rw [Job.pass, hr'.group_mod hpass, hr.group_mod hkeeps]
  change onlySpecial j (j.group t) (j.group (j.pass (j.mod t fun _ => f j.a (j.group t))))
  rw [hgroup]
  exact onlySpecial_advance (hspecial j (of_decide_eq_true hok).1 _ _)

theorem wrsrTable_special (w : RegWord) : ∀ c ∈ wrsrTable w, ∀ s j t, c.checks s = .run j t → c.ok j t = true →
    onlyGroup j.d j.gid t (c.next j t) ∧ onlySpecial j (j.group t) (j.group (c.next j t))
      ∧ ∀ nid r i, lineByte ((c.next j t).die j.d) nid r i = lineByte (t.die j.d) nid r i := by
  have hspecial : ∀ (j : Job) (g : Group) (n : Nat) (x : Group), j.f.imm % 256 = n →
      x = { g with
            threads := x.threads
            wdlimit := if n = 0x12 then x.wdlimit else g.wdlimit
            ctx := { g.ctx with
              handler := if n = 0x0B then x.ctx.handler else g.ctx.handler
              tbase := if n = 0x0F then x.ctx.tbase else g.ctx.tbase
              tlen := if n = 0x10 then x.ctx.tlen else g.ctx.tlen } } → x.threads = g.threads → onlySpecial j g x := by
    rintro j g n x rfl hx hthreads
    have hthread : ∀ t, x.thread t = g.thread t := fun t => by rw [Group.thread, hthreads, Group.thread]
    exact ⟨hx, fun t => by rw [hthread t], fun t _ => hthread t⟩
  unfold wrsrTable
  iterate 5 refine List.forall_mem_cons.2 ⟨wrsrRow_special (fun _ _ => rfl) fun j hn _ g => hspecial j g _ _ hn rfl rfl, ?_⟩
  exact List.forall_mem_nil _

/-- Settles O45: the rows hold, and what they leave is composed of writes that the words may make. -/
theorem registerWordFrame : Obligations.RegisterWordFrame := by
  refine ⟨fun w v u p x hx s j t hrun hok => ?_, fun w c hc s j t hrun hok => ?_⟩
  · obtain ⟨hholds, hwrites⟩ := writtenRows_writesOnly w v u p x hx
    exact ⟨_, hholds s j t hrun hok, hwrites s j t hrun hok⟩
  · exact ⟨_, systemWords w c (List.mem_append_right _ hc) s j t hrun hok, wrsrTable_special w c hc s j t hrun hok⟩

open Sys2Proof.Claims

/-! ## Branches -/

/-- Of a group nothing differs but PC, M and Y of its threads. -/
def movesOnly (g h : Group) : Prop :=
  h = { g with threads := h.threads }
    ∧ ∀ a, h.thread a = { g.thread a with pc := (h.thread a).pc, m := (h.thread a).m, y := (h.thread a).y }

theorem movesOnly_refl (g : Group) : movesOnly g g := ⟨rfl, fun _ => rfl⟩

theorem movesOnly_trans {g h k : Group} (hgh : movesOnly g h) (hhk : movesOnly h k) : movesOnly g k := by
  obtain ⟨hrest, hthread⟩ := hgh
  obtain ⟨hrest', hthread'⟩ := hhk
  refine ⟨?_, fun a => ?_⟩
  · rw [hrest']
    conv => lhs; rw [hrest]
  · rw [hthread' a]
    conv => lhs; rw [hthread a]

theorem movesOnly_modThread {f : Thread → Thread} (hf : ∀ x, f x = { x with pc := (f x).pc, m := (f x).m, y := (f x).y }) (g : Group) (t : Nat) :
    movesOnly g (g.modThread t f) := by
  refine ⟨rfl, fun a => ?_⟩
  rw [Group.thread_modThread]
  split
  · exact hf _
  · rfl

theorem movesOnly_foldl {α : Type} {f : Group → α → Group} (hf : ∀ g a, movesOnly g (f g a)) (l : List α) (g : Group) :
    movesOnly g (l.foldl f g) := by
  induction l generalizing g with
  | nil => exact movesOnly_refl g
  | cons a l ih => exact movesOnly_trans (hf g a) (ih (f g a))

theorem movesOnly_modThreads {f : Thread → Thread} (hf : ∀ x, f x = { x with pc := (f x).pc, m := (f x).m, y := (f x).y }) (g : Group)
    (ts : List Nat) : movesOnly g (g.modThreads ts f) :=
  movesOnly_foldl (fun g t => movesOnly_modThread hf g t) ts g

theorem movesOnly_advance (g : Group) (ts : List Nat) (len : Nat) : movesOnly g (g.advance ts len) :=
  movesOnly_modThreads (fun _ => rfl) g ts

theorem movesOnly_yieldTaken (g : Group) (warp : Nat) (taken : List Nat) : movesOnly g (g.yieldTaken warp taken) :=
  movesOnly_trans (movesOnly_modThreads (f := fun t => { t with y := true }) (fun _ => rfl) g taken)
    (movesOnly_modThreads (f := fun t => { t with m := true }) (fun _ => rfl) _ _)

/-- The active lanes go to their targets. -/
theorem movesOnly_goto (target : LaneSrc → Nat) (lanes : List LaneSrc) (g : Group) :
    movesOnly g (lanes.foldl (fun g l => g.modThread l.t fun h => { h with pc := BitVec.ofNat 64 (target l) }) g) :=
  movesOnly_foldl (fun g l => movesOnly_modThread (f := fun h => { h with pc := BitVec.ofNat 64 (target l) }) (fun _ => rfl) g l.t) lanes g

/-- A row moves the threads of its group alone. -/
def MovesOnly (c : Claim) : Prop :=
  ∀ s j t, c.checks s = .run j t → c.ok j t = true →
    onlyGroup j.d j.gid t (c.next j t) ∧ movesOnly (j.group t) (j.group (c.next j t))

theorem word_movesOnly {i : Instr} {ok : Job → State → Bool} {next : Job → State → State} {f : Job → Group → Group}
    (hnext : ∀ j s, next j s = j.mod s (f j)) (hf : ∀ j g, movesOnly g (f j g)) : MovesOnly (word i ok next) := by
  intro s j t hrun _
  have hr : j.Ready t := Job.Ready.of_run hrun
  have hgid : ∀ g : Group, g.gid = j.gid → (f j g).gid = j.gid := fun g hg => by rw [(hf j g).1]; exact hg
  change onlyGroup j.d j.gid t (next j t) ∧ movesOnly (j.group t) (j.group (next j t))
  rw [hnext, hr.group_mod hgid]
  exact ⟨hr.onlyGroup_mod hgid, hf j _⟩

/-- A taken branch. -/
theorem sent_movesOnly {i : Instr} {ok : Job → State → Bool} {target : Job → LaneSrc → Nat} {after : Job → Group → Group}
    (hafter : ∀ j g, movesOnly g (after j g)) : MovesOnly (word i ok fun j s => sent j s (target j) (after j)) :=
  word_movesOnly (fun _ _ => rfl) fun j g =>
    movesOnly_trans (movesOnly_advance g j.ts j.x.len) (movesOnly_trans (movesOnly_goto (target j) j.x.lanes _) (hafter j _))

/-- A branch that is not taken. -/
theorem pass_movesOnly {i : Instr} {ok : Job → State → Bool} : MovesOnly (word i ok fun j s => j.pass s) :=
  word_movesOnly (fun _ _ => rfl) fun j g => movesOnly_advance g j.ts j.x.len

theorem branchTable_movesOnly (w : RegWord) (v : WideWord) : ∀ c ∈ branchTable w v, MovesOnly c := by
  have hplain : ∀ (j : Job) (g : Group), movesOnly g (id g) := fun _ g => movesOnly_refl g
  unfold branchTable
  iterate 2 refine List.forall_mem_cons.2 ⟨sent_movesOnly hplain, ?_⟩
  refine List.forall_mem_cons.2 ⟨sent_movesOnly fun j g => movesOnly_yieldTaken g j.x.warp j.act, ?_⟩
  iterate 2 refine List.forall_mem_cons.2 ⟨sent_movesOnly hplain, List.forall_mem_cons.2 ⟨pass_movesOnly, ?_⟩⟩
  exact List.forall_mem_cons.2 ⟨sent_movesOnly hplain, List.forall_mem_nil _⟩

section
variable {j : Job} {ds : List Operand} {wide : Nat} {preds : List Nat} {also : Nat → Prop}

theorem onlyWrites_goto (hact : ∀ t ∈ j.act, t ∈ j.ts) (target : LaneSrc → Nat) (g : Group) : onlyWrites j ds wide preds also g
    (j.x.lanes.foldl (fun g l => g.modThread l.t fun h => { h with pc := BitVec.ofNat 64 (target l) }) g) :=
  onlyWrites_foldl (fun l hl g => onlyWrites_move (hact l.t (List.mem_map_of_mem hl)) (fun _ => BitVec.ofNat 64 (target l)) (fun x => x.m) g) g

/-- The vector slot of a P word writes its 32-bit destination (R205). -/
theorem onlyWrites_vector {p : PairWord} (hp : p.vdst ∈ ds) (hwide : 1 ≤ wide) (g : Group) :
    onlyWrites j ds wide preds also g (j.vector p g) :=
  onlyWrites_foldl (fun _ hl g => onlyWrites_writeDst hl hp hwide _ g) g

end

/-- The scalar slots that branch write the destination of their vector slot alone. -/
theorem pairBranchTable_writesOnly (p : PairWord) : ∀ c ∈ pairBranchTable p, WritesOnly c (fun _ => [p.vdst]) [] := by
  have hgo : ∀ (i : Instr) (sop : Nat) (ok : Job → State → Bool) (target : Job → LaneSrc → Nat), WritesOnly
      ⟨i, fun s => s.prepared default (.pair sop p) fun _ => p.vop.sig p.vector, ok, fun j s => sent j s (target j) (j.vector p)⟩
      (fun _ => [p.vdst]) [] := by
    intro i sop ok target s j t hrun _
    refine changesOnly_mod (Job.Ready.of_run hrun) fun g => onlyWrites_trans (onlyWrites_advance g) ?_
    exact onlyWrites_trans (onlyWrites_goto (act_of_run hrun) (target j) _) (onlyWrites_vector List.mem_cons_self (by decide) _)
  have hstay : ∀ (i : Instr) (sop : Nat) (ok : Job → State → Bool), WritesOnly
      ⟨i, fun s => s.prepared default (.pair sop p) fun _ => p.vop.sig p.vector, ok, fun j s => j.pass (j.mod s (j.vector p))⟩
      (fun _ => [p.vdst]) [] := by
    intro i sop ok s j t hrun _
    exact changesOnly_pass_mod (Job.Ready.of_run hrun) fun g => onlyWrites_vector List.mem_cons_self (by decide) g
  unfold pairBranchTable
  exact List.forall_mem_cons.2 ⟨hgo _ _ _ _, List.forall_mem_cons.2 ⟨hstay _ _ _, List.forall_mem_cons.2 ⟨hgo _ _ _ _,
    List.forall_mem_cons.2 ⟨hstay _ _ _, List.forall_mem_nil _⟩⟩⟩⟩

/-- Settles O51: the rows hold, and what they leave is composed of moves of threads and, in P words, of the vector slot's writes. -/
theorem branchFrame : Obligations.BranchFrame := by
  refine ⟨fun w v c hc s j t hrun hok => ?_, fun p c hc s j t hrun hok => ?_⟩
  · exact ⟨_, branchWords w v c hc s j t hrun hok, branchTable_movesOnly w v c hc s j t hrun hok⟩
  · exact ⟨_, pairBranches p c hc s j t hrun hok, pairBranchTable_writesOnly p c hc s j t hrun hok⟩

open Sys2Proof.Claims

/-! ## Bytes stored in the window -/

theorem getD_toBytes {n k : Nat} (x : Nat) (hk : k < n) : (toBytes n x).getD k 0 = BitVec.ofNat 8 (x / 256 ^ k) := by
  induction n generalizing x k with
  | zero => cases hk
  | succ n ih =>
    rw [toBytes]
    cases k with
    | zero => rw [List.getD_cons_zero, Nat.pow_zero, Nat.div_one]
    | succ k => rw [List.getD_cons_succ, ih _ (by omega), Nat.div_div_eq_div_mul, ← Nat.pow_succ']

theorem Group.partByte_putWindow (g : Group) (o : Nat) (bs : List Byte) (poison : Bool) (a : Nat) :
    ((g.putWindow o bs poison).partByte a).1 =
      if g.ctx.frame.base + o ≤ a ∧ a < g.ctx.frame.base + o + bs.length then bs.getD (a - (g.ctx.frame.base + o)) 0 else (g.partByte a).1 :=
  Group.partByte_putPart ..

section
variable (off val : LaneSrc → Nat) (n : Nat)

/-- The lanes store n bytes each in the window, one after another. -/
def storesWindow (lanes : List LaneSrc) (g : Group) : Group :=
  lanes.foldl (fun g l => g.putWindow (off l) (toBytes n (val l)) false) g

theorem storesWindow_eq (lanes : List LaneSrc) (g : Group) :
    storesWindow off val n lanes g = { g with part := (storesWindow off val n lanes g).part } := by
  induction lanes generalizing g with
  | nil => rfl
  | cons l lanes ih =>
    have hl : g.putWindow (off l) (toBytes n (val l)) false = { g with part := (g.putWindow (off l) (toBytes n (val l)) false).part } :=
      Group.putPart_eq ..
    refine (ih (g.putWindow (off l) (toBytes n (val l)) false)).trans ?_
    exact congrArg (fun x : Group => { x with part := (storesWindow off val n (l :: lanes) g).part }) hl

/-- A byte that no lane stores stays. -/
theorem partByte_storesWindow_of_outside {lanes : List LaneSrc} {g : Group} {a : Nat}
    (h : ∀ l ∈ lanes, a < g.ctx.frame.base + off l ∨ g.ctx.frame.base + off l + n ≤ a) :
    ((storesWindow off val n lanes g).partByte a).1 = (g.partByte a).1 := by
  induction lanes generalizing g with
  | nil => rfl
  | cons l lanes ih =>
    obtain ⟨hl, hlanes⟩ := List.forall_mem_cons.1 h
    refine (ih (by rwa [Group.putWindow_ctx])).trans ?_
    rw [Group.partByte_putWindow, if_neg (by rw [length_toBytes]; omega)]

/-- A byte that a lane stores and no later lane covers is that lane's (R290). -/
theorem partByte_storesWindow {before after : List LaneSrc} {l : LaneSrc} {g : Group} {k : Nat} (hk : k < n)
    (h : ∀ m ∈ after, off l + k < off m ∨ off m + n ≤ off l + k) :
    ((storesWindow off val n (before ++ l :: after) g).partByte (g.ctx.frame.base + off l + k)).1 = BitVec.ofNat 8 (val l / 256 ^ k) := by
  have hctx : (storesWindow off val n before g).ctx = g.ctx := by rw [storesWindow_eq]
  have hsplit : storesWindow off val n (before ++ l :: after) g =
      storesWindow off val n after ((storesWindow off val n before g).putWindow (off l) (toBytes n (val l)) false) := List.foldl_append ..
  rw [hsplit, partByte_storesWindow_of_outside, Group.partByte_putWindow, hctx, if_pos (by rw [length_toBytes]; omega),
    Nat.add_sub_cancel_left, getD_toBytes _ hk]
  intro m hm
  have hmk := h m hm
  rw [Group.putWindow_ctx, hctx]
  omega

end

/-! ## The WAITs of the group -/

theorem Group.thread_eq_getElem {g : Group} {t : Nat} (h : t < g.threads.length) : g.thread t = g.threads[t] :=
  getD_eq_getElem_of_lt ..

theorem Group.hasWait_iff (g : Group) (sel : Wait → Bool) :
    g.hasWait sel = true ↔ ∃ t, ((g.thread t).wait.any sel || (g.thread t).susp.any sel) = true := by
  unfold Group.hasWait
  rw [List.any_eq_true]
  constructor
  · rintro ⟨x, hx, hsel⟩
    obtain ⟨t, ht, rfl⟩ := List.getElem_of_mem hx
    exact ⟨t, by rw [Group.thread_eq_getElem ht]; exact hsel⟩
  · rintro ⟨t, hsel⟩
    by_cases ht : t < g.threads.length
    · exact ⟨_, List.getElem_mem ht, by rwa [← Group.thread_eq_getElem ht]⟩
    · rw [Group.thread_of_length_le (Nat.not_lt.mp ht)] at hsel
      exact absurd hsel Bool.false_ne_true

theorem Group.hasWait_congr {g h : Group} (hthread : ∀ t, (h.thread t).wait = (g.thread t).wait ∧ (h.thread t).susp = (g.thread t).susp)
    (sel : Wait → Bool) : h.hasWait sel = g.hasWait sel := by
  refine Bool.eq_iff_iff.2 ?_
  rw [Group.hasWait_iff, Group.hasWait_iff]
  exact exists_congr fun t => by rw [(hthread t).1, (hthread t).2]

/-- A test that only WAIT satisfies. -/
def isWait : Wait → Bool
  | .wait .. => true
  | _ => false

theorem noWait_iff (g : Group) : noWait g = true ↔ g.hasWait isWait = false := by
  have hsel : noWait g = !g.hasWait isWait := by
    refine congrArg (fun sel => !g.hasWait sel) (funext fun y => ?_)
    cases y with
    | _ => rfl
  rw [hsel, Bool.not_eq_true']

theorem Group.hasWait_mono {g : Group} {p q : Wait → Bool} (hpq : ∀ w, p w = true → q w = true) (h : g.hasWait q = false) :
    g.hasWait p = false := by
  refine Bool.eq_false_iff.2 fun hp => ?_
  refine Bool.eq_false_iff.1 h ?_
  obtain ⟨t, ht⟩ := (g.hasWait_iff p).1 hp
  refine (g.hasWait_iff q).2 ⟨t, ?_⟩
  rcases Bool.or_eq_true_iff.1 ht with ht | ht
  · obtain ⟨w, hw, hpw⟩ := (Option.any_eq_true ..).1 ht
    rw [hw, Option.any_some, hpq w hpw, Bool.true_or]
  · obtain ⟨w, hw, hpw⟩ := (Option.any_eq_true ..).1 ht
    rw [hw, Option.any_some, hpq w hpw, Bool.or_true]

/-- Where no thread waits in WAIT, no wait is struck and none ends. -/
theorem recheck_of_noWait {g : Group} {bad due : Wait → Bool} (hbad : ∀ w, bad w = true → isWait w = true)
    (hdue : ∀ w, due w = true → isWait w = true) (h : noWait g = true) (e : WaitEnd) :
    (let g := if g.hasWait bad then g.strikeWaits bad else g
     if g.hasWait due then g.endWaits due e else g) = g := by
  have hnone := (noWait_iff g).1 h
  dsimp only
  rw [if_neg (Bool.eq_false_iff.1 (Group.hasWait_mono hbad hnone)), if_neg (Bool.eq_false_iff.1 (Group.hasWait_mono hdue hnone))]

theorem Group.recheckWaits_of_noWait {g : Group} (h : noWait g = true) (ranges : List (Nat × Nat)) : g.recheckWaits ranges = g := by
  refine recheck_of_noWait (fun w hw => ?_) (fun w hw => ?_) h _
  · cases w with
    | wait => rfl
    | _ => exact absurd hw Bool.false_ne_true
  · cases w with
    | wait => rfl
    | _ => exact absurd hw Bool.false_ne_true

/-- A WAIT that ends writes its predicate alone (R281). -/
theorem waitResult_keeps {g : Group} {w : Wait} (hw : isWait w = true) (t : Nat) (e : WaitEnd) :
    (g.waitResult t w e).part = g.part ∧ (g.waitResult t w e).gid = g.gid
      ∧ ∀ u, ((g.waitResult t w e).thread u).wait = (g.thread u).wait := by
  cases w with
  | wait x off cmp deadline struck =>
    rw [Group.waitResult]
    cases x.i.fields.dst with
    | p n =>
      refine ⟨rfl, rfl, fun u => ?_⟩
      have hset : ∀ y : Thread, (y.setPred n.toNat e.pd).wait = y.wait := fun y => by
        unfold Thread.setPred
        split
        · rfl
        · rfl
      exact Group.thread_modThreads_keeps (ts := [t]) Thread.wait hset u
    | _ => exact ⟨rfl, rfl, fun _ => rfl⟩
  | _ => exact absurd hw Bool.false_ne_true

/-- The end of a thread's WAIT leaves the partition, and no other thread comes to wait. -/
theorem endWait_keeps {g : Group} {t : Nat} (ht : ∀ w, (g.thread t).wait = some w → isWait w = true) (e : WaitEnd) :
    (g.endWait t e).part = g.part ∧ (g.endWait t e).gid = g.gid
      ∧ ∀ u w, ((g.endWait t e).thread u).wait = some w → (g.thread u).wait = some w := by
  cases hwait : (g.thread t).wait with
  | none =>
    have hstays : g.endWait t e = g := by rw [Group.endWait, hwait]
    rw [hstays]
    exact ⟨rfl, rfl, fun _ _ => id⟩
  | some w =>
    obtain ⟨hpart, hgid, hthreads⟩ := waitResult_keeps (ht w hwait) t e (g := g)
    have hends : g.endWait t e = ((g.waitResult t w e).unwait [t]).advance [t] ((w.word?.map Issued.len).getD 0) := by
      rw [Group.endWait, hwait]
    rw [hends]
    have hunwait : ((g.waitResult t w e).unwait [t]).part = (g.waitResult t w e).part
        ∧ ((g.waitResult t w e).unwait [t]).gid = (g.waitResult t w e).gid := ⟨rfl, rfl⟩
    refine ⟨(Group.modThreads_part ..).trans (hunwait.1.trans hpart), (Group.modThreads_gid ..).trans (hunwait.2.trans hgid), fun u x hx => ?_⟩
    have hadvance : ((((g.waitResult t w e).unwait [t]).advance [t] ((w.word?.map Issued.len).getD 0)).thread u).wait
        = (((g.waitResult t w e).unwait [t]).thread u).wait :=
      Group.thread_modThreads_keeps (f := fun y => { y with pc := pcAfter y.pc ((w.word?.map Issued.len).getD 0), m := false }) Thread.wait
        (fun _ => rfl) u
    rw [hadvance] at hx
    have hcleared : ((g.waitResult t w e).unwait [t]).thread u = ((g.waitResult t w e).modThread t fun y => { y with wait := none }).thread u := rfl
    rw [hcleared, Group.thread_modThread] at hx
    split at hx
    · cases hx
    · rw [← hthreads u]
      exact hx

theorem endWaits_foldl_keeps {ts : List Nat} (e : WaitEnd) {g : Group} (h : ∀ t ∈ ts, ∀ w, (g.thread t).wait = some w → isWait w = true) :
    (ts.foldl (fun g t => g.endWait t e) g).part = g.part ∧ (ts.foldl (fun g t => g.endWait t e) g).gid = g.gid := by
  induction ts generalizing g with
  | nil => exact ⟨rfl, rfl⟩
  | cons t ts ih =>
    obtain ⟨ht, hts⟩ := List.forall_mem_cons.1 h
    obtain ⟨hpart, hgid, hthreads⟩ := endWait_keeps ht e
    obtain ⟨hpart', hgid'⟩ := ih (g := g.endWait t e) fun u hu w hw => hts u hu w (hthreads u w hw)
    exact ⟨hpart'.trans hpart, hgid'.trans hgid⟩

theorem Group.mem_threadsWith {g : Group} {p : Thread → Bool} {t : Nat} (h : t ∈ g.threadsWith p) : p (g.thread t) = true := by
  rw [Group.threadsWith_eq] at h
  exact (List.mem_filter.1 h).2

/-- Waits that end, where they are WAITs, leave the partition. -/
theorem endWaits_keeps (g : Group) {sel : Wait → Bool} (hsel : ∀ w, sel w = true → isWait w = true) (e : WaitEnd) :
    (g.endWaits sel e).part = g.part ∧ (g.endWaits sel e).gid = g.gid := by
  unfold Group.endWaits
  dsimp only
  generalize hmarked : g.modThreads _ _ = h
  have hpart : h.part = g.part := by rw [← hmarked, Group.modThreads_part]
  have hgid : h.gid = g.gid := by rw [← hmarked, Group.modThreads_gid]
  obtain ⟨hpart', hgid'⟩ := endWaits_foldl_keeps e (g := h) (ts := h.threadsWith fun t => t.wait.any sel) fun t ht w hw => by
    have hany := Group.mem_threadsWith ht
    rw [hw, Option.any_some] at hany
    exact hsel w hany
  exact ⟨hpart'.trans hpart, hgid'.trans hgid⟩

theorem recheck_keeps (g : Group) {bad due : Wait → Bool} (hdue : ∀ w, due w = true → isWait w = true) (e : WaitEnd) :
    let h := (let g := if g.hasWait bad then g.strikeWaits bad else g
      if g.hasWait due then g.endWaits due e else g)
    h.part = g.part ∧ h.gid = g.gid := by
  have hstruck : ∀ c : Bool, (if c then g.strikeWaits bad else g).part = g.part ∧ (if c then g.strikeWaits bad else g).gid = g.gid := fun c => by
    cases c with
    | true => exact ⟨rfl, rfl⟩
    | false => exact ⟨rfl, rfl⟩
  obtain ⟨hpart, hgid⟩ := hstruck (g.hasWait bad)
  dsimp only
  generalize (if g.hasWait bad = true then g.strikeWaits bad else g) = x at hpart hgid ⊢
  split
  · obtain ⟨hpart', hgid'⟩ := endWaits_keeps x hdue e
    exact ⟨hpart'.trans hpart, hgid'.trans hgid⟩
  · exact ⟨hpart, hgid⟩

/-- What is evaluated after a store changes no byte of the partition (R281). -/
theorem Group.recheckWaits_keeps (g : Group) (ranges : List (Nat × Nat)) :
    (g.recheckWaits ranges).part = g.part ∧ (g.recheckWaits ranges).gid = g.gid := by
  refine recheck_keeps g (fun w hw => ?_) ⟨true, 0⟩
  cases w with
  | wait => rfl
  | _ => exact absurd hw Bool.false_ne_true

open Sys2Proof.Claims

/-! ## ST of the window -/

theorem Group.partByte_congr {g h : Group} (hpart : h.part = g.part) (a : Nat) : h.partByte a = g.partByte a := by
  unfold Group.partByte Group.word
  rw [hpart]

/-- What a window store leaves of its group, before the word passes: the bytes, and what the WAITs on them become. -/
def storedGroup (j : Job) (n : Nat) (g : Group) : Group :=
  (storesWindow (windowOff j) (fun l => l.c.toNat) n j.x.lanes g).recheckWindow (j.x.lanes.map fun l => (windowOff j l, n))

theorem storedGroup_part (j : Job) (n : Nat) (g : Group) :
    (storedGroup j n g).part = (storesWindow (windowOff j) (fun l => l.c.toNat) n j.x.lanes g).part := (Group.recheckWaits_keeps ..).1

theorem storedGroup_gid (j : Job) (n : Nat) (g : Group) : (storedGroup j n g).gid = g.gid :=
  (Group.recheckWaits_keeps ..).2.trans (by rw [storesWindow_eq])

theorem storedGroup_of_noWait {j : Job} {n : Nat} {g : Group} (h : noWait g = true) :
    storedGroup j n g = storesWindow (windowOff j) (fun l => l.c.toNat) n j.x.lanes g := by
  refine Group.recheckWaits_of_noWait ?_ _
  rw [storesWindow_eq]
  exact h

theorem Group.advance_part (g : Group) (ts : List Nat) (len : Nat) : (g.advance ts len).part = g.part := Group.modThreads_part ..

/-- What a window store leaves: the group's bytes, and nothing of memory. -/
theorem storeWin_frame {i : Instr} {n : Nat} {j : Job} {t : State} (hr : j.Ready t) :
    let g := j.group t
    let base := g.ctx.frame.base
    let k := j.group ((storeWin i n).next j t)
    onlyGroup j.d j.gid t ((storeWin i n).next j t)
      ∧ (∀ a, (∀ l ∈ j.x.lanes, a < base + windowOff j l ∨ base + windowOff j l + n ≤ a) → (k.partByte a).1 = (g.partByte a).1)
      ∧ (∀ before l after, j.x.lanes = before ++ l :: after → ∀ b, b < n →
          (∀ m ∈ after, windowOff j l + b < windowOff j m ∨ windowOff j m + n ≤ windowOff j l + b) →
            (k.partByte (base + windowOff j l + b)).1 = BitVec.ofNat 8 (l.c.toNat / 256 ^ b))
      ∧ (noWait g = true → k = { g with threads := k.threads, part := k.part } ∧ ∀ a, (k.thread a).preds = (g.thread a).preds)
      ∧ ∀ nid r b, lineByte (((storeWin i n).next j t).die j.d) nid r b = lineByte (t.die j.d) nid r b := by
  intro g base k
  have hgid : ∀ x : Group, x.gid = j.gid → (storedGroup j n x).gid = j.gid := fun x hx => (storedGroup_gid ..).trans hx
  have hpass : ∀ x : Group, x.gid = j.gid → (x.advance j.ts j.x.len).gid = j.gid := fun x hx => (Group.advance_gid ..).trans hx
  have hr' : j.Ready (j.mod t (storedGroup j n)) := hr.mod hgid
  have hk : k = (storedGroup j n g).advance j.ts j.x.len := by
    change j.group (j.pass (j.mod t (storedGroup j n))) = _
    rw [Job.pass, hr'.group_mod hpass, hr.group_mod hgid]
  have hpart : k.part = (storesWindow (windowOff j) (fun l => l.c.toNat) n j.x.lanes g).part := by
    rw [hk, Group.advance_part, storedGroup_part]
  refine ⟨onlyGroup_trans (hr.onlyGroup_mod hgid) (hr'.onlyGroup_mod hpass), fun a ha => ?_, fun before l after hlanes b hb hafter => ?_,
    fun hnone => ?_, (hr.sameView_mod.trans hr'.sameView_mod).lineByte⟩
  · rw [Group.partByte_congr hpart]
    exact partByte_storesWindow_of_outside _ _ _ ha
  · rw [Group.partByte_congr hpart, hlanes]
    exact partByte_storesWindow _ _ _ hb hafter
  · have hstored := storesWindow_eq (windowOff j) (fun l => l.c.toNat) n j.x.lanes g
    rw [storedGroup_of_noWait hnone] at hk
    have hadvance := Group.modThreads_eq (storesWindow (windowOff j) (fun l => l.c.toNat) n j.x.lanes g) j.ts
      fun x => { x with pc := pcAfter x.pc j.x.len, m := false }
    refine ⟨?_, fun a => ?_⟩
    · have hmoved : k = { storesWindow (windowOff j) (fun l => l.c.toNat) n j.x.lanes g with threads := k.threads } := by
        rw [hk]
        exact hadvance
      have hwhole := hmoved.trans (congrArg (fun x : Group => { x with threads := k.threads }) hstored)
      rw [← hpart] at hwhole
      exact hwhole
    · have hpreds := Group.thread_modThreads_keeps (g := storesWindow (windowOff j) (fun l => l.c.toNat) n j.x.lanes g) (ts := j.ts)
        (f := fun x => { x with pc := pcAfter x.pc j.x.len, m := false }) Thread.preds (fun _ => rfl) a
      rw [hk]
      refine hpreds.trans ?_
      rw [hstored]
      rfl

/-- The words that store to the window, as rows of its table. -/
theorem windowWords_storeWin (w : RegWord) : ∀ x ∈ Claims.windowWords w,
    storeWin x.1 x.2 ∈ windowTable w ∧ ∀ s, checksOf x.1 s = (storeWin x.1 x.2).checks s := by
  have hmem : ∀ c ∈ windowStores w, c ∈ windowTable w := fun c hc => List.mem_append_left _ (List.mem_append_right _ hc)
  unfold Claims.windowWords
  iterate 5 refine List.forall_mem_cons.2 ⟨⟨hmem _ (by simp [windowStores]), fun _ => rfl⟩, ?_⟩
  exact List.forall_mem_nil _

/-! ## LD and ATOM of the window -/

section
variable {j : Job} {ds : List Operand} {wide : Nat} {preds : List Nat} {also : Nat → Prop}

/-- A write of the word's own destination is pending no more. -/
theorem onlyWrites_pendClear (g : Group) : onlyWrites j ds wide preds also g (g.pendClear j.x.dst) := by
  refine ⟨rfl, fun r hr => ?_, fun _ h => (h rfl).elim, fun _ _ _ h => (h rfl).elim, fun _ => rfl, fun _ _ => ⟨rfl, rfl⟩,
    fun _ _ _ h => (h rfl).elim⟩
  change r ∈ g.pend.filter _ ↔ _
  rw [List.mem_filter]
  exact and_iff_left (by simpa using hr)

/-- Bytes stored in the words of the partition that the frame names. -/
theorem onlyWrites_putWindow {g : Group} {o : Nat} {bs : List Byte} (halso : ∀ i, i < bs.length → also ((g.ctx.frame.base + o + i) / 4)) (poison : Bool) :
    onlyWrites j ds wide preds also g (g.putWindow o bs poison) := by
  have hrest : g.putWindow o bs poison = { g with part := (g.putWindow o bs poison).part } := Group.putPart_eq ..
  have hthread : ∀ t, (g.putWindow o bs poison).thread t = g.thread t := fun t => by rw [hrest]; rfl
  have hsreg : ∀ a n, (g.putWindow o bs poison).sreg a n = g.sreg a n := fun a n => by rw [hrest]; rfl
  refine ⟨?_, fun r _ => by rw [hrest], fun k hk => .inl ?_, fun a n _ hne => absurd (hsreg a n) hne, fun t => by rw [hthread],
    fun t _ => by rw [hthread]; exact ⟨rfl, rfl⟩, fun t n _ hne => absurd (by rw [hthread]) hne⟩
  · conv => lhs; rw [hrest]
    conv => rhs; rw [hrest]
  · refine Classical.byContradiction fun hno => ?_
    refine hk ((Group.word_putPart ..).trans (if_neg ?_))
    rintro ⟨i, hi, rfl⟩
    exact hno (halso i hi)

theorem onlyWrites_foldl_of_ctx {α : Type} {f : Group → α → Group} {l : List α} {g : Group}
    (h : ∀ a ∈ l, ∀ x : Group, x.ctx = g.ctx → onlyWrites j ds wide preds also x (f x a)) : onlyWrites j ds wide preds also g (l.foldl f g) := by
  induction l generalizing g with
  | nil => exact onlyWrites_refl g
  | cons a l ih =>
    have ha := h a List.mem_cons_self g rfl
    have hctx : (f g a).ctx = g.ctx := by rw [ha.1]
    exact onlyWrites_trans ha (ih fun b hb x hx => h b (List.mem_cons_of_mem a hb) x (hx.trans hctx))

/-- A frame leaves every wait as it was. -/
theorem noWait_of_onlyWrites {g h : Group} (hgh : onlyWrites j ds wide preds also g h) (hnone : noWait g = true) : noWait h = true := by
  obtain ⟨-, -, -, -, hthread, -⟩ := hgh
  rw [noWait_iff] at hnone ⊢
  rw [← hnone]
  refine Group.hasWait_congr (fun t => ?_) _
  rw [hthread t]
  exact ⟨rfl, rfl⟩

theorem changesOnly_pass_mod_at {s : State} (hr : j.Ready s) {f : Group → Group} (hgid : ∀ g, (f g).gid = g.gid)
    (hf : onlyWrites j ds wide preds also (j.group s) (f (j.group s))) : changesOnly j ds wide preds also s (j.pass (j.mod s f)) := by
  have hgid' : ∀ g : Group, g.gid = j.gid → (f g).gid = j.gid := fun g hg => (hgid g).trans hg
  refine changesOnly_trans ⟨hr.onlyGroup_mod hgid', ?_, hr.sameView_mod.lineByte⟩ (changesOnly_pass (hr.mod hgid'))
  rw [hr.group_mod hgid']
  exact hf

end

theorem loadWidth_le {n : Nat} (hn : 1 ≤ n) : (8 * max n 4 + 31) / 32 ≤ (n + 3) / 4 := by omega

/-- A load of the window writes its destination alone. -/
theorem loadWin_changesOnly {i : Instr} {n : Nat} {signed : Bool} (hn : 1 ≤ n) {s t : State} {j : Job}
    (hrun : (loadWin i n signed).checks s = .run j t) : changesOnly j [j.f.dst] ((n + 3) / 4) [] noWord t ((loadWin i n signed).next j t) := by
  refine changesOnly_pass_mod (Job.Ready.of_run hrun) fun g => onlyWrites_trans ?_ (onlyWrites_pendClear _)
  exact onlyWrites_foldl (fun l hl h => onlyWrites_writeDst hl List.mem_cons_self (loadWidth_le hn) _ h) g

/-- The words of the partition that an atomic of n bytes of the window may change. -/
def atomPlacesWin (j : Job) (g : Group) (n : Nat) (k : Nat) : Prop :=
  ∃ l ∈ j.x.lanes, ∃ i, i < n ∧ k = (g.ctx.frame.base + l.a.toNat % 2 ^ 32 + i) / 4

theorem onlyWrites_atomRegs {j : Job} {also : Nat → Prop} {width : Nat} {l : LaneSrc} (hl : l ∈ j.x.lanes) {wide : Nat} (hw : (width + 31) / 32 ≤ wide)
    (old : Nat) (done : Bool) (g : Group) : onlyWrites j [j.f.dst] wide (predOut j) also g (atomRegs width j l old done g) := by
  have hdst : onlyWrites j [j.f.dst] wide (predOut j) also g (g.writeDst j.x.warp l.t width j.f.dst old) :=
    onlyWrites_writeDst hl List.mem_cons_self hw old g
  unfold atomRegs
  dsimp only
  split
  · rename_i hpd
    refine onlyWrites_trans hdst (onlyWrites_setPred (List.mem_map_of_mem hl) (.inr ?_) done _)
    rw [predOut, if_pos hpd]
    exact List.mem_cons_self
  · exact hdst

/-- An atomic of the window in one lane writes the lane's word, its destination and the predicate of PD (R294). -/
theorem onlyWrites_atomWinLane {j : Job} {g0 g : Group} {n wide : Nat} {l : LaneSrc} (hl : l ∈ j.x.lanes) (hwide : (8 * n + 31) / 32 ≤ wide)
    (hctx : g.ctx = g0.ctx) : onlyWrites j [j.f.dst] wide (predOut j) (atomPlacesWin j g0 n) g (atomWinLane (8 * n) j g l) := by
  unfold atomWinLane
  dsimp only
  refine onlyWrites_trans ?_ (onlyWrites_atomRegs hl hwide _ _ _)
  split
  · refine onlyWrites_putWindow (fun i hi => ⟨l, hl, i, ?_, by rw [hctx]⟩) false
    rw [length_toBytes] at hi
    omega
  · exact onlyWrites_refl g

/-- An atomic of the window, where no thread waits in WAIT. -/
theorem atomWin_changesOnly {i : Instr} {n wide : Nat} (hwide : (8 * n + 31) / 32 ≤ wide) {s t : State} {j : Job} (hrun : (atomWin i (8 * n)).checks s = .run j t)
    (hnone : noWait (j.group t) = true) :
    changesOnly j [j.f.dst] wide (predOut j) (atomPlacesWin j (j.group t) n) t ((atomWin i (8 * n)).next j t) := by
  have hlanes : onlyWrites j [j.f.dst] wide (predOut j) (atomPlacesWin j (j.group t) n) (j.group t)
      (j.x.lanes.foldl (atomWinLane (8 * n) j) (j.group t)) :=
    onlyWrites_foldl_of_ctx fun l hl x hx => onlyWrites_atomWinLane hl hwide hx
  refine changesOnly_pass_mod_at (Job.Ready.of_run hrun) (fun g => ?_) ?_
  · refine (Group.recheckWaits_keeps ..).2.trans (Group.foldl_gid (fun g l => ?_) _ _)
    exact gid_of_onlyWrites (j := ⟨j.d, j.gid, { j.x with lanes := [l] }, j.ts, j.sig, j.f⟩)
      (onlyWrites_atomWinLane (n := n) (g0 := g) List.mem_cons_self hwide rfl)
  · have hstays := Group.recheckWaits_of_noWait (noWait_of_onlyWrites hlanes hnone)
    exact (congrArg (onlyWrites j [j.f.dst] wide (predOut j) (atomPlacesWin j (j.group t) n) (j.group t)) (hstays _)).mpr hlanes

/-- Settles O47: the stores are read off byte by byte, and loads and atomics are composed of writes that they may make. -/
theorem windowStoreFrame : Obligations.WindowStoreFrame := by
  refine ⟨fun w x hx s j t hrun hopen => ?stores, fun w => ?loads, fun w => ?atoms⟩
  case stores =>
    obtain ⟨hmem, hchecks⟩ := windowWords_storeWin w x hx
    rw [hchecks] at hrun
    exact ⟨_, windowWords w _ hmem s j t hrun hopen, storeWin_frame (Job.Ready.of_run hrun)⟩
  case loads =>
    have hload : ∀ {i : Instr} {n : Nat} {signed : Bool}, 1 ≤ n → loadWin i n signed ∈ windowLoads w →
        ∀ s j t, (loadWin i n signed).checks s = .run j t → (loadWin i n signed).ok j t = true →
          ∃ k, exec i s = .next k ∧ onlyGroup j.d j.gid t k ∧ onlyWrites j [j.f.dst] ((n + 3) / 4) [] noWord (j.group t) (j.group k)
            ∧ ∀ nid r b, lineByte (k.die j.d) nid r b = lineByte (t.die j.d) nid r b :=
      fun hn hmem s j t hrun hok =>
        ⟨_, windowWords w _ (List.mem_append_left _ (List.mem_append_left _ hmem)) s j t hrun hok, loadWin_changesOnly hn hrun⟩
    iterate 7 refine List.forall_mem_cons.2 ⟨hload (by decide) (by simp [windowLoads]), ?_⟩
    exact List.forall_mem_nil _
  case atoms =>
    have hholds : ∀ c ∈ [atomWin (.atomWWin w) 32, atomWin (.atomDWin w) 64], c.Holds := fun c hc => windowWords w c (List.mem_append_right _ hc)
    obtain ⟨hword, hpair⟩ := List.forall_mem_cons.1 hholds
    refine List.forall_mem_cons.2 ⟨fun s j t hrun hok hnone => ⟨_, hword s j t hrun hok, ?_⟩,
      List.forall_mem_cons.2 ⟨fun s j t hrun hok hnone => ⟨_, (List.forall_mem_cons.1 hpair).1 s j t hrun hok, ?_⟩, List.forall_mem_nil _⟩⟩
    · dsimp only
      exact atomWin_changesOnly (n := 4) (wide := 4 / 4) (by decide) hrun hnone
    · dsimp only
      exact atomWin_changesOnly (n := 8) (wide := 8 / 4) (by decide) hrun hnone

end Sys2Proof.Machine
end

section
/-! PROOFS. Sectors of memory and write-back (O49, O52), and stores to lines of the staging reserve, which refute O48 and O50. -/

namespace Sys2Proof.Machine
open Sys2Proof.Claims

/-! ## Ranges of sectors -/

theorem inRanges_append (rs rs' : List (Nat × Nat)) (y : Nat) : inRanges (rs ++ rs') y = (inRanges rs y || inRanges rs' y) :=
  List.any_append

theorem inRanges_iff (rs : List (Nat × Nat)) (y : Nat) : inRanges rs y = true ↔ ∃ r ∈ rs, r.1 ≤ y ∧ y < r.1 + r.2 := by
  unfold inRanges
  rw [List.any_eq_true]
  simp

/-- The ranges that are cut lose that sector alone. -/
theorem inRanges_cutRanges (rs : List (Nat × Nat)) (x y : Nat) : inRanges (cutRanges rs x) y = (inRanges rs y && y != x) := by
  have hone : ∀ r : Nat × Nat, inRanges (cutRanges [r] x) y = (decide (r.1 ≤ y ∧ y < r.1 + r.2) && y != x) := by
    rintro ⟨a, n⟩
    refine Bool.eq_iff_iff.2 ?_
    rw [inRanges_iff]
    unfold cutRanges
    simp only [List.flatMap_cons, List.flatMap_nil, List.append_nil, Bool.and_eq_true, decide_eq_true_eq, bne_iff_ne, ne_eq]
    split
    · simp only [List.mem_filter, List.mem_cons, List.not_mem_nil, or_false, bne_iff_ne, ne_eq]
      constructor
      · rintro ⟨r, ⟨rfl | rfl, hr⟩, hy⟩
        · dsimp only at hr hy
          omega
        · dsimp only at hr hy
          omega
      · rintro ⟨hy, hne⟩
        by_cases hlt : y < x
        · exact ⟨(a, x - a), ⟨.inl rfl, by dsimp only; omega⟩, by dsimp only; omega⟩
        · exact ⟨(x + 1, a + n - (x + 1)), ⟨.inr rfl, by dsimp only; omega⟩, by dsimp only; omega⟩
    · simp only [List.mem_cons, List.not_mem_nil, or_false]
      constructor
      · rintro ⟨r, rfl, hy⟩
        exact ⟨hy, by dsimp only at hy; omega⟩
      · rintro ⟨hy, -⟩
        exact ⟨_, rfl, hy⟩
  induction rs with
  | nil => rfl
  | cons r rs ih =>
    have hsplit : cutRanges (r :: rs) x = cutRanges [r] x ++ cutRanges rs x := by
      unfold cutRanges
      rw [List.flatMap_cons, List.flatMap_cons, List.flatMap_nil, List.append_nil]
    rw [hsplit, inRanges_append, hone, ih]
    have hcons : inRanges (r :: rs) y = (decide (r.1 ≤ y ∧ y < r.1 + r.2) || inRanges rs y) := by
      unfold inRanges
      rw [List.any_cons, Bool.decide_and]
    rw [hcons, Bool.and_or_distrib_right]

theorem inRanges_cutSpan_self (rs : List (Nat × Nat)) (x : Nat) : inRanges (cutSpan rs x 1) x = false := by
  refine Bool.eq_false_iff.2 fun h => ?_
  obtain ⟨r, hr, hx⟩ := (inRanges_iff _ _).1 h
  unfold cutSpan at hr
  obtain ⟨⟨a, k⟩, -, hmem⟩ := List.mem_flatMap.1 hr
  simp only [List.mem_filter, List.mem_cons, List.not_mem_nil, or_false] at hmem
  obtain ⟨rfl | rfl, -⟩ := hmem
  · dsimp only at hx
    omega
  · dsimp only at hx
    omega

theorem mem_addSector (l : List Nat) (x y : Nat) : y ∈ addSector l x ↔ y = x ∨ y ∈ l := by
  induction l with
  | nil => simp [addSector]
  | cons z l ih =>
    rw [addSector]
    split
    · rw [List.mem_cons, ih, List.mem_cons]
      exact or_left_comm
    · split
      · rename_i hz
        subst hz
        simp
      · rw [List.mem_cons]

/-! ## Writes of a sector (R90, R91, R94) -/

theorem sectorBad_false_iff (d : Die) (sec : Nat) : d.sectorBad sec = false ↔
    d.channelOffline (d.channelOf (32 * sec)) = false ∧ d.poisonSec.contains sec = false ∧ inRanges d.poisonPending sec = false := by
  unfold Die.sectorBad
  rw [Bool.or_eq_false_iff, Bool.or_eq_false_iff, and_assoc]

theorem contains_filter_ne (l : List Nat) (x y : Nat) : (l.filter (· != x)).contains y = (l.contains y && y != x) := by
  refine Bool.eq_iff_iff.2 ?_
  simp

/-- A masked write to a sector that reads poisoned is lost (R90). -/
theorem writeSector_of_bad {d : Die} {sec mask : Nat} {bs : List Byte} (hmask : mask ≠ 2 ^ 32 - 1) (hbad : d.sectorBad sec = true) :
    d.writeSector sec mask bs = d := by
  unfold Die.writeSector
  by_cases hchannel : d.channelOffline (d.channelOf (32 * sec)) = true
  · rw [if_pos hchannel]
  · rw [if_neg hchannel, if_neg hmask, if_pos hbad]

/-- A write of the whole sector. -/
theorem writeSector_full {d : Die} {sec : Nat} {bs : List Byte} (hchannel : d.channelOffline (d.channelOf (32 * sec)) = false) :
    d.writeSector sec (2 ^ 32 - 1) bs =
      { d with mem := memPut d.mem (32 * sec) (2 ^ 32 - 1) bs, poisonSec := d.poisonSec.filter (· != sec),
               zpend := cutRanges d.zpend sec, poisonPending := cutRanges d.poisonPending sec } := by
  unfold Die.writeSector
  rw [if_neg (Bool.eq_false_iff.1 hchannel), if_pos rfl]

theorem bit_full {k : Nat} (hk : k < 32) : bit (2 ^ 32 - 1) k = true := by
  rw [bit, Nat.testBit_two_pow_sub_one]
  exact decide_eq_true hk

theorem memBytes_memPut_full {m : List Host.Cell} (hm : Memory.wf m = true) (a : Nat) {bs : List Byte} (hbs : bs.length = 32) :
    memBytes (memPut m a (2 ^ 32 - 1) bs) a 32 = bs := by
  unfold memBytes
  refine List.ext_getElem (by simp [hbs]) fun i hi hi' => ?_
  have hi32 : i < 32 := by omega
  rw [List.getElem_map, List.getElem_range, memGet_memPut _ _ hm, Nat.add_sub_cancel_left,
    if_pos ⟨Nat.le_add_right .., by omega, bit_full hi32⟩, getD_eq_getElem_of_lt _ hi']

/-- Settles O52: a lost write, a write of the whole sector, and a ZERO, by the lists that say which sectors are poisoned or zero. -/
theorem poisonSectors : Obligations.PoisonSectors := by
  intro d sec mask bs hm hbs hbad hchannel
  have hsec : 32 * sec / 32 = sec := Nat.mul_div_cancel_left sec (by decide)
  refine ⟨fun hmask => writeSector_of_bad hmask hbad, ?_, ?_, ?_, ?_⟩
  · rw [writeSector_full hchannel]
    refine (sectorBad_false_iff ..).2 ⟨hchannel, ?_, ?_⟩
    · rw [contains_filter_ne, bne_self_eq_false, Bool.and_false]
    · rw [inRanges_cutRanges, bne_self_eq_false, Bool.and_false]
  · rw [writeSector_full hchannel]
    unfold Die.sectorBytes
    dsimp only
    rw [inRanges_cutRanges, bne_self_eq_false, Bool.and_false, if_neg Bool.false_ne_true, memBytes_memPut_full hm _ hbs]
  · refine (sectorBad_false_iff ..).2 ⟨hchannel, ?_, ?_⟩
    · refine Bool.eq_false_iff.2 fun h => ?_
      have hmem := List.contains_iff_mem.1 h
      obtain ⟨-, hout⟩ := List.mem_filter.1 hmem
      rw [hsec, show (32 * sec + 32) / 32 = sec + 1 by omega] at hout
      simp at hout
    · change inRanges (cutSpan d.poisonPending (32 * sec / 32) (32 / 32)) sec = false
      rw [hsec]
      exact inRanges_cutSpan_self _ _
  · unfold Die.sectorBytes
    have hzero : inRanges (d.zeroRange (32 * sec) 32).zpend sec = true := by
      change inRanges (cutSpan d.zpend (32 * sec / 32) (32 / 32) ++ [(32 * sec / 32, 32 / 32)]) sec = true
      rw [inRanges_append, hsec]
      refine Bool.or_eq_true_iff.2 (.inr ((inRanges_iff ..).2 ⟨_, List.mem_cons_self, Nat.le_refl _, ?_⟩))
      exact Nat.lt_succ_self sec
    rw [if_pos hzero]

open Sys2Proof.Claims

/-! ## Steps of one sector of memory -/

/-- A step changes one sector of memory at most, and keeps the memory canonical. -/
structure Die.SectorStep (sec : Nat) (d e : Die) : Prop where
  wf : Memory.wf e.mem = true
  bytes : ∀ a, a < 32 * sec ∨ 32 * sec + 32 ≤ a → memGet e.mem a = memGet d.mem a
  bad : ∀ k, k ≠ sec → e.sectorBad k = d.sectorBad k
  zero : ∀ k, k ≠ sec → inRanges e.zpend k = inRanges d.zpend k

theorem Die.SectorStep.refl {sec : Nat} {d : Die} (h : Memory.wf d.mem = true) : Die.SectorStep sec d d :=
  ⟨h, fun _ _ => rfl, fun _ _ => rfl, fun _ _ => rfl⟩

theorem cutRanges_other {rs : List (Nat × Nat)} {x y : Nat} (h : y ≠ x) : inRanges (cutRanges rs x) y = inRanges rs y := by
  rw [inRanges_cutRanges, bne_iff_ne.2 h, Bool.and_true]

theorem sectorBad_congr {d e : Die} {k : Nat} (hconf : e.conf = d.conf) (hpoison : e.poisonSec.contains k = d.poisonSec.contains k)
    (hpending : inRanges e.poisonPending k = inRanges d.poisonPending k) : e.sectorBad k = d.sectorBad k := by
  unfold Die.sectorBad Die.channelOffline Die.channelOf Die.numChannels
  rw [hconf, hpoison, hpending]

theorem Die.poisonSector_sectorStep {d : Die} (h : Memory.wf d.mem = true) (sec : Nat) : Die.SectorStep sec d (d.poisonSector sec) := by
  unfold Die.poisonSector
  split
  · exact .refl h
  · refine ⟨h, fun _ _ => rfl, fun k hk => sectorBad_congr rfl ?_ rfl, fun k hk => cutRanges_other hk⟩
    refine Bool.eq_iff_iff.2 ?_
    rw [List.contains_iff_mem, List.contains_iff_mem, mem_addSector]
    exact or_iff_right hk

/-- The bytes that a masked write of one sector leaves. -/
theorem memGet_memPut_outside {m : List Host.Cell} (hm : Memory.wf m = true) {a mask : Nat} {bs : List Byte} {x : Nat}
    (hx : x < a ∨ a + bs.length ≤ x) : memGet (memPut m a mask bs) x = memGet m x := by
  rw [memGet_memPut _ _ hm, if_neg (by omega)]

theorem Die.writeSector_sectorStep {d : Die} (h : Memory.wf d.mem = true) (sec mask : Nat) {bs : List Byte} (hbs : bs.length = 32) :
    Die.SectorStep sec d (d.writeSector sec mask bs) := by
  unfold Die.writeSector
  by_cases hchannel : d.channelOffline (d.channelOf (32 * sec)) = true
  · rw [if_pos hchannel]
    exact .refl h
  rw [if_neg hchannel]
  by_cases hmask : mask = 2 ^ 32 - 1
  · rw [if_pos hmask]
    refine ⟨memPut_wf _ _ _ _ h, fun a ha => memGet_memPut_outside h (by omega), fun k hk => sectorBad_congr rfl ?_ (cutRanges_other hk),
      fun k hk => cutRanges_other hk⟩
    rw [contains_filter_ne, bne_iff_ne.2 hk, Bool.and_true]
  rw [if_neg hmask]
  by_cases hbad : d.sectorBad sec = true
  · rw [if_pos hbad]
    exact .refl h
  rw [if_neg hbad]
  have hzeroed : Memory.wf (if inRanges d.zpend sec then zeroSectorBytes d.mem sec else d.mem) = true
      ∧ ∀ a, a < 32 * sec ∨ 32 * sec + 32 ≤ a →
        memGet (if inRanges d.zpend sec then zeroSectorBytes d.mem sec else d.mem) a = memGet d.mem a := by
    split
    · exact ⟨zeroSectorBytes_wf _ _ h, fun a ha => memGet_memPut_outside h (by rwa [List.length_replicate])⟩
    · exact ⟨h, fun _ _ => rfl⟩
  refine ⟨memPut_wf _ _ _ _ hzeroed.1, fun a ha => ?_, fun k hk => sectorBad_congr rfl rfl rfl, fun k hk => cutRanges_other hk⟩
  exact (memGet_memPut_outside hzeroed.1 (by rwa [hbs])).trans (hzeroed.2 a ha)

/-- A byte that the mask names, of a sector that does not read poisoned, is in memory, and no zero is pending. -/
theorem writeSector_byte {d : Die} (h : Memory.wf d.mem = true) {sec mask : Nat} {bs : List Byte} (hgood : d.sectorBad sec = false) {k : Nat}
    (hk : k < bs.length) (hbit : bit mask k = true) :
    memGet (d.writeSector sec mask bs).mem (32 * sec + k) = bs.getD k 0 ∧ inRanges (d.writeSector sec mask bs).zpend sec = false := by
  have hput : ∀ m : List Host.Cell, Memory.wf m = true → memGet (memPut m (32 * sec) mask bs) (32 * sec + k) = bs.getD k 0 := by
    intro m hm
    rw [memGet_memPut _ _ hm, Nat.add_sub_cancel_left, if_pos ⟨Nat.le_add_right .., by omega, hbit⟩]
  have hcut : inRanges (cutRanges d.zpend sec) sec = false := by rw [inRanges_cutRanges, bne_self_eq_false, Bool.and_false]
  obtain ⟨hchannel, -, -⟩ := (sectorBad_false_iff ..).1 hgood
  unfold Die.writeSector
  rw [if_neg (Bool.eq_false_iff.1 hchannel)]
  by_cases hmask : mask = 2 ^ 32 - 1
  · rw [if_pos hmask]
    exact ⟨hput _ h, hcut⟩
  · rw [if_neg hmask, if_neg (Bool.eq_false_iff.1 hgood)]
    refine ⟨hput _ ?_, hcut⟩
    split
    · exact zeroSectorBytes_wf _ _ h
    · exact h

/-! ## Write-back of a line (R80, R436) -/

theorem Die.writeBackSector_sectorStep {d : Die} (h : Memory.wf d.mem = true) (l : L2Line) (i : Nat) :
    Die.SectorStep (l.line / 32 + i) d (d.writeBackSector l i) := by
  unfold Die.writeBackSector
  dsimp only
  split
  · exact .refl h
  · split
    · exact d.poisonSector_sectorStep h _
    · split
      · exact d.writeSector_sectorStep h _ _ (length_toBytes ..)
      · exact d.writeSector_sectorStep h _ _ (length_toBytes ..)

theorem testBit_bits {x i k : Nat} (hk : k < 32) : (bits x (32 * i + 31) (32 * i)).testBit k = x.testBit (32 * i + k) := by
  rw [bits_eq_div_mod, show 32 * i + 31 + 1 - 32 * i = 32 by omega, Nat.testBit_mod_two_pow, decide_eq_true hk, Bool.true_and,
    Nat.testBit_div_two_pow, Nat.add_comm]

/-- A dirty byte of a sector that is not marked poison, whose sector of memory is good, is written back. -/
theorem writeBackSector_byte {d : Die} (h : Memory.wf d.mem = true) {l : L2Line} {i k : Nat} (hk : k < 32)
    (hdirty : l.dirty.toNat.testBit (32 * i + k) = true) (hvalid : l.valid.toNat.testBit (32 * i + k) = true)
    (hmark : l.mark.toNat.testBit i = false) (hgood : d.sectorBad (l.line / 32 + i) = false) :
    memGet (d.writeBackSector l i).mem (32 * (l.line / 32 + i) + k) = (l.byte (32 * i + k)).1
      ∧ inRanges (d.writeBackSector l i).zpend (l.line / 32 + i) = false := by
  have hdirtyBit : (bits l.dirty.toNat (32 * i + 31) (32 * i)).testBit k = true := by rw [testBit_bits hk, hdirty]
  have hvalidBit : (bits l.valid.toNat (32 * i + 31) (32 * i)).testBit k = true := by rw [testBit_bits hk, hvalid]
  have hbyte : (toBytes 32 (l.data.toNat / 2 ^ (256 * i))).getD k 0 = (l.byte (32 * i + k)).1 := by
    rw [getD_toBytes _ hk, Nat.div_div_eq_div_mul, show (256 : Nat) * i = 8 * (32 * i) by omega, Nat.pow_mul, ← Nat.pow_add]
    rfl
  have hdirty0 : bits l.dirty.toNat (32 * i + 31) (32 * i) ≠ 0 := fun h0 => by
    rw [h0, Nat.zero_testBit] at hdirtyBit
    cases hdirtyBit
  unfold Die.writeBackSector
  dsimp only
  rw [if_neg hdirty0, if_neg (Bool.eq_false_iff.1 hmark), ← hbyte]
  split
  · exact writeSector_byte h hgood (by rwa [length_toBytes]) hvalidBit
  · refine writeSector_byte h hgood (by rwa [length_toBytes]) ?_
    exact (Nat.testBit_and ..).trans (by rw [hdirtyBit, hvalidBit, Bool.and_self])

/-- A committed line that leaves its slice leaves the L2 and the L1s, then its two sectors are written back. -/
theorem evict_eq_writeBack (d : Die) {l : L2Line} (hnode : l.node = none) (hpres : l.pres = none) :
    ∃ x : Die, d.evict l = (x.writeBackSector l 0).writeBackSector l 1 ∧ x.mem = d.mem ∧ x.sectorBad = d.sectorBad ∧ x.zpend = d.zpend := by
  unfold Die.evict Die.evictWith
  rw [hnode, hpres]
  cases l.l1 with
  | true => exact ⟨_, rfl, rfl, rfl, rfl⟩
  | false => exact ⟨_, rfl, rfl, rfl, rfl⟩

/-- Settles O49: each of the line's two sectors is written by its own step, which leaves the other. -/
theorem evictWritesBack : Obligations.EvictWritesBack := by
  intro d l hm hnode hpres hline
  obtain ⟨x, hx, hmem, hbad, hzero⟩ := evict_eq_writeBack d hnode hpres
  rw [hx]
  have hfirst := x.writeBackSector_sectorStep (hmem ▸ hm) l 0
  have hsecond := (x.writeBackSector l 0).writeBackSector_sectorStep hfirst.wf l 1
  rw [Nat.add_zero] at hfirst
  have hlow : 32 * (l.line / 32) = l.line := by omega
  refine ⟨fun i hi hdirty hvalid hmark hgood => ?_, fun a ha => ?_, fun k hk hk' => ?_⟩
  · by_cases hi32 : i < 32
    · have hi0 : i / 32 = 0 := Nat.div_eq_of_lt hi32
      rw [hi0] at hmark hgood ⊢
      have hbyte := writeBackSector_byte (d := x) (l := l) (i := 0) (hmem ▸ hm) hi32 (by simpa using hdirty) (by simpa using hvalid) hmark
        (by rw [hbad]; exact hgood)
      rw [Nat.mul_zero, Nat.zero_add, Nat.add_zero, hlow] at hbyte
      rw [Nat.add_zero, hsecond.bytes _ (by omega), hsecond.zero _ (by omega)]
      exact hbyte
    · have hi1 : i / 32 = 1 := by omega
      obtain ⟨k, rfl⟩ : ∃ k, i = 32 * 1 + k := ⟨i - 32, by omega⟩
      rw [hi1] at hmark hgood ⊢
      have hbyte := writeBackSector_byte (d := x.writeBackSector l 0) (l := l) (i := 1) hfirst.wf (by omega) hdirty hvalid hmark
        (by rw [hfirst.bad _ (by omega), hbad]; exact hgood)
      rw [show 32 * (l.line / 32 + 1) + k = l.line + (32 * 1 + k) by omega] at hbyte
      exact hbyte
  · rw [hsecond.bytes _ (by omega), hfirst.bytes _ (by omega), hmem]
  · rw [hsecond.bad _ hk', hsecond.zero _ hk', hfirst.bad _ hk, hfirst.zero _ hk, hbad, hzero]
    exact ⟨rfl, rfl⟩

open Sys2Proof.Claims

/-! ## A store to the staging reserve (R82) -/

/-- The line at 64, of which node 1 has a tentative copy in place 0 of the staging reserve. -/
def stagedLine : LineRef := ⟨64, .engine, none⟩

/-- A die after its first boot, but that its node 1 keeps that copy. -/
def reserveDie : Die :=
  let d := Die.boot 0 0
  let node : Node := { (default : Node) with nid := 1, tent := [⟨64, .engine, none, 0xFFFFFFFFFFFFFFFF, 0, 0⟩] }
  { d with sched := { d.sched with nodes := [node] } }

/-- The line at place 0 itself. -/
def placeLine : LineRef := ⟨reserveDie.placeAddr 0, .engine, none⟩

/-- Node 2 stores there. -/
def reserveStore : Die := reserveDie.storeLine ⟨0, 0, 0, 2, 0⟩ placeLine [(0, 0xFF)]

theorem lineByte_reserveDie : lineByte reserveDie 1 stagedLine 0 = some 0 := by decide +kernel

theorem lineByte_reserveStore : lineByte reserveStore 1 stagedLine 0 = some 0xFF := by decide +kernel

/-- Refutes O48: the premises let the line lie in the staging reserve. A store to the line at a place of the reserve changes what the
node whose tentative copy stands in that place reads of another line (R82). -/
theorem not_lineStoreFrame : ¬ Obligations.LineStoreFrame := by
  intro h
  have hroom : roomFor reserveDie placeLine :=
    ⟨0, 1, by decide, by decide, by decide, fun l hl => absurd hl (List.not_mem_nil)⟩
  have hplaces : placesApart reserveDie 2 := fun n hn => by cases hn
  obtain ⟨hframe, -⟩ := h reserveDie ⟨0, 0, 0, 2, 0⟩ placeLine [(0, 0xFF)] ⟨rfl, rfl, by decide⟩ (by decide) (.inl hroom) hplaces
  have hsame := hframe 1 stagedLine 0 ⟨rfl, rfl, by decide⟩ (by decide) fun hline => absurd hline.2.1 (by decide)
  have hread : lineByte reserveStore 1 stagedLine 0 = lineByte reserveDie 1 stagedLine 0 := hsame
  rw [lineByte_reserveDie, lineByte_reserveStore] at hread
  exact absurd hread (by decide)

open Sys2Proof.Claims

/-! ## ST through an extent that lies in the staging reserve (R53, R82) -/

/-- ST.b of v2 at the address 0x10000. -/
def reserveWord : RegWord := ⟨⟨false, 7⟩, 0, .v 0, .lit, .v 0, .v 2, 0, some 0x10000⟩

/-- The extents of a group whose one extent, of mode RW, lies from place 0 of the staging reserve on. -/
def reserveExt : ExtTable := ⟨[⟨1, false, 0, 0x10000, 0x10000⟩], [], [⟨0x10000, 0x10000, placeLine.addr, 0, 1, .engine⟩]⟩

/-- The machine after reset with one group of one thread that has these extents; another node, 1, has a copy in place 0, whose line stands
in its slice. -/
def reserveLab : State :=
  { State.reset.withFetchWord 64 0 with cur := ⟨0, 0, 0, 0⟩ }.modDie 0 fun d =>
    let group := fun (g : Group) => { g with threads := g.threads.take 1, ctx := { g.ctx with ext := reserveExt } }
    let d := { d with groups := d.groups.map group, sched := { d.sched with nodes := d.sched.nodes ++ reserveDie.sched.nodes } }
    d.storeLine ⟨0, 0, 0, 2, 0⟩ placeLine [(0, 0xFF)]

/-- What an issue gives where the checks pass. -/
def Issue.running : Issue → Option (Job × State)
  | .run j t => some (j, t)
  | _ => none

theorem Issue.eq_run_of_running {x : Issue} {j : Job} {t : State} (h : x.running = some (j, t)) : x = .run j t := by
  cases x with
  | run j' t' => cases h; rfl
  | _ => cases h

/-- What node 1 reads of the byte of its own line after a step. -/
def readAfter (o : Host.Outcome State Fault Refusal) : Option Byte :=
  match o with
  | .next n => lineByte (n.die 0) 1 stagedLine 0
  | _ => none

/-- The word stores in place, at place 0 alone, and the byte that node 1 reads of its own line goes from 0xFF to 0. -/
theorem reserveLab_stores : (checksOf (.stB reserveWord) reserveLab).running.any (fun x =>
    let p := storePlaces x.1 x.2 1
    granted (checked x.1 x.2 .store 1 1 x.1.x.lanes (address x.1)) && !hostSees x.1 p.2 1 p.1 && !(p.2.die x.1.d).tentative (x.1.group p.2).node
      && x.1.alive p.2 && (p.1.all fun l => l.spots.all fun k => decide (k = .line placeLine 0)) && decide (x.1.d = 0)
      && ((p.2.die x.1.d).l2Find placeLine).isSome && ((p.2.die x.1.d).tentOf (x.1.group p.2).node placeLine).isNone
      && decide (lineByte (p.2.die x.1.d) 1 stagedLine 0 = some 0xFF) && decide (readAfter (exec (.stB reserveWord) reserveLab) = some 0)) = true := by
  decide +kernel

/-- Refutes O50: nothing in the premises keeps the places of an access out of the staging reserve. An ST.b through an extent that lies
there changes what another node reads of a line of its own, whose tentative copy stands in that place (R82). -/
theorem not_memoryStoreFrame : ¬ Obligations.MemoryStoreFrame := by
  intro h
  obtain ⟨⟨j, t⟩, hrunning, hfacts⟩ := (Option.any_eq_true ..).1 reserveLab_stores
  dsimp only at hfacts
  simp only [Bool.and_eq_true, decide_eq_true_eq, Bool.not_eq_true', Option.isNone_iff_eq_none] at hfacts
  obtain ⟨⟨⟨⟨⟨⟨⟨⟨⟨hgranted, hseen⟩, htentative⟩, halive⟩, hspots⟩, hd⟩, hstands⟩, hcopy⟩, hbefore⟩, hafter⟩ := hfacts
  have hplace : ∀ l ∈ (storePlaces j t 1).1, ∀ k ∈ l.spots, k = .line placeLine 0 := fun l hl k hk =>
    of_decide_eq_true (List.all_eq_true.1 (List.all_eq_true.1 hspots l hl) k hk)
  have hstores : storesInPlace j t 1 := by
    refine ⟨hgranted, hseen, htentative, halive, fun l hl k hk => ?_⟩
    exact ⟨placeLine, 0, hplace l hl k hk, by decide, ⟨rfl, rfl, by decide +kernel⟩, hstands, hcopy⟩
  obtain ⟨n, hexec, -, hframe, -⟩ := h.1 reserveWord (.stB reserveWord, 1) List.mem_cons_self reserveLab j t
    (Issue.eq_run_of_running hrunning) hstores
  have hsame := hframe 1 stagedLine 0 ⟨rfl, rfl, by decide⟩ (by decide) fun l hl k hk => by
    rw [hplace l hl k hk]
    rintro ⟨r, i, hspot, ⟨-, haddr, -⟩, -⟩
    have hr : placeLine = r := (Spot.line.inj hspot).1
    rw [← hr] at haddr
    exact absurd haddr (by decide +kernel)
  rw [hbefore, hd] at hsame
  rw [hexec] at hafter
  have hread : some (0 : Byte) = some 0xFF := hafter.symm.trans hsame
  exact absurd hread (by decide)

end Sys2Proof.Machine
end
